-- ==== Sys2Proof/Word.lean ====
section
/-! DEFINITION. The word types of the device and the shapes of its register maps (00_scope.md, "Conventions", R5–R8, R19). -/

namespace Sys2Proof

/-- A control-space register, a general register: 64 bits (R19, R187). -/
abbrev Word := BitVec 64

/-- One byte of memory or of a message. -/
abbrev Byte := BitVec 8

/-- One 64-byte line, the unit of coherence (R60). -/
abbrev Line := BitVec 512

/-- A sparse table: keys strictly rising, and no entry equal to what an unlisted key reads as. -/
abbrev Tbl (α : Type) := List (Nat × α)

namespace Machine

/-- One field of one control-space register: the register's address, the field's low bit and width, and the cold
value of the WHOLE register, which a register that nothing has written reads as. -/
structure FRef where
  addr : Nat
  lo : Nat
  w : Nat
  cold : Nat
  deriving DecidableEq, Repr

/-- The access codes of 00_scope.md, with `clr` for a field "written 0 to clear" (R436) and `set` for a lock that
software can only set. -/
inductive Acc where
  | ro | rw | rwl | w1c | wo | clr | set
  deriving DecidableEq, Repr

/-- One field of a register map: low bit, width, access code, whether warm reset keeps it, and the range of values
its table does not mark reserved (R7), where it marks any. -/
structure FieldDesc where
  lo : Nat
  w : Nat
  acc : Acc
  keep : Bool
  legal : Option (Nat × Nat)
  deriving DecidableEq, Repr

/-- One register map: the address of register `(n, i)` is `base + n * s1 + i * s2` for `n < n1` and `i < n2`. -/
structure RegDesc where
  name : String
  base : Nat
  s1 : Nat
  n1 : Nat
  s2 : Nat
  n2 : Nat
  cold : Nat
  flds : List FieldDesc
  deriving DecidableEq, Repr

end Machine

end Sys2Proof
end

