-- ==== Sys2Proof/Syntax.lean ====
section
/-! DEFINITION. The commands of the device: one constructor of `Instr` per row of spec/opcode_table.json, with the
operands its rule gives it, and the shapes of those operands. -/

namespace Sys2Proof

/-- A strand: sorus × 32 + logical Frond × 4 + strand (R161). -/
abbrev StrandIx := Fin 1024

/-- Format A (R189): destination and two sources. -/
structure FA where
  rd : BitVec 5
  ra : BitVec 5
  rb : BitVec 5
  deriving DecidableEq, Repr

/-- Format A with the amount of a shift or bit-field instruction in fn[10:5] and fn's low bits fixed (R199). -/
structure FS where
  rd : BitVec 5
  ra : BitVec 5
  rb : BitVec 5
  amt : BitVec 6
  deriving DecidableEq, Repr

/-- Format I (R189). -/
structure FI where
  rd : BitVec 5
  ra : BitVec 5
  imm : BitVec 16
  deriving DecidableEq, Repr

/-- Format M (R189). -/
structure FM where
  rd : BitVec 5
  ra : BitVec 5
  sz : BitVec 2
  disp : BitVec 14
  deriving DecidableEq, Repr

/-- Format B (R189). -/
structure FB where
  ra : BitVec 5
  disp : BitVec 21
  deriving DecidableEq, Repr

/-- Format X (R189). -/
structure FX where
  rd : BitVec 5
  ra : BitVec 5
  rb : BitVec 5
  rc : BitVec 5
  deriving DecidableEq, Repr

/-- Format Q (R189). -/
structure FQ where
  rd : BitVec 5
  ra : BitVec 5
  ch : BitVec 8
  deriving DecidableEq, Repr

/-- A coherence message (R72): its common fields, and every further field its code may carry. `src` and `dst` are a
3-bit device and a 10-bit agent. -/
structure Msg where
  op : BitVec 6
  src : BitVec 13 := 0
  dst : BitVec 13 := 0
  tag : BitVec 12 := 0
  addr : BitVec 46 := 0
  slice : BitVec 12 := 0
  priv : Bool := false
  data : Line := 0
  psn : Bool := false
  mask : BitVec 64 := 0
  why : BitVec 4 := 0
  aop : BitVec 4 := 0
  sz : Bool := false
  place : BitVec 2 := 0
  acq : Bool := false
  rel : Bool := false
  off : BitVec 3 := 0
  opa : Word := 0
  opb : Word := 0
  old : Word := 0
  res : BitVec 2 := 0
  req : BitVec 13 := 0
  new : BitVec 2 := 0
  wb : BitVec 2 := 0
  cnt : BitVec 4 := 0
  deriving DecidableEq, Repr

/-- The MetaValue of a CXL.mem request (R70). -/
inductive CxlMeta where
  | i | s | a
  deriving DecidableEq, Repr

/-- A host's CXL.mem request: its tag, logical device, host physical address and MetaValue, and a write's data. -/
structure CxlReq where
  tag : BitVec 16
  ld : BitVec 4
  hpa : BitVec 52
  mv : CxlMeta := .i
  data : Line := 0
  mask : BitVec 64 := 0
  deriving DecidableEq, Repr

/-- A host's memory request on BAR2 of a PCIE port (R129): a byte offset and a length. -/
structure PcieReq where
  tag : BitVec 10
  off : BitVec 46
  len : BitVec 13
  deriving DecidableEq, Repr

/-- The AtomicOps of a PCIE port (R130): those it performs on BAR2, a CAS of 128 bits, and any of them on BAR0. -/
inductive PcieAop where
  | fetchAdd | swap | cas | cas128 | bar0
  deriving DecidableEq, Repr

/-- A host's write into its MSI-X structures (R380, R381): one table entry, the function's control bits, or the
notification fields of the frame DVSEC, which name an entry of the frame 0 table (R132, R133). -/
inductive MsixWrite where
  | entry (i : Fin 16) (addr : Word) (data : BitVec 32) (mask : Bool)
  | ctrl (enable fmask : Bool)
  | notify (vec : Fin 16) (en : Bool)
  deriving DecidableEq, Repr

/-- What the partner of a training link shows (R134, R135): a kind that the port's profile lists and flit mode, one without flit
mode, or a kind that the profile does not list. -/
inductive LinkPartner where
  | flit | noFlit | unlisted
  deriving DecidableEq, Repr

/-- A page that retirement has read (R103): its stack, and the lines of it that read uncorrectable. -/
structure PageRead where
  stack : Fin 4
  bad : BitVec 64
  deriving DecidableEq, Repr

/-- The payload of a CTRL flit after its CODE (R151). -/
structure LinkCtl where
  width : BitVec 8
  dev : BitVec 8
  port : BitVec 8
  action : BitVec 8
  aseq : BitVec 8
  lmask : BitVec 16
  deriving DecidableEq, Repr

/-- An atomic instruction's registers and the variable fields of its function field (R208): PLACE, ACQ, REL, SZ, and the
two bits that must be 0. -/
structure FAt where
  rd : BitVec 5
  ra : BitVec 5
  rb : BitVec 5
  place : BitVec 2
  acq : Bool
  rel : Bool
  z6 : Bool
  sz : Bool
  z0 : Bool
  deriving DecidableEq, Repr

/-- The path on which the darkroom receives an EMP message (R367): MCTP on I3C, FM's mailbox registers, the fabric engine's
side of the mailbox; `dr` for a message that the darkroom itself sends. -/
inductive EmpPath where
  | oob | fm | fe | dr
  deriving DecidableEq, Repr

/-- An EMP message (R366) but its OP: the path it comes on, VER, RSP, SOM and EOM, the reserved bits of its header, STATUS,
TAG, SRC and DST by device and endpoint, and the payload; LEN is the payload's length. -/
structure Emp where
  path : EmpPath
  ver : BitVec 4 := 1
  rsp : Bool := false
  whole : Bool := true
  rsv : Bool := false
  status : Byte := 0
  tag : Byte := 0
  src : BitVec 6
  dst : BitVec 6
  payload : List Byte := []
  deriving DecidableEq, Repr

/-- An SPDM request (R352): the transport it comes by (0 the I3C bus, 1 + p the DOE mailbox of port p), its sender's endpoint
and tag, the session it is protected by, its version byte, parameters and the rest of it. -/
structure SpdmReq where
  path : Fin 97
  src : Byte
  tag : BitVec 3
  ses : Option (BitVec 32) := none
  ver : Byte := 0x13
  p1 : Byte := 0
  p2 : Byte := 0
  body : List Byte := []
  deriving DecidableEq, Repr

/-- An MCTP control request (R364): its transport, sender, tag, instance number and data. -/
structure MctpReq where
  path : Fin 97
  src : Byte
  tag : BitVec 3
  inst : BitVec 5
  data : List Byte := []
  deriving DecidableEq, Repr

-- BEGIN INSTR
/-- The commands of the device: one constructor per row of spec/opcode_table.json, in its order. -/
inductive Instr where
  /-- PWROK_DEASSERT (R399). -/
  | pwrokDeassert
  /-- PWROK_ASSERT (R346). -/
  | pwrokAssert (strap : BitVec 4)
  /-- STANDBY_RAILS_VALID (R400). -/
  | standbyRailsValid (strap : BitVec 2)
  /-- VAUX_LOST (R326). -/
  | vauxLost
  /-- RAIL_VALID (R396). -/
  | railValid (r : Fin 11) (v : Nat)
  /-- RAIL_FAULT (R398). -/
  | railFault (r : Fin 11) (v : Nat)
  /-- FD_RELEASE (R346). -/
  | fdRelease
  /-- HBM_READY (R346). -/
  | hbmReady (k : Fin 4)
  /-- BOOT_START (R169). -/
  | bootStart
  /-- RESET_N_ASSERT (R401). -/
  | resetNAssert
  /-- WARM_RESET_RELEASE (R401). -/
  | warmResetRelease (safeLow : Bool)
  /-- DARKROOM_WATCHDOG (R409). -/
  | darkroomWatchdog
  /-- THERMAL_CRITICAL (R413). -/
  | thermalCritical (k : Fin 11) (tj : BitVec 11)
  /-- THERMAL_TRIP (R413). -/
  | thermalTrip (k : Fin 11) (tj : BitVec 11)
  /-- THROTTLE_STEP (R414). -/
  | throttleStep (tj : List (BitVec 11))
  /-- SAFE_N_EXTERNAL_LOW (R357). -/
  | safeNExternalLow
  /-- TIME_PPS_EDGE (R359). -/
  | timePpsEdge
  /-- PPS_LOSS (R359). -/
  | ppsLoss
  /-- SHUTTER_IN_EDGE (R358). -/
  | shutterInEdge (delay : Nat)
  /-- SHUTTER_TIMER (R387). -/
  | shutterTimer
  /-- SNAPSHOT_COMPLETE (R387). -/
  | snapshotComplete
  /-- SHEET_DUMP (R390). -/
  | sheetDump (k : Fin 16)
  /-- EVENT_DELIVERY (R378). -/
  | eventDelivery (k : Fin 1024)
  /-- CSP_REGISTER_WRITE (R19). -/
  | cspRegisterWrite (a : Word) (v : Word)
  /-- CSPRD (R251). -/
  | csprd (t : StrandIx) (f : FX)
  /-- CSPWR (R251). -/
  | cspwr (t : StrandIx) (f : FX)
  /-- BAR0_READ (R437). -/
  | bar0Read (p : Fin 96) (off : BitVec 24) (n : Nat)
  /-- BAR0_WRITE (R23). -/
  | bar0Write (p : Fin 96) (off : BitVec 24) (bs : List Byte)
  /-- MSIX_TABLE_WRITE (R380). -/
  | msixTableWrite (p : Fin 96) (k : Fin 16) (x : MsixWrite)
  /-- BI_DECODER_COMMIT (R131). -/
  | biDecoderCommit (p : Fin 96) (k : Fin 16)
  /-- BI_DECODER_UNCOMMIT (R131). -/
  | biDecoderUncommit (p : Fin 96) (k : Fin 16)
  /-- MEMRD (R70). -/
  | memrd (p : Fin 96) (r : CxlReq)
  /-- MEMRDDATA (R70). -/
  | memrddata (p : Fin 96) (r : CxlReq)
  /-- MEMWR (R70). -/
  | memwr (p : Fin 96) (r : CxlReq)
  /-- MEMWRPTL (R70). -/
  | memwrptl (p : Fin 96) (r : CxlReq)
  /-- MEMCLNEVCT (R70). -/
  | memclnevct (p : Fin 96) (r : CxlReq)
  /-- BIRSPI (R70). -/
  | birspi (p : Fin 96) (ln : BitVec 46)
  /-- BIRSPS (R70). -/
  | birsps (p : Fin 96) (ln : BitVec 46)
  /-- BIRSPE (R70). -/
  | birspe (p : Fin 96) (ln : BitVec 46)
  /-- PCIE_MEMORY_READ (R130). -/
  | pcieMemoryRead (p : Fin 96) (r : PcieReq)
  /-- PCIE_MEMORY_WRITE (R130). -/
  | pcieMemoryWrite (p : Fin 96) (off : BitVec 46) (bs : List Byte)
  /-- PCIE_ATOMICOP (R439). -/
  | pcieAtomicop (p : Fin 96) (tag : BitVec 10) (o : PcieAop) (sz : Bool) (off : BitVec 46) (a : Word) (b : Word)
  /-- BISNP_TIMEOUT (R75). -/
  | bisnpTimeout (p : Fin 96) (ln : BitVec 46)
  /-- RDS (R68). -/
  | rds (m : Msg) (err : BitVec 560)
  /-- RDX (R74). -/
  | rdx (m : Msg) (err : BitVec 560)
  /-- UPG (R74). -/
  | upg (m : Msg) (err : BitVec 560)
  /-- RDU (R54). -/
  | rdu (m : Msg) (err : BitVec 560)
  /-- WRU (R74). -/
  | wru (m : Msg)
  /-- WRP (R74). -/
  | wrp (m : Msg) (err : BitVec 560)
  /-- ATOM (R78). -/
  | atom (m : Msg) (err : BitVec 560)
  /-- HOME_REQUEST_DEQUEUE (R58). -/
  | homeRequestDequeue (ln : BitVec 46) (err : BitVec 560)
  /-- SF_WAY_FREE (R66). -/
  | sfWayFree (ln : BitVec 46) (err : BitVec 560)
  /-- PREDICTOR_ENTRY_EXPIRE (R79). -/
  | predictorEntryExpire (n : Fin 64) (k : Fin 4096)
  /-- GNTM (R67). -/
  | gntm (m : Msg)
  /-- CMP_MESSAGE (R72). -/
  | cmpMessage (m : Msg)
  /-- CMPP (R67). -/
  | cmpp (m : Msg)
  /-- WBACK (R67). -/
  | wback (m : Msg)
  /-- DATAS (R67). -/
  | datas (m : Msg)
  /-- DATAE (R67). -/
  | datae (m : Msg)
  /-- DATAM (R67). -/
  | datam (m : Msg)
  /-- DATAU (R72). -/
  | datau (m : Msg)
  /-- DATAA (R77). -/
  | dataa (m : Msg)
  /-- WBM (R59). -/
  | wbm (m : Msg)
  /-- WBO (R53). -/
  | wbo (m : Msg)
  /-- EVICTC (R61). -/
  | evictc (m : Msg)
  /-- SNPS (R67). -/
  | snps (m : Msg)
  /-- SNPI (R67). -/
  | snpi (m : Msg)
  /-- SNPC (R67). -/
  | snpc (m : Msg)
  /-- RSPI (R72). -/
  | rspi (m : Msg)
  /-- RSPS (R72). -/
  | rsps (m : Msg)
  /-- RSPO (R72). -/
  | rspo (m : Msg)
  /-- RSPD (R54). -/
  | rspd (m : Msg)
  /-- RSPIWB (R74). -/
  | rspiwb (m : Msg)
  /-- SNPCNT (R63). -/
  | snpcnt (m : Msg)
  /-- COH_RESERVED_CODE (R73). -/
  | cohReservedCode (m : Msg)
  /-- FBIND (R38). -/
  | fbind (t : StrandIx) (f : FX)
  /-- FBIND_KEEP (R38). -/
  | fbindKeep (t : StrandIx) (f : FX)
  /-- ZEROING_COMPLETE (R38). -/
  | zeroingComplete (k : Fin 524288)
  /-- FUNBIND (R39). -/
  | funbind (t : StrandIx) (f : FX)
  /-- UNBIND_COMPLETE (R39). -/
  | unbindComplete (k : Fin 524288)
  /-- SLSET_CREATE (R40). -/
  | slsetCreate (t : StrandIx) (f : FX)
  /-- SLSET_DESTROY (R40). -/
  | slsetDestroy (t : StrandIx) (f : FX)
  /-- SLSET_ROOT (R40). -/
  | slsetRoot (t : StrandIx) (f : FX)
  /-- SLSET_HOSTOPEN (R40). -/
  | slsetHostopen (t : StrandIx) (f : FX)
  /-- SLSET_HOSTCLOSE (R40). -/
  | slsetHostclose (t : StrandIx) (f : FX)
  /-- SLQUIESCE (R41). -/
  | slquiesce (t : StrandIx) (f : FX)
  /-- SLQUIESCE_ABORT (R43). -/
  | slquiesceAbort (t : StrandIx) (f : FX)
  /-- SLICE_QUIESCED (R42). -/
  | sliceQuiesced (n : Fin 4096)
  /-- QUIESCE_TIMEOUT (R44). -/
  | quiesceTimeout (t : StrandIx)
  /-- SLRESUME (R254). -/
  | slresume (t : StrandIx) (f : FX)
  /-- SLRESET (R45). -/
  | slreset (t : StrandIx) (f : FX)
  /-- XINV_GO (R34). -/
  | xinvGo (v : Word)
  /-- XINV_DONE (R34). -/
  | xinvDone
  /-- HGEN_REQ (R36). -/
  | hgenReq (h : Fin 64)
  /-- GEN_SWAP (R36). -/
  | genSwap (h : Fin 64)
  /-- GEN_DRAINED (R36). -/
  | genDrained (h : Fin 64)
  /-- EXTTBL_WRITE (R405). -/
  | exttblWrite (v : Word)
  /-- DLOG_BUMP (R49). -/
  | dlogBump (n : Fin 4096)
  /-- DLOG_EPOCH_ADOPTED (R49). -/
  | dlogEpochAdopted (n : Fin 4096)
  /-- HOME_RECALL_GO (R92). -/
  | homeRecallGo (n : Fin 64) (v : Word)
  /-- HOME_RECALL_DONE (R92). -/
  | homeRecallDone (n : Fin 64)
  /-- HGMAP_WRITE (R92). -/
  | hgmapWrite (n : Fin 64) (g : Fin 24) (v : Word)
  /-- PRED_CLR (R91). -/
  | predClr (n : Fin 64)
  /-- HBM_RECAL (R101). -/
  | hbmRecal (k : Fin 4) (pc : Fin 32)
  /-- HBM_CAL_NOW (R101). -/
  | hbmCalNow (k : Fin 4)
  /-- HBM_RECAL_DONE (R101). -/
  | hbmRecalDone (k : Fin 4) (pc : Fin 32) (ns : Nat)
  /-- HBM_INTERFACE_FAULT (R102). -/
  | hbmInterfaceFault (k : Fin 4) (pc : Fin 32)
  /-- HBM_RETRAIN_DONE (R102). -/
  | hbmRetrainDone (k : Fin 4) (pc : Fin 32) (ok : Bool)
  /-- RETIRE_AUTO (R103). -/
  | retireAuto (k : Fin 4) (page : BitVec 24)
  /-- RETCFG_GO (R103). -/
  | retcfgGo (k : Fin 4) (v : Word)
  /-- RETIRE_DONE (R103). -/
  | retireDone (r : PageRead)
  /-- SCRUB_READ (R109). -/
  | scrubRead (ln : BitVec 46) (err : BitVec 560) (err2 : BitVec 560)
  /-- EXPANDER_RESPONSE (R118). -/
  | expanderResponse (e : Fin 64) (epoch : BitVec 8) (ln : BitVec 46) (data : Line) (psn : Bool) (wr : Bool)
  /-- HEDGE_TIMEOUT (R114). -/
  | hedgeTimeout (ln : BitVec 46)
  /-- EXPANDER_NO_RESPONSE (R117). -/
  | expanderNoResponse (e : Fin 64)
  /-- PAIR (R111). -/
  | pair (xp : Fin 524288) (xs : Fin 524288)
  /-- UNPAIR (R111). -/
  | unpair (xp : Fin 524288)
  /-- VERIFY_ON (R111). -/
  | verifyOn (xp : Fin 524288)
  /-- VERIFY_OFF (R111). -/
  | verifyOff (xp : Fin 524288)
  /-- ADMIT (R116). -/
  | admitExtent (e : Fin 64)
  /-- RELEASE (R119). -/
  | release (e : Fin 64)
  /-- PART_LOCK (R94). -/
  | partLock (v : Word)
  /-- MIRTBL_WRITE (R371). -/
  | mirtblWrite (v : Word)
  /-- RESIL_GO (R120). -/
  | resilGo (v : Word)
  /-- RESIL_LINE_COPY (R120). -/
  | resilLineCopy (kind : Bool) (k : Fin 64) (err : BitVec 560)
  /-- RESIL_DONE (R120). -/
  | resilDone (kind : Bool) (k : Fin 64)
  /-- PORT_ENABLE (R125). -/
  | portEnable (p : Fin 96) (v : Word)
  /-- PORT_DISABLE (R125). -/
  | portDisable (p : Fin 96) (v : Word)
  /-- PORT_RESET (R160). -/
  | portReset (p : Fin 96) (v : Word)
  /-- LINK_UP (R137). -/
  | linkUp (p : Fin 96) (w : BitVec 3) (rate : BitVec 2) (rev : Bool) (pol : BitVec 16) (lact : BitVec 16) (lwc : Bool) (partner : LinkPartner)
  /-- LINK_DOWN (R136). -/
  | linkDown (p : Fin 96) (noLanes : Bool)
  /-- L0_TIMEOUT (R136). -/
  | l0Timeout (p : Fin 96)
  /-- LANE_FAIL (R153). -/
  | laneFail (p : Fin 96) (l : Fin 16)
  /-- SIGNAL_LOSS (R150). -/
  | signalLoss (p : Fin 96)
  /-- TS1 (R138). -/
  | ts1 (p : Fin 96) (x : BitVec 256)
  /-- TS2 (R138). -/
  | ts2 (p : Fin 96) (x : BitVec 256)
  /-- RTS (R149). -/
  | rts (p : Fin 96) (x : BitVec 256)
  /-- ADD_ORDERED_SET (R151). -/
  | addOrderedSet (p : Fin 96) (x : BitVec 256)
  /-- FLIT_RECEIVE (R147). -/
  | flitReceive (p : Fin 96) (x : BitVec 1024)
  /-- CREDIT (R145). -/
  | credit (p : Fin 96) (vc : Fin 7) (n : BitVec 6)
  /-- LREQ (R151). -/
  | lreq (p : Fin 96) (c : LinkCtl)
  /-- LACK (R151). -/
  | lack (p : Fin 96) (c : LinkCtl)
  /-- LSWITCH (R151). -/
  | lswitch (p : Fin 96) (c : LinkCtl)
  /-- CREDIT_CTRL_SEND (R145). -/
  | creditCtrlSend (p : Fin 96)
  /-- ACK_TIMEOUT (R148). -/
  | ackTimeout (p : Fin 96)
  /-- CREDIT_TIMEOUT (R146). -/
  | creditTimeout (p : Fin 96) (vc : Fin 7)
  /-- RETRAIN_TIMEOUT (R149). -/
  | retrainTimeout (p : Fin 96)
  /-- RETRAIN_WATCH_EXPIRE (R149). -/
  | retrainWatchExpire (p : Fin 96)
  /-- WIDTH_CHANGE_TIMEOUT (R151). -/
  | widthChangeTimeout (p : Fin 96)
  /-- LINK_CAL_PERIOD (R154). -/
  | linkCalPeriod (p : Fin 96)
  /-- LINK_CAL_NOW (R154). -/
  | linkCalNow (p : Fin 96)
  /-- EYE_SWEEP (R154). -/
  | eyeSweep (p : Fin 96) (l : Fin 16) (hm : BitVec 6) (vm : BitVec 8)
  /-- HALF_RECAL_DONE (R154). -/
  | halfRecalDone (p : Fin 96)
  /-- PATH_REISSUE (R157). -/
  | pathReissue (v : Fin 8)
  /-- PATH_LOST (R159). -/
  | pathLost (m : Msg)
  /-- DUP_ENTRY_EXPIRE (R158). -/
  | dupEntryExpire (src : BitVec 13) (tag : BitVec 12)
  /-- DISPATCH_MANAGER (R278). -/
  | dispatchManager (t : StrandIx)
  /-- DISPATCH_WINDOW (R164). -/
  | dispatchWindow (n : BitVec 12) (w : BitVec 6) (t : StrandIx)
  /-- DISPATCH_START_CHANNEL (R179). -/
  | dispatchStartChannel (n : Fin 32) (c : BitVec 8) (t : StrandIx)
  /-- DISPATCH_SQ (R266). -/
  | dispatchSq (n : BitVec 12) (q : Fin 8) (t : StrandIx)
  /-- LOAD (R171). -/
  | load (n : Fin 32) (index : BitVec 10) (dest : BitVec 14) (loc : Bool) (slo : BitVec 12) (shi : BitVec 12)
  /-- LOAD_COMPLETE (R171). -/
  | loadComplete (n : Fin 32)
  /-- LOAD_MEASURE_TIMEOUT (R171). -/
  | loadMeasureTimeout (n : Fin 32)
  /-- UNLOAD (R172). -/
  | unload (n : Fin 32) (index : BitVec 10)
  /-- CHCFG_WRITE (R178). -/
  | chcfgWrite (n : Fin 32) (c : BitVec 8) (v : Word)
  /-- CHPUT (R174). -/
  | chput (t : StrandIx) (f : FQ) (ind : Bool)
  /-- CHPUT_CREDIT_RESUME (R174). -/
  | chputCreditResume (t : StrandIx)
  /-- CHTRY (R213). -/
  | chtry (t : StrandIx) (f : FQ) (ind : Bool)
  /-- CHGET (R175). -/
  | chget (t : StrandIx) (f : FQ) (ind : Bool)
  /-- CHGET_W (R215). -/
  | chgetW (t : StrandIx) (f : FQ) (ind : Bool)
  /-- CHGET_W_TIMEOUT (R215). -/
  | chgetWTimeout (t : StrandIx)
  /-- CHMARK (R174). -/
  | chmark (t : StrandIx) (f : FQ) (ind : Bool)
  /-- CHREWIND (R174). -/
  | chrewind (t : StrandIx) (f : FQ) (ind : Bool)
  /-- CHRELEASE (R174). -/
  | chrelease (t : StrandIx) (f : FQ) (ind : Bool)
  /-- CHSKIP (R177). -/
  | chskip (t : StrandIx) (f : FQ) (ind : Bool)
  /-- CHCNT (R213). -/
  | chcnt (t : StrandIx) (f : FQ) (ind : Bool)
  /-- WATCHDOG_HUNG (R182). -/
  | watchdogHung (t : StrandIx)
  /-- FENCE_COMPLETE (R182). -/
  | fenceComplete (n : Fin 32) (i : Fin 9)
  /-- FENCED_SEND_ATTEMPT (R183). -/
  | fencedSendAttempt (n : Fin 32) (i : Fin 9)
  /-- FSWAP (R184). -/
  | fswap (t : StrandIx) (f : FX)
  /-- SWAP_COMPLETE (R184). -/
  | swapComplete (n : Fin 32)
  /-- TROTATE (R185). -/
  | trotate (t : StrandIx) (f : FX)
  /-- SELFTEST_COMPLETE (R185). -/
  | selftestComplete (n : Fin 32) (pass : Bool)
  /-- HALT (R256). -/
  | halt (t : StrandIx) (f : FX)
  /-- HALT_CLR (R256). -/
  | haltClr (t : StrandIx) (f : FX)
  /-- ADD (R196). -/
  | add (t : StrandIx) (f : FA)
  /-- SUB (R196). -/
  | sub (t : StrandIx) (f : FA)
  /-- AND (R196). -/
  | and (t : StrandIx) (f : FA)
  /-- OR (R196). -/
  | or (t : StrandIx) (f : FA)
  /-- XOR (R196). -/
  | xor (t : StrandIx) (f : FA)
  /-- ANDN (R196). -/
  | andn (t : StrandIx) (f : FA)
  /-- SLT (R196). -/
  | slt (t : StrandIx) (f : FA)
  /-- SLTU (R196). -/
  | sltu (t : StrandIx) (f : FA)
  /-- MIN (R196). -/
  | min (t : StrandIx) (f : FA)
  /-- MAX (R196). -/
  | max (t : StrandIx) (f : FA)
  /-- MINU (R196). -/
  | minu (t : StrandIx) (f : FA)
  /-- MAXU (R196). -/
  | maxu (t : StrandIx) (f : FA)
  /-- CMP (R196). -/
  | cmp (t : StrandIx) (f : FA)
  /-- CMPU (R196). -/
  | cmpu (t : StrandIx) (f : FA)
  /-- SELV (R196). -/
  | selv (t : StrandIx) (f : FA)
  /-- GETCF (R196). -/
  | getcf (t : StrandIx) (f : FA)
  /-- SETCF (R196). -/
  | setcf (t : StrandIx) (f : FA)
  /-- RDTIME (R196). -/
  | rdtime (t : StrandIx) (f : FA)
  /-- RDCYC (R196). -/
  | rdcyc (t : StrandIx) (f : FA)
  /-- RDPMC (R196). -/
  | rdpmc (t : StrandIx) (f : FA)
  /-- RDRAND (R196). -/
  | rdrand (t : StrandIx) (f : FA)
  /-- RDID (R196). -/
  | rdid (t : StrandIx) (f : FA)
  /-- ADDI (R197). -/
  | addi (t : StrandIx) (f : FI)
  /-- ANDI (R197). -/
  | andi (t : StrandIx) (f : FI)
  /-- ORI (R197). -/
  | ori (t : StrandIx) (f : FI)
  /-- XORI (R197). -/
  | xori (t : StrandIx) (f : FI)
  /-- CMPI (R197). -/
  | cmpi (t : StrandIx) (f : FI)
  /-- LUI (R198). -/
  | lui (t : StrandIx) (f : FI)
  /-- SLL (R199). -/
  | sll (t : StrandIx) (f : FS)
  /-- SRL (R199). -/
  | srl (t : StrandIx) (f : FS)
  /-- SRA (R199). -/
  | sra (t : StrandIx) (f : FS)
  /-- ROR (R199). -/
  | ror (t : StrandIx) (f : FS)
  /-- SLLI (R199). -/
  | slli (t : StrandIx) (f : FS)
  /-- SRLI (R199). -/
  | srli (t : StrandIx) (f : FS)
  /-- SRAI (R199). -/
  | srai (t : StrandIx) (f : FS)
  /-- RORI (R199). -/
  | rori (t : StrandIx) (f : FS)
  /-- EXTU (R199). -/
  | extu (t : StrandIx) (f : FS)
  /-- EXTS (R199). -/
  | exts (t : StrandIx) (f : FS)
  /-- INS (R199). -/
  | ins (t : StrandIx) (f : FS)
  /-- CLZ (R199). -/
  | clz (t : StrandIx) (f : FS)
  /-- CTZ (R199). -/
  | ctz (t : StrandIx) (f : FS)
  /-- POPC (R199). -/
  | popc (t : StrandIx) (f : FS)
  /-- BSWAP (R199). -/
  | bswap (t : StrandIx) (f : FS)
  /-- MUL (R200). -/
  | mul (t : StrandIx) (f : FA)
  /-- MULH (R200). -/
  | mulh (t : StrandIx) (f : FA)
  /-- MULHU (R200). -/
  | mulhu (t : StrandIx) (f : FA)
  /-- DIV (R200). -/
  | div (t : StrandIx) (f : FA)
  /-- DIVU (R200). -/
  | divu (t : StrandIx) (f : FA)
  /-- REM (R200). -/
  | rem (t : StrandIx) (f : FA)
  /-- REMU (R200). -/
  | remu (t : StrandIx) (f : FA)
  /-- LD (R201). -/
  | ld (t : StrandIx) (f : FM)
  /-- ST (R203). -/
  | st (t : StrandIx) (f : FM)
  /-- LDL (R204). -/
  | ldl (t : StrandIx) (f : FM)
  /-- PREF (R205). -/
  | pref (t : StrandIx) (f : FM)
  /-- BR (R206). -/
  | br (t : StrandIx) (f : FB)
  /-- BZ (R206). -/
  | bz (t : StrandIx) (f : FB)
  /-- BNZ (R206). -/
  | bnz (t : StrandIx) (f : FB)
  /-- BNEG (R206). -/
  | bneg (t : StrandIx) (f : FB)
  /-- CALL (R206). -/
  | call (t : StrandIx) (f : FB)
  /-- JR (R206). -/
  | jr (t : StrandIx) (f : FA)
  /-- AMO_ADD (R209). -/
  | amoAdd (t : StrandIx) (f : FAt)
  /-- AMO_CAS (R209). -/
  | amoCas (t : StrandIx) (f : FAt)
  /-- AMO_SWAP (R209). -/
  | amoSwap (t : StrandIx) (f : FAt)
  /-- AMO_MIN (R209). -/
  | amoMin (t : StrandIx) (f : FAt)
  /-- AMO_MAX (R209). -/
  | amoMax (t : StrandIx) (f : FAt)
  /-- AMO_MINU (R209). -/
  | amoMinu (t : StrandIx) (f : FAt)
  /-- AMO_MAXU (R209). -/
  | amoMaxu (t : StrandIx) (f : FAt)
  /-- AMO_AND (R209). -/
  | amoAnd (t : StrandIx) (f : FAt)
  /-- AMO_OR (R209). -/
  | amoOr (t : StrandIx) (f : FAt)
  /-- AMO_XOR (R209). -/
  | amoXor (t : StrandIx) (f : FAt)
  /-- FENCE (R211). -/
  | fence (t : StrandIx) (f : FA)
  /-- FENCE_R (R211). -/
  | fenceR (t : StrandIx) (f : FA)
  /-- FENCE_W (R211). -/
  | fenceW (t : StrandIx) (f : FA)
  /-- RULESYNC (R340). -/
  | rulesync (t : StrandIx) (f : FA)
  /-- RULESYNC_COMPLETE (R340). -/
  | rulesyncComplete (t : StrandIx)
  /-- HASH_CRC32C (R224). -/
  | hashCrc32c (t : StrandIx) (f : FX) (sz : BitVec 2)
  /-- HASH_CRC64 (R224). -/
  | hashCrc64 (t : StrandIx) (f : FX) (sz : BitVec 2)
  /-- HASH_TOEP (R224). -/
  | hashToep (t : StrandIx) (f : FX) (wide : Bool)
  /-- HASH_SIP_8 (R224). -/
  | hashSip8 (t : StrandIx) (f : FX)
  /-- HASH_SIP_16 (R224). -/
  | hashSip16 (t : StrandIx) (f : FX)
  /-- HASH_SIP_64 (R224). -/
  | hashSip64 (t : StrandIx) (f : FX)
  /-- TRIE_STEP (R226). -/
  | trieStep (t : StrandIx) (f : FX)
  /-- EXM_PROBE (R228). -/
  | exmProbe (t : StrandIx) (f : FX)
  /-- RANGE_CMP (R230). -/
  | rangeCmp (t : StrandIx) (f : FX)
  /-- RANGE_CMP_S (R230). -/
  | rangeCmpS (t : StrandIx) (f : FX)
  /-- CINC (R231). -/
  | cinc (t : StrandIx) (f : FX) (k : BitVec 4)
  /-- CINC_A (R232). -/
  | cincA (t : StrandIx) (f : FX) (k : BitVec 4)
  /-- SKETCH_ADD (R235). -/
  | sketchAdd (t : StrandIx) (f : FX) (k : BitVec 4)
  /-- SKETCH_EST (R235). -/
  | sketchEst (t : StrandIx) (f : FX) (k : BitVec 4)
  /-- METER (R239). -/
  | meter (t : StrandIx) (f : FX)
  /-- ENQ (R242). -/
  | enq (t : StrandIx) (f : FX)
  /-- DEQ (R244). -/
  | deq (t : StrandIx) (f : FX)
  /-- QREL (R242). -/
  | qrel (t : StrandIx) (f : FX)
  /-- QSTAT (R243). -/
  | qstat (t : StrandIx) (f : FX)
  /-- MOVE (R245). -/
  | move (t : StrandIx) (f : FX)
  /-- MOVE_P (R246). -/
  | moveP (t : StrandIx) (f : FX)
  /-- FILL (R245). -/
  | fill (t : StrandIx) (f : FX)
  /-- FILL_P (R246). -/
  | fillP (t : StrandIx) (f : FX)
  /-- MOVE_ENGINE_COMPLETE (R246). -/
  | moveEngineComplete (n : Fin 32) (k : Fin 16) (lines : BitVec 31)
  /-- LCOMP (R248). -/
  | lcomp (t : StrandIx) (f : FX)
  /-- LDECOMP (R248). -/
  | ldecomp (t : StrandIx) (f : FX)
  /-- CQPOST (R216). -/
  | cqpost (t : StrandIx) (f : FX)
  /-- CQPOST_END (R216). -/
  | cqpostEnd (t : StrandIx) (f : FX)
  /-- EVRAISE_SRC (R218). -/
  | evraiseSrc (t : StrandIx) (f : FX)
  /-- EVRAISE_VEC (R218). -/
  | evraiseVec (t : StrandIx) (f : FX)
  /-- WAIT_T (R219). -/
  | waitT (t : StrandIx) (f : FX)
  /-- WAIT_UNTIL (R219). -/
  | waitUntil (t : StrandIx) (f : FX)
  /-- WAIT_CH (R219). -/
  | waitCh (t : StrandIx) (f : FX)
  /-- WAIT_EXPIRE (R219). -/
  | waitExpire (t : StrandIx)
  /-- MPUSET (R337). -/
  | mpuset (t : StrandIx) (f : FX)
  /-- MPULOCK (R339). -/
  | mpulock (t : StrandIx) (f : FX)
  /-- SHUTTER (R255). -/
  | shutter (t : StrandIx) (f : FX)
  /-- SHEETCFG (R389). -/
  | sheetcfg (t : StrandIx) (f : FX)
  /-- SQ_TAIL_DOORBELL (R264). -/
  | sqTailDoorbell (p : Fin 96) (f : BitVec 9) (q : Fin 8) (v : BitVec 32)
  /-- CQ_HEAD_DOORBELL (R265). -/
  | cqHeadDoorbell (p : Fin 96) (f : BitVec 9) (q : Fin 8) (v : BitVec 32)
  /-- SQ_RESTART (R267). -/
  | sqRestart (p : Fin 96) (f : BitVec 9) (q : Fin 8)
  /-- SQ_SKIP (R267). -/
  | sqSkip (p : Fin 96) (f : BitVec 9) (q : Fin 8)
  /-- SQA_WRITE (R279). -/
  | sqaWrite (n : BitVec 12) (q : Fin 8) (v : Word)
  /-- CQA_WRITE (R279). -/
  | cqaWrite (n : BitVec 12) (q : Fin 8) (v : Word)
  /-- WINDOW_COMMAND (R273). -/
  | windowCommand (p : Fin 96) (f : BitVec 9) (w : Fin 64) (x : Line)
  /-- RESULT_SLOT_READ (R275). -/
  | resultSlotRead (p : Fin 96) (f : BitVec 9) (w : Fin 64) (off : BitVec 6) (n : BitVec 7)
  /-- NOT_READY (R275). -/
  | notReady (p : Fin 96) (off : BitVec 24)
  /-- ENQUEUE_COMMAND (R288). -/
  | enqueueCommand (p : Fin 96) (f : BitVec 9) (w : Fin 64) (x : Line)
  /-- RELEASE_COMMAND (R294). -/
  | releaseCommand (p : Fin 96) (f : BitVec 9) (w : Fin 16) (x : Line)
  /-- FRING_HEAD_DOORBELL (R286). -/
  | fringHeadDoorbell (p : Fin 96) (f : BitVec 9) (r : Fin 8) (v : BitVec 32)
  /-- EGRESS_HEAD_DOORBELL (R305). -/
  | egressHeadDoorbell (p : Fin 96) (f : BitVec 9) (e : Fin 32) (v : BitVec 32)
  /-- FRING_REFILL (R285). -/
  | fringRefill (n : Fin 4096) (r : Fin 8) (c : Fin 196608)
  /-- SCHEDULED_DEQUEUE (R299). -/
  | scheduledDequeue
  /-- SHAPER_CREDIT (R302). -/
  | shaperCredit
  /-- SPILL_STEP (R295). -/
  | spillStep (start : BitVec 29)
  /-- REFILL (R296). -/
  | refill (q : BitVec 17) (ue : BitVec 256)
  /-- QM_TABLE_READ (R311). -/
  | qmTableRead (tbl : BitVec 3) (i : BitVec 17)
  /-- QM_TABLE_WRITE (R311). -/
  | qmTableWrite (tbl : BitVec 3) (i : BitVec 17)
  /-- FLUSH (R307). -/
  | flush (tbl : BitVec 3) (i : BitVec 17)
  /-- QM_SPILL_WRITE (R310). -/
  | qmSpillWrite (v : Word)
  /-- QM_GTH_WRITE (R291). -/
  | qmGthWrite (v : Word)
  /-- SLOT_MODE_OFF (R320). -/
  | slotModeOff (n : Fin 24) (port : BitVec 7)
  /-- SLOT_MODE_DIRECT (R319). -/
  | slotModeDirect (n : Fin 24) (port : BitVec 7)
  /-- SLOT_MODE_SEQ (R319). -/
  | slotModeSeq (n : Fin 24) (port : BitVec 7)
  /-- SLOT_LIM_WRITE (R329). -/
  | slotLimWrite (n : Fin 24) (vth : Bool) (v : Word)
  /-- SLOT_PRESENCE_CHANGE (R324). -/
  | slotPresenceChange (n : Fin 24)
  /-- SLOT_SAMPLE (R314). -/
  | slotSample (n : Fin 24) (i : BitVec 11) (vin : BitVec 14) (vout : BitVec 14) (vgate : BitVec 15)
  /-- FAST_TRIP (R316). -/
  | fastTrip (n : Fin 24)
  /-- FAULT_TMR (R316). -/
  | faultTmr (n : Fin 24)
  /-- RAMP_TMR (R316). -/
  | rampTmr (n : Fin 24)
  /-- PGQUAL_DONE (R317). -/
  | pgqualDone (n : Fin 24)
  /-- PERST_RELEASE (R317). -/
  | perstRelease (n : Fin 24)
  /-- INSERT_DONE (R321). -/
  | insertDone (n : Fin 24)
  /-- RETRY_DONE (R323). -/
  | retryDone (n : Fin 24)
  /-- ABSENCE_DONE (R324). -/
  | absenceDone (n : Fin 24)
  /-- STOPPING_DONE (R318). -/
  | stoppingDone (n : Fin 24)
  /-- BYPASS (R341). -/
  | bypass (tdi : List Bool)
  /-- IDCODE (R341). -/
  | idcode
  /-- SAMPLE_PRELOAD (R341). -/
  | samplePreload (tdi : List Bool)
  /-- EXTEST (R341). -/
  | extest (tdi : List Bool)
  /-- SCAN (R344). -/
  | scan
  /-- DEBUG_MEMORY_ACCESS (R343). -/
  | debugMemoryAccess (wr : Bool) (fpa : BitVec 52) (n : BitVec 13) (bs : List Byte)
  /-- TRST_N_ASSERT (R342). -/
  | trstNAssert
  /-- GET_INFO (R370). -/
  | getInfo (m : Emp)
  /-- CSP_READ (R372). -/
  | cspRead (m : Emp)
  /-- SYS_RESET (R401). -/
  | sysReset (m : Emp)
  /-- SAFELIGHT (R409). -/
  | safelight (m : Emp)
  /-- SELFTEST (R371). -/
  | selftest (m : Emp) (pass : BitVec 9)
  /-- TIME_CFG (R359). -/
  | timeCfg (m : Emp)
  /-- TIME_GET (R370). -/
  | timeGet (m : Emp)
  /-- EVENT (R382). -/
  | event (m : Emp)
  /-- EVENT_ACK (R356). -/
  | eventAck (m : Emp)
  /-- IMG_DATA (R371). -/
  | imgData (m : Emp)
  /-- IMG_END (R371). -/
  | imgEnd (m : Emp)
  /-- SLOT_READ (R327). -/
  | slotRead (m : Emp)
  /-- SLOT_OFF (R327). -/
  | slotOff (m : Emp)
  /-- EXTEND (R371). -/
  | extend (m : Emp)
  /-- SIGCHK (R348). -/
  | sigchk (m : Emp)
  /-- LOG_READ (R370). -/
  | logRead (m : Emp)
  /-- DBG_CHAL (R342). -/
  | dbgChal (m : Emp)
  /-- DBG_AUTH (R342). -/
  | dbgAuth (m : Emp)
  /-- DBG_REVOKE (R342). -/
  | dbgRevoke (m : Emp)
  /-- DBG_CSP (R344). -/
  | dbgCsp (m : Emp)
  /-- MEM_READ (R371). -/
  | memRead (m : Emp)
  /-- MEM_WRITE (R371). -/
  | memWrite (m : Emp)
  /-- IMG_WRITE (R371). -/
  | imgWrite (m : Emp)
  /-- BOOT_COMMIT (R370). -/
  | bootCommit (m : Emp)
  /-- CKPT (R371). -/
  | ckpt (m : Emp)
  /-- CKPT_RESTORE (R371). -/
  | ckptRestore (m : Emp)
  /-- IDE_KEY (R370). -/
  | ideKey (m : Emp)
  /-- DOE_PKT (R370). -/
  | doePkt (m : Emp)
  /-- FM_MSG (R370). -/
  | fmMsg (m : Emp)
  /-- FM_PEER (R369). -/
  | fmPeer (m : Emp)
  /-- EMP_RELAY_TIMEOUT (R368). -/
  | empRelayTimeout (tag : Byte)
  /-- EMP_FRAGMENT_TIMEOUT (R369). -/
  | empFragmentTimeout (p : Fin 96)
  /-- MBXTX_GO (R373). -/
  | mbxtxGo (v : Word) (taken : Bool)
  /-- MBXTX_TIMEOUT (R373). -/
  | mbxtxTimeout
  /-- MBXRX_DONE (R374). -/
  | mbxrxDone (v : Word)
  /-- MCTP_PACKET (R364). -/
  | mctpPacket (path : Fin 97) (bs : List Byte)
  /-- MCTP_MESSAGE_TIMEOUT (R364). -/
  | mctpMessageTimeout (path : Fin 97) (src : Byte) (fl : BitVec 4)
  /-- SET_ENDPOINT_ID (R364). -/
  | setEndpointId (q : MctpReq)
  /-- GET_ENDPOINT_ID (R364). -/
  | getEndpointId (q : MctpReq)
  /-- GET_ENDPOINT_UUID (R364). -/
  | getEndpointUuid (q : MctpReq)
  /-- GET_MCTP_VERSION_SUPPORT (R364). -/
  | getMctpVersionSupport (q : MctpReq)
  /-- GET_MESSAGE_TYPE_SUPPORT (R364). -/
  | getMessageTypeSupport (q : MctpReq)
  /-- GET_VENDOR_DEFINED_MSG_SUPPORT (R364). -/
  | getVendorDefinedMsgSupport (q : MctpReq)
  /-- ENTDAA (R362). -/
  | entdaa (a : BitVec 7)
  /-- SETDASA (R362). -/
  | setdasa (static_ : BitVec 7) (a : BitVec 7)
  /-- SETAASA (R362). -/
  | setaasa
  /-- RSTDAA (R362). -/
  | rstdaa
  /-- SETNEWDA (R361). -/
  | setnewda (old : BitVec 7) (a : BitVec 7)
  /-- ENEC (R363). -/
  | enec (ev : Byte)
  /-- DISEC (R363). -/
  | disec (ev : Byte)
  /-- GETPID (R362). -/
  | getpid
  /-- GETBCR (R362). -/
  | getbcr
  /-- GETDCR (R362). -/
  | getdcr
  /-- GETSTATUS (R361). -/
  | getstatus
  /-- GETMWL (R361). -/
  | getmwl
  /-- GETMRL (R361). -/
  | getmrl
  /-- SETMWL (R364). -/
  | setmwl (n : BitVec 16)
  /-- SETMRL (R364). -/
  | setmrl (n : BitVec 16)
  /-- GETMXDS (R361). -/
  | getmxds
  /-- GET_VERSION (R352). -/
  | getVersion (q : SpdmReq)
  /-- GET_CAPABILITIES (R352). -/
  | getCapabilities (q : SpdmReq)
  /-- NEGOTIATE_ALGORITHMS (R352). -/
  | negotiateAlgorithms (q : SpdmReq)
  /-- GET_DIGESTS (R352). -/
  | getDigests (q : SpdmReq)
  /-- GET_CERTIFICATE (R352). -/
  | getCertificate (q : SpdmReq)
  /-- CHALLENGE (R352). -/
  | challenge (q : SpdmReq)
  /-- GET_MEASUREMENTS (R353). -/
  | getMeasurements (q : SpdmReq)
  /-- KEY_EXCHANGE (R352). -/
  | keyExchange (q : SpdmReq)
  /-- FINISH (R352). -/
  | finish (q : SpdmReq)
  /-- END_SESSION (R352). -/
  | endSession (q : SpdmReq)
  /-- HEARTBEAT (R352). -/
  | heartbeat (q : SpdmReq)
  /-- KEY_UPDATE (R352). -/
  | keyUpdate (q : SpdmReq)
  /-- CXL_IDE_KM (R352). -/
  | cxlIdeKm (q : SpdmReq)
  /-- EVT_ROUTE_WRITE (R378). -/
  | evtRouteWrite (k : Fin 1024) (v : Word)
  /-- FSEL_CLR (R393). -/
  | fselClr (p : Fin 288) (v : Word)
  /-- PEER_LOST (R82). -/
  | peerLost (v : Fin 8)
  /-- LOAD_SIGNATURE_TIMEOUT (R348). -/
  | loadSignatureTimeout (n : Fin 32)
  /-- STANDBY_RAILS_LOST (R397). -/
  | standbyRailsLost
  /-- DARKROOM_ALL_CHANNEL_OFF (R327). -/
  | darkroomAllChannelOff
  /-- HBM_DOUBLE_REFRESH (R429). -/
  | hbmDoubleRefresh (k : Fin 4) (tj : BitVec 11)
  /-- I3C_PRIVATE_READ (R363). -/
  | i3cPrivateRead
  deriving DecidableEq, Repr
-- END INSTR

end Sys2Proof
end

