-- ==== Sys2Proof/Decode.lean ====
section
/-! DEFINITION. The words that commands are written as. No row of spec/opcode_table.json gives bits: the device takes commands
at its pins, ports and registers, and fetches none of them from a memory. The rows that are Frond instructions have the words
that R189–R191 give them, which lie in a spore's code. -/

namespace Sys2Proof

/-- The command that `nbits` bits `w` spell by the table: none, for want of a row that gives bits. -/
def decodeTableWord (_nbits _w : Nat) : Option Instr := none

/-! ## The words of Frond instructions -/

/-- Format A (R189): opcode, registers, fn. -/
def wA (op : Nat) (rd ra rb : BitVec 5) (fn : Nat) : BitVec 32 :=
  BitVec.ofNat 6 op ++ rd ++ ra ++ rb ++ BitVec.ofNat 11 fn

/-- Format I (R189). -/
def wI (op : Nat) (f : FI) : BitVec 32 := BitVec.ofNat 6 op ++ f.rd ++ f.ra ++ f.imm

/-- Format M (R189). -/
def wM (op : Nat) (f : FM) : BitVec 32 := BitVec.ofNat 6 op ++ f.rd ++ f.ra ++ f.sz ++ f.disp

/-- Format B (R189). -/
def wB (op : Nat) (f : FB) : BitVec 32 := BitVec.ofNat 6 op ++ f.ra ++ f.disp

/-- Format X (R189). -/
def wX (op : Nat) (f : FX) (fn : Nat) : BitVec 32 :=
  BitVec.ofNat 6 op ++ f.rd ++ f.ra ++ f.rb ++ f.rc ++ BitVec.ofNat 6 fn

/-- Format Q (R189) of opcode 0x20, with IND above the operation (R213). -/
def wQ (f : FQ) (ind : Bool) (fn : Nat) : BitVec 32 :=
  BitVec.ofNat 6 0x20 ++ f.rd ++ f.ra ++ f.ch ++ BitVec.ofBool ind ++ BitVec.ofNat 7 fn

/-- An atomic (R208). -/
def wAt (aop : Nat) (f : FAt) : BitVec 32 :=
  BitVec.ofNat 6 0x18 ++ f.rd ++ f.ra ++ f.rb ++ f.place ++ BitVec.ofBool f.acq ++ BitVec.ofBool f.rel ++
    BitVec.ofBool f.z6 ++ BitVec.ofNat 4 aop ++ BitVec.ofBool f.sz ++ BitVec.ofBool f.z0

/-- The word of a command that is a Frond instruction, by the opcode map and the function tables (R191, R196–R256); none of any
other command. -/
def frondWord : Instr → Option (BitVec 32)
  | .add _ f => some (wA 1 f.rd f.ra f.rb 0x0)
  | .sub _ f => some (wA 1 f.rd f.ra f.rb 0x1)
  | .and _ f => some (wA 1 f.rd f.ra f.rb 0x2)
  | .or _ f => some (wA 1 f.rd f.ra f.rb 0x3)
  | .xor _ f => some (wA 1 f.rd f.ra f.rb 0x4)
  | .andn _ f => some (wA 1 f.rd f.ra f.rb 0x5)
  | .slt _ f => some (wA 1 f.rd f.ra f.rb 0x8)
  | .sltu _ f => some (wA 1 f.rd f.ra f.rb 0x9)
  | .min _ f => some (wA 1 f.rd f.ra f.rb 0xa)
  | .max _ f => some (wA 1 f.rd f.ra f.rb 0xb)
  | .minu _ f => some (wA 1 f.rd f.ra f.rb 0xc)
  | .maxu _ f => some (wA 1 f.rd f.ra f.rb 0xd)
  | .cmp _ f => some (wA 1 f.rd f.ra f.rb 0xe)
  | .cmpu _ f => some (wA 1 f.rd f.ra f.rb 0xf)
  | .selv _ f => some (wA 1 f.rd f.ra f.rb 0x10)
  | .getcf _ f => some (wA 1 f.rd f.ra f.rb 0x20)
  | .setcf _ f => some (wA 1 f.rd f.ra f.rb 0x21)
  | .rdtime _ f => some (wA 1 f.rd f.ra f.rb 0x30)
  | .rdcyc _ f => some (wA 1 f.rd f.ra f.rb 0x31)
  | .rdpmc _ f => some (wA 1 f.rd f.ra f.rb 0x32)
  | .rdrand _ f => some (wA 1 f.rd f.ra f.rb 0x33)
  | .rdid _ f => some (wA 1 f.rd f.ra f.rb 0x34)
  | .sll _ f => some (wA 2 f.rd f.ra f.rb (0 + f.amt.toNat))
  | .srl _ f => some (wA 2 f.rd f.ra f.rb (64 + f.amt.toNat))
  | .sra _ f => some (wA 2 f.rd f.ra f.rb (128 + f.amt.toNat))
  | .ror _ f => some (wA 2 f.rd f.ra f.rb (192 + f.amt.toNat))
  | .slli _ f => some (wA 2 f.rd f.ra f.rb (256 + f.amt.toNat))
  | .srli _ f => some (wA 2 f.rd f.ra f.rb (320 + f.amt.toNat))
  | .srai _ f => some (wA 2 f.rd f.ra f.rb (384 + f.amt.toNat))
  | .rori _ f => some (wA 2 f.rd f.ra f.rb (448 + f.amt.toNat))
  | .extu _ f => some (wA 2 f.rd f.ra f.rb (512 + f.amt.toNat))
  | .exts _ f => some (wA 2 f.rd f.ra f.rb (576 + f.amt.toNat))
  | .ins _ f => some (wA 2 f.rd f.ra f.rb (640 + f.amt.toNat))
  | .clz _ f => some (wA 2 f.rd f.ra f.rb (704 + f.amt.toNat))
  | .ctz _ f => some (wA 2 f.rd f.ra f.rb (768 + f.amt.toNat))
  | .popc _ f => some (wA 2 f.rd f.ra f.rb (832 + f.amt.toNat))
  | .bswap _ f => some (wA 2 f.rd f.ra f.rb (896 + f.amt.toNat))
  | .mul _ f => some (wA 3 f.rd f.ra f.rb 0x0)
  | .mulh _ f => some (wA 3 f.rd f.ra f.rb 0x1)
  | .mulhu _ f => some (wA 3 f.rd f.ra f.rb 0x2)
  | .div _ f => some (wA 3 f.rd f.ra f.rb 0x4)
  | .divu _ f => some (wA 3 f.rd f.ra f.rb 0x5)
  | .rem _ f => some (wA 3 f.rd f.ra f.rb 0x6)
  | .remu _ f => some (wA 3 f.rd f.ra f.rb 0x7)
  | .addi _ f => some (wI 4 f)
  | .andi _ f => some (wI 5 f)
  | .ori _ f => some (wI 6 f)
  | .xori _ f => some (wI 7 f)
  | .lui _ f => some (wI 8 f)
  | .cmpi _ f => some (wI 9 f)
  | .ld _ f => some (wM 12 f)
  | .st _ f => some (wM 13 f)
  | .ldl _ f => some (wM 14 f)
  | .pref _ f => some (wM 15 f)
  | .br _ f => some (wB 16 f)
  | .bz _ f => some (wB 17 f)
  | .bnz _ f => some (wB 18 f)
  | .bneg _ f => some (wB 19 f)
  | .call _ f => some (wB 20 f)
  | .jr _ f => some (wA 21 f.rd f.ra f.rb 0x0)
  | .amoAdd _ f => some (wAt 0 f)
  | .amoCas _ f => some (wAt 1 f)
  | .amoSwap _ f => some (wAt 2 f)
  | .amoMin _ f => some (wAt 3 f)
  | .amoMax _ f => some (wAt 4 f)
  | .amoMinu _ f => some (wAt 5 f)
  | .amoMaxu _ f => some (wAt 6 f)
  | .amoAnd _ f => some (wAt 7 f)
  | .amoOr _ f => some (wAt 8 f)
  | .amoXor _ f => some (wAt 9 f)
  | .fence _ f => some (wA 25 f.rd f.ra f.rb 0x0)
  | .fenceR _ f => some (wA 25 f.rd f.ra f.rb 0x1)
  | .fenceW _ f => some (wA 25 f.rd f.ra f.rb 0x2)
  | .rulesync _ f => some (wA 25 f.rd f.ra f.rb 0x3)
  | .hashCrc32c _ f n => some (wX 0x1C f n.toNat)
  | .hashCrc64 _ f n => some (wX 0x1C f (8 + n.toNat))
  | .hashToep _ f b => some (wX 0x1C f (if b then 19 else 18))
  | .hashSip8 _ f => some (wX 0x1C f 24)
  | .hashSip16 _ f => some (wX 0x1C f 25)
  | .hashSip64 _ f => some (wX 0x1C f 26)
  | .trieStep _ f => some (wX 0x1d f 0x0)
  | .exmProbe _ f => some (wX 0x1d f 0x1)
  | .rangeCmp _ f => some (wX 0x1d f 0x2)
  | .rangeCmpS _ f => some (wX 0x1d f 0x3)
  | .cinc _ f k => some (wX 0x1E f (0 + k.toNat))
  | .cincA _ f k => some (wX 0x1E f (16 + k.toNat))
  | .sketchAdd _ f k => some (wX 0x1E f (32 + k.toNat))
  | .sketchEst _ f k => some (wX 0x1E f (48 + k.toNat))
  | .meter _ f => some (wX 0x1f f 0x0)
  | .chput _ f b => some (wQ f b 1)
  | .chtry _ f b => some (wQ f b 2)
  | .chget _ f b => some (wQ f b 3)
  | .chgetW _ f b => some (wQ f b 4)
  | .chmark _ f b => some (wQ f b 5)
  | .chrewind _ f b => some (wQ f b 6)
  | .chrelease _ f b => some (wQ f b 7)
  | .chskip _ f b => some (wQ f b 8)
  | .chcnt _ f b => some (wQ f b 9)
  | .enq _ f => some (wX 0x21 f 0x0)
  | .deq _ f => some (wX 0x21 f 0x1)
  | .qrel _ f => some (wX 0x21 f 0x2)
  | .qstat _ f => some (wX 0x21 f 0x3)
  | .move _ f => some (wX 0x22 f 0x0)
  | .moveP _ f => some (wX 0x22 f 0x1)
  | .fill _ f => some (wX 0x22 f 0x2)
  | .fillP _ f => some (wX 0x22 f 0x3)
  | .lcomp _ f => some (wX 0x22 f 0x4)
  | .ldecomp _ f => some (wX 0x22 f 0x5)
  | .cqpost _ f => some (wX 0x23 f 0x0)
  | .cqpostEnd _ f => some (wX 0x23 f 0x1)
  | .evraiseSrc _ f => some (wX 0x23 f 0x8)
  | .evraiseVec _ f => some (wX 0x23 f 0x9)
  | .waitT _ f => some (wX 0x23 f 0x10)
  | .waitUntil _ f => some (wX 0x23 f 0x11)
  | .waitCh _ f => some (wX 0x23 f 0x12)
  | .csprd _ f => some (wX 0x30 f 0x0)
  | .cspwr _ f => some (wX 0x30 f 0x1)
  | .fbind _ f => some (wX 0x31 f 0x0)
  | .fbindKeep _ f => some (wX 0x31 f 0x1)
  | .funbind _ f => some (wX 0x31 f 0x2)
  | .slsetCreate _ f => some (wX 0x31 f 0x8)
  | .slsetDestroy _ f => some (wX 0x31 f 0x9)
  | .slsetRoot _ f => some (wX 0x31 f 0xa)
  | .slsetHostopen _ f => some (wX 0x31 f 0xb)
  | .slsetHostclose _ f => some (wX 0x31 f 0xc)
  | .mpuset _ f => some (wX 0x32 f 0x0)
  | .mpulock _ f => some (wX 0x32 f 0x1)
  | .slquiesce _ f => some (wX 0x33 f 0x0)
  | .slquiesceAbort _ f => some (wX 0x33 f 0x1)
  | .slresume _ f => some (wX 0x33 f 0x2)
  | .slreset _ f => some (wX 0x33 f 0x3)
  | .shutter _ f => some (wX 0x34 f 0x0)
  | .sheetcfg _ f => some (wX 0x34 f 0x1)
  | .halt _ f => some (wX 0x35 f 0x0)
  | .haltClr _ f => some (wX 0x35 f 0x1)
  | .fswap _ f => some (wX 0x35 f 0x2)
  | .trotate _ f => some (wX 0x35 f 0x3)
  | _ => none

/-! ## Reading a word

The word at a strand's pc, little-endian in memory, split by its major opcode as R189 gives. -/

/-- A word read: its opcode, its function, and its fields by format (R189). -/
inductive FWord where
  | a (op fn : Nat) (f : FA)
  /-- A shift or bit-field instruction, with OP of R199. -/
  | s (k : Nat) (f : FS)
  | i (op : Nat) (f : FI)
  | m (op : Nat) (f : FM)
  | b (op : Nat) (f : FB)
  | x (op fn : Nat) (f : FX)
  /-- A channel instruction, with IND (R213). -/
  | q (fn : Nat) (ind : Bool) (f : FQ)
  /-- An atomic, with AOP (R208). -/
  | at (aop : Nat) (f : FAt)
  deriving DecidableEq, Repr

def fRd (w : BitVec 32) : BitVec 5 := w.extractLsb' 21 5
def fRa (w : BitVec 32) : BitVec 5 := w.extractLsb' 16 5
def fRb (w : BitVec 32) : BitVec 5 := w.extractLsb' 11 5

/-- The functions of format A opcodes (R196, R200, R206, R211). -/
def fnsA : List (Nat × List Nat) :=
  [(0x01, [0, 1, 2, 3, 4, 5, 8, 9, 10, 11, 12, 13, 14, 15, 16, 0x20, 0x21, 0x30, 0x31, 0x32, 0x33, 0x34]),
   (0x03, [0, 1, 2, 4, 5, 6, 7]), (0x15, [0]), (0x19, [0, 1, 2, 3])]

/-- The functions of format X opcodes (R191, R216–R256). -/
def fnsX : List (Nat × List Nat) :=
  [(0x1C, [0, 1, 2, 3, 8, 9, 10, 11, 18, 19, 24, 25, 26]), (0x1D, [0, 1, 2, 3]), (0x1E, List.range 64), (0x1F, [0]),
   (0x21, [0, 1, 2, 3]), (0x22, [0, 1, 2, 3, 4, 5]), (0x23, [0, 1, 8, 9, 0x10, 0x11, 0x12]),
   (0x30, [0, 1]), (0x31, [0, 1, 2, 8, 9, 10, 11, 12]), (0x32, [0, 1]), (0x33, [0, 1, 2, 3]), (0x34, [0, 1]), (0x35, [0, 1, 2, 3])]

/-- The function is one that the opcode has in the table. -/
def hasFn (t : List (Nat × List Nat)) (op fn : Nat) : Bool := t.any fun e => e.1 == op && e.2.contains fn

/-- A word read: none where its opcode is not assigned or its fn, OP, AOP or operation is reserved, which raises ILLEGAL
(R190, R191). A field that must hold 0 is left for the instruction to judge. -/
def frondRead (w : BitVec 32) : Option FWord :=
  let op := (w.extractLsb' 26 6).toNat
  let fn := (w.extractLsb' 0 11).toNat
  let fx := (w.extractLsb' 0 6).toNat
  if op == 0x02 then
    if fn / 64 ≤ 14 then some (.s (fn / 64) ⟨fRd w, fRa w, fRb w, w.extractLsb' 0 6⟩) else none
  else if 0x04 ≤ op && op ≤ 0x09 then some (.i op ⟨fRd w, fRa w, w.extractLsb' 0 16⟩)
  else if 0x0C ≤ op && op ≤ 0x0F then some (.m op ⟨fRd w, fRa w, w.extractLsb' 14 2, w.extractLsb' 0 14⟩)
  else if 0x10 ≤ op && op ≤ 0x14 then some (.b op ⟨fRd w, w.extractLsb' 0 21⟩)
  else if op == 0x18 then
    if fn / 4 % 16 < 10 then
      some (.at (fn / 4 % 16)
        ⟨fRd w, fRa w, fRb w, w.extractLsb' 9 2, w.getLsbD 8, w.getLsbD 7, w.getLsbD 6, w.getLsbD 1, w.getLsbD 0⟩)
    else none
  else if op == 0x20 then
    if 1 ≤ fn % 128 && fn % 128 ≤ 9 then some (.q (fn % 128) (w.getLsbD 7) ⟨fRd w, fRa w, w.extractLsb' 8 8⟩) else none
  else if hasFn fnsA op fn then some (.a op fn ⟨fRd w, fRa w, fRb w⟩)
  else if hasFn fnsX op fx then some (.x op fx ⟨fRd w, fRa w, fRb w, w.extractLsb' 6 5⟩)
  else none

/-- The opcode is one that runs at F privilege only (R191). -/
def frondPriv (w : BitVec 32) : Bool :=
  let op := (w.extractLsb' 26 6).toNat
  0x30 ≤ op && op ≤ 0x35

end Sys2Proof
end

