-- ==== Sys2Proof/Machine/Bits.lean ====
section
/-! DEFINITION. Bit fields, sign extension and byte order: R5 (little-endian structures) and the field notation
NAME[hi:lo] of 00_scope.md. -/

namespace Sys2Proof.Machine

/-- The `w`-bit field at bit `lo` of a natural number. -/
def bitsN (x lo w : Nat) : Nat := (x >>> lo) % 2 ^ w

/-- The `w`-bit field at bit `lo`, as a number. -/
def getBits {n : Nat} (x : BitVec n) (lo w : Nat) : Nat := bitsN x.toNat lo w

/-- `x` with the `w`-bit field at bit `lo` replaced by the low `w` bits of `v`. -/
def putBits {n : Nat} (x : BitVec n) (lo w v : Nat) : BitVec n :=
  (x &&& ~~~ (BitVec.ofNat n (2 ^ w - 1) <<< lo)) ||| (BitVec.ofNat n (v % 2 ^ w) <<< lo)

/-- Bit `i` of a number. -/
def bitN (x i : Nat) : Bool := x.testBit i

/-- 1 for true, 0 for false. -/
def b2n (b : Bool) : Nat := if b then 1 else 0

/-- A 64-bit word from a number. -/
def w64 (x : Nat) : Word := BitVec.ofNat 64 x

/-- The two's complement value of the low `w` bits of `x`. -/
def sext (w x : Nat) : Int :=
  let y := x % 2 ^ w
  if 2 * y < 2 ^ w then (y : Int) else (y : Int) - (2 ^ w : Nat)

/-- The signed value of a 64-bit word. -/
def sval (x : Word) : Int := x.toInt

/-- An integer narrowed to 64 bits. -/
def ofI (x : Int) : Word := BitVec.ofInt 64 x

/-- The number whose bytes are the list, byte 0 lowest (R5). -/
def leNat : List Byte → Nat
  | [] => 0
  | b :: bs => b.toNat + 256 * leNat bs

/-- The low `n` bytes of a number, byte 0 first (R5). -/
def leBytes : Nat → Nat → List Byte
  | 0, _ => []
  | n + 1, x => BitVec.ofNat 8 x :: leBytes n (x / 256)

/-- The number whose bytes are the list, byte 0 HIGHEST (network order, where a rule asks for it). -/
def beNat (l : List Byte) : Nat := leNat l.reverse

/-- The low `n` bytes of a number, highest first. -/
def beBytes (n x : Nat) : List Byte := (leBytes n x).reverse

/-- The number of bits set among the low `n` bits of `x`. -/
def popN : Nat → Nat → Nat
  | 0, _ => 0
  | n + 1, x => x % 2 + popN n (x / 2)

/-- The positions below `n` of the bits set in `x`, rising. -/
def onesN (n x : Nat) : List Nat := (List.range n).filter fun i => x.testBit i

/-- The number with bit `i` set. -/
def setBitN (x i : Nat) : Nat := x ||| 2 ^ i

/-- The number with bit `i` cleared. -/
def clrBitN (x i : Nat) : Nat := if x.testBit i then x - 2 ^ i else x

/-- The low `8 k` bits of a word, from byte `i` on. -/
def byteOf (x i : Nat) : Byte := BitVec.ofNat 8 (x >>> (8 * i))

/-- Saturating sum at the top of a `w`-bit counter. -/
def satAdd (w a b : Nat) : Nat := min (2 ^ w - 1) (a + b)

end Sys2Proof.Machine
end

