-- ==== Sys2Proof/Machine/Sha.lean ====
section
/-! DEFINITION. SHA-384 (FIPS 180-4) and HMAC-SHA-384, which measurements, digests and signatures use (R170, R339, R349,
R351). -/

namespace Sys2Proof.Machine

/-- The primes below a bound, lowest first. -/
def primesBelow (n : Nat) : List Nat :=
  (List.range n).filter fun p => 2 ≤ p && (List.range p).all fun q => q < 2 || p % q != 0

/-- The first 64 bits of the fraction of the e-th root of p, settled from the highest bit down. FIPS 180-4 names the
constants of SHA-384 so. -/
def rootFraction (e p : Nat) : Word :=
  w64 ((List.range 70).foldl (fun r i => if (r + 2 ^ (69 - i)) ^ e ≤ p * 2 ^ (64 * e) then r + 2 ^ (69 - i) else r) 0)

/-- The round constants: cube roots of the first 80 primes. -/
def shaK : List Word := (primesBelow 410).map (rootFraction 3)

/-- The initial value of SHA-384: square roots of the ninth to the sixteenth prime. -/
def sha384Init : List Word := ((primesBelow 54).drop 8).map (rootFraction 2)

/-- An exclusive or of rotations to the right, by each amount. -/
def rotations (x : Word) (ns : List Nat) : Word := ns.foldl (fun y n => y ^^^ x.rotateRight n) 0

/-- One round on the working words, first to last, with its constant and schedule word. -/
def shaRound (kw : Word) : List Word → List Word
  | [a, b, c, d, e, f, g, h] =>
    let t := h + rotations e [14, 18, 41] + (g ^^^ e &&& (f ^^^ g)) + kw
    [t + rotations a [28, 34, 39] + (a &&& (b ||| c) ||| b &&& c), a, b, c, d + t, e, f, g]
  | s => s

/-- The rounds of one block: `w` is the window of the next sixteen schedule words. -/
def shaRounds : List Word → List Word → List Word → List Word
  | [], _, s => s
  | k :: ks, w, s =>
    let at_ := fun i => w.getD i 0
    let next := (rotations (at_ 14) [19, 61] ^^^ at_ 14 >>> 6) + at_ 9 + (rotations (at_ 1) [1, 8] ^^^ at_ 1 >>> 7) + at_ 0
    shaRounds ks (w.drop 1 ++ [next]) (shaRound (k + at_ 0) s)

/-- One 128-byte block. -/
def shaBlock (h : List Word) (bs : List Byte) : List Word :=
  let w := (List.range 16).map fun i => w64 (beNat ((bs.drop (8 * i)).take 8))
  List.zipWith (· + ·) h (shaRounds shaK w h)

/-- The blocks of a padded message. -/
def shaBlocks : Nat → List Word → List Byte → List Word
  | 0, h, _ => h
  | n + 1, h, bs => shaBlocks n (shaBlock h (bs.take 128)) (bs.drop 128)

/-- SHA-384 of a message. -/
def sha384 (m : List Byte) : List Byte :=
  let z := (128 - (m.length + 17) % 128) % 128
  let p := m ++ [0x80] ++ List.replicate z 0 ++ beBytes 16 (8 * m.length)
  (((shaBlocks (p.length / 128) sha384Init p).take 6).map fun w => beBytes 8 w.toNat).flatten

/-- HMAC-SHA-384. -/
def hmac384 (key m : List Byte) : List Byte :=
  let k := if key.length > 128 then sha384 key else key
  let k := k ++ List.replicate (128 - k.length) 0
  sha384 (k.map (· ^^^ 0x5C) ++ sha384 (k.map (· ^^^ 0x36) ++ m))

end Sys2Proof.Machine
end

