-- ==== Sys2Proof/Machine/Ecdsa.lean ====
section
/-! DEFINITION. ECDSA over P-384 as the spec uses it: the check of a signature (R342, R348) and the identity key
(R351). Points are in Jacobian form, with z = 0 for the point at infinity. -/

namespace Sys2Proof.Machine

def p384 : Nat := 2 ^ 384 - 2 ^ 128 - 2 ^ 96 + 2 ^ 32 - 1
def p384n : Nat :=
  0xffffffffffffffffffffffffffffffffffffffffffffffffc7634d81f4372ddf581a0db248b0a77aecec196accc52973
def p384b : Nat :=
  0xb3312fa7e23ee7e4988e056be3f82d19181d9c6efe8141120314088f5013875ac656398d8a2ed19d2a85c8edd3ec2aef
def p384gx : Nat :=
  0xaa87ca22be8b05378eb1c71ef320ad746e1d3b628ba79b9859f741e082542a385502f25dbf55296c3a545e3872760ab7
def p384gy : Nat :=
  0x3617de4a96262c6f5d9e98bf9292dc29f8f41dbd289a147ce9da3113b5f0b8c00a60b1ce1d7e819d7a431d7c90ea0e5f

/-- `a` to the power `e` modulo `m`, by the low `k` bits of `e`, highest first. -/
def powMod (m a e : Nat) : Nat → Nat → Nat
  | 0, acc => acc
  | k + 1, acc =>
    let s := acc * acc % m
    powMod m a e k (if e.testBit k then s * a % m else s)

/-- The inverse modulo a prime below 2³⁸⁴. -/
def invMod (m a : Nat) : Nat := powMod m (a % m) (m - 2) 384 1

/-- A point in Jacobian coordinates. -/
structure JPoint where
  x : Nat
  y : Nat
  z : Nat
  deriving DecidableEq, Repr

def JPoint.inf : JPoint := ⟨1, 1, 0⟩

/-- `a − b` in the field. -/
def fsub (a b : Nat) : Nat := (a + p384 - b % p384) % p384

def JPoint.double (u : JPoint) : JPoint :=
  if u.z == 0 || u.y == 0 then JPoint.inf
  else
    let zz := u.z * u.z % p384
    let m := 3 * (fsub u.x zz) * (u.x + zz) % p384
    let yy := u.y * u.y % p384
    let s := 4 * u.x * yy % p384
    let x := fsub (m * m) (2 * s)
    ⟨x, fsub (m * fsub s x) (8 * yy * yy), 2 * u.y * u.z % p384⟩

def JPoint.add (u v : JPoint) : JPoint :=
  if u.z == 0 then v
  else if v.z == 0 then u
  else
    let z1 := u.z * u.z % p384
    let z2 := v.z * v.z % p384
    let u1 := u.x * z2 % p384
    let u2 := v.x * z1 % p384
    let s1 := u.y * z2 * v.z % p384
    let s2 := v.y * z1 * u.z % p384
    if u1 == u2 then (if s1 == s2 then u.double else JPoint.inf)
    else
      let h := fsub u2 u1
      let r := fsub s2 s1
      let hh := h * h % p384
      let hhh := hh * h % p384
      let w := u1 * hh % p384
      let x := fsub (fsub (r * r) hhh) (2 * w)
      ⟨x, fsub (r * fsub w x) (s1 * hhh), u.z * v.z * h % p384⟩

/-- `k` times a point, by the low bits of `k`, highest first. -/
def JPoint.mul (u : JPoint) (k : Nat) : Nat → JPoint → JPoint
  | 0, acc => acc
  | n + 1, acc => JPoint.mul u k n (if k.testBit n then acc.double.add u else acc.double)

/-- The affine coordinates of a point. -/
def JPoint.affine (u : JPoint) : Nat × Nat :=
  let i := invMod p384 u.z
  (u.x * i * i % p384, u.y * i * i % p384 * i % p384)

def gP384 : JPoint := ⟨p384gx, p384gy, 1⟩

/-- The point lies on the curve. -/
def onP384 (x y : Nat) : Bool := x < p384 && y < p384 && y * y % p384 == (fsub (x * x * x) (3 * x) + p384b) % p384

/-- A signature `(r, s)` of a digest verifies against the key `(x, y)`. -/
def ecdsaOk (x y : Nat) (digest : List Byte) (r s : Nat) : Bool :=
  if !onP384 x y || r == 0 || r ≥ p384n || s == 0 || s ≥ p384n then false
  else
    let w := invMod p384n s
    let a := gP384.mul (beNat digest * w % p384n) 384 JPoint.inf
    let b := (JPoint.mk x y 1).mul (r * w % p384n) 384 JPoint.inf
    let q := a.add b
    q.z != 0 && q.affine.1 % p384n == r

/-- The signature `(r, s)` of a digest by the private scalar `key` with the random number `k`. -/
def ecdsaSign (key k : Nat) (digest : List Byte) : Nat × Nat :=
  let r := (gP384.mul k 384 JPoint.inf).affine.1 % p384n
  (r, invMod p384n k * (beNat digest + r * key) % p384n)

/-- A SIG field of 96 bytes: r, then s, each little-endian (R170). -/
def sigOk (x y : Nat) (digest sig : List Byte) : Bool := ecdsaOk x y digest (leNat (sig.take 48)) (leNat ((sig.drop 48).take 48))

/-- The key that a compressed point of 49 bytes names, if any. -/
def uncompress (bs : List Byte) : Option (Nat × Nat) :=
  let x := beNat ((bs.drop 1).take 48)
  let t := (fsub (x * x * x) (3 * x) + p384b) % p384
  let y := powMod p384 t ((p384 + 1) / 4) 384 1
  let tag := (bs.getD 0 0).toNat
  if bs.length != 49 || !(tag == 2 || tag == 3) || !onP384 x y then none
  else some (x, if y % 2 == tag % 2 then y else p384 - y)

/-- The identity key (R351). -/
def identityKey (uds : List Byte) : Nat :=
  beNat (hmac384 uds ("GLS-DEVID".toList.map fun c => BitVec.ofNat 8 c.toNat)) % (p384n - 1) + 1

/-- The public key of a private scalar, uncompressed: 0x04, x, y, highest byte first. -/
def publicKey (k : Nat) : List Byte :=
  let (x, y) := (gP384.mul k 384 JPoint.inf).affine
  4 :: (beBytes 48 x ++ beBytes 48 y)

end Sys2Proof.Machine
end

