-- ==== Sys2Proof/Config.lean ====
section
/-! DEFINITION. What an implementation fixes and the spec leaves open: the free values. Nothing in Lean can evaluate
them, so a statement about one holds for every value. -/

namespace Sys2Proof.Config

/-- A fresh 64-bit value that the spec does not fix, by the number of the draw: random numbers (R196, R231), nonces and
ephemeral keys (R343, R352), replacement choices (R65, R106). -/
opaque freeBits : Nat → BitVec 64

/-- The set of the memory-side cache that a line falls in, by the number of sets: the hash of R104. -/
opaque mscSet : Nat → Nat → Nat

/-- The place in the HBM stacks of one tag's data in a set of the memory-side cache, by the number of sets, the set and the
tag: the interleaving of R94. -/
opaque mscPlace : Nat → Nat → Nat → Nat

/-- The choice among several links to one device: the hash of DST and ADDR[51:12] of R156. -/
opaque linkHash : Nat → Nat → Nat

/-- A keyed or one-way cryptographic function whose result the spec leaves to a standard it does not restate, by what
it is for and its input bytes (R352: signatures, MACs, ciphertext). -/
opaque crypt : Nat → List (BitVec 8) → Nat → BitVec 8

end Sys2Proof.Config
end

