-- ==== Sys2Proof/Machine/RegMap.lean ====
section
/-! DEFINITION. The control-space register maps of the spec, as data: for each register its address, its fields with
their access codes (00_scope.md, "Access codes"), cold values, whether warm reset keeps them, and the values R7 accepts.
Written from the tables of R4, R51, R52, R91, R92, R122, R160, R188, R279, R310, R329, R354, R373, R392, R393, R415 and R418.
`FRef` names one field of one register; its `cold` is the cold value of the whole register. -/

namespace Sys2Proof.Machine

/-- DRK.IDENT (R4). -/
def DRK.IDENT.reg : FRef := ⟨0x0, 0, 64, 0x1A060601115C7⟩
def DRK.IDENT.VENDOR : FRef := ⟨(DRK.IDENT.reg).addr, 0, 16, 0x1A060601115C7⟩
def DRK.IDENT.FAMILY : FRef := ⟨(DRK.IDENT.reg).addr, 16, 16, 0x1A060601115C7⟩
def DRK.IDENT.MEMBER : FRef := ⟨(DRK.IDENT.reg).addr, 32, 8, 0x1A060601115C7⟩
def DRK.IDENT.STEPPING : FRef := ⟨(DRK.IDENT.reg).addr, 40, 8, 0x1A060601115C7⟩
def DRK.IDENT.ISA_VER : FRef := ⟨(DRK.IDENT.reg).addr, 48, 8, 0x1A060601115C7⟩

/-- DRK.FAMPARAM0 (R4). -/
def DRK.FAMPARAM0.reg : FRef := ⟨0x8, 0, 64, 0x400600EC462060⟩
def DRK.FAMPARAM0.PORTS : FRef := ⟨(DRK.FAMPARAM0.reg).addr, 0, 8, 0x400600EC462060⟩
def DRK.FAMPARAM0.SORI : FRef := ⟨(DRK.FAMPARAM0.reg).addr, 8, 6, 0x400600EC462060⟩
def DRK.FAMPARAM0.FR_ACTIVE : FRef := ⟨(DRK.FAMPARAM0.reg).addr, 14, 4, 0x400600EC462060⟩
def DRK.FAMPARAM0.FR_SPARE : FRef := ⟨(DRK.FAMPARAM0.reg).addr, 18, 2, 0x400600EC462060⟩
def DRK.FAMPARAM0.HBM_STACKS : FRef := ⟨(DRK.FAMPARAM0.reg).addr, 20, 4, 0x400600EC462060⟩
def DRK.FAMPARAM0.SRAM_MIB : FRef := ⟨(DRK.FAMPARAM0.reg).addr, 24, 12, 0x400600EC462060⟩
def DRK.FAMPARAM0.NTS_MIB : FRef := ⟨(DRK.FAMPARAM0.reg).addr, 36, 12, 0x400600EC462060⟩
def DRK.FAMPARAM0.HOMES : FRef := ⟨(DRK.FAMPARAM0.reg).addr, 48, 8, 0x400600EC462060⟩

/-- DRK.FAMPARAM1 (R4). -/
def DRK.FAMPARAM1.reg : FRef := ⟨0x10, 0, 64, 0x2000040081000⟩
def DRK.FAMPARAM1.SLICES : FRef := ⟨(DRK.FAMPARAM1.reg).addr, 0, 13, 0x2000040081000⟩
def DRK.FAMPARAM1.HOSTS : FRef := ⟨(DRK.FAMPARAM1.reg).addr, 13, 7, 0x2000040081000⟩
def DRK.FAMPARAM1.EVT_SOURCES : FRef := ⟨(DRK.FAMPARAM1.reg).addr, 20, 12, 0x2000040081000⟩
def DRK.FAMPARAM1.QUEUES : FRef := ⟨(DRK.FAMPARAM1.reg).addr, 32, 18, 0x2000040081000⟩

/-- BIND.EXTTBL (R51). -/
def BIND.EXTTBL.reg : FRef := ⟨0xBC0000, 0, 64, 0⟩
def BIND.EXTTBL.EN : FRef := ⟨(BIND.EXTTBL.reg).addr, 0, 1, 0⟩
def BIND.EXTTBL.BASE : FRef := ⟨(BIND.EXTTBL.reg).addr, 21, 31, 0⟩

/-- BIND.XINV (R51). -/
def BIND.XINV.reg : FRef := ⟨0xBC0008, 0, 64, 0⟩
def BIND.XINV.PAGE : FRef := ⟨(BIND.XINV.reg).addr, 0, 27, 0⟩
def BIND.XINV.SLICE : FRef := ⟨(BIND.XINV.reg).addr, 27, 12, 0⟩
def BIND.XINV.ALL : FRef := ⟨(BIND.XINV.reg).addr, 39, 1, 0⟩
def BIND.XINV.GO : FRef := ⟨(BIND.XINV.reg).addr, 62, 1, 0⟩
def BIND.XINV.BUSY : FRef := ⟨(BIND.XINV.reg).addr, 63, 1, 0⟩

/-- BIND.WDSEL (R51). -/
def BIND.WDSEL.reg : FRef := ⟨0xBC0010, 0, 64, 0⟩
def BIND.WDSEL.HOST : FRef := ⟨(BIND.WDSEL.reg).addr, 0, 6, 0⟩
def BIND.WDSEL.FRAME : FRef := ⟨(BIND.WDSEL.reg).addr, 6, 9, 0⟩
def BIND.WDSEL.DEC : FRef := ⟨(BIND.WDSEL.reg).addr, 15, 4, 0⟩

/-- BIND.WDHPA (R51). -/
def BIND.WDHPA.reg : FRef := ⟨0xBC0018, 0, 64, 0⟩
def BIND.WDHPA.SIZE : FRef := ⟨(BIND.WDHPA.reg).addr, 0, 21, 0⟩
def BIND.WDHPA.HPA_BASE : FRef := ⟨(BIND.WDHPA.reg).addr, 21, 31, 0⟩

/-- BIND.WDSA (R51). -/
def BIND.WDSA.reg : FRef := ⟨0xBC0020, 0, 64, 0⟩
def BIND.WDSA.EN : FRef := ⟨(BIND.WDSA.reg).addr, 0, 1, 0⟩
def BIND.WDSA.R : FRef := ⟨(BIND.WDSA.reg).addr, 1, 1, 0⟩
def BIND.WDSA.W : FRef := ⟨(BIND.WDSA.reg).addr, 2, 1, 0⟩
def BIND.WDSA.SA_BASE : FRef := ⟨(BIND.WDSA.reg).addr, 21, 27, 0⟩

/-- BIND.HGEN (R51). -/
def BIND.HGEN.reg (i : Nat) : FRef := ⟨0xBC1000 + i * 8, 0, 64, 0x7F0200⟩
def BIND.HGEN.CUR (i : Nat) : FRef := ⟨(BIND.HGEN.reg i).addr, 0, 8, 0x7F0200⟩
def BIND.HGEN.PEND (i : Nat) : FRef := ⟨(BIND.HGEN.reg i).addr, 8, 1, 0x7F0200⟩
def BIND.HGEN.DRAINED (i : Nat) : FRef := ⟨(BIND.HGEN.reg i).addr, 9, 1, 0x7F0200⟩
def BIND.HGEN.REQ (i : Nat) : FRef := ⟨(BIND.HGEN.reg i).addr, 10, 1, 0x7F0200⟩
def BIND.HGEN.ERR (i : Nat) : FRef := ⟨(BIND.HGEN.reg i).addr, 12, 3, 0x7F0200⟩
def BIND.HGEN.PORT (i : Nat) : FRef := ⟨(BIND.HGEN.reg i).addr, 16, 7, 0x7F0200⟩
def BIND.HGEN.LINK (i : Nat) : FRef := ⟨(BIND.HGEN.reg i).addr, 23, 1, 0x7F0200⟩

/-- SLICE.CTL (R52). -/
def SLICE.CTL.reg (n : Nat) : FRef := ⟨0x1000000 + n * 0x1000, 0, 64, 0x3E800⟩
def SLICE.CTL.CTR_USER (n : Nat) : FRef := ⟨(SLICE.CTL.reg n).addr, 0, 1, 0x3E800⟩
def SLICE.CTL.QTMO (n : Nat) : FRef := ⟨(SLICE.CTL.reg n).addr, 8, 16, 0x3E800⟩

/-- SLICE.STATE (R52). -/
def SLICE.STATE.reg (n : Nat) : FRef := ⟨0x1000008 + n * 0x1000, 0, 64, 0⟩
def SLICE.STATE.STATE (n : Nat) : FRef := ⟨(SLICE.STATE.reg n).addr, 0, 2, 0⟩
def SLICE.STATE.EXTENTS (n : Nat) : FRef := ⟨(SLICE.STATE.reg n).addr, 2, 20, 0⟩
def SLICE.STATE.AUTOQ (n : Nat) : FRef := ⟨(SLICE.STATE.reg n).addr, 22, 1, 0⟩

/-- SLICE.XLAT_ROOT (R52). -/
def SLICE.XLAT_ROOT.reg (n : Nat) : FRef := ⟨0x1000010 + n * 0x1000, 0, 64, 0⟩
def SLICE.XLAT_ROOT.V (n : Nat) : FRef := ⟨(SLICE.XLAT_ROOT.reg n).addr, 0, 1, 0⟩
def SLICE.XLAT_ROOT.ROOT (n : Nat) : FRef := ⟨(SLICE.XLAT_ROOT.reg n).addr, 17, 35, 0⟩

/-- SLICE.HOSTS (R52). -/
def SLICE.HOSTS.reg (n : Nat) : FRef := ⟨0x1000018 + n * 0x1000, 0, 64, 0⟩
def SLICE.HOSTS.MASK (n : Nat) : FRef := ⟨(SLICE.HOSTS.reg n).addr, 0, 64, 0⟩

/-- SLICE.QSTAT (R52). -/
def SLICE.QSTAT.reg (n : Nat) : FRef := ⟨0x1000020 + n * 0x1000, 0, 64, 0⟩
def SLICE.QSTAT.STRANDS (n : Nat) : FRef := ⟨(SLICE.QSTAT.reg n).addr, 0, 10, 0⟩
def SLICE.QSTAT.CSLOTS (n : Nat) : FRef := ⟨(SLICE.QSTAT.reg n).addr, 10, 16, 0⟩
def SLICE.QSTAT.QMCMD (n : Nat) : FRef := ⟨(SLICE.QSTAT.reg n).addr, 26, 10, 0⟩
def SLICE.QSTAT.MOVES (n : Nat) : FRef := ⟨(SLICE.QSTAT.reg n).addr, 36, 10, 0⟩
def SLICE.QSTAT.DUMP (n : Nat) : FRef := ⟨(SLICE.QSTAT.reg n).addr, 46, 1, 0⟩

/-- SLICE.DLOG_BASE (R52). -/
def SLICE.DLOG_BASE.reg (n : Nat) : FRef := ⟨0x1000028 + n * 0x1000, 0, 64, 0⟩
def SLICE.DLOG_BASE.EN (n : Nat) : FRef := ⟨(SLICE.DLOG_BASE.reg n).addr, 0, 1, 0⟩
def SLICE.DLOG_BASE.BASE (n : Nat) : FRef := ⟨(SLICE.DLOG_BASE.reg n).addr, 12, 40, 0⟩

/-- SLICE.DLOG_RANGE (R52). -/
def SLICE.DLOG_RANGE.reg (n : Nat) : FRef := ⟨0x1000030 + n * 0x1000, 0, 64, 0⟩
def SLICE.DLOG_RANGE.BASE_PG (n : Nat) : FRef := ⟨(SLICE.DLOG_RANGE.reg n).addr, 0, 27, 0⟩
def SLICE.DLOG_RANGE.LIMIT_PG (n : Nat) : FRef := ⟨(SLICE.DLOG_RANGE.reg n).addr, 27, 27, 0⟩

/-- SLICE.DLOG_CTL (R52). -/
def SLICE.DLOG_CTL.reg (n : Nat) : FRef := ⟨0x1000038 + n * 0x1000, 0, 64, 0⟩
def SLICE.DLOG_CTL.EPOCH (n : Nat) : FRef := ⟨(SLICE.DLOG_CTL.reg n).addr, 0, 8, 0⟩
def SLICE.DLOG_CTL.BUMP (n : Nat) : FRef := ⟨(SLICE.DLOG_CTL.reg n).addr, 8, 1, 0⟩
def SLICE.DLOG_CTL.BUSY (n : Nat) : FRef := ⟨(SLICE.DLOG_CTL.reg n).addr, 9, 1, 0⟩
def SLICE.DLOG_CTL.MISS (n : Nat) : FRef := ⟨(SLICE.DLOG_CTL.reg n).addr, 32, 32, 0⟩

/-- HOME.CTL (R91). -/
def HOME.CTL.reg (n : Nat) : FRef := ⟨0x800000 + n * 0x4000, 0, 64, 0x6400⟩
def HOME.CTL.APLACE (n : Nat) : FRef := ⟨(HOME.CTL.reg n).addr, 0, 2, 0x6400⟩
def HOME.CTL.PRED_CLR (n : Nat) : FRef := ⟨(HOME.CTL.reg n).addr, 2, 1, 0x6400⟩
def HOME.CTL.TBI (n : Nat) : FRef := ⟨(HOME.CTL.reg n).addr, 8, 14, 0x6400⟩

/-- R91: the cold value of HGMAP[g] sets bits g, g + 24 and, for g < 16, g + 48. -/
def hgmapCold (g : Nat) : Nat := 2 ^ g + 2 ^ (g + 24) + (if g < 16 then 2 ^ (g + 48) else 0)

/-- HOME.HGMAP (R91). -/
def HOME.HGMAP.reg (n i : Nat) : FRef := ⟨0x800100 + n * 0x4000 + i * 8, 0, 64, hgmapCold i⟩
def HOME.HGMAP.HOSTS (n i : Nat) : FRef := ⟨(HOME.HGMAP.reg n i).addr, 0, 64, hgmapCold i⟩

/-- HOME.RECALL (R92). -/
def HOME.RECALL.reg (n : Nat) : FRef := ⟨0x800200 + n * 0x4000, 0, 64, 0⟩
def HOME.RECALL.INDEX (n : Nat) : FRef := ⟨(HOME.RECALL.reg n).addr, 0, 5, 0⟩
def HOME.RECALL.KIND (n : Nat) : FRef := ⟨(HOME.RECALL.reg n).addr, 5, 2, 0⟩
def HOME.RECALL.GO (n : Nat) : FRef := ⟨(HOME.RECALL.reg n).addr, 62, 1, 0⟩
def HOME.RECALL.BUSY (n : Nat) : FRef := ⟨(HOME.RECALL.reg n).addr, 63, 1, 0⟩

/-- HOME.ERR (R92). -/
def HOME.ERR.reg (n : Nat) : FRef := ⟨0x800208 + n * 0x4000, 0, 64, 0⟩
def HOME.ERR.HGMAP (n : Nat) : FRef := ⟨(HOME.ERR.reg n).addr, 0, 1, 0⟩
def HOME.ERR.TBI_EXP (n : Nat) : FRef := ⟨(HOME.ERR.reg n).addr, 1, 1, 0⟩
def HOME.ERR.BADOP (n : Nat) : FRef := ⟨(HOME.ERR.reg n).addr, 2, 1, 0⟩

/-- HOME.PSTAT (R92). -/
def HOME.PSTAT.reg (n : Nat) : FRef := ⟨0x800210 + n * 0x4000, 0, 64, 0⟩
def HOME.PSTAT.COUNT (n : Nat) : FRef := ⟨(HOME.PSTAT.reg n).addr, 0, 32, 0⟩
def HOME.PSTAT.WHY (n : Nat) : FRef := ⟨(HOME.PSTAT.reg n).addr, 32, 4, 0⟩

/-- HOME.PFPA (R92). -/
def HOME.PFPA.reg (n : Nat) : FRef := ⟨0x800218 + n * 0x4000, 0, 64, 0⟩
def HOME.PFPA.FPA (n : Nat) : FRef := ⟨(HOME.PFPA.reg n).addr, 6, 46, 0⟩

/-- HOME.SFSTAT (R92). -/
def HOME.SFSTAT.reg (n : Nat) : FRef := ⟨0x800220 + n * 0x4000, 0, 64, 0⟩
def HOME.SFSTAT.OCC (n : Nat) : FRef := ⟨(HOME.SFSTAT.reg n).addr, 0, 16, 0⟩
def HOME.SFSTAT.RECALLS (n : Nat) : FRef := ⟨(HOME.SFSTAT.reg n).addr, 16, 6, 0⟩
def HOME.SFSTAT.WAITMAX (n : Nat) : FRef := ⟨(HOME.SFSTAT.reg n).addr, 32, 32, 0⟩

/-- HBM.STAT (R122). -/
def HBM.STAT.reg (n : Nat) : FRef := ⟨0xB00000 + n * 0x10000, 0, 64, 0⟩
def HBM.STAT.READY (n : Nat) : FRef := ⟨(HBM.STAT.reg n).addr, 0, 1, 0⟩
def HBM.STAT.SREF (n : Nat) : FRef := ⟨(HBM.STAT.reg n).addr, 1, 1, 0⟩
def HBM.STAT.RET_USED (n : Nat) : FRef := ⟨(HBM.STAT.reg n).addr, 2, 11, 0⟩
def HBM.STAT.RSTATE (n : Nat) : FRef := ⟨(HBM.STAT.reg n).addr, 13, 3, 0⟩
def HBM.STAT.PCFAIL (n : Nat) : FRef := ⟨(HBM.STAT.reg n).addr, 16, 32, 0⟩

/-- HBM.CAL (R122). -/
def HBM.CAL.reg (n : Nat) : FRef := ⟨0xB00008 + n * 0x10000, 0, 64, 0x28064⟩
def HBM.CAL.PERIOD (n : Nat) : FRef := ⟨(HBM.CAL.reg n).addr, 0, 14, 0x28064⟩
def HBM.CAL.DRIFT (n : Nat) : FRef := ⟨(HBM.CAL.reg n).addr, 14, 8, 0x28064⟩
def HBM.CAL.NOW (n : Nat) : FRef := ⟨(HBM.CAL.reg n).addr, 22, 1, 0x28064⟩
def HBM.CAL.PAUSEMAX (n : Nat) : FRef := ⟨(HBM.CAL.reg n).addr, 32, 16, 0x28064⟩

/-- HBM.RETCFG (R122). -/
def HBM.RETCFG.reg (n : Nat) : FRef := ⟨0xB00010 + n * 0x10000, 0, 64, 0x104⟩
def HBM.RETCFG.THRESH (n : Nat) : FRef := ⟨(HBM.RETCFG.reg n).addr, 0, 8, 0x104⟩
def HBM.RETCFG.AUTO (n : Nat) : FRef := ⟨(HBM.RETCFG.reg n).addr, 8, 1, 0x104⟩
def HBM.RETCFG.PAGE (n : Nat) : FRef := ⟨(HBM.RETCFG.reg n).addr, 9, 24, 0x104⟩
def HBM.RETCFG.GO (n : Nat) : FRef := ⟨(HBM.RETCFG.reg n).addr, 62, 1, 0x104⟩
def HBM.RETCFG.BUSY (n : Nat) : FRef := ⟨(HBM.RETCFG.reg n).addr, 63, 1, 0x104⟩

/-- HBM.RCUR (R122). -/
def HBM.RCUR.reg (n : Nat) : FRef := ⟨0xB00018 + n * 0x10000, 0, 64, 0⟩
def HBM.RCUR.CUR (n : Nat) : FRef := ⟨(HBM.RCUR.reg n).addr, 0, 26, 0⟩
def HBM.RCUR.CKPT (n : Nat) : FRef := ⟨(HBM.RCUR.reg n).addr, 26, 16, 0⟩

/-- HBM.RCURE (R122). -/
def HBM.RCURE.reg (i : Nat) : FRef := ⟨0xB09200 + i * 8, 0, 64, 0⟩
def HBM.RCURE.CUR (i : Nat) : FRef := ⟨(HBM.RCURE.reg i).addr, 0, 26, 0⟩
def HBM.RCURE.CKPT (i : Nat) : FRef := ⟨(HBM.RCURE.reg i).addr, 26, 16, 0⟩

/-- HBM.RETMAP (R122). -/
def HBM.RETMAP.reg (n i : Nat) : FRef := ⟨0xB02000 + n * 0x10000 + i * 8, 0, 64, 0⟩
def HBM.RETMAP.V (n i : Nat) : FRef := ⟨(HBM.RETMAP.reg n i).addr, 0, 1, 0⟩
def HBM.RETMAP.PAGE (n i : Nat) : FRef := ⟨(HBM.RETMAP.reg n i).addr, 1, 24, 0⟩

/-- HBM.PART (R122). -/
def HBM.PART.reg : FRef := ⟨0xB08000, 0, 64, 0⟩
def HBM.PART.F : FRef := ⟨(HBM.PART.reg).addr, 0, 6, 0⟩
def HBM.PART.M : FRef := ⟨(HBM.PART.reg).addr, 6, 5, 0⟩
def HBM.PART.Q : FRef := ⟨(HBM.PART.reg).addr, 11, 5, 0⟩
def HBM.PART.ERR : FRef := ⟨(HBM.PART.reg).addr, 16, 1, 0⟩
def HBM.PART.LOCK : FRef := ⟨(HBM.PART.reg).addr, 63, 1, 0⟩

/-- HBM.MIRTBL (R122). -/
def HBM.MIRTBL.reg : FRef := ⟨0xB08008, 0, 64, 8⟩
def HBM.MIRTBL.EN : FRef := ⟨(HBM.MIRTBL.reg).addr, 0, 1, 8⟩
def HBM.MIRTBL.HEDGE : FRef := ⟨(HBM.MIRTBL.reg).addr, 1, 3, 8⟩
def HBM.MIRTBL.BASE : FRef := ⟨(HBM.MIRTBL.reg).addr, 21, 31, 8⟩

/-- HBM.MIRCMD (R122). -/
def HBM.MIRCMD.reg : FRef := ⟨0xB08010, 0, 64, 0⟩
def HBM.MIRCMD.EXT_P : FRef := ⟨(HBM.MIRCMD.reg).addr, 0, 19, 0⟩
def HBM.MIRCMD.EXT_S : FRef := ⟨(HBM.MIRCMD.reg).addr, 19, 19, 0⟩
def HBM.MIRCMD.OP : FRef := ⟨(HBM.MIRCMD.reg).addr, 38, 3, 0⟩
def HBM.MIRCMD.STATUS : FRef := ⟨(HBM.MIRCMD.reg).addr, 41, 6, 0⟩
def HBM.MIRCMD.GO : FRef := ⟨(HBM.MIRCMD.reg).addr, 62, 1, 0⟩
def HBM.MIRCMD.BUSY : FRef := ⟨(HBM.MIRCMD.reg).addr, 63, 1, 0⟩

/-- HBM.SCRUB (R122). -/
def HBM.SCRUB.reg : FRef := ⟨0xB08018, 0, 64, 0x1275002A3000258⟩
def HBM.SCRUB.SRAM_S : FRef := ⟨(HBM.SCRUB.reg).addr, 0, 17, 0x1275002A3000258⟩
def HBM.SCRUB.HBM_S : FRef := ⟨(HBM.SCRUB.reg).addr, 17, 20, 0x1275002A3000258⟩
def HBM.SCRUB.EXP_S : FRef := ⟨(HBM.SCRUB.reg).addr, 37, 22, 0x1275002A3000258⟩

/-- HBM.RESIL (R122). -/
def HBM.RESIL.reg : FRef := ⟨0xB08020, 0, 64, 0x6400⟩
def HBM.RESIL.TARGET : FRef := ⟨(HBM.RESIL.reg).addr, 0, 6, 0x6400⟩
def HBM.RESIL.KIND : FRef := ⟨(HBM.RESIL.reg).addr, 6, 2, 0x6400⟩
def HBM.RESIL.RATE : FRef := ⟨(HBM.RESIL.reg).addr, 8, 12, 0x6400⟩
def HBM.RESIL.GO : FRef := ⟨(HBM.RESIL.reg).addr, 62, 1, 0x6400⟩

/-- HBM.EXP (R122). -/
def HBM.EXP.reg (i : Nat) : FRef := ⟨0xB09000 + i * 8, 0, 64, 0⟩
def HBM.EXP.PORT (i : Nat) : FRef := ⟨(HBM.EXP.reg i).addr, 0, 7, 0⟩
def HBM.EXP.CAP_GIB (i : Nat) : FRef := ⟨(HBM.EXP.reg i).addr, 7, 12, 0⟩
def HBM.EXP.STATE (i : Nat) : FRef := ⟨(HBM.EXP.reg i).addr, 19, 3, 0⟩
def HBM.EXP.EPOCH (i : Nat) : FRef := ⟨(HBM.EXP.reg i).addr, 22, 8, 0⟩
def HBM.EXP.CMD (i : Nat) : FRef := ⟨(HBM.EXP.reg i).addr, 30, 2, 0⟩
def HBM.EXP.RSTATE (i : Nat) : FRef := ⟨(HBM.EXP.reg i).addr, 32, 3, 0⟩
def HBM.EXP.ERR (i : Nat) : FRef := ⟨(HBM.EXP.reg i).addr, 35, 3, 0⟩
def HBM.EXP.DWHY (i : Nat) : FRef := ⟨(HBM.EXP.reg i).addr, 38, 2, 0⟩
def HBM.EXP.STALE (i : Nat) : FRef := ⟨(HBM.EXP.reg i).addr, 40, 16, 0⟩

/-- PORT.CFG (R160). -/
def PORT.CFG.reg (n : Nat) : FRef := ⟨0x100000 + n * 0x10000, 0, 64, 0x10090⟩
def PORT.CFG.MODE (n : Nat) : FRef := ⟨(PORT.CFG.reg n).addr, 0, 3, 0x10090⟩
def PORT.CFG.WIDTH (n : Nat) : FRef := ⟨(PORT.CFG.reg n).addr, 3, 3, 0x10090⟩
def PORT.CFG.RATE (n : Nat) : FRef := ⟨(PORT.CFG.reg n).addr, 6, 2, 0x10090⟩
def PORT.CFG.HOSTID (n : Nat) : FRef := ⟨(PORT.CFG.reg n).addr, 8, 6, 0x10090⟩
def PORT.CFG.DB (n : Nat) : FRef := ⟨(PORT.CFG.reg n).addr, 14, 1, 0x10090⟩
def PORT.CFG.EN (n : Nat) : FRef := ⟨(PORT.CFG.reg n).addr, 15, 1, 0x10090⟩
def PORT.CFG.CALEN (n : Nat) : FRef := ⟨(PORT.CFG.reg n).addr, 16, 1, 0x10090⟩
def PORT.CFG.RESET (n : Nat) : FRef := ⟨(PORT.CFG.reg n).addr, 17, 1, 0x10090⟩

/-- PORT.STAT (R160). -/
def PORT.STAT.reg (n : Nat) : FRef := ⟨0x100008 + n * 0x10000, 0, 64, 0⟩
def PORT.STAT.LINK (n : Nat) : FRef := ⟨(PORT.STAT.reg n).addr, 0, 3, 0⟩
def PORT.STAT.CWIDTH (n : Nat) : FRef := ⟨(PORT.STAT.reg n).addr, 3, 3, 0⟩
def PORT.STAT.CRATE (n : Nat) : FRef := ⟨(PORT.STAT.reg n).addr, 6, 2, 0⟩
def PORT.STAT.REV (n : Nat) : FRef := ⟨(PORT.STAT.reg n).addr, 8, 1, 0⟩
def PORT.STAT.DWHY (n : Nat) : FRef := ⟨(PORT.STAT.reg n).addr, 9, 4, 0⟩
def PORT.STAT.ERR (n : Nat) : FRef := ⟨(PORT.STAT.reg n).addr, 13, 4, 0⟩
def PORT.STAT.REMDEV (n : Nat) : FRef := ⟨(PORT.STAT.reg n).addr, 17, 3, 0⟩
def PORT.STAT.REMPORT (n : Nat) : FRef := ⟨(PORT.STAT.reg n).addr, 20, 7, 0⟩
def PORT.STAT.LWC (n : Nat) : FRef := ⟨(PORT.STAT.reg n).addr, 27, 1, 0⟩

/-- PORT.LANE (R160). -/
def PORT.LANE.reg (n : Nat) : FRef := ⟨0x100010 + n * 0x10000, 0, 64, 0⟩
def PORT.LANE.POLINV (n : Nat) : FRef := ⟨(PORT.LANE.reg n).addr, 0, 16, 0⟩
def PORT.LANE.LFAIL (n : Nat) : FRef := ⟨(PORT.LANE.reg n).addr, 16, 16, 0⟩
def PORT.LANE.LACT (n : Nat) : FRef := ⟨(PORT.LANE.reg n).addr, 32, 16, 0⟩

/-- PORT.TMR (R160). -/
def PORT.TMR.reg (n : Nat) : FRef := ⟨0x100018 + n * 0x10000, 0, 64, 0x10064206⟩
def PORT.TMR.TACK (n : Nat) : FRef := ⟨(PORT.TMR.reg n).addr, 0, 7, 0x10064206⟩
def PORT.TMR.NREPLAY (n : Nat) : FRef := ⟨(PORT.TMR.reg n).addr, 7, 4, 0x10064206⟩
def PORT.TMR.TCREDIT (n : Nat) : FRef := ⟨(PORT.TMR.reg n).addr, 11, 14, 0x10064206⟩
def PORT.TMR.TNAK (n : Nat) : FRef := ⟨(PORT.TMR.reg n).addr, 25, 7, 0x10064206⟩

/-- PORT.CAL (R160). -/
def PORT.CAL.reg (n : Nat) : FRef := ⟨0x100020 + n * 0x10000, 0, 64, 0x100258⟩
def PORT.CAL.PERIOD (n : Nat) : FRef := ⟨(PORT.CAL.reg n).addr, 0, 17, 0x100258⟩
def PORT.CAL.DRIFT (n : Nat) : FRef := ⟨(PORT.CAL.reg n).addr, 17, 6, 0x100258⟩
def PORT.CAL.NOW (n : Nat) : FRef := ⟨(PORT.CAL.reg n).addr, 23, 1, 0x100258⟩
def PORT.CAL.CYCLES (n : Nat) : FRef := ⟨(PORT.CAL.reg n).addr, 32, 16, 0x100258⟩
def PORT.CAL.SKIPS (n : Nat) : FRef := ⟨(PORT.CAL.reg n).addr, 48, 8, 0x100258⟩

/-- PORT.PEER (R160). -/
def PORT.PEER.reg (n : Nat) : FRef := ⟨0x100028 + n * 0x10000, 0, 64, 0⟩
def PORT.PEER.RELAY (n : Nat) : FRef := ⟨(PORT.PEER.reg n).addr, 0, 8, 0⟩

/-- PORT.PCIE (R160). -/
def PORT.PCIE.reg (n : Nat) : FRef := ⟨0x100030 + n * 0x10000, 0, 64, 0x24⟩
def PORT.PCIE.B2LOG (n : Nat) : FRef := ⟨(PORT.PCIE.reg n).addr, 0, 6, 0x24⟩

/-- PORT.EYE (R160). -/
def PORT.EYE.reg (n i : Nat) : FRef := ⟨0x100100 + n * 0x10000 + i * 8, 0, 64, 0⟩
def PORT.EYE.HM (n i : Nat) : FRef := ⟨(PORT.EYE.reg n i).addr, 0, 6, 0⟩
def PORT.EYE.VM (n i : Nat) : FRef := ⟨(PORT.EYE.reg n i).addr, 6, 8, 0⟩
def PORT.EYE.HMCAL (n i : Nat) : FRef := ⟨(PORT.EYE.reg n i).addr, 14, 6, 0⟩

/-- PORT.GLINK (R160). -/
def PORT.GLINK.reg : FRef := ⟨0x100200, 0, 64, 0x7D00⟩
def PORT.GLINK.DEVID : FRef := ⟨(PORT.GLINK.reg).addr, 0, 3, 0x7D00⟩
def PORT.GLINK.DEVLOCK : FRef := ⟨(PORT.GLINK.reg).addr, 3, 1, 0x7D00⟩
def PORT.GLINK.TREQ : FRef := ⟨(PORT.GLINK.reg).addr, 4, 14, 0x7D00⟩
def PORT.GLINK.DUPMAX : FRef := ⟨(PORT.GLINK.reg).addr, 32, 16, 0x7D00⟩

/-- SORUS.CTL (R188). -/
def SORUS.CTL.reg (n : Nat) : FRef := ⟨0x900000 + n * 0x10000, 0, 64, 4⟩
def SORUS.CTL.WINRSV (n : Nat) : FRef := ⟨(SORUS.CTL.reg n).addr, 0, 5, 4⟩

/-- SORUS.STAT (R188). -/
def SORUS.STAT.reg (n : Nat) : FRef := ⟨0x900008 + n * 0x10000, 0, 64, 8⟩
def SORUS.STAT.SPARE (n : Nat) : FRef := ⟨(SORUS.STAT.reg n).addr, 0, 4, 8⟩
def SORUS.STAT.FENCED (n : Nat) : FRef := ⟨(SORUS.STAT.reg n).addr, 4, 9, 8⟩
def SORUS.STAT.FAILED (n : Nat) : FRef := ⟨(SORUS.STAT.reg n).addr, 13, 9, 8⟩
def SORUS.STAT.UNTESTED (n : Nat) : FRef := ⟨(SORUS.STAT.reg n).addr, 22, 9, 8⟩
def SORUS.STAT.DOWN (n : Nat) : FRef := ⟨(SORUS.STAT.reg n).addr, 31, 8, 8⟩
def SORUS.STAT.ROT (n : Nat) : FRef := ⟨(SORUS.STAT.reg n).addr, 39, 3, 8⟩
def SORUS.STAT.CFGERR (n : Nat) : FRef := ⟨(SORUS.STAT.reg n).addr, 42, 1, 8⟩

/-- SORUS.LFMAP (R188). -/
def SORUS.LFMAP.reg (n : Nat) : FRef := ⟨0x900010 + n * 0x10000, 0, 64, 0x706050403020100⟩
def SORUS.LFMAP.PHYS (n l : Nat) : FRef := ⟨(SORUS.LFMAP.reg n).addr, 0 + 8 * l, 4, 0x706050403020100⟩
def SORUS.LFMAP.GEN (n l : Nat) : FRef := ⟨(SORUS.LFMAP.reg n).addr, 4 + 8 * l, 4, 0x706050403020100⟩

/-- SORUS.WD (R188). -/
def SORUS.WD.reg (n : Nat) : FRef := ⟨0x900018 + n * 0x10000, 0, 64, 5⟩
def SORUS.WD.TWD (n : Nat) : FRef := ⟨(SORUS.WD.reg n).addr, 0, 7, 5⟩
def SORUS.WD.HUNG (n : Nat) : FRef := ⟨(SORUS.WD.reg n).addr, 32, 16, 5⟩

/-- SORUS.FENCE (R188). -/
def SORUS.FENCE.reg (n : Nat) : FRef := ⟨0x900020 + n * 0x10000, 0, 64, 0xF00000000⟩
def SORUS.FENCE.ATTEMPTS (n : Nat) : FRef := ⟨(SORUS.FENCE.reg n).addr, 0, 32, 0xF00000000⟩
def SORUS.FENCE.LAST (n : Nat) : FRef := ⟨(SORUS.FENCE.reg n).addr, 32, 4, 0xF00000000⟩

/-- SORUS.LSRC (R188). -/
def SORUS.LSRC.reg (n : Nat) : FRef := ⟨0x900028 + n * 0x10000, 0, 64, 0⟩
def SORUS.LSRC.FPA (n : Nat) : FRef := ⟨(SORUS.LSRC.reg n).addr, 6, 46, 0⟩

/-- SORUS.LLOG (R188). -/
def SORUS.LLOG.reg (n : Nat) : FRef := ⟨0x900030 + n * 0x10000, 0, 64, 0⟩
def SORUS.LLOG.EN (n : Nat) : FRef := ⟨(SORUS.LLOG.reg n).addr, 0, 1, 0⟩
def SORUS.LLOG.FPA (n : Nat) : FRef := ⟨(SORUS.LLOG.reg n).addr, 6, 46, 0⟩

/-- SORUS.LCTL (R188). -/
def SORUS.LCTL.reg (n : Nat) : FRef := ⟨0x900038 + n * 0x10000, 0, 64, 0⟩
def SORUS.LCTL.OP (n : Nat) : FRef := ⟨(SORUS.LCTL.reg n).addr, 0, 2, 0⟩
def SORUS.LCTL.INDEX (n : Nat) : FRef := ⟨(SORUS.LCTL.reg n).addr, 2, 10, 0⟩
def SORUS.LCTL.DEST (n : Nat) : FRef := ⟨(SORUS.LCTL.reg n).addr, 12, 14, 0⟩
def SORUS.LCTL.LOC (n : Nat) : FRef := ⟨(SORUS.LCTL.reg n).addr, 26, 1, 0⟩
def SORUS.LCTL.SLO (n : Nat) : FRef := ⟨(SORUS.LCTL.reg n).addr, 27, 12, 0⟩
def SORUS.LCTL.SHI (n : Nat) : FRef := ⟨(SORUS.LCTL.reg n).addr, 39, 12, 0⟩
def SORUS.LCTL.STATUS (n : Nat) : FRef := ⟨(SORUS.LCTL.reg n).addr, 51, 5, 0⟩
def SORUS.LCTL.GO (n : Nat) : FRef := ⟨(SORUS.LCTL.reg n).addr, 62, 1, 0⟩
def SORUS.LCTL.BUSY (n : Nat) : FRef := ⟨(SORUS.LCTL.reg n).addr, 63, 1, 0⟩

/-- SORUS.SPTABA (R188). -/
def SORUS.SPTABA.reg (n i : Nat) : FRef := ⟨0x901000 + n * 0x10000 + i * 16, 0, 64, 0⟩
def SORUS.SPTABA.V (n i : Nat) : FRef := ⟨(SORUS.SPTABA.reg n i).addr, 0, 1, 0⟩
def SORUS.SPTABA.PRIV (n i : Nat) : FRef := ⟨(SORUS.SPTABA.reg n i).addr, 1, 1, 0⟩
def SORUS.SPTABA.LOC (n i : Nat) : FRef := ⟨(SORUS.SPTABA.reg n i).addr, 2, 1, 0⟩
def SORUS.SPTABA.MAXSTR (n i : Nat) : FRef := ⟨(SORUS.SPTABA.reg n i).addr, 3, 6, 0⟩
def SORUS.SPTABA.RUN (n i : Nat) : FRef := ⟨(SORUS.SPTABA.reg n i).addr, 9, 6, 0⟩
def SORUS.SPTABA.SLO (n i : Nat) : FRef := ⟨(SORUS.SPTABA.reg n i).addr, 15, 12, 0⟩
def SORUS.SPTABA.SHI (n i : Nat) : FRef := ⟨(SORUS.SPTABA.reg n i).addr, 27, 12, 0⟩
def SORUS.SPTABA.CLEN (n i : Nat) : FRef := ⟨(SORUS.SPTABA.reg n i).addr, 39, 25, 0⟩

/-- SORUS.SPTABB (R188). -/
def SORUS.SPTABB.reg (n i : Nat) : FRef := ⟨0x901008 + n * 0x10000 + i * 16, 0, 64, 0⟩
def SORUS.SPTABB.BASE (n i : Nat) : FRef := ⟨(SORUS.SPTABB.reg n i).addr, 0, 52, 0⟩

/-- SORUS.CHCFG (R188). -/
def SORUS.CHCFG.reg (n i : Nat) : FRef := ⟨0x905000 + n * 0x10000 + i * 8, 0, 64, 0x40⟩
def SORUS.CHCFG.EN (n i : Nat) : FRef := ⟨(SORUS.CHCFG.reg n i).addr, 0, 1, 0x40⟩
def SORUS.CHCFG.START (n i : Nat) : FRef := ⟨(SORUS.CHCFG.reg n i).addr, 1, 1, 0x40⟩
def SORUS.CHCFG.IDEM (n i : Nat) : FRef := ⟨(SORUS.CHCFG.reg n i).addr, 2, 1, 0x40⟩
def SORUS.CHCFG.PRIV (n i : Nat) : FRef := ⟨(SORUS.CHCFG.reg n i).addr, 3, 1, 0x40⟩
def SORUS.CHCFG.DEPTH (n i : Nat) : FRef := ⟨(SORUS.CHCFG.reg n i).addr, 4, 4, 0x40⟩
def SORUS.CHCFG.BASE (n i : Nat) : FRef := ⟨(SORUS.CHCFG.reg n i).addr, 8, 14, 0x40⟩
def SORUS.CHCFG.SPORE (n i : Nat) : FRef := ⟨(SORUS.CHCFG.reg n i).addr, 22, 10, 0x40⟩
def SORUS.CHCFG.ENTRY (n i : Nat) : FRef := ⟨(SORUS.CHCFG.reg n i).addr, 32, 3, 0x40⟩
def SORUS.CHCFG.SLICE (n i : Nat) : FRef := ⟨(SORUS.CHCFG.reg n i).addr, 35, 12, 0x40⟩

/-- SORUS.CHSTAT (R188). -/
def SORUS.CHSTAT.reg (n i : Nat) : FRef := ⟨0x905800 + n * 0x10000 + i * 8, 0, 64, 0⟩
def SORUS.CHSTAT.OCC (n i : Nat) : FRef := ⟨(SORUS.CHSTAT.reg n i).addr, 0, 13, 0⟩
def SORUS.CHSTAT.SPILL (n i : Nat) : FRef := ⟨(SORUS.CHSTAT.reg n i).addr, 13, 1, 0⟩
def SORUS.CHSTAT.RUNNING (n i : Nat) : FRef := ⟨(SORUS.CHSTAT.reg n i).addr, 14, 1, 0⟩
def SORUS.CHSTAT.LOST (n i : Nat) : FRef := ⟨(SORUS.CHSTAT.reg n i).addr, 32, 32, 0⟩

/-- SORUS.SLSERVE (R188). -/
def SORUS.SLSERVE.reg (n i : Nat) : FRef := ⟨0x906000 + n * 0x10000 + i * 8, 0, 64, 0⟩
def SORUS.SLSERVE.SLICES (n i : Nat) : FRef := ⟨(SORUS.SLSERVE.reg n i).addr, 0, 64, 0⟩

/-- SORUS.FRECA (R188). -/
def SORUS.FRECA.reg (n i : Nat) : FRef := ⟨0x907000 + n * 0x10000 + i * 16, 0, 64, 0⟩
def SORUS.FRECA.V (n i : Nat) : FRef := ⟨(SORUS.FRECA.reg n i).addr, 0, 1, 0⟩
def SORUS.FRECA.OVF (n i : Nat) : FRef := ⟨(SORUS.FRECA.reg n i).addr, 1, 7, 0⟩
def SORUS.FRECA.CAUSE (n i : Nat) : FRef := ⟨(SORUS.FRECA.reg n i).addr, 8, 8, 0⟩
def SORUS.FRECA.SLICE (n i : Nat) : FRef := ⟨(SORUS.FRECA.reg n i).addr, 16, 12, 0⟩
def SORUS.FRECA.PRIV (n i : Nat) : FRef := ⟨(SORUS.FRECA.reg n i).addr, 28, 1, 0⟩
def SORUS.FRECA.PC (n i : Nat) : FRef := ⟨(SORUS.FRECA.reg n i).addr, 32, 32, 0⟩

/-- SORUS.FRECB (R188). -/
def SORUS.FRECB.reg (n i : Nat) : FRef := ⟨0x907008 + n * 0x10000 + i * 16, 0, 64, 0⟩
def SORUS.FRECB.ADDR (n i : Nat) : FRef := ⟨(SORUS.FRECB.reg n i).addr, 0, 52, 0⟩
def SORUS.FRECB.SPORE (n i : Nat) : FRef := ⟨(SORUS.FRECB.reg n i).addr, 52, 10, 0⟩

/-- SLICE.SQA (R279). -/
def SLICE.SQA.reg (n i : Nat) : FRef := ⟨0x1000100 + n * 0x1000 + i * 16, 0, 64, 8⟩
def SLICE.SQA.EN (n i : Nat) : FRef := ⟨(SLICE.SQA.reg n i).addr, 0, 1, 8⟩
def SLICE.SQA.LOGSZ (n i : Nat) : FRef := ⟨(SLICE.SQA.reg n i).addr, 1, 4, 8⟩
def SLICE.SQA.BASE (n i : Nat) : FRef := ⟨(SLICE.SQA.reg n i).addr, 10, 38, 8⟩
def SLICE.SQA.ERRVEC (n i : Nat) : FRef := ⟨(SLICE.SQA.reg n i).addr, 48, 4, 8⟩
def SLICE.SQA.ERRIE (n i : Nat) : FRef := ⟨(SLICE.SQA.reg n i).addr, 52, 1, 8⟩

/-- SLICE.SQB (R279). -/
def SLICE.SQB.reg (n i : Nat) : FRef := ⟨0x1000108 + n * 0x1000 + i * 16, 0, 64, 0⟩
def SLICE.SQB.HEAD (n i : Nat) : FRef := ⟨(SLICE.SQB.reg n i).addr, 0, 16, 0⟩
def SLICE.SQB.TAIL (n i : Nat) : FRef := ⟨(SLICE.SQB.reg n i).addr, 16, 16, 0⟩
def SLICE.SQB.STATE (n i : Nat) : FRef := ⟨(SLICE.SQB.reg n i).addr, 32, 2, 0⟩
def SLICE.SQB.REASON (n i : Nat) : FRef := ⟨(SLICE.SQB.reg n i).addr, 34, 4, 0⟩
def SLICE.SQB.ERRIDX (n i : Nat) : FRef := ⟨(SLICE.SQB.reg n i).addr, 38, 16, 0⟩
def SLICE.SQB.POOL (n i : Nat) : FRef := ⟨(SLICE.SQB.reg n i).addr, 54, 1, 0⟩

/-- SLICE.CQA (R279). -/
def SLICE.CQA.reg (n i : Nat) : FRef := ⟨0x1000180 + n * 0x1000 + i * 16, 0, 64, 8⟩
def SLICE.CQA.EN (n i : Nat) : FRef := ⟨(SLICE.CQA.reg n i).addr, 0, 1, 8⟩
def SLICE.CQA.LOGSZ (n i : Nat) : FRef := ⟨(SLICE.CQA.reg n i).addr, 1, 4, 8⟩
def SLICE.CQA.BASE (n i : Nat) : FRef := ⟨(SLICE.CQA.reg n i).addr, 9, 39, 8⟩
def SLICE.CQA.VEC (n i : Nat) : FRef := ⟨(SLICE.CQA.reg n i).addr, 48, 4, 8⟩
def SLICE.CQA.IE (n i : Nat) : FRef := ⟨(SLICE.CQA.reg n i).addr, 52, 1, 8⟩
def SLICE.CQA.FULLIE (n i : Nat) : FRef := ⟨(SLICE.CQA.reg n i).addr, 53, 1, 8⟩

/-- SLICE.CQB (R279). -/
def SLICE.CQB.reg (n i : Nat) : FRef := ⟨0x1000188 + n * 0x1000 + i * 16, 0, 64, 0⟩
def SLICE.CQB.HEAD (n i : Nat) : FRef := ⟨(SLICE.CQB.reg n i).addr, 0, 16, 0⟩
def SLICE.CQB.TAIL (n i : Nat) : FRef := ⟨(SLICE.CQB.reg n i).addr, 16, 16, 0⟩
def SLICE.CQB.HELD (n i : Nat) : FRef := ⟨(SLICE.CQB.reg n i).addr, 32, 5, 0⟩
def SLICE.CQB.RSV (n i : Nat) : FRef := ⟨(SLICE.CQB.reg n i).addr, 37, 17, 0⟩
def SLICE.CQB.FULL (n i : Nat) : FRef := ⟨(SLICE.CQB.reg n i).addr, 54, 1, 0⟩
def SLICE.CQB.HERR (n i : Nat) : FRef := ⟨(SLICE.CQB.reg n i).addr, 55, 1, 0⟩
def SLICE.CQB.WERR (n i : Nat) : FRef := ⟨(SLICE.CQB.reg n i).addr, 56, 1, 0⟩
def SLICE.CQB.ARMED (n i : Nat) : FRef := ⟨(SLICE.CQB.reg n i).addr, 57, 1, 0⟩
def SLICE.CQB.POOL (n i : Nat) : FRef := ⟨(SLICE.CQB.reg n i).addr, 58, 1, 0⟩

/-- SLICE.WIN (R279). -/
def SLICE.WIN.reg (n i : Nat) : FRef := ⟨0x1000200 + n * 0x1000 + i * 8, 0, 64, 0xA0000⟩
def SLICE.WIN.EN (n i : Nat) : FRef := ⟨(SLICE.WIN.reg n i).addr, 0, 1, 0xA0000⟩
def SLICE.WIN.IDEM (n i : Nat) : FRef := ⟨(SLICE.WIN.reg n i).addr, 1, 1, 0xA0000⟩
def SLICE.WIN.ENTRY (n i : Nat) : FRef := ⟨(SLICE.WIN.reg n i).addr, 2, 3, 0xA0000⟩
def SLICE.WIN.SPORE (n i : Nat) : FRef := ⟨(SLICE.WIN.reg n i).addr, 5, 10, 0xA0000⟩
def SLICE.WIN.HOLD (n i : Nat) : FRef := ⟨(SLICE.WIN.reg n i).addr, 15, 8, 0xA0000⟩

/-- QM.CTL (R310). -/
def QM.CTL.reg : FRef := ⟨0xB40000, 0, 64, 0x80⟩
def QM.CTL.EN : FRef := ⟨(QM.CTL.reg).addr, 0, 1, 0x80⟩
def QM.CTL.HEADW : FRef := ⟨(QM.CTL.reg).addr, 1, 7, 0x80⟩

/-- QM.MREG (R310). -/
def QM.MREG.reg : FRef := ⟨0xB40008, 0, 64, 0⟩
def QM.MREG.SIZE : FRef := ⟨(QM.MREG.reg).addr, 0, 6, 0⟩
def QM.MREG.BASE : FRef := ⟨(QM.MREG.reg).addr, 6, 7, 0⟩

/-- QM.SPILL (R310). -/
def QM.SPILL.reg : FRef := ⟨0xB40010, 0, 64, 0x4000400008000⟩
def QM.SPILL.EN : FRef := ⟨(QM.SPILL.reg).addr, 0, 1, 0x4000400008000⟩
def QM.SPILL.LOW : FRef := ⟨(QM.SPILL.reg).addr, 1, 18, 0x4000400008000⟩
def QM.SPILL.HIGH : FRef := ⟨(QM.SPILL.reg).addr, 19, 18, 0x4000400008000⟩
def QM.SPILL.RSV : FRef := ⟨(QM.SPILL.reg).addr, 37, 18, 0x4000400008000⟩

/-- QM.GTH (R310). -/
def QM.GTH.reg : FRef := ⟨0xB40018, 0, 64, 0⟩
def QM.GTH.GTH_R : FRef := ⟨(QM.GTH.reg).addr, 0, 30, 0⟩
def QM.GTH.GTH_Y : FRef := ⟨(QM.GTH.reg).addr, 30, 30, 0⟩

/-- QM.CTRBASE (R310). -/
def QM.CTRBASE.reg : FRef := ⟨0xB40020, 0, 64, 0⟩
def QM.CTRBASE.EN : FRef := ⟨(QM.CTRBASE.reg).addr, 0, 1, 0⟩
def QM.CTRBASE.BASE : FRef := ⟨(QM.CTRBASE.reg).addr, 21, 31, 0⟩

/-- QM.STAT (R310). -/
def QM.STAT.reg : FRef := ⟨0xB40028, 0, 64, 0x30000⟩
def QM.STAT.OPBFREE : FRef := ⟨(QM.STAT.reg).addr, 0, 18, 0x30000⟩
def QM.STAT.SPILLING : FRef := ⟨(QM.STAT.reg).addr, 18, 1, 0x30000⟩
def QM.STAT.CFGERR : FRef := ⟨(QM.STAT.reg).addr, 19, 1, 0x30000⟩

/-- QM.SPSTAT (R310). -/
def QM.SPSTAT.reg : FRef := ⟨0xB40030, 0, 64, 0⟩
def QM.SPSTAT.SPUSED : FRef := ⟨(QM.SPSTAT.reg).addr, 0, 29, 0⟩
def QM.SPSTAT.SPCAP : FRef := ⟨(QM.SPSTAT.reg).addr, 29, 29, 0⟩

/-- QM.TCMD (R310). -/
def QM.TCMD.reg : FRef := ⟨0xB40040, 0, 64, 0⟩
def QM.TCMD.TABLE : FRef := ⟨(QM.TCMD.reg).addr, 0, 3, 0⟩
def QM.TCMD.INDEX : FRef := ⟨(QM.TCMD.reg).addr, 3, 17, 0⟩
def QM.TCMD.OP : FRef := ⟨(QM.TCMD.reg).addr, 20, 2, 0⟩
def QM.TCMD.STATUS : FRef := ⟨(QM.TCMD.reg).addr, 22, 4, 0⟩
def QM.TCMD.GO : FRef := ⟨(QM.TCMD.reg).addr, 62, 1, 0⟩
def QM.TCMD.BUSY : FRef := ⟨(QM.TCMD.reg).addr, 63, 1, 0⟩

/-- QM.TDATA (R310). -/
def QM.TDATA.reg (i : Nat) : FRef := ⟨0xB40048 + i * 8, 0, 64, 0⟩
def QM.TDATA.WORD (i : Nat) : FRef := ⟨(QM.TDATA.reg i).addr, 0, 64, 0⟩

/-- SLOT.GCTL (R329). -/
def SLOT.GCTL.reg : FRef := ⟨0xBB0000, 0, 64, 0⟩
def SLOT.GCTL.LOCK : FRef := ⟨(SLOT.GCTL.reg).addr, 0, 1, 0⟩
def SLOT.GCTL.CFGERR : FRef := ⟨(SLOT.GCTL.reg).addr, 1, 1, 0⟩

/-- SLOT.CTL (R329). -/
def SLOT.CTL.reg (n : Nat) : FRef := ⟨0xBB1000 + n * 0x40, 0, 64, 0x1FC⟩
def SLOT.CTL.MODE (n : Nat) : FRef := ⟨(SLOT.CTL.reg n).addr, 0, 2, 0x1FC⟩
def SLOT.CTL.PORT (n : Nat) : FRef := ⟨(SLOT.CTL.reg n).addr, 2, 7, 0x1FC⟩

/-- SLOT.LIM (R329). -/
def SLOT.LIM.reg (n : Nat) : FRef := ⟨0xBB1008 + n * 0x40, 0, 64, 0x140A0A19⟩
def SLOT.LIM.ILIM (n : Nat) : FRef := ⟨(SLOT.LIM.reg n).addr, 0, 8, 0x140A0A19⟩
def SLOT.LIM.RLIM (n : Nat) : FRef := ⟨(SLOT.LIM.reg n).addr, 8, 8, 0x140A0A19⟩
def SLOT.LIM.TFAULT (n : Nat) : FRef := ⟨(SLOT.LIM.reg n).addr, 16, 8, 0x140A0A19⟩
def SLOT.LIM.TRAMP (n : Nat) : FRef := ⟨(SLOT.LIM.reg n).addr, 24, 7, 0x140A0A19⟩

/-- SLOT.VTH (R329). -/
def SLOT.VTH.reg (n : Nat) : FRef := ⟨0xBB1010 + n * 0x40, 0, 64, 0x36210D8⟩
def SLOT.VTH.UV (n : Nat) : FRef := ⟨(SLOT.VTH.reg n).addr, 0, 9, 0x36210D8⟩
def SLOT.VTH.OV (n : Nat) : FRef := ⟨(SLOT.VTH.reg n).addr, 9, 9, 0x36210D8⟩
def SLOT.VTH.PGTH (n : Nat) : FRef := ⟨(SLOT.VTH.reg n).addr, 18, 9, 0x36210D8⟩

/-- SLOT.TMR (R329). -/
def SLOT.TMR.reg (n : Nat) : FRef := ⟨0xBB1018 + n * 0x40, 0, 64, 0x19032319014⟩
def SLOT.TMR.TINSERT (n : Nat) : FRef := ⟨(SLOT.TMR.reg n).addr, 0, 10, 0x19032319014⟩
def SLOT.TMR.TRETRY (n : Nat) : FRef := ⟨(SLOT.TMR.reg n).addr, 10, 10, 0x19032319014⟩
def SLOT.TMR.NRETRY (n : Nat) : FRef := ⟨(SLOT.TMR.reg n).addr, 20, 4, 0x19032319014⟩
def SLOT.TMR.TABSENT (n : Nat) : FRef := ⟨(SLOT.TMR.reg n).addr, 24, 10, 0x19032319014⟩
def SLOT.TMR.TPERST (n : Nat) : FRef := ⟨(SLOT.TMR.reg n).addr, 34, 10, 0x19032319014⟩

/-- SLOT.STAT (R329). -/
def SLOT.STAT.reg (n : Nat) : FRef := ⟨0xBB1020 + n * 0x40, 0, 64, 0x40⟩
def SLOT.STAT.STATE (n : Nat) : FRef := ⟨(SLOT.STAT.reg n).addr, 0, 4, 0x40⟩
def SLOT.STAT.PRSNT (n : Nat) : FRef := ⟨(SLOT.STAT.reg n).addr, 4, 1, 0x40⟩
def SLOT.STAT.PWRGD (n : Nat) : FRef := ⟨(SLOT.STAT.reg n).addr, 5, 1, 0x40⟩
def SLOT.STAT.PERST (n : Nat) : FRef := ⟨(SLOT.STAT.reg n).addr, 6, 1, 0x40⟩
def SLOT.STAT.LATCH (n : Nat) : FRef := ⟨(SLOT.STAT.reg n).addr, 7, 1, 0x40⟩
def SLOT.STAT.COUNT (n : Nat) : FRef := ⟨(SLOT.STAT.reg n).addr, 8, 5, 0x40⟩
def SLOT.STAT.REASON (n : Nat) : FRef := ⟨(SLOT.STAT.reg n).addr, 13, 4, 0x40⟩
def SLOT.STAT.TRIPS (n : Nat) : FRef := ⟨(SLOT.STAT.reg n).addr, 32, 16, 0x40⟩

/-- SLOT.MEAS (R329). -/
def SLOT.MEAS.reg (n : Nat) : FRef := ⟨0xBB1028 + n * 0x40, 0, 64, 0⟩
def SLOT.MEAS.ISENSE (n : Nat) : FRef := ⟨(SLOT.MEAS.reg n).addr, 0, 11, 0⟩
def SLOT.MEAS.VIN (n : Nat) : FRef := ⟨(SLOT.MEAS.reg n).addr, 11, 14, 0⟩
def SLOT.MEAS.VOUT (n : Nat) : FRef := ⟨(SLOT.MEAS.reg n).addr, 25, 14, 0⟩

/-- SLOT.PEAK (R329). -/
def SLOT.PEAK.reg (n : Nat) : FRef := ⟨0xBB1030 + n * 0x40, 0, 64, 0⟩
def SLOT.PEAK.IPEAK (n : Nat) : FRef := ⟨(SLOT.PEAK.reg n).addr, 0, 11, 0⟩

/-- SLOT.TTRIP (R329). -/
def SLOT.TTRIP.reg (n : Nat) : FRef := ⟨0xBB1038 + n * 0x40, 0, 64, 0⟩
def SLOT.TTRIP.TIME (n : Nat) : FRef := ⟨(SLOT.TTRIP.reg n).addr, 0, 64, 0⟩

/-- FPC.STAT (R354). -/
def FPC.STAT.reg : FRef := ⟨0xB80000, 0, 64, 0⟩
def FPC.STAT.NCHG : FRef := ⟨(FPC.STAT.reg).addr, 0, 9, 0⟩
def FPC.STAT.RSBUSY : FRef := ⟨(FPC.STAT.reg).addr, 9, 1, 0⟩
def FPC.STAT.NLOCK : FRef := ⟨(FPC.STAT.reg).addr, 10, 8, 0⟩

/-- FPC.OVL (R354). -/
def FPC.OVL.reg : FRef := ⟨0xB80008, 0, 64, 0⟩
def FPC.OVL.NEW : FRef := ⟨(FPC.OVL.reg).addr, 0, 8, 0⟩
def FPC.OVL.OTHER : FRef := ⟨(FPC.OVL.reg).addr, 8, 8, 0⟩
def FPC.OVL.V : FRef := ⟨(FPC.OVL.reg).addr, 16, 1, 0⟩

/-- FPC.PVIOL (R354). -/
def FPC.PVIOL.reg : FRef := ⟨0xB80010, 0, 64, 0⟩
def FPC.PVIOL.FPA : FRef := ⟨(FPC.PVIOL.reg).addr, 6, 46, 0⟩

/-- FPC.PVINFO (R354). -/
def FPC.PVINFO.reg : FRef := ⟨0xB80018, 0, 64, 0⟩
def FPC.PVINFO.REGION : FRef := ⟨(FPC.PVINFO.reg).addr, 0, 8, 0⟩
def FPC.PVINFO.NOREG : FRef := ⟨(FPC.PVINFO.reg).addr, 8, 1, 0⟩
def FPC.PVINFO.AGENT : FRef := ⟨(FPC.PVINFO.reg).addr, 9, 10, 0⟩
def FPC.PVINFO.SLICE : FRef := ⟨(FPC.PVINFO.reg).addr, 19, 12, 0⟩
def FPC.PVINFO.DOMAIN : FRef := ⟨(FPC.PVINFO.reg).addr, 31, 2, 0⟩
def FPC.PVINFO.KIND : FRef := ⟨(FPC.PVINFO.reg).addr, 33, 3, 0⟩

/-- FPC.VCNT (R354). -/
def FPC.VCNT.reg : FRef := ⟨0xB80020, 0, 64, 0⟩
def FPC.VCNT.PRECISE : FRef := ⟨(FPC.VCNT.reg).addr, 0, 32, 0⟩
def FPC.VCNT.NOTICE : FRef := ⟨(FPC.VCNT.reg).addr, 32, 32, 0⟩

/-- FPC.DBG (R354). -/
def FPC.DBG.reg : FRef := ⟨0xB80028, 0, 64, 0⟩
def FPC.DBG.AUTH : FRef := ⟨(FPC.DBG.reg).addr, 0, 1, 0⟩
def FPC.DBG.SCOPE : FRef := ⟨(FPC.DBG.reg).addr, 1, 3, 0⟩
def FPC.DBG.KEYSEL : FRef := ⟨(FPC.DBG.reg).addr, 4, 1, 0⟩
def FPC.DBG.OFF : FRef := ⟨(FPC.DBG.reg).addr, 5, 1, 0⟩
def FPC.DBG.LREAD : FRef := ⟨(FPC.DBG.reg).addr, 16, 16, 0⟩
def FPC.DBG.LWRITE : FRef := ⟨(FPC.DBG.reg).addr, 32, 16, 0⟩

/-- FPC.DBGFPA (R354). -/
def FPC.DBGFPA.reg : FRef := ⟨0xB80030, 0, 64, 0⟩
def FPC.DBGFPA.FPA : FRef := ⟨(FPC.DBGFPA.reg).addr, 6, 46, 0⟩

/-- FPC.REGION0 (R354). -/
def FPC.REGION0.reg (i : Nat) : FRef := ⟨0xB81000 + i * 32, 0, 64, 0⟩
def FPC.REGION0.WORD0 (i : Nat) : FRef := ⟨(FPC.REGION0.reg i).addr, 0, 64, 0⟩

/-- FPC.REGION1 (R354). -/
def FPC.REGION1.reg (i : Nat) : FRef := ⟨0xB81008 + i * 32, 0, 64, 0⟩
def FPC.REGION1.WORD1 (i : Nat) : FRef := ⟨(FPC.REGION1.reg i).addr, 0, 64, 0⟩

/-- FPC.REGION2 (R354). -/
def FPC.REGION2.reg (i : Nat) : FRef := ⟨0xB81010 + i * 32, 0, 64, 0⟩
def FPC.REGION2.WORD2 (i : Nat) : FRef := ⟨(FPC.REGION2.reg i).addr, 0, 64, 0⟩

/-- FPC.REGIONL (R354). -/
def FPC.REGIONL.reg (i : Nat) : FRef := ⟨0xB81018 + i * 32, 0, 64, 0⟩
def FPC.REGIONL.LOCK (i : Nat) : FRef := ⟨(FPC.REGIONL.reg i).addr, 0, 1, 0⟩
def FPC.REGIONL.CHG (i : Nat) : FRef := ⟨(FPC.REGIONL.reg i).addr, 1, 1, 0⟩

/-- SYS.MBXTX (R373). -/
def SYS.MBXTX.reg : FRef := ⟨0x18000, 0, 64, 0⟩
def SYS.MBXTX.LEN : FRef := ⟨(SYS.MBXTX.reg).addr, 0, 13, 0⟩
def SYS.MBXTX.GO : FRef := ⟨(SYS.MBXTX.reg).addr, 13, 1, 0⟩
def SYS.MBXTX.BUSY : FRef := ⟨(SYS.MBXTX.reg).addr, 14, 1, 0⟩
def SYS.MBXTX.RES : FRef := ⟨(SYS.MBXTX.reg).addr, 15, 3, 0⟩

/-- SYS.MBXRX (R373). -/
def SYS.MBXRX.reg : FRef := ⟨0x18008, 0, 64, 0⟩
def SYS.MBXRX.LEN : FRef := ⟨(SYS.MBXRX.reg).addr, 0, 13, 0⟩
def SYS.MBXRX.V : FRef := ⟨(SYS.MBXRX.reg).addr, 13, 1, 0⟩
def SYS.MBXRX.DONE : FRef := ⟨(SYS.MBXRX.reg).addr, 14, 1, 0⟩
def SYS.MBXRX.PEND : FRef := ⟨(SYS.MBXRX.reg).addr, 16, 5, 0⟩

/-- SYS.MBXTXD (R373). -/
def SYS.MBXTXD.reg (i : Nat) : FRef := ⟨0x1A000 + i * 8, 0, 64, 0⟩
def SYS.MBXTXD.DATA (i : Nat) : FRef := ⟨(SYS.MBXTXD.reg i).addr, 0, 64, 0⟩

/-- SYS.MBXRXD (R373). -/
def SYS.MBXRXD.reg (i : Nat) : FRef := ⟨0x1B000 + i * 8, 0, 64, 0⟩
def SYS.MBXRXD.DATA (i : Nat) : FRef := ⟨(SYS.MBXRXD.reg i).addr, 0, 64, 0⟩

/-- EVT.ROUTE (R392). -/
def EVT.ROUTE.reg (i : Nat) : FRef := ⟨0xB90000 + i * 8, 0, 64, 4⟩
def EVT.ROUTE.DEST (i : Nat) : FRef := ⟨(EVT.ROUTE.reg i).addr, 0, 2, 4⟩
def EVT.ROUTE.MASK (i : Nat) : FRef := ⟨(EVT.ROUTE.reg i).addr, 2, 1, 4⟩
def EVT.ROUTE.PEND (i : Nat) : FRef := ⟨(EVT.ROUTE.reg i).addr, 3, 1, 4⟩
def EVT.ROUTE.SLICE (i : Nat) : FRef := ⟨(EVT.ROUTE.reg i).addr, 4, 12, 4⟩
def EVT.ROUTE.VEC (i : Nat) : FRef := ⟨(EVT.ROUTE.reg i).addr, 16, 4, 4⟩
def EVT.ROUTE.SORUS (i : Nat) : FRef := ⟨(EVT.ROUTE.reg i).addr, 20, 5, 4⟩
def EVT.ROUTE.CHAN (i : Nat) : FRef := ⟨(EVT.ROUTE.reg i).addr, 25, 8, 4⟩

/-- EVT.RECA (R392). -/
def EVT.RECA.reg (i : Nat) : FRef := ⟨0xB94000 + i * 16, 0, 64, 0⟩
def EVT.RECA.HEAD (i : Nat) : FRef := ⟨(EVT.RECA.reg i).addr, 0, 64, 0⟩

/-- EVT.RECB (R392). -/
def EVT.RECB.reg (i : Nat) : FRef := ⟨0xB94008 + i * 16, 0, 64, 0⟩
def EVT.RECB.TIME (i : Nat) : FRef := ⟨(EVT.RECB.reg i).addr, 0, 64, 0⟩

/-- EVT.XFPA (R392). -/
def EVT.XFPA.reg (i : Nat) : FRef := ⟨0xB9C000 + i * 8, 0, 64, 0⟩
def EVT.XFPA.FPA (i : Nat) : FRef := ⟨(EVT.XFPA.reg i).addr, 6, 46, 0⟩

/-- CTR.SHCTL (R393). -/
def CTR.SHCTL.reg : FRef := ⟨0xBA0000, 0, 64, 0⟩
def CTR.SHCTL.PERIOD : FRef := ⟨(CTR.SHCTL.reg).addr, 0, 16, 0⟩

/-- CTR.SHSTAT (R393). -/
def CTR.SHSTAT.reg : FRef := ⟨0xBA0008, 0, 64, 0⟩
def CTR.SHSTAT.SEQ : FRef := ⟨(CTR.SHSTAT.reg).addr, 0, 32, 0⟩
def CTR.SHSTAT.BUSY : FRef := ⟨(CTR.SHSTAT.reg).addr, 32, 1, 0⟩

/-- CTR.SHTIME (R393). -/
def CTR.SHTIME.reg : FRef := ⟨0xBA0010, 0, 64, 0⟩
def CTR.SHTIME.T : FRef := ⟨(CTR.SHTIME.reg).addr, 0, 64, 0⟩

/-- CTR.RSEL (R393). -/
def CTR.RSEL.reg : FRef := ⟨0xBA0018, 0, 64, 0⟩
def CTR.RSEL.INDEX : FRef := ⟨(CTR.RSEL.reg).addr, 0, 16, 0⟩
def CTR.RSEL.SPACE : FRef := ⟨(CTR.RSEL.reg).addr, 16, 1, 0⟩
def CTR.RSEL.SHADOW : FRef := ⟨(CTR.RSEL.reg).addr, 17, 1, 0⟩

/-- CTR.RVAL (R393). -/
def CTR.RVAL.reg : FRef := ⟨0xBA0020, 0, 64, 0⟩
def CTR.RVAL.VALUE : FRef := ⟨(CTR.RVAL.reg).addr, 0, 64, 0⟩

/-- CTR.FSEL (R393). -/
def CTR.FSEL.reg (i : Nat) : FRef := ⟨0xBA1000 + i * 8, 0, 64, 0⟩
def CTR.FSEL.SEL (i l : Nat) : FRef := ⟨(CTR.FSEL.reg i).addr, 0 + 7 * l, 7, 0⟩
def CTR.FSEL.CLR (i : Nat) : FRef := ⟨(CTR.FSEL.reg i).addr, 56, 1, 0⟩

/-- CTR.SHEET0 (R393). -/
def CTR.SHEET0.reg (i : Nat) : FRef := ⟨0xBA2000 + i * 32, 0, 64, 0⟩
def CTR.SHEET0.WORD (i : Nat) : FRef := ⟨(CTR.SHEET0.reg i).addr, 0, 64, 0⟩

/-- CTR.SHEET1 (R393). -/
def CTR.SHEET1.reg (i : Nat) : FRef := ⟨0xBA2008 + i * 32, 0, 64, 0⟩
def CTR.SHEET1.WORD (i : Nat) : FRef := ⟨(CTR.SHEET1.reg i).addr, 0, 64, 0⟩

/-- CTR.SHEET2 (R393). -/
def CTR.SHEET2.reg (i : Nat) : FRef := ⟨0xBA2010 + i * 32, 0, 64, 0⟩
def CTR.SHEET2.WORD (i : Nat) : FRef := ⟨(CTR.SHEET2.reg i).addr, 0, 64, 0⟩

/-- CTR.SHEET3 (R393). -/
def CTR.SHEET3.reg (i : Nat) : FRef := ⟨0xBA2018 + i * 32, 0, 64, 0⟩
def CTR.SHEET3.WORD (i : Nat) : FRef := ⟨(CTR.SHEET3.reg i).addr, 0, 64, 0⟩

/-- CTR.SHEETST (R393). -/
def CTR.SHEETST.reg (i : Nat) : FRef := ⟨0xBA2200 + i * 8, 0, 64, 0⟩
def CTR.SHEETST.HEAD (i : Nat) : FRef := ⟨(CTR.SHEETST.reg i).addr, 0, 16, 0⟩
def CTR.SHEETST.TAIL (i : Nat) : FRef := ⟨(CTR.SHEETST.reg i).addr, 16, 16, 0⟩
def CTR.SHEETST.SKIPS (i : Nat) : FRef := ⟨(CTR.SHEETST.reg i).addr, 32, 16, 0⟩
def CTR.SHEETST.BUSY (i : Nat) : FRef := ⟨(CTR.SHEETST.reg i).addr, 48, 1, 0⟩
def CTR.SHEETST.WERR (i : Nat) : FRef := ⟨(CTR.SHEETST.reg i).addr, 49, 1, 0⟩
def CTR.SHEETST.DSEQ (i : Nat) : FRef := ⟨(CTR.SHEETST.reg i).addr, 50, 14, 0⟩

/-- SYS.RSTSTAT (R415). -/
def SYS.RSTSTAT.reg : FRef := ⟨0x10000, 0, 64, 0⟩
def SYS.RSTSTAT.CAUSE : FRef := ⟨(SYS.RSTSTAT.reg).addr, 0, 3, 0⟩
def SYS.RSTSTAT.WARMS : FRef := ⟨(SYS.RSTSTAT.reg).addr, 3, 16, 0⟩
def SYS.RSTSTAT.SAFEPIN : FRef := ⟨(SYS.RSTSTAT.reg).addr, 19, 1, 0⟩

/-- SYS.SAFE (R415). -/
def SYS.SAFE.reg : FRef := ⟨0x10008, 0, 64, 0⟩
def SYS.SAFE.ACTIVE : FRef := ⟨(SYS.SAFE.reg).addr, 0, 1, 0⟩
def SYS.SAFE.REASON : FRef := ⟨(SYS.SAFE.reg).addr, 1, 4, 0⟩
def SYS.SAFE.ARG : FRef := ⟨(SYS.SAFE.reg).addr, 5, 8, 0⟩

/-- SYS.SAFETIME (R415). -/
def SYS.SAFETIME.reg : FRef := ⟨0x10010, 0, 64, 0⟩
def SYS.SAFETIME.TIME : FRef := ⟨(SYS.SAFETIME.reg).addr, 0, 64, 0⟩

/-- SYS.THERM (R415). -/
def SYS.THERM.reg : FRef := ⟨0x10018, 0, 64, 0x2E4⟩
def SYS.THERM.TTHROT : FRef := ⟨(SYS.THERM.reg).addr, 0, 7, 0x2E4⟩
def SYS.THERM.HYST : FRef := ⟨(SYS.THERM.reg).addr, 7, 4, 0x2E4⟩
def SYS.THERM.THROTTLING : FRef := ⟨(SYS.THERM.reg).addr, 11, 1, 0x2E4⟩

/-- SYS.TEMP (R415). -/
def SYS.TEMP.reg (i : Nat) : FRef := ⟨0x10100 + i * 8, 0, 64, 0⟩
def SYS.TEMP.TJ (i : Nat) : FRef := ⟨(SYS.TEMP.reg i).addr, 0, 11, 0⟩
def SYS.TEMP.MAX (i : Nat) : FRef := ⟨(SYS.TEMP.reg i).addr, 16, 11, 0⟩

/-- SYS.SCLK (R415). -/
def SYS.SCLK.reg (i : Nat) : FRef := ⟨0x10200 + i * 8, 0, 64, 0x1E1E⟩
def SYS.SCLK.CAP (i : Nat) : FRef := ⟨(SYS.SCLK.reg i).addr, 0, 5, 0x1E1E⟩
def SYS.SCLK.CUR (i : Nat) : FRef := ⟨(SYS.SCLK.reg i).addr, 8, 5, 0x1E1E⟩
def SYS.SCLK.THR (i : Nat) : FRef := ⟨(SYS.SCLK.reg i).addr, 13, 1, 0x1E1E⟩

/-- DRK.AVS (R418). -/
def DRK.AVS.reg : FRef := ⟨0x18, 0, 64, 0⟩
def DRK.AVS.VT : FRef := ⟨(DRK.AVS.reg).addr, 0, 5, 0⟩

def mapDRK_IDENT : RegDesc := ⟨"DRK.IDENT", 0x0, 0x0, 1, 0, 1, 0x1A060601115C7,
  [⟨0, 16, .ro, false, none⟩,
   ⟨16, 16, .ro, false, none⟩,
   ⟨32, 8, .ro, false, none⟩,
   ⟨40, 8, .ro, false, none⟩,
   ⟨48, 8, .ro, false, none⟩]⟩

def mapDRK_FAMPARAM0 : RegDesc := ⟨"DRK.FAMPARAM0", 0x8, 0x0, 1, 0, 1, 0x400600EC462060,
  [⟨0, 8, .ro, false, none⟩,
   ⟨8, 6, .ro, false, none⟩,
   ⟨14, 4, .ro, false, none⟩,
   ⟨18, 2, .ro, false, none⟩,
   ⟨20, 4, .ro, false, none⟩,
   ⟨24, 12, .ro, false, none⟩,
   ⟨36, 12, .ro, false, none⟩,
   ⟨48, 8, .ro, false, none⟩]⟩

def mapDRK_FAMPARAM1 : RegDesc := ⟨"DRK.FAMPARAM1", 0x10, 0x0, 1, 0, 1, 0x2000040081000,
  [⟨0, 13, .ro, false, none⟩,
   ⟨13, 7, .ro, false, none⟩,
   ⟨20, 12, .ro, false, none⟩,
   ⟨32, 18, .ro, false, none⟩]⟩

def mapBIND_EXTTBL : RegDesc := ⟨"BIND.EXTTBL", 0xBC0000, 0x0, 1, 0, 1, 0x0,
  [⟨0, 1, .rw, false, none⟩,
   ⟨21, 31, .rw, false, none⟩]⟩

def mapBIND_XINV : RegDesc := ⟨"BIND.XINV", 0xBC0008, 0x0, 1, 0, 1, 0x0,
  [⟨0, 27, .rw, false, none⟩,
   ⟨27, 12, .rw, false, none⟩,
   ⟨39, 1, .rw, false, none⟩,
   ⟨62, 1, .wo, false, none⟩,
   ⟨63, 1, .ro, false, none⟩]⟩

def mapBIND_WDSEL : RegDesc := ⟨"BIND.WDSEL", 0xBC0010, 0x0, 1, 0, 1, 0x0,
  [⟨0, 6, .rw, false, none⟩,
   ⟨6, 9, .rw, false, none⟩,
   ⟨15, 4, .rw, false, none⟩]⟩

def mapBIND_WDHPA : RegDesc := ⟨"BIND.WDHPA", 0xBC0018, 0x0, 1, 0, 1, 0x0,
  [⟨0, 21, .rw, false, none⟩,
   ⟨21, 31, .rw, false, none⟩]⟩

def mapBIND_WDSA : RegDesc := ⟨"BIND.WDSA", 0xBC0020, 0x0, 1, 0, 1, 0x0,
  [⟨0, 1, .rw, false, none⟩,
   ⟨1, 1, .rw, false, none⟩,
   ⟨2, 1, .rw, false, none⟩,
   ⟨21, 27, .rw, false, none⟩]⟩

def mapBIND_HGEN : RegDesc := ⟨"BIND.HGEN", 0xBC1000, 0x0, 1, 8, 64, 0x7F0200,
  [⟨0, 8, .ro, false, none⟩,
   ⟨8, 1, .ro, false, none⟩,
   ⟨9, 1, .ro, false, none⟩,
   ⟨10, 1, .wo, false, none⟩,
   ⟨12, 3, .clr, false, none⟩,
   ⟨16, 7, .ro, false, none⟩,
   ⟨23, 1, .ro, false, none⟩]⟩

def mapSLICE_CTL : RegDesc := ⟨"SLICE.CTL", 0x1000000, 0x1000, 4096, 0, 1, 0x3E800,
  [⟨0, 1, .rw, false, none⟩,
   ⟨8, 16, .rw, false, some (1, 65535)⟩]⟩

def mapSLICE_STATE : RegDesc := ⟨"SLICE.STATE", 0x1000008, 0x1000, 4096, 0, 1, 0x0,
  [⟨0, 2, .ro, false, none⟩,
   ⟨2, 20, .ro, false, none⟩,
   ⟨22, 1, .ro, false, none⟩]⟩

def mapSLICE_XLAT_ROOT : RegDesc := ⟨"SLICE.XLAT_ROOT", 0x1000010, 0x1000, 4096, 0, 1, 0x0,
  [⟨0, 1, .ro, false, none⟩,
   ⟨17, 35, .ro, false, none⟩]⟩

def mapSLICE_HOSTS : RegDesc := ⟨"SLICE.HOSTS", 0x1000018, 0x1000, 4096, 0, 1, 0x0,
  [⟨0, 64, .ro, false, none⟩]⟩

def mapSLICE_QSTAT : RegDesc := ⟨"SLICE.QSTAT", 0x1000020, 0x1000, 4096, 0, 1, 0x0,
  [⟨0, 10, .ro, false, none⟩,
   ⟨10, 16, .ro, false, none⟩,
   ⟨26, 10, .ro, false, none⟩,
   ⟨36, 10, .ro, false, none⟩,
   ⟨46, 1, .ro, false, none⟩]⟩

def mapSLICE_DLOG_BASE : RegDesc := ⟨"SLICE.DLOG_BASE", 0x1000028, 0x1000, 4096, 0, 1, 0x0,
  [⟨0, 1, .rw, false, none⟩,
   ⟨12, 40, .rw, false, none⟩]⟩

def mapSLICE_DLOG_RANGE : RegDesc := ⟨"SLICE.DLOG_RANGE", 0x1000030, 0x1000, 4096, 0, 1, 0x0,
  [⟨0, 27, .rw, false, none⟩,
   ⟨27, 27, .rw, false, none⟩]⟩

def mapSLICE_DLOG_CTL : RegDesc := ⟨"SLICE.DLOG_CTL", 0x1000038, 0x1000, 4096, 0, 1, 0x0,
  [⟨0, 8, .ro, false, none⟩,
   ⟨8, 1, .wo, false, none⟩,
   ⟨9, 1, .ro, false, none⟩,
   ⟨32, 32, .ro, false, none⟩]⟩

def mapHOME_CTL : RegDesc := ⟨"HOME.CTL", 0x800000, 0x4000, 64, 0, 1, 0x6400,
  [⟨0, 2, .rw, false, some (0, 2)⟩,
   ⟨2, 1, .wo, false, none⟩,
   ⟨8, 14, .rw, false, some (10, 10000)⟩]⟩

def mapHOME_HGMAP : RegDesc := ⟨"HOME.HGMAP", 0x800100, 0x4000, 64, 8, 24, 0x0,
  [⟨0, 64, .rw, false, none⟩]⟩

def mapHOME_RECALL : RegDesc := ⟨"HOME.RECALL", 0x800200, 0x4000, 64, 0, 1, 0x0,
  [⟨0, 5, .rw, false, none⟩,
   ⟨5, 2, .rw, false, some (0, 2)⟩,
   ⟨62, 1, .wo, false, none⟩,
   ⟨63, 1, .ro, false, none⟩]⟩

def mapHOME_ERR : RegDesc := ⟨"HOME.ERR", 0x800208, 0x4000, 64, 0, 1, 0x0,
  [⟨0, 1, .w1c, false, none⟩,
   ⟨1, 1, .w1c, false, none⟩,
   ⟨2, 1, .w1c, false, none⟩]⟩

def mapHOME_PSTAT : RegDesc := ⟨"HOME.PSTAT", 0x800210, 0x4000, 64, 0, 1, 0x0,
  [⟨0, 32, .ro, false, none⟩,
   ⟨32, 4, .ro, false, none⟩]⟩

def mapHOME_PFPA : RegDesc := ⟨"HOME.PFPA", 0x800218, 0x4000, 64, 0, 1, 0x0,
  [⟨6, 46, .ro, false, none⟩]⟩

def mapHOME_SFSTAT : RegDesc := ⟨"HOME.SFSTAT", 0x800220, 0x4000, 64, 0, 1, 0x0,
  [⟨0, 16, .ro, false, none⟩,
   ⟨16, 6, .ro, false, none⟩,
   ⟨32, 32, .clr, false, none⟩]⟩

def mapHBM_STAT : RegDesc := ⟨"HBM.STAT", 0xB00000, 0x10000, 4, 0, 1, 0x0,
  [⟨0, 1, .ro, false, none⟩,
   ⟨1, 1, .ro, false, none⟩,
   ⟨2, 11, .ro, true, none⟩,
   ⟨13, 3, .ro, true, none⟩,
   ⟨16, 32, .ro, true, none⟩]⟩

def mapHBM_CAL : RegDesc := ⟨"HBM.CAL", 0xB00008, 0x10000, 4, 0, 1, 0x28064,
  [⟨0, 14, .rw, false, some (10, 10000)⟩,
   ⟨14, 8, .rw, false, some (1, 255)⟩,
   ⟨22, 1, .wo, false, none⟩,
   ⟨32, 16, .clr, false, none⟩]⟩

def mapHBM_RETCFG : RegDesc := ⟨"HBM.RETCFG", 0xB00010, 0x10000, 4, 0, 1, 0x104,
  [⟨0, 8, .rw, true, some (1, 255)⟩,
   ⟨8, 1, .rw, true, none⟩,
   ⟨9, 24, .rw, false, none⟩,
   ⟨62, 1, .wo, false, none⟩,
   ⟨63, 1, .ro, false, none⟩]⟩

def mapHBM_RCUR : RegDesc := ⟨"HBM.RCUR", 0xB00018, 0x10000, 4, 0, 1, 0x0,
  [⟨0, 26, .ro, false, none⟩,
   ⟨26, 16, .ro, false, none⟩]⟩

def mapHBM_RCURE : RegDesc := ⟨"HBM.RCURE", 0xB09200, 0x0, 1, 8, 64, 0x0,
  [⟨0, 26, .ro, false, none⟩,
   ⟨26, 16, .ro, false, none⟩]⟩

def mapHBM_RETMAP : RegDesc := ⟨"HBM.RETMAP", 0xB02000, 0x10000, 4, 8, 1024, 0x0,
  [⟨0, 1, .ro, true, none⟩,
   ⟨1, 24, .ro, true, none⟩]⟩

def mapHBM_PART : RegDesc := ⟨"HBM.PART", 0xB08000, 0x0, 1, 0, 1, 0x0,
  [⟨0, 6, .rwl, true, none⟩,
   ⟨6, 5, .rwl, true, none⟩,
   ⟨11, 5, .rwl, true, none⟩,
   ⟨16, 1, .ro, true, none⟩,
   ⟨63, 1, .set, true, none⟩]⟩

def mapHBM_MIRTBL : RegDesc := ⟨"HBM.MIRTBL", 0xB08008, 0x0, 1, 0, 1, 0x8,
  [⟨0, 1, .rw, false, none⟩,
   ⟨1, 3, .rw, false, some (1, 6)⟩,
   ⟨21, 31, .rw, false, none⟩]⟩

def mapHBM_MIRCMD : RegDesc := ⟨"HBM.MIRCMD", 0xB08010, 0x0, 1, 0, 1, 0x0,
  [⟨0, 19, .rw, false, none⟩,
   ⟨19, 19, .rw, false, none⟩,
   ⟨38, 3, .rw, false, some (1, 4)⟩,
   ⟨41, 6, .ro, false, none⟩,
   ⟨62, 1, .wo, false, none⟩,
   ⟨63, 1, .ro, false, none⟩]⟩

/-- An interval outside the range that its table gives counts as a reserved value, which R7 keeps out (DESIGN CHOICE, log entry
134). -/
def mapHBM_SCRUB : RegDesc := ⟨"HBM.SCRUB", 0xB08018, 0x0, 1, 0, 1, 0x1275002A3000258,
  [⟨0, 17, .rw, true, some (60, 86400)⟩,
   ⟨17, 20, .rw, true, some (3600, 604800)⟩,
   ⟨37, 22, .rw, true, some (86400, 2592000)⟩]⟩

def mapHBM_RESIL : RegDesc := ⟨"HBM.RESIL", 0xB08020, 0x0, 1, 0, 1, 0x6400,
  [⟨0, 6, .rw, true, none⟩,
   ⟨6, 2, .rw, true, some (0, 1)⟩,
   ⟨8, 12, .rw, true, some (1, 4095)⟩,
   ⟨62, 1, .wo, false, none⟩]⟩

def mapHBM_EXP : RegDesc := ⟨"HBM.EXP", 0xB09000, 0x0, 1, 8, 64, 0x0,
  [⟨0, 7, .rw, true, none⟩,
   ⟨7, 12, .rw, true, none⟩,
   ⟨19, 3, .ro, true, none⟩,
   ⟨22, 8, .ro, true, none⟩,
   ⟨30, 2, .wo, false, none⟩,
   ⟨32, 3, .ro, true, none⟩,
   ⟨35, 3, .ro, true, none⟩,
   ⟨38, 2, .ro, true, none⟩,
   ⟨40, 16, .ro, true, none⟩]⟩

def mapPORT_CFG : RegDesc := ⟨"PORT.CFG", 0x100000, 0x10000, 96, 0, 1, 0x10090,
  [⟨0, 3, .rw, false, some (0, 4)⟩,
   ⟨3, 3, .rw, false, some (0, 4)⟩,
   ⟨6, 2, .rw, false, some (0, 2)⟩,
   ⟨8, 6, .rw, false, none⟩,
   ⟨14, 1, .rw, false, none⟩,
   ⟨15, 1, .rw, false, none⟩,
   ⟨16, 1, .rw, false, none⟩,
   ⟨17, 1, .wo, false, none⟩]⟩

def mapPORT_STAT : RegDesc := ⟨"PORT.STAT", 0x100008, 0x10000, 96, 0, 1, 0x0,
  [⟨0, 3, .ro, false, none⟩,
   ⟨3, 3, .ro, false, none⟩,
   ⟨6, 2, .ro, false, none⟩,
   ⟨8, 1, .ro, false, none⟩,
   ⟨9, 4, .ro, false, none⟩,
   ⟨13, 4, .clr, false, none⟩,
   ⟨17, 3, .ro, false, none⟩,
   ⟨20, 7, .ro, false, none⟩,
   ⟨27, 1, .ro, false, none⟩]⟩

def mapPORT_LANE : RegDesc := ⟨"PORT.LANE", 0x100010, 0x10000, 96, 0, 1, 0x0,
  [⟨0, 16, .ro, false, none⟩,
   ⟨16, 16, .ro, false, none⟩,
   ⟨32, 16, .ro, false, none⟩]⟩

def mapPORT_TMR : RegDesc := ⟨"PORT.TMR", 0x100018, 0x10000, 96, 0, 1, 0x10064206,
  [⟨0, 7, .rw, false, some (1, 64)⟩,
   ⟨7, 4, .rw, false, some (1, 15)⟩,
   ⟨11, 14, .rw, false, some (10, 10000)⟩,
   ⟨25, 7, .rw, false, some (2, 80)⟩]⟩

def mapPORT_CAL : RegDesc := ⟨"PORT.CAL", 0x100020, 0x10000, 96, 0, 1, 0x100258,
  [⟨0, 17, .rw, false, some (60, 86400)⟩,
   ⟨17, 6, .rw, false, none⟩,
   ⟨23, 1, .wo, false, none⟩,
   ⟨32, 16, .ro, false, none⟩,
   ⟨48, 8, .ro, false, none⟩]⟩

def mapPORT_PEER : RegDesc := ⟨"PORT.PEER", 0x100028, 0x10000, 96, 0, 1, 0x0,
  [⟨0, 8, .rw, false, none⟩]⟩

def mapPORT_PCIE : RegDesc := ⟨"PORT.PCIE", 0x100030, 0x10000, 96, 0, 1, 0x24,
  [⟨0, 6, .rw, false, some (30, 46)⟩]⟩

def mapPORT_EYE : RegDesc := ⟨"PORT.EYE", 0x100100, 0x10000, 96, 8, 16, 0x0,
  [⟨0, 6, .ro, false, none⟩,
   ⟨6, 8, .ro, false, none⟩,
   ⟨14, 6, .ro, false, none⟩]⟩

def mapPORT_GLINK : RegDesc := ⟨"PORT.GLINK", 0x100200, 0x0, 1, 0, 1, 0x7D00,
  [⟨0, 3, .rwl, true, none⟩,
   ⟨3, 1, .set, true, none⟩,
   ⟨4, 14, .rw, false, some (500, 10000)⟩,
   ⟨32, 16, .clr, false, none⟩]⟩

def mapSORUS_CTL : RegDesc := ⟨"SORUS.CTL", 0x900000, 0x10000, 32, 0, 1, 0x4,
  [⟨0, 5, .rw, false, some (0, 16)⟩]⟩

def mapSORUS_STAT : RegDesc := ⟨"SORUS.STAT", 0x900008, 0x10000, 32, 0, 1, 0x8,
  [⟨0, 4, .ro, false, none⟩,
   ⟨4, 9, .ro, true, none⟩,
   ⟨13, 9, .ro, true, none⟩,
   ⟨22, 9, .ro, true, none⟩,
   ⟨31, 8, .ro, false, none⟩,
   ⟨39, 3, .ro, false, none⟩,
   ⟨42, 1, .w1c, false, none⟩]⟩

def mapSORUS_LFMAP : RegDesc := ⟨"SORUS.LFMAP", 0x900010, 0x10000, 32, 0, 1, 0x706050403020100,
  [⟨0, 4, .ro, false, none⟩,
   ⟨8, 4, .ro, false, none⟩,
   ⟨16, 4, .ro, false, none⟩,
   ⟨24, 4, .ro, false, none⟩,
   ⟨32, 4, .ro, false, none⟩,
   ⟨40, 4, .ro, false, none⟩,
   ⟨48, 4, .ro, false, none⟩,
   ⟨56, 4, .ro, false, none⟩,
   ⟨4, 4, .ro, false, none⟩,
   ⟨12, 4, .ro, false, none⟩,
   ⟨20, 4, .ro, false, none⟩,
   ⟨28, 4, .ro, false, none⟩,
   ⟨36, 4, .ro, false, none⟩,
   ⟨44, 4, .ro, false, none⟩,
   ⟨52, 4, .ro, false, none⟩,
   ⟨60, 4, .ro, false, none⟩]⟩

def mapSORUS_WD : RegDesc := ⟨"SORUS.WD", 0x900018, 0x10000, 32, 0, 1, 0x5,
  [⟨0, 7, .rw, false, some (1, 100)⟩,
   ⟨32, 16, .ro, false, none⟩]⟩

def mapSORUS_FENCE : RegDesc := ⟨"SORUS.FENCE", 0x900020, 0x10000, 32, 0, 1, 0xF00000000,
  [⟨0, 32, .ro, true, none⟩,
   ⟨32, 4, .ro, true, none⟩]⟩

def mapSORUS_LSRC : RegDesc := ⟨"SORUS.LSRC", 0x900028, 0x10000, 32, 0, 1, 0x0,
  [⟨6, 46, .rw, false, none⟩]⟩

def mapSORUS_LLOG : RegDesc := ⟨"SORUS.LLOG", 0x900030, 0x10000, 32, 0, 1, 0x0,
  [⟨0, 1, .rw, false, none⟩,
   ⟨6, 46, .rw, false, none⟩]⟩

def mapSORUS_LCTL : RegDesc := ⟨"SORUS.LCTL", 0x900038, 0x10000, 32, 0, 1, 0x0,
  [⟨0, 2, .rw, false, some (1, 2)⟩,
   ⟨2, 10, .rw, false, none⟩,
   ⟨12, 14, .rw, false, none⟩,
   ⟨26, 1, .rw, false, none⟩,
   ⟨27, 12, .rw, false, none⟩,
   ⟨39, 12, .rw, false, none⟩,
   ⟨51, 5, .ro, false, none⟩,
   ⟨62, 1, .wo, false, none⟩,
   ⟨63, 1, .ro, false, none⟩]⟩

def mapSORUS_SPTABA : RegDesc := ⟨"SORUS.SPTABA", 0x901000, 0x10000, 32, 16, 1024, 0x0,
  [⟨0, 1, .ro, false, none⟩,
   ⟨1, 1, .ro, false, none⟩,
   ⟨2, 1, .ro, false, none⟩,
   ⟨3, 6, .ro, false, none⟩,
   ⟨9, 6, .ro, false, none⟩,
   ⟨15, 12, .ro, false, none⟩,
   ⟨27, 12, .ro, false, none⟩,
   ⟨39, 25, .ro, false, none⟩]⟩

def mapSORUS_SPTABB : RegDesc := ⟨"SORUS.SPTABB", 0x901008, 0x10000, 32, 16, 1024, 0x0,
  [⟨0, 52, .ro, false, none⟩]⟩

def mapSORUS_CHCFG : RegDesc := ⟨"SORUS.CHCFG", 0x905000, 0x10000, 32, 8, 256, 0x40,
  [⟨0, 1, .rw, false, none⟩,
   ⟨1, 1, .rw, false, none⟩,
   ⟨2, 1, .rw, false, none⟩,
   ⟨3, 1, .rw, false, none⟩,
   ⟨4, 4, .rw, false, some (4, 12)⟩,
   ⟨8, 14, .rw, false, none⟩,
   ⟨22, 10, .rw, false, none⟩,
   ⟨32, 3, .rw, false, none⟩,
   ⟨35, 12, .rw, false, none⟩]⟩

def mapSORUS_CHSTAT : RegDesc := ⟨"SORUS.CHSTAT", 0x905800, 0x10000, 32, 8, 256, 0x0,
  [⟨0, 13, .ro, false, none⟩,
   ⟨13, 1, .ro, false, none⟩,
   ⟨14, 1, .ro, false, none⟩,
   ⟨32, 32, .clr, false, none⟩]⟩

def mapSORUS_SLSERVE : RegDesc := ⟨"SORUS.SLSERVE", 0x906000, 0x10000, 32, 8, 64, 0x0,
  [⟨0, 64, .rw, false, none⟩]⟩

def mapSORUS_FRECA : RegDesc := ⟨"SORUS.FRECA", 0x907000, 0x10000, 32, 16, 32, 0x0,
  [⟨0, 1, .w1c, false, none⟩,
   ⟨1, 7, .ro, false, none⟩,
   ⟨8, 8, .ro, false, none⟩,
   ⟨16, 12, .ro, false, none⟩,
   ⟨28, 1, .ro, false, none⟩,
   ⟨32, 32, .ro, false, none⟩]⟩

def mapSORUS_FRECB : RegDesc := ⟨"SORUS.FRECB", 0x907008, 0x10000, 32, 16, 32, 0x0,
  [⟨0, 52, .ro, false, none⟩,
   ⟨52, 10, .ro, false, none⟩]⟩

def mapSLICE_SQA : RegDesc := ⟨"SLICE.SQA", 0x1000100, 0x1000, 4096, 16, 8, 0x8,
  [⟨0, 1, .rw, false, none⟩,
   ⟨1, 4, .rw, false, some (4, 15)⟩,
   ⟨10, 38, .rw, false, none⟩,
   ⟨48, 4, .rw, false, none⟩,
   ⟨52, 1, .rw, false, none⟩]⟩

def mapSLICE_SQB : RegDesc := ⟨"SLICE.SQB", 0x1000108, 0x1000, 4096, 16, 8, 0x0,
  [⟨0, 16, .ro, false, none⟩,
   ⟨16, 16, .ro, false, none⟩,
   ⟨32, 2, .ro, false, none⟩,
   ⟨34, 4, .ro, false, none⟩,
   ⟨38, 16, .ro, false, none⟩,
   ⟨54, 1, .ro, false, none⟩]⟩

def mapSLICE_CQA : RegDesc := ⟨"SLICE.CQA", 0x1000180, 0x1000, 4096, 16, 8, 0x8,
  [⟨0, 1, .rw, false, none⟩,
   ⟨1, 4, .rw, false, some (4, 15)⟩,
   ⟨9, 39, .rw, false, none⟩,
   ⟨48, 4, .rw, false, none⟩,
   ⟨52, 1, .rw, false, none⟩,
   ⟨53, 1, .rw, false, none⟩]⟩

def mapSLICE_CQB : RegDesc := ⟨"SLICE.CQB", 0x1000188, 0x1000, 4096, 16, 8, 0x0,
  [⟨0, 16, .ro, false, none⟩,
   ⟨16, 16, .ro, false, none⟩,
   ⟨32, 5, .ro, false, none⟩,
   ⟨37, 17, .ro, false, none⟩,
   ⟨54, 1, .ro, false, none⟩,
   ⟨55, 1, .w1c, false, none⟩,
   ⟨56, 1, .ro, false, none⟩,
   ⟨57, 1, .ro, false, none⟩,
   ⟨58, 1, .ro, false, none⟩]⟩

def mapSLICE_WIN : RegDesc := ⟨"SLICE.WIN", 0x1000200, 0x1000, 4096, 8, 64, 0xA0000,
  [⟨0, 1, .rw, false, none⟩,
   ⟨1, 1, .rw, false, none⟩,
   ⟨2, 3, .rw, false, none⟩,
   ⟨5, 10, .rw, false, none⟩,
   ⟨15, 8, .rw, false, some (0, 200)⟩]⟩

def mapQM_CTL : RegDesc := ⟨"QM.CTL", 0xB40000, 0x0, 1, 0, 1, 0x80,
  [⟨0, 1, .rw, false, none⟩,
   ⟨1, 7, .rw, false, some (1, 127)⟩]⟩

def mapQM_MREG : RegDesc := ⟨"QM.MREG", 0xB40008, 0x0, 1, 0, 1, 0x0,
  [⟨0, 6, .rw, false, some (0, 32)⟩,
   ⟨6, 7, .rw, false, some (0, 95)⟩]⟩

def mapQM_SPILL : RegDesc := ⟨"QM.SPILL", 0xB40010, 0x0, 1, 0, 1, 0x4000400008000,
  [⟨0, 1, .rw, false, none⟩,
   ⟨1, 18, .rw, false, none⟩,
   ⟨19, 18, .rw, false, none⟩,
   ⟨37, 18, .rw, false, none⟩]⟩

def mapQM_GTH : RegDesc := ⟨"QM.GTH", 0xB40018, 0x0, 1, 0, 1, 0x0,
  [⟨0, 30, .rw, false, none⟩,
   ⟨30, 30, .rw, false, none⟩]⟩

def mapQM_CTRBASE : RegDesc := ⟨"QM.CTRBASE", 0xB40020, 0x0, 1, 0, 1, 0x0,
  [⟨0, 1, .rw, false, none⟩,
   ⟨21, 31, .rw, false, none⟩]⟩

def mapQM_STAT : RegDesc := ⟨"QM.STAT", 0xB40028, 0x0, 1, 0, 1, 0x30000,
  [⟨0, 18, .ro, false, none⟩,
   ⟨18, 1, .ro, false, none⟩,
   ⟨19, 1, .w1c, false, none⟩]⟩

def mapQM_SPSTAT : RegDesc := ⟨"QM.SPSTAT", 0xB40030, 0x0, 1, 0, 1, 0x0,
  [⟨0, 29, .ro, false, none⟩,
   ⟨29, 29, .ro, false, none⟩]⟩

def mapQM_TCMD : RegDesc := ⟨"QM.TCMD", 0xB40040, 0x0, 1, 0, 1, 0x0,
  [⟨0, 3, .rw, false, some (0, 5)⟩,
   ⟨3, 17, .rw, false, none⟩,
   ⟨20, 2, .rw, false, some (1, 3)⟩,
   ⟨22, 4, .ro, false, none⟩,
   ⟨62, 1, .wo, false, none⟩,
   ⟨63, 1, .ro, false, none⟩]⟩

def mapQM_TDATA : RegDesc := ⟨"QM.TDATA", 0xB40048, 0x0, 1, 8, 4, 0x0,
  [⟨0, 64, .rw, false, none⟩]⟩

def mapSLOT_GCTL : RegDesc := ⟨"SLOT.GCTL", 0xBB0000, 0x0, 1, 0, 1, 0x0,
  [⟨0, 1, .set, true, none⟩,
   ⟨1, 1, .w1c, true, none⟩]⟩

def mapSLOT_CTL : RegDesc := ⟨"SLOT.CTL", 0xBB1000, 0x40, 24, 0, 1, 0x1FC,
  [⟨0, 2, .rw, true, some (0, 2)⟩,
   ⟨2, 7, .rw, true, none⟩]⟩

def mapSLOT_LIM : RegDesc := ⟨"SLOT.LIM", 0xBB1008, 0x40, 24, 0, 1, 0x140A0A19,
  [⟨0, 8, .rwl, true, none⟩,
   ⟨8, 8, .rwl, true, none⟩,
   ⟨16, 8, .rwl, true, none⟩,
   ⟨24, 7, .rwl, true, none⟩]⟩

def mapSLOT_VTH : RegDesc := ⟨"SLOT.VTH", 0xBB1010, 0x40, 24, 0, 1, 0x36210D8,
  [⟨0, 9, .rwl, true, none⟩,
   ⟨9, 9, .rwl, true, none⟩,
   ⟨18, 9, .rwl, true, none⟩]⟩

def mapSLOT_TMR : RegDesc := ⟨"SLOT.TMR", 0xBB1018, 0x40, 24, 0, 1, 0x19032319014,
  [⟨0, 10, .rw, true, some (1, 1000)⟩,
   ⟨10, 10, .rw, true, some (10, 1000)⟩,
   ⟨20, 4, .rw, true, none⟩,
   ⟨24, 10, .rw, true, some (1, 1000)⟩,
   ⟨34, 10, .rw, true, some (1, 1000)⟩]⟩

def mapSLOT_STAT : RegDesc := ⟨"SLOT.STAT", 0xBB1020, 0x40, 24, 0, 1, 0x40,
  [⟨0, 4, .ro, true, none⟩,
   ⟨4, 1, .ro, true, none⟩,
   ⟨5, 1, .ro, true, none⟩,
   ⟨6, 1, .ro, true, none⟩,
   ⟨7, 1, .ro, true, none⟩,
   ⟨8, 5, .ro, true, none⟩,
   ⟨13, 4, .ro, true, none⟩,
   ⟨32, 16, .ro, true, none⟩]⟩

def mapSLOT_MEAS : RegDesc := ⟨"SLOT.MEAS", 0xBB1028, 0x40, 24, 0, 1, 0x0,
  [⟨0, 11, .ro, false, none⟩,
   ⟨11, 14, .ro, false, none⟩,
   ⟨25, 14, .ro, false, none⟩]⟩

def mapSLOT_PEAK : RegDesc := ⟨"SLOT.PEAK", 0xBB1030, 0x40, 24, 0, 1, 0x0,
  [⟨0, 11, .clr, true, none⟩]⟩

def mapSLOT_TTRIP : RegDesc := ⟨"SLOT.TTRIP", 0xBB1038, 0x40, 24, 0, 1, 0x0,
  [⟨0, 64, .ro, true, none⟩]⟩

def mapFPC_STAT : RegDesc := ⟨"FPC.STAT", 0xB80000, 0x0, 1, 0, 1, 0x0,
  [⟨0, 9, .ro, false, none⟩,
   ⟨9, 1, .ro, false, none⟩,
   ⟨10, 8, .ro, true, none⟩]⟩

def mapFPC_OVL : RegDesc := ⟨"FPC.OVL", 0xB80008, 0x0, 1, 0, 1, 0x0,
  [⟨0, 8, .ro, false, none⟩,
   ⟨8, 8, .ro, false, none⟩,
   ⟨16, 1, .w1c, false, none⟩]⟩

def mapFPC_PVIOL : RegDesc := ⟨"FPC.PVIOL", 0xB80010, 0x0, 1, 0, 1, 0x0,
  [⟨6, 46, .ro, false, none⟩]⟩

def mapFPC_PVINFO : RegDesc := ⟨"FPC.PVINFO", 0xB80018, 0x0, 1, 0, 1, 0x0,
  [⟨0, 8, .ro, false, none⟩,
   ⟨8, 1, .ro, false, none⟩,
   ⟨9, 10, .ro, false, none⟩,
   ⟨19, 12, .ro, false, none⟩,
   ⟨31, 2, .ro, false, none⟩,
   ⟨33, 3, .ro, false, none⟩]⟩

def mapFPC_VCNT : RegDesc := ⟨"FPC.VCNT", 0xB80020, 0x0, 1, 0, 1, 0x0,
  [⟨0, 32, .clr, false, none⟩,
   ⟨32, 32, .clr, false, none⟩]⟩

def mapFPC_DBG : RegDesc := ⟨"FPC.DBG", 0xB80028, 0x0, 1, 0, 1, 0x0,
  [⟨0, 1, .ro, false, none⟩,
   ⟨1, 3, .ro, false, none⟩,
   ⟨4, 1, .ro, false, none⟩,
   ⟨5, 1, .ro, false, none⟩,
   ⟨16, 16, .ro, false, none⟩,
   ⟨32, 16, .ro, false, none⟩]⟩

def mapFPC_DBGFPA : RegDesc := ⟨"FPC.DBGFPA", 0xB80030, 0x0, 1, 0, 1, 0x0,
  [⟨6, 46, .ro, false, none⟩]⟩

def mapFPC_REGION0 : RegDesc := ⟨"FPC.REGION0", 0xB81000, 0x0, 1, 32, 256, 0x0,
  [⟨0, 64, .ro, true, none⟩]⟩

def mapFPC_REGION1 : RegDesc := ⟨"FPC.REGION1", 0xB81008, 0x0, 1, 32, 256, 0x0,
  [⟨0, 64, .ro, true, none⟩]⟩

def mapFPC_REGION2 : RegDesc := ⟨"FPC.REGION2", 0xB81010, 0x0, 1, 32, 256, 0x0,
  [⟨0, 64, .ro, true, none⟩]⟩

def mapFPC_REGIONL : RegDesc := ⟨"FPC.REGIONL", 0xB81018, 0x0, 1, 32, 256, 0x0,
  [⟨0, 1, .ro, true, none⟩,
   ⟨1, 1, .ro, false, none⟩]⟩

def mapSYS_MBXTX : RegDesc := ⟨"SYS.MBXTX", 0x18000, 0x0, 1, 0, 1, 0x0,
  [⟨0, 13, .rw, false, none⟩,
   ⟨13, 1, .wo, false, none⟩,
   ⟨14, 1, .ro, false, none⟩,
   ⟨15, 3, .ro, false, none⟩]⟩

def mapSYS_MBXRX : RegDesc := ⟨"SYS.MBXRX", 0x18008, 0x0, 1, 0, 1, 0x0,
  [⟨0, 13, .ro, false, none⟩,
   ⟨13, 1, .ro, false, none⟩,
   ⟨14, 1, .wo, false, none⟩,
   ⟨16, 5, .ro, false, none⟩]⟩

def mapSYS_MBXTXD : RegDesc := ⟨"SYS.MBXTXD", 0x1A000, 0x0, 1, 8, 512, 0x0,
  [⟨0, 64, .rw, false, none⟩]⟩

def mapSYS_MBXRXD : RegDesc := ⟨"SYS.MBXRXD", 0x1B000, 0x0, 1, 8, 512, 0x0,
  [⟨0, 64, .ro, false, none⟩]⟩

def mapEVT_ROUTE : RegDesc := ⟨"EVT.ROUTE", 0xB90000, 0x0, 1, 8, 1024, 0x4,
  [⟨0, 2, .rw, false, some (0, 2)⟩,
   ⟨2, 1, .rw, false, none⟩,
   ⟨3, 1, .w1c, false, none⟩,
   ⟨4, 12, .rw, false, none⟩,
   ⟨16, 4, .rw, false, none⟩,
   ⟨20, 5, .rw, false, none⟩,
   ⟨25, 8, .rw, false, none⟩]⟩

def mapEVT_RECA : RegDesc := ⟨"EVT.RECA", 0xB94000, 0x0, 1, 16, 1024, 0x0,
  [⟨0, 64, .ro, false, none⟩]⟩

def mapEVT_RECB : RegDesc := ⟨"EVT.RECB", 0xB94008, 0x0, 1, 16, 1024, 0x0,
  [⟨0, 64, .ro, false, none⟩]⟩

def mapEVT_XFPA : RegDesc := ⟨"EVT.XFPA", 0xB9C000, 0x0, 1, 8, 4, 0x0,
  [⟨6, 46, .ro, false, none⟩]⟩

def mapCTR_SHCTL : RegDesc := ⟨"CTR.SHCTL", 0xBA0000, 0x0, 1, 0, 1, 0x0,
  [⟨0, 16, .rw, false, none⟩]⟩

def mapCTR_SHSTAT : RegDesc := ⟨"CTR.SHSTAT", 0xBA0008, 0x0, 1, 0, 1, 0x0,
  [⟨0, 32, .ro, false, none⟩,
   ⟨32, 1, .ro, false, none⟩]⟩

def mapCTR_SHTIME : RegDesc := ⟨"CTR.SHTIME", 0xBA0010, 0x0, 1, 0, 1, 0x0,
  [⟨0, 64, .ro, false, none⟩]⟩

def mapCTR_RSEL : RegDesc := ⟨"CTR.RSEL", 0xBA0018, 0x0, 1, 0, 1, 0x0,
  [⟨0, 16, .rw, false, none⟩,
   ⟨16, 1, .rw, false, none⟩,
   ⟨17, 1, .rw, false, none⟩]⟩

def mapCTR_RVAL : RegDesc := ⟨"CTR.RVAL", 0xBA0020, 0x0, 1, 0, 1, 0x0,
  [⟨0, 64, .ro, false, none⟩]⟩

def mapCTR_FSEL : RegDesc := ⟨"CTR.FSEL", 0xBA1000, 0x0, 1, 8, 288, 0x0,
  [⟨0, 7, .rw, false, some (0, 19)⟩,
   ⟨7, 7, .rw, false, some (0, 19)⟩,
   ⟨14, 7, .rw, false, some (0, 19)⟩,
   ⟨21, 7, .rw, false, some (0, 19)⟩,
   ⟨28, 7, .rw, false, some (0, 19)⟩,
   ⟨35, 7, .rw, false, some (0, 19)⟩,
   ⟨42, 7, .rw, false, some (0, 19)⟩,
   ⟨49, 7, .rw, false, some (0, 19)⟩,
   ⟨56, 1, .wo, false, none⟩]⟩

def mapCTR_SHEET0 : RegDesc := ⟨"CTR.SHEET0", 0xBA2000, 0x0, 1, 32, 16, 0x0,
  [⟨0, 64, .ro, false, none⟩]⟩

def mapCTR_SHEET1 : RegDesc := ⟨"CTR.SHEET1", 0xBA2008, 0x0, 1, 32, 16, 0x0,
  [⟨0, 64, .ro, false, none⟩]⟩

def mapCTR_SHEET2 : RegDesc := ⟨"CTR.SHEET2", 0xBA2010, 0x0, 1, 32, 16, 0x0,
  [⟨0, 64, .ro, false, none⟩]⟩

def mapCTR_SHEET3 : RegDesc := ⟨"CTR.SHEET3", 0xBA2018, 0x0, 1, 32, 16, 0x0,
  [⟨0, 64, .ro, false, none⟩]⟩

def mapCTR_SHEETST : RegDesc := ⟨"CTR.SHEETST", 0xBA2200, 0x0, 1, 8, 16, 0x0,
  [⟨0, 16, .ro, false, none⟩,
   ⟨16, 16, .ro, false, none⟩,
   ⟨32, 16, .ro, false, none⟩,
   ⟨48, 1, .ro, false, none⟩,
   ⟨49, 1, .w1c, false, none⟩,
   ⟨50, 14, .ro, false, none⟩]⟩

def mapSYS_RSTSTAT : RegDesc := ⟨"SYS.RSTSTAT", 0x10000, 0x0, 1, 0, 1, 0x0,
  [⟨0, 3, .ro, false, none⟩,
   ⟨3, 16, .ro, false, none⟩,
   ⟨19, 1, .ro, false, none⟩]⟩

def mapSYS_SAFE : RegDesc := ⟨"SYS.SAFE", 0x10008, 0x0, 1, 0, 1, 0x0,
  [⟨0, 1, .ro, false, none⟩,
   ⟨1, 4, .ro, true, none⟩,
   ⟨5, 8, .ro, true, none⟩]⟩

def mapSYS_SAFETIME : RegDesc := ⟨"SYS.SAFETIME", 0x10010, 0x0, 1, 0, 1, 0x0,
  [⟨0, 64, .ro, true, none⟩]⟩

def mapSYS_THERM : RegDesc := ⟨"SYS.THERM", 0x10018, 0x0, 1, 0, 1, 0x2E4,
  [⟨0, 7, .rw, false, some (85, 105)⟩,
   ⟨7, 4, .rw, false, some (1, 15)⟩,
   ⟨11, 1, .ro, false, none⟩]⟩

def mapSYS_TEMP : RegDesc := ⟨"SYS.TEMP", 0x10100, 0x0, 1, 8, 11, 0x0,
  [⟨0, 11, .ro, false, none⟩,
   ⟨16, 11, .clr, false, none⟩]⟩

def mapSYS_SCLK : RegDesc := ⟨"SYS.SCLK", 0x10200, 0x0, 1, 8, 32, 0x1E1E,
  [⟨0, 5, .rw, false, some (10, 30)⟩,
   ⟨8, 5, .ro, false, none⟩,
   ⟨13, 1, .ro, false, none⟩]⟩

def mapDRK_AVS : RegDesc := ⟨"DRK.AVS", 0x18, 0x0, 1, 0, 1, 0x0,
  [⟨0, 5, .ro, false, none⟩]⟩

/-- The registers of block DRK. -/
def mapDRK : List RegDesc := [mapDRK_IDENT, mapDRK_FAMPARAM0, mapDRK_FAMPARAM1, mapDRK_AVS]

/-- The registers of block BIND. -/
def mapBIND : List RegDesc := [mapBIND_EXTTBL, mapBIND_XINV, mapBIND_WDSEL, mapBIND_WDHPA, mapBIND_WDSA, mapBIND_HGEN]

/-- The registers of block SLICE. -/
def mapSLICE : List RegDesc := [mapSLICE_CTL, mapSLICE_STATE, mapSLICE_XLAT_ROOT, mapSLICE_HOSTS, mapSLICE_QSTAT, mapSLICE_DLOG_BASE, mapSLICE_DLOG_RANGE, mapSLICE_DLOG_CTL, mapSLICE_SQA, mapSLICE_SQB, mapSLICE_CQA, mapSLICE_CQB, mapSLICE_WIN]

/-- The registers of block HOME. -/
def mapHOME : List RegDesc := [mapHOME_CTL, mapHOME_HGMAP, mapHOME_RECALL, mapHOME_ERR, mapHOME_PSTAT, mapHOME_PFPA, mapHOME_SFSTAT]

/-- The registers of block HBM. -/
def mapHBM : List RegDesc := [mapHBM_STAT, mapHBM_CAL, mapHBM_RETCFG, mapHBM_RCUR, mapHBM_RCURE, mapHBM_RETMAP, mapHBM_PART, mapHBM_MIRTBL, mapHBM_MIRCMD, mapHBM_SCRUB, mapHBM_RESIL, mapHBM_EXP]

/-- The registers of block PORT. -/
def mapPORT : List RegDesc := [mapPORT_CFG, mapPORT_STAT, mapPORT_LANE, mapPORT_TMR, mapPORT_CAL, mapPORT_PEER, mapPORT_PCIE, mapPORT_EYE, mapPORT_GLINK]

/-- The registers of block SORUS. -/
def mapSORUS : List RegDesc := [mapSORUS_CTL, mapSORUS_STAT, mapSORUS_LFMAP, mapSORUS_WD, mapSORUS_FENCE, mapSORUS_LSRC, mapSORUS_LLOG, mapSORUS_LCTL, mapSORUS_SPTABA, mapSORUS_SPTABB, mapSORUS_CHCFG, mapSORUS_CHSTAT, mapSORUS_SLSERVE, mapSORUS_FRECA, mapSORUS_FRECB]

/-- The registers of block QM. -/
def mapQM : List RegDesc := [mapQM_CTL, mapQM_MREG, mapQM_SPILL, mapQM_GTH, mapQM_CTRBASE, mapQM_STAT, mapQM_SPSTAT, mapQM_TCMD, mapQM_TDATA]

/-- The registers of block SLOT. -/
def mapSLOT : List RegDesc := [mapSLOT_GCTL, mapSLOT_CTL, mapSLOT_LIM, mapSLOT_VTH, mapSLOT_TMR, mapSLOT_STAT, mapSLOT_MEAS, mapSLOT_PEAK, mapSLOT_TTRIP]

/-- The registers of block FPC. -/
def mapFPC : List RegDesc := [mapFPC_STAT, mapFPC_OVL, mapFPC_PVIOL, mapFPC_PVINFO, mapFPC_VCNT, mapFPC_DBG, mapFPC_DBGFPA, mapFPC_REGION0, mapFPC_REGION1, mapFPC_REGION2, mapFPC_REGIONL]

/-- The registers of block SYS. -/
def mapSYS : List RegDesc := [mapSYS_MBXTX, mapSYS_MBXRX, mapSYS_MBXTXD, mapSYS_MBXRXD, mapSYS_RSTSTAT, mapSYS_SAFE, mapSYS_SAFETIME, mapSYS_THERM, mapSYS_TEMP, mapSYS_SCLK]

/-- The registers of block EVT. -/
def mapEVT : List RegDesc := [mapEVT_ROUTE, mapEVT_RECA, mapEVT_RECB, mapEVT_XFPA]

/-- The registers of block CTR. -/
def mapCTR : List RegDesc := [mapCTR_SHCTL, mapCTR_SHSTAT, mapCTR_SHTIME, mapCTR_RSEL, mapCTR_RVAL, mapCTR_FSEL, mapCTR_SHEET0, mapCTR_SHEET1, mapCTR_SHEET2, mapCTR_SHEET3, mapCTR_SHEETST]

end Sys2Proof.Machine
end

