-- ==== Sys2Proof/Machine/State.lean ====
section
/-! DEFINITION. The state of the device: everything the spec gives it, as plain data. -/

namespace Sys2Proof.Machine

/-! ## What manufacture fixes -/

/-- The one-time-programmable contents and the fixed registers: nothing changes them (R3, R346, R418). -/
structure Fuse where
  /-- DRK.AVS.VT, 0–28 (R418). -/
  vt : Nat
  /-- The device's unique secret (R351). -/
  uds : List Byte
  /-- POLICY: [0] SIGREQ_F, [1] SIGREQ_S, [2] DBG_OFF, [7:4] SPKEY revoke, [9:8] DBGKEY revoke (R345). -/
  policy : Nat
  /-- The four spore-signing keys: compressed points, empty where none is programmed (R345, R348). -/
  spkey : List (List Byte)
  /-- The two debug keys' digests, empty where none is programmed (R342, R345). -/
  dbgkey : List (List Byte)
  /-- The certificate chain of the device (R352). -/
  cert : List Byte
  /-- OTP IMAGE: the darkroom firmware image, then the fabric manager spore image (R345). -/
  image : List Byte
  /-- An OTP word reads uncorrectable at start (R348). -/
  otpBad : Bool
  deriving DecidableEq, Repr

/-! ## Outputs -/

/-- What leaves the device, in order: the model's own record of its outputs. -/
inductive Out where
  /-- An MSI-X message of a port's table entry (R380). -/
  | msix (port tbl entry : Nat) (addr data : Nat)
  /-- A CXL.mem data response to a host (R70): the logical device in its LD-ID (R128), tag, data, poison. -/
  | cxlData (port ld tag : Nat) (data : Line) (psn : Bool)
  /-- A CXL.mem Cmp to a host (R90), with its LD-ID (R128). -/
  | cxlCmp (port ld tag : Nat)
  /-- A back-invalidate snoop to a host: BISnpInv, or BISnpData (R70). -/
  | biSnp (port ld ln : Nat) (inv : Bool)
  /-- A PCIe read completion: address order index, data, EP (R439). -/
  | pcieData (port tag part : Nat) (data : List Byte) (ep : Bool)
  /-- A PCIe completion with status: 0 SC, 1 UR, 4 CA (R439). -/
  | pcieStat (port tag st : Nat)
  /-- The data of a BAR0 read (R437). -/
  | bar0 (port off : Nat) (data : List Byte)
  /-- A read of, or a write to, an expander, with its epoch (R118); a line written poisoned. -/
  | expRd (e epoch ln : Nat)
  | expWr (e epoch ln : Nat) (data : Line) (psn : Bool)
  /-- A Cestralink flit transmitted, by the lanes that carry it (R139, R142), or an ordered set (R138). -/
  | flit (port : Nat) (lanes : List (Nat × List Byte))
  | tos (port : Nat) (x : BitVec 256)
  /-- An EMP message sent by the device: path, bytes of header and payload (R366). -/
  | emp (path : Nat) (bs : List Byte)
  /-- An MCTP packet on the I3C bus, and at a port's DOE mailbox (R364). -/
  | mctp (bs : List Byte)
  | doe (port : Nat) (bs : List Byte)
  /-- An in-band interrupt requested, with its mandatory byte (R363). -/
  | ibi (b : Nat)
  /-- A response of the I3C target: acknowledged, and its bytes (R361). -/
  | i3c (ack : Bool) (bs : List Byte)
  /-- An SPDM response: code, parameters, body (R352). -/
  | spdm (bs : List Byte)
  /-- TAP output bits (R341). -/
  | tdo (n : Nat) (bits : Nat)
  /-- A debug master's answer (R343). -/
  | dbg (ok : Bool) (bs : List Byte)
  deriving DecidableEq, Repr

/-! ## Power, resets and the darkroom's own pins -/

/-- Rails, resets and pins (R394–R401, R406, R409). -/
structure Pwr where
  /-- Bit r: the monitors see rail r valid (R396). -/
  rails : BitVec 11
  /-- The order in which the rails became valid since each was last invalid. -/
  order : List Nat
  /-- Rails whose ordering violation has been raised (R397). -/
  raised : BitVec 11
  /-- The darkroom runs: its standby rails are valid. -/
  dark : Bool
  pwrok : Bool
  /-- The reset line of R396: the FD and PDs are held in reset. -/
  fdReset : Bool
  /-- A main rail left its limits, or a thermal trip: only cold reset releases the FD (R398, R413). -/
  locked : Bool
  /-- The HBM rails came out of order: the FD is not released until the next cold reset (R397). -/
  hbmOrder : Bool
  /-- Trigger of the warm reset in progress: 1 RESET_N, 2 SYS_RESET from OOB, 3 from FM (R401, R415). -/
  warm : Option Nat
  /-- BOOT work has been started since the release of the FD (R169). -/
  booted : Bool
  /-- SAFE_N is held low externally (R357). -/
  safeLow : Bool
  /-- The device drives SAFE_N low (R410). -/
  safeDrv : Bool
  /-- The sensors at which thermal critical is in force (R413). -/
  thermCrit : BitVec 11
  /-- The sampled straps (R360). -/
  strap : BitVec 4
  /-- ALERT_N is asserted (R356), and a failure at start is in force (R348). -/
  alert : Bool
  startFail : Bool
  /-- Bit n: SEQ was written while channel n was driven, and no sample has followed (R319). -/
  seqNew : BitVec 24
  deriving DecidableEq, Repr

/-! ## Counters, snapshots -/

/-- A contact-sheet dump in progress: its sheet, its instant, and the slice counters at that instant (R390). -/
structure Dump where
  k : Nat
  t : Nat
  ctr : Tbl Word
  deriving DecidableEq, Repr

/-- The counters of R383–R386 with their shadows, and the snapshot in progress (R387). -/
structure Ctr where
  slice : Tbl Word
  unit : Tbl Word
  sliceSh : Tbl Word
  unitSh : Tbl Word
  /-- Programmable counters: physical Frond × 8 + j. -/
  pmc : Tbl Word
  /-- Tenths of a cycle run by each sorus clock since the FD was released. -/
  clk : Tbl Nat
  /-- The sorus clock reading at which each physical Frond last left reset. -/
  clkBase : Tbl Nat
  /-- The instant T of the snapshot in progress, and whether the shadows hold their values. -/
  snap : Option (Nat × Bool)
  /-- The dump sequence of each contact sheet (R390). -/
  dseq : Tbl Nat
  /-- The dumps in progress. -/
  dumps : List Dump
  deriving DecidableEq, Repr

/-! ## Coherence -/

/-- The states of an L1D line other than I (R67). -/
inductive L1St where
  | m | o | e | s | is | im | sm | mi | oi | ei
  deriving DecidableEq, Repr

/-- One L1D line: `psn` marks a line held poisoned (R56), `log` is one more than the dirty-log epoch it is marked with,
0 for none (R48), `pref` that a prefetch asked for it (R205). -/
structure L1Line where
  st : Option L1St
  data : Line
  psn : Bool
  log : Nat
  pref : Bool := false
  deriving DecidableEq, Repr

/-- A snoop-filter entry (R62): OWN, SORI and GRPS as the spec codes them; the tag is the table key. -/
structure SfE where
  own : Nat
  sori : BitVec 32
  grps : BitVec 32
  deriving DecidableEq, Repr

/-- What an open transaction of a home does once its answers are in. -/
inductive TxnKind where
  /-- Serve the request. -/
  | req (m : Msg)
  /-- Recall an entry (R65, R92, R340). -/
  | recall
  /-- Read a line through SnpC for the memory-side cache (R55). -/
  | clean
  /-- A shadow home's answer to a snoop of a remote home, joined from its local hosts (R81). -/
  | shadow (m : Msg)
  /-- Read both copies of a mirrored expander line for the scrubber (R108, R109). -/
  | scrub
  /-- Copy a line to the target of a resilver (R120). -/
  | resil (g : Nat)
  /-- Ask the hosts left of a departed host's group for a line that it was recorded for (R76). -/
  | depart
  deriving DecidableEq, Repr

/-- An open transaction or a recall-buffer entry: the line, and the answers still to come (R57, R63). -/
structure Txn where
  ln : Nat
  kind : TxnKind
  /-- Error pattern of the memory read the transaction makes. -/
  err : BitVec 560
  /-- Sori whose SnpCnt is outstanding. -/
  sori : List Nat
  /-- Frond answers owed minus Frond answers received. -/
  owed : Int
  /-- Hosts and peer devices whose answer is outstanding. -/
  hosts : List Nat
  peers : List Nat
  /-- Agents whose crossing write-back is awaited, and agents whose write-back came while the line was open (R74). -/
  wbs : List Nat
  wbIn : List Nat
  /-- Expander lines whose data is awaited. -/
  exps : List Nat
  /-- Forwarded to the remote home, whose response is awaited (R80). -/
  fwd : Bool
  /-- The owner's state after a read snoop: 0 gone, 1 S, 2 O. -/
  ownNew : Nat
  /-- Data came back, or a departed host's line was lost (R76): reason, 0 none. -/
  got : Bool
  lost : Nat
  /-- The remote home's response, kept until the local answers are in (R80). -/
  resp : Option Msg
  /-- Both copies of a mirrored expander line are read and compared (R114, R115). -/
  both : Bool
  /-- What the expanders have answered, by line: the data, and whether it was uncorrectable. -/
  rd : List (Nat × BitVec 512 × Bool)
  /-- A shadow home gives its own copy up before it forwards the request (R80, R438). -/
  give : Bool
  /-- A remote home's snoop of the line that arrived meanwhile (R81). -/
  snp : Option Msg
  /-- The fabric time at which the transaction opened (R239). -/
  at_ : Nat
  deriving DecidableEq, Repr

/-- A predictor entry (R79), with the fabric time of the grant or far atomic that it records. -/
structure PredE where
  ctr : Nat
  valid : Bool
  agent : Nat
  at_ : Nat
  deriving DecidableEq, Repr

/-- What a request of one of the device's own units is for: whoever waits for its answer. -/
inductive OwnFor where
  /-- The completion at the head of a CQ's hold slots. -/
  | cq (n q : Nat)
  /-- The entry at the head of an SQ. -/
  | sq (n q : Nat)
  /-- An operation of a sorus's move engine. -/
  | move (s id : Nat)
  /-- The dirty-page log, for a Frond's store, and for a home's transaction of a line (R48). -/
  | log (p : Nat)
  | home (ln : Nat)
  /-- An instruction of a strand. -/
  | strand (t : Nat)
  /-- A host request whose translation walks the tables, at its port (R33). -/
  | port (p : Nat)
  /-- A unit's own operation: 0 a queue-manager command, 1 debug master, 2 darkroom, 3 contact sheets, 4 loader, 5 a spill, 6 a
  free-cell ring, 16 and up the egress ring of an output. -/
  | unit (k : Nat)
  /-- Nobody: a posted write. -/
  | posted
  deriving DecidableEq, Repr

/-- A unit's access: for whom, the agent that makes it (R72), its slice and privilege, and whether the home checker judges
it (R331). -/
structure Own where
  who : OwnFor
  agent : Nat
  slice : Nat
  priv : Bool
  deriving DecidableEq, Repr

/-- A unit's request to a home, until its answer is used. -/
structure OwnReq where
  own : Own
  m : Msg
  ans : Option Msg
  deriving DecidableEq, Repr

/-- The metadata of a line (R98, R100): poison, its reason, the mirror stamp. -/
structure LMeta where
  psn : Bool
  why : Nat
  stamp : Nat
  deriving DecidableEq, Repr

/-- The tag of a line in the memory-side cache (R104). `gran` is its slot in 16-byte granules, 0 when absent; `pin` the
expanders whose acknowledgement a write-back awaits (R106). -/
structure MscT where
  gran : Nat
  dirty : Bool
  pin : List Nat
  deriving DecidableEq, Repr

/-- A read of, or write to, an expander that is outstanding (R117). -/
structure ExpReq where
  e : Nat
  /-- The line the request carries, and the line of the home transaction or write-back it serves. -/
  ln : Nat
  home : Nat
  wr : Bool
  epoch : Nat
  hedged : Bool
  /-- The stamp that a write-back enters in the stamp line it reads: byte offset and value (R113). -/
  stamp : Option (Nat × Nat)
  deriving DecidableEq, Repr

/-- A back-invalidate snoop outstanding at a host's port: the home's snoop, and the host's write that came first. -/
structure BiSnp where
  port : Nat
  ln : Nat
  inv : Bool
  home : BitVec 13
  tag : BitVec 12
  wr : Option Line
  deriving DecidableEq, Repr

/-- The homes, snoop filters and coherence messages in flight. -/
structure Coh where
  /-- Messages sent and not yet received. -/
  net : List Msg
  sf : Tbl SfE
  txns : List Txn
  /-- Requests waiting in the homes' queues, in arrival order (R58). -/
  hq : List Msg
  /-- Requests put back into the queue: one more than the time since when they wait for a snoop-filter way (R66), 0 for a
  place in the memory-side cache (R106). -/
  waits : List (Msg × Nat)
  pred : Tbl PredE
  l1 : Tbl L1Line
  /-- 48-bit write sequence of each home (R112). -/
  wseq : Tbl Nat
  bisnp : List BiSnp
  /-- Messages sent to other devices and not yet answered, with the port they went on, 96 for none (R157); and messages of another
  device that wait to be passed on, with 97 more than the port they came in on (R156). -/
  rem : List (Nat × Msg)
  /-- Reissued messages that may still wait for credits, with their port (R157). -/
  again : List (Nat × Msg)
  /-- Requests without a path: when the link that carried them was lost (R159). -/
  late : List (Nat × Msg)
  /-- Duplicate-suppression entries of the homes (R158): request tag and source, with the answer sent. -/
  dup : List (Msg × Option Msg)
  /-- The next tag of a message to another device that expects an answer. -/
  ptag : Nat
  /-- Requests of the device's own units, and the one that the command in hand must wait for. -/
  own : List OwnReq
  need : Option (Own × Msg)
  /-- One more than the way of each line that has one, and the pseudo-LRU bits of each set: home × 2,048 + set (R62). -/
  sfWay : Tbl Nat
  sfLru : Tbl Nat
  /-- One more than KIND × 32 + INDEX of the RECALL that a home runs (R92). -/
  recTgt : Tbl Nat
  /-- One more than the host that was last granted a line in E or M (R70, log entry 142). -/
  hostOwn : Tbl Nat
  /-- What this device holds of a line of another device: 1 S, 2 E, 3 modified data that its home does not have (R80, R81). -/
  shadow : Tbl Nat
  deriving DecidableEq, Repr

/-! ## Memory -/

/-- The memory pool (chapter 4). -/
structure Pool where
  /-- Home memory, by byte FPA: unlisted bytes read 0. -/
  mem : List Host.Cell
  lmeta : Tbl LMeta
  msc : Tbl MscT
  /-- One more than the tag of each line of the memory-side cache, and the pseudo-LRU bits of each set (R106). -/
  mscWay : Tbl Nat
  mscLru : Tbl Nat
  /-- Candidate pages of R103: stack × 2²⁴ + page ↦ errors and time of the last. -/
  cand : Tbl (Nat × Nat)
  /-- Pages under retirement copy, one more than the page, per stack. -/
  retire : Tbl Nat
  /-- Pseudo-channels (stack × 32 + p): 1 recalibrating, 2 retraining, 3 waiting for its partner's pause. -/
  pc : Tbl Nat
  /-- Double-rate refresh in force for a stack (R429). -/
  refr2 : Tbl Nat
  /-- Expander requests outstanding. -/
  exps : List ExpReq
  /-- Expander extents whose copy of a pair is not whole: one more than the first line of the extent from which on it holds
  none of the pair's data, but for the lines listed, which have been written since (R117, R120, R121). -/
  gone : Tbl (Nat × List Nat)
  /-- Running and queued resilvers, oldest first: kind × 64 + target (R120). -/
  resQ : List Nat
  /-- Line cursor of each resilver. -/
  resCur : Tbl Nat
  /-- The checkpoints that the darkroom holds, one more than their count of 64 MiB (R371). -/
  ckpt : Tbl Nat
  /-- An expander's first stale response has been reported since its declaration (R118). -/
  staleSeen : Tbl Nat
  /-- A warm reset stopped the resilvers, and the darkroom's CKPT_RESTORE has not come (R371). -/
  await : Bool
  deriving DecidableEq, Repr

/-! ## Binding -/

/-- A window decoder (R35, R51). -/
structure Dec where
  hpa : Nat
  size : Nat
  sa : Nat
  en : Bool
  r : Bool
  w : Bool
  deriving DecidableEq, Repr

/-- A host's request held in, or accepted by, a port. -/
inductive HostReq where
  | memRd (p : Nat) (r : CxlReq)
  | memRdData (p : Nat) (r : CxlReq)
  | memWr (p : Nat) (r : CxlReq)
  | memWrPtl (p : Nat) (r : CxlReq)
  | memClnEvct (p : Nat) (r : CxlReq)
  | pcieRd (p : Nat) (r : PcieReq)
  | pcieWr (p off : Nat) (bs : List Byte)
  | pcieAt (p tag : Nat) (o : PcieAop) (sz : Bool) (off : Nat) (a b : Word)
  | bar0Rd (p off n : Nat)
  | bar0Wr (p off : Nat) (bs : List Byte)
  /-- A MemWr or MemWrPtl, or a MemClnEvct, whose link has gone down since: nobody takes its answer (R76). -/
  | lateWr (p : Nat) (r : CxlReq) (part : Bool)
  | lateCln (p : Nat) (r : CxlReq)
  deriving DecidableEq, Repr

/-- What a port keeps of a request it sent to a home, until the answer (R36, R439). -/
structure PortReq where
  port : Nat
  /-- The tag of the home message, 4096 once answered. -/
  ptag : Nat
  host : Nat
  gen : Nat
  tag : Nat
  ln : Nat
  /-- 0 CXL read, 1 CXL write, 2 PCIe read line, 3 posted PCIe write, 4 PCIe atomic, 5 eviction, 6 a write-back joined to a
  back-invalidate's answer, 7 a request whose answer goes to nobody any longer. -/
  kind : Nat
  /-- First byte and length within the line of a PCIe read, or size of an atomic. -/
  off : Nat
  len : Nat
  part : Nat
  /-- The answer to a PCIe read line that waits for an earlier line's: 0 data, 1 EP, 4 Completer Abort (R439). -/
  ans : Option (Nat × List Byte)
  /-- The logical device of a CXL request (R128). -/
  ld : Nat
  deriving DecidableEq, Repr

/-- The binding unit, the banks of the host attachments and the translation caches (chapter 2). -/
structure Bind where
  /-- Active and staged frame maps: host × 512 + frame ↦ slice + 1, 0 for none. -/
  frA : Tbl Nat
  frS : Tbl Nat
  /-- Active and staged decoders: (host × 512 + frame) × 16 + decoder. -/
  decA : Tbl Dec
  decS : Tbl Dec
  /-- The banks of the host's generation change have swapped (R36, step 5). -/
  swapped : Tbl Nat
  /-- Requests held in the ports during a generation change. -/
  held : List HostReq
  /-- Translation caches: unit × 2³⁹ + slice × 2²⁷ + page ↦ leaf; units 0–11 port groups, 12–43 sori (R33). -/
  tlb : Tbl Word
  /-- The request of the BIND.XINV invalidation in progress (R34). -/
  xinv : Nat
  /-- Extents whose zero-fill has been written to their expanders (R38). -/
  zsent : List Nat
  deriving DecidableEq, Repr

/-! ## Sori and strands -/

/-- Where a piece of work reports its completion. -/
inductive CSlot where
  | none
  /-- Slice × 8 + CQ, or the manager's. -/
  | cq (n q : Nat)
  | mgr
  /-- Result slot of a window of a slice, with the host port that waits. -/
  | win (n w : Nat)
  deriving DecidableEq, Repr

/-- A descriptor of work (R164, R167). -/
structure Work where
  kind : Nat
  src : Nat
  slice : Nat
  spore : Nat
  entry : Nat
  idx : Nat
  cookie : Nat
  idem : Bool
  slot : CSlot
  body : List Word
  time : Nat
  /-- The work has been dispatched again after fencing (R182). -/
  retried : Bool
  deriving DecidableEq, Repr

/-- A primitive that reads lines and then gives its result (R221): its destination and the operands it has read. -/
inductive Prim where
  | trie (rd : Nat) (hi lo best : Word)
  | exm (rd : Nat) (hi lo : Word)
  | range (rd : Nat) (signed : Bool) (v : Word)
  | est (rd : Nat)
  | lcomp (rd rc : Nat)
  deriving DecidableEq, Repr

/-- Why a strand issues nothing. A wait that carries an access is the access itself, taken up again by `Dev.wake`. -/
inductive Wait where
  | none
  /-- A load of `n` bytes (R201, R203). -/
  | ld (rd n fpa va : Nat)
  /-- LDL with its hint; the tag of the RdU of hint ONCE that it waits for, 0 for none (R204). -/
  | ldl (rd fpa va hint tag : Nat)
  /-- A primitive's line reads (R221): the FPA and address of each line still to read, the tag of the first one's RdU or 0,
  and what the lines read so far hold from their addresses on. -/
  | prim (k : Prim) (todo : List (Nat × Nat)) (tag : Nat) (got : List Line)
  /-- A store that waits for a store-buffer line (R194). -/
  | st (fpa va : Nat) (bs : List Byte)
  /-- An atomic (R209): phase 0 waits to issue, 1 waits for ownership near, 2 waits for DataA. -/
  | amo (rd op n fpa va : Nat) (x y : Word) (place : Nat) (acq rel : Bool) (ph : Nat)
  /-- FENCE waits for the strand's stores (R211). -/
  | fence
  /-- RULESYNC (R340): the changes it covers, the requests admitted before it that have not completed, and once the walk has
  begun the lines still to recall. -/
  | rsync (marks : List Nat) (old : List Msg) (lines : Option (List Nat))
  /-- CHPUT waits for credit (R174). -/
  | chput (c : Nat) (x : Word)
  /-- CHGET.W waits for a word until the limit (R175). -/
  | chget (rd c lim : Nat)
  /-- WAIT until an instant (R219). -/
  | until (t : Nat)
  /-- WAIT.CH: the channels of its mask, and a limit (R219). -/
  | waitCh (rd : Nat) (cs : List Nat) (lim : Nat)
  /-- SLQUIESCE waits for a slice (R41). -/
  | slq (rd n lim : Nat)
  /-- SLSET ROOT waits for its invalidation (R40). -/
  | root (rd n : Nat)
  /-- FSWAP waits for its swap, in a sorus (R184). -/
  | swap (rd s : Nat)
  /-- An unposted MOVE or FILL, by the number of its engine operation, returns to `rd` (R246). -/
  | move (rd id : Nat)
  /-- SHUTTER waits for the snapshot (R255). -/
  | shut (rd : Nat)
  /-- The instruction at pc is held: 0 until the strand's stores and posted updates are visible or have failed (R89), 1 until
  the move engine has a place (R247), 2 until a unit's access of it is answered, 3 until the head of its queue is resident
  (R296). -/
  | hold (why : Nat)
  /-- ENQ or QREL waits for the queue manager's result in `rd` (R242). -/
  | enq (rd : Nat)
  deriving DecidableEq, Repr

/-- A strand (R162). `regs` holds g1–g31. -/
structure Strand where
  live : Bool
  regs : Tbl Word
  pc : Nat
  cf : BitVec 5
  slice : Nat
  priv : Bool
  work : Work
  wait : Wait
  /-- FENCE.W executed so far: stores of a later count stay behind those of an earlier one (R211). -/
  fw : Nat
  /-- Stopped for migration by FSWAP or TROTATE (R184). -/
  held : Bool
  /-- The second completion posted: CQPOST has already spent the reservation (R217). -/
  posted : Bool
  /-- Stopped by SLQUIESCE with ABORT, or by safelight, as soon as its access completes (R43, R410): the status. -/
  stop : Nat
  deriving DecidableEq, Repr

/-- A store in a Frond's store buffer (R194, R203): its strand, address, bytes, and the slice it is made for. -/
structure SbE where
  p : Nat
  t : Nat
  fpa : Nat
  bs : List Byte
  slice : Nat
  priv : Bool
  sa : Nat
  fw : Nat
  /-- Its place in the order in which the device's strands retired stores and posted updates. -/
  seq : Nat
  deriving DecidableEq, Repr

/-- An RdU of a Frond that is outstanding: its line and tag, and whether a later reader of the line may still share it. -/
structure RdUE where
  p : Nat
  ln : Nat
  tag : Nat
  shared : Bool
  deriving DecidableEq, Repr

/-- A prefetch that waits for its line to come or go (R205): whether it asks for M. -/
structure PrefE where
  p : Nat
  fpa : Nat
  slice : Nat
  priv : Bool
  m : Bool
  deriving DecidableEq, Repr

/-- A posted far update (R223): as a store of `n` bytes, with its operation and operands, its number, and whether it has
gone to the home. -/
structure PostE where
  p : Nat
  t : Nat
  fpa : Nat
  n : Nat
  slice : Nat
  priv : Bool
  sa : Nat
  fw : Nat
  op : Nat
  x : Word
  id : Nat
  sent : Bool
  seq : Nat
  deriving DecidableEq, Repr

/-- A channel's counts (R174), and the words a CHSKIP leaves to drop (R177). -/
structure Chan where
  w : Nat
  r : Nat
  m : Nat
  f : Nat
  skip : Nat
  deriving DecidableEq, Repr

/-- What a loaded spore keeps beside its SPTAB words: its entry points and digest. -/
structure Spore where
  entry : List Nat
  digest : List Byte
  deriving DecidableEq, Repr

/-- A load or unload in progress (R171, R172): the image header and, for a copy to the store, its code; what it waits for
(0 nothing, 1 the darkroom's measurement, 2 its signature check, 3 the image's lines, 4 the log record's, 5 the measurement that
comes before a signature check); and the status it has come to. -/
structure LoadOp where
  hdr : List Byte
  code : List Byte
  wait : Nat
  status : Nat
  deriving DecidableEq, Repr

/-- A completion of work that has ended, whose record waits until the strand's stores and posted updates of before `seq` are
visible or have failed (R89): the strand and its sorus's unit, the work, the status, and the two forms of the record's rest. -/
structure EndE where
  t : Nat
  seq : Nat
  unit : Nat
  work : Work
  status : Nat
  detail : Nat
  cqRes : List Byte
  winRest : List Byte
  deriving DecidableEq, Repr

/-- The sori (chapter 6). -/
structure Sori where
  strand : Tbl Strand
  sb : List SbE
  posts : List PostE
  chan : Tbl Chan
  /-- The sorus stores: sorus × 2²⁰ + offset. -/
  store : List Host.Cell
  spore : Tbl Spore
  load : Tbl LoadOp
  /-- Physical Fronds being fenced, their flush in progress: 1 more than the time at which they were declared hung (R182). -/
  fencing : Tbl Nat
  /-- A swap in progress: sorus ↦ 1 + logical Frond. -/
  swap : Tbl Nat
  /-- A rotation in progress: sorus ↦ 1 + next logical Frond, and the strand that waits for nothing. -/
  rot : Tbl Nat
  /-- Physical Frond under self-test: sorus ↦ 1 + index (R185). -/
  test : Tbl Nat
  /-- Strands held by HALT, by sorus (R256). -/
  halt : Tbl Nat
  /-- The last restart of the fabric manager spore (R169). -/
  restart : Option Nat
  /-- A START channel has reported that it cannot start (R166). -/
  chanErr : Tbl Nat
  /-- A fenced physical Frond has tried to send since it was fenced (R183). -/
  spoke : Tbl Nat
  /-- Stores and posted updates that have retired. -/
  seq : Nat
  /-- RdUs of Fronds that are outstanding, and prefetches that wait. -/
  rdu : List RdUE
  prefs : List PrefE
  /-- The L1I of the physical Fronds (R161, R163): lines of code by `l1iKey`. -/
  l1i : Tbl (Option Line)
  /-- Lines of the sorus stores that have read uncorrectable (R98, R180): sorus × 2¹⁴ + line. -/
  bad : List Nat
  /-- The queue, window or channel that a sorus's dispatcher took last, plus 1: sorus × 4 + source (R164). -/
  turn : Tbl Nat
  /-- Completions that wait for their strand's stores (R89). -/
  ends : List EndE
  deriving DecidableEq, Repr

/-! ## Queues and windows -/

/-- An invocation window (R272–R276): its status word's fields, the bytes collected for its next command, and its result
slot. -/
structure Win where
  status : Nat
  detail : Nat
  /-- 0 IDLE, 1 BUSY, 2 DONE. -/
  state : Nat
  nr : Bool
  ovr : Bool
  seq : Nat
  buf : Line
  got : BitVec 64
  slot : Line
  /-- The command taken that waits for a strand. -/
  cmd : Option Line
  /-- The window's register as it stood when the command was taken (R276). -/
  cfg : Word
  deriving DecidableEq, Repr

/-- A read of a result slot held at a port, with the generation that its frame was decoded under (R275, R36). -/
structure HeldRd where
  port : Nat
  off : Nat
  len : Nat
  slice : Nat
  w : Nat
  gen : Nat
  deriving DecidableEq, Repr

/-- The work queues and windows (chapter 9). The manager queue is numbered as slice 4096, queue 0. -/
structure Wq where
  /-- Completions posted and not yet in their ring, oldest first: slice × 8 + CQ; the flag is set where the completion has
  kept its reservation (R269, R271). -/
  held : Tbl (List (Bool × List Byte))
  /-- The first byte, plus 1, of the entry of an SQ that work was started with and whose OWN is still to be cleared. -/
  sqOwn : Tbl Nat
  win : Tbl Win
  reads : List HeldRd
  /-- Bytes of the manager rings, by offset in frame 0 (R277). -/
  mgr : List Host.Cell
  /-- Sorus that took the last entry of each SQ, and the last window command of each slice (R268). -/
  sqRot : Tbl Nat
  winRot : Tbl Nat
  deriving DecidableEq, Repr

/-- An MSI-X table entry (R381). -/
structure MsixE where
  addr : Word
  data : BitVec 32
  mask : Bool
  deriving DecidableEq, Repr

/-- What the ports keep for their hosts (R128–R133, R380, R439). -/
structure HostIf where
  /-- MSI-X entries: (port × 16 + table) × 16 + entry. -/
  msix : Tbl MsixE
  /-- Pending bits: 1 for a frame 0 raise, slice + 2 for a slice's. -/
  pend : Tbl Nat
  /-- MSI-X Enable and function mask: port × 16 + table ↦ enable + 2 × mask. -/
  ctl : Tbl Nat
  /-- NOTIFY_VEC + 16 × NOTIFY_EN of each port (R133). -/
  notify : Tbl Nat
  /-- Committed back-invalidate decoders: port × 16 + logical device (R131). -/
  commit : Tbl Nat
  /-- Requests sent to homes and not answered. -/
  reqs : List PortReq
  /-- Requests that wait at their ports for a table walk, oldest first (R33). -/
  walks : List HostReq
  deriving DecidableEq, Repr

/-- A MOVE or FILL in progress (R245–R247). -/
structure MoveOp where
  id : Nat
  t : Nat
  sorus : Nat
  slice : Nat
  priv : Bool
  fill : Bool
  posted : Bool
  src : Nat
  dst : Nat
  len : Nat
  val : Word
  /-- Where a posted form writes its completion word; the destination register otherwise. -/
  cw : Nat
  rd : Nat
  abort : Bool
  /-- Lines moved so far, and the completion word of one that has ended and whose write is awaited. -/
  lines : Nat
  res : Option Word
  deriving DecidableEq, Repr

/-! ## Cestralink -/

/-- What a training ordered set of the partner told (R138): rates listed, rate, width, device, port, reversal, credits. -/
structure LinkPeer where
  rates : Nat
  rate : Nat
  width : Nat
  dev : Nat
  port : Nat
  rev : Bool
  cred : List Nat
  deriving DecidableEq, Repr

/-- A width action (R151): code, sequence, target lanes, whether this end started it, and how far it has come: LREQ seen,
LACK seen, own LSWITCH under way, partner's LSWITCH accepted; the sequence number of the own LSWITCH and the lanes in use until
it, once it has gone out. -/
structure LinkAct where
  code : Nat
  aseq : Nat
  mask : Nat
  own : Bool
  lack : Bool
  sent : Bool
  got : Bool
  lsw : Option (Nat × Nat)
  deriving DecidableEq, Repr

/-- The link layer of a PEER port (R137–R155). -/
structure Link where
  /-- Next sequence number to send, and the one expected (R140). -/
  txSeq : Nat
  rxSeq : Nat
  /-- The replay buffer: sequence, TYPE, VC and payload (R148). -/
  replay : List (Nat × Nat × Nat × List Byte)
  /-- Messages waiting for a credit: VC and bytes. -/
  txq : List (Nat × List Byte)
  cred : Tbl Nat
  owed : Tbl Nat
  /-- Replays since progress; the watch of R149, and the replays of each flit during it. -/
  rep : Nat
  watch : Bool
  wrep : Tbl Nat
  /-- A NAK is due in the next header; discarding since a failed check; when the last NAK was sent (R147). -/
  nak : Bool
  disc : Bool
  nakAt : Nat
  /-- Lanes that flits are sent on, and received on. -/
  txMask : Nat
  rxMask : Nat
  act : Option LinkAct
  /-- Lanes locked to the partner's ADD. -/
  adds : Nat
  aseq : Nat
  /-- Stage of a calibration cycle (R154): 1 narrowing, 2 upper half, 3 swapping, 4 lower half, 5 widening; 11 and 12 the upper and
  the lower half in a cycle that the partner started. -/
  cal : Nat
  /-- A calibration cycle waits for the end of another action. -/
  due : Bool
  /-- Lanes of the whole link when the cycle began. -/
  full : Nat
  peer : Option LinkPeer
  /-- Fragments of an FM_PEER message on this link (R369). -/
  frag : List (List Byte)
  /-- The receive buffers: the VC of each flit and the messages of it that have not left (R144, R145, R158). -/
  rxb : List (Nat × List (List Byte))
  deriving DecidableEq, Repr

/-! ## The darkroom -/

/-- TIME_PPS (R15, R359): enabled; the last accepted edge; running free; edges ignored; the last offset; the phase still to
remove, in ns, positive where fabric time is ahead; and the ticks since it last moved. -/
structure Pps where
  en : Bool
  last : Option Nat
  free : Bool
  ignored : Nat
  off : Int
  slew : Int
  acc : Nat
  deriving DecidableEq, Repr

/-- The I3C target (R361–R364): its dynamic address, IBIs enabled, and the longest write and read it takes. -/
structure I3c where
  addr : Option Nat
  /-- How many of the oldest packets were due when RSTDAA took the address: they wait for the new one (R374). -/
  due : Nat
  ibi : Bool
  mwl : Nat
  mrl : Nat
  deriving DecidableEq, Repr

/-- A request that the darkroom has relayed and whose answer it awaits (R368): its sender, 2 FM or 3 OOB, its header, and the
MCTP endpoint and tag of the controller's message. -/
structure Relay where
  from_ : Nat
  op : Nat
  tag : Nat
  src : Nat
  dst : Nat
  mt : Nat
  deriving DecidableEq, Repr

/-- An MCTP message being reassembled (R364): the next packet's sequence number, and the bytes so far. -/
structure Asm where
  seq : Nat
  bs : List Byte
  deriving DecidableEq, Repr

/-- An SPDM connection (R352): how far negotiation has come (0 nothing, 1 version, 2 capabilities, 3 algorithms), and its
transcript. -/
structure SpdmC where
  st : Nat
  tr : List Byte
  deriving DecidableEq, Repr

/-- An SPDM session (R352): its connection, ID, whether FINISH has completed it, and its key updates. -/
structure SpdmS where
  path : Nat
  id : Nat
  up : Bool
  keys : Nat
  deriving DecidableEq, Repr

/-- The darkroom: its management event queue (R382), measurements (R349), and what it holds of its protocols. -/
structure Drk where
  /-- Records not yet acknowledged, oldest first, and how many of them EVENT has carried. -/
  evq : List (List Byte)
  evSent : Nat
  /-- Records lost to a full queue (R374). -/
  evLost : Nat
  /-- The darkroom's log of safelight triggers that came while safelight was in force: reason, ARG and fabric time (R409). -/
  safeLog : List (Nat × Nat × Nat)
  /-- Messages for FM held beyond the one in MBXRXD (R374). -/
  fmq : List (List Byte)
  /-- The sixteen measurement slots of 48 bytes, the log of extends with slot, kind, time and digest, oldest first, and its
  overflow flag (R349). -/
  slots : Tbl (List Byte)
  mlog : List (Nat × Nat × Nat × List Byte)
  mlogOvf : Bool
  /-- Messages of the fabric engine on their way to the darkroom (R367). -/
  fe : List (List Byte)
  /-- The firmware runs, with its DIGEST (R346). -/
  fwOk : Bool
  fwDig : List Byte
  /-- The image awaited over MCTP: 0 none, 1 darkroom firmware, 2 fabric manager spore; and the bytes received (R371). -/
  want : Nat
  img : List Host.Cell
  /-- The fabric manager spore last loaded (R350); its reload waits for the stacks of a warm reset (R401, step 6); it is being
  transferred (R371); BOOT work is armed. -/
  fm : List Byte
  reload : Bool
  xfer : Bool
  armed : Bool
  /-- UDS is read-disabled, and the identity key has been derived from it (R346, R351). -/
  udsOff : Bool
  idKey : Bool
  /-- Nonces issued and not answered, with their times, and those that an answer has used (R342). -/
  nonces : List (Nat × List Byte)
  used : List (List Byte)
  /-- How the authorisation in force was obtained: 0 none, 1 TAP, 2 I3C; and the first debug access to a locked region since
the last grant is still to come (R342, R343). -/
  auth : Nat
  lockEv : Bool
  pps : Pps
  i3c : I3c
  /-- The MCTP endpoint ID; the endpoint and tag of the controller's latest EMP message, endpoint × 8 + tag; messages being
reassembled: path × 4096 + source × 16 + tag, path 0 for I3C and 1 + port for DOE; packets for the I3C controller, oldest
first (R364). -/
  eid : Nat
  oob : Nat
  asm : Tbl Asm
  tx : List (List Byte)
  relays : List Relay
  /-- Messages counted by the darkroom: 0 denied, 1 responses that no relay awaits (R367, R368). -/
  cnt : Tbl Nat
  spdm : Tbl SpdmC
  sess : List SpdmS
  /-- The latest answer of the expander at a MEM port to the darkroom's requests as SPDM requester, by port (R352). -/
  answers : Tbl (List Byte)
  /-- IDE keys in the ports' engines: ((port × 256 + stream) × 2 + direction) × 256 + slot ↦ key and IV (R370). -/
  ide : Tbl (List Byte)
  deriving DecidableEq, Repr

/-- A change of a region entry that no RULESYNC has covered yet (R340): its number, the region, and the pages from `lo` to
`hi` held before or after it. -/
structure RegChg where
  id : Nat
  i : Nat
  lo : Nat
  hi : Nat
  deriving DecidableEq, Repr

/-- The fabric protection controller's own state (R340). -/
structure Fpc where
  chg : List RegChg
  next : Nat
  deriving DecidableEq, Repr

/-- The test access port (R341): the instruction in force (0 none, 1 BYPASS, 2 IDCODE, 3 SAMPLE/PRELOAD, 4 EXTEST, 5 SCAN), and
what the boundary register holds. -/
structure Tap where
  ir : Nat
  bsr : List Bool
  deriving DecidableEq, Repr

/-! ## The queue manager -/

/-- A packet-buffer cell (R281): 0 FREE, 1 GIVEN, 2 QUEUED, 3 EGRESS; its owner; and one more than the slice that last
held it (R284). -/
structure CellE where
  st : Nat
  owner : Nat
  last : Nat
  deriving DecidableEq, Repr

/-- A linked packet: its number in the model, its first cell while resident, its cells, length, colour, META, time of
admission in 8 ns units, whether a refill found it poisoned, and its spill cells while spilled. -/
structure Pkt where
  id : Nat
  cell : Nat
  n : Nat
  len : Nat
  colour : Nat
  info : Nat
  tin : Nat
  psn : Bool
  sp : List Nat
  deriving DecidableEq, Repr

/-- What the scheduler keeps of an output, group, class or queue (R299, R302): virtual time V, tag T, base, FPREV, shaper
tokens in units of 2⁻³² byte, whether it is backlogged, and one more than the number of the packet its tag is for. -/
structure Node where
  v : Nat
  t : Nat
  base : Nat
  fprev : Nat
  tok : Int
  bl : Bool
  nx : Nat
  deriving DecidableEq, Repr

/-- A ring of which the queue manager is the producer: a free-cell ring, or an output's egress ring. `sw` is STARVED of the
one and WERR of the other. -/
structure QRing where
  head : Nat
  tail : Nat
  herr : Bool
  sw : Bool
  paused : Bool
  armed : Bool
  deriving DecidableEq, Repr

/-- An enqueue or release command that the queue manager has accepted and not yet handled (R287, R42): its kind, the slice that
its checks use, its 64 bytes, and where its result goes: a command slot of that slice, or a strand. -/
structure QmTodo where
  rel : Bool
  own : Option Nat
  x : Nat
  slot : Nat
  strand : Option Nat
  deriving DecidableEq, Repr

/-- A descriptor on its way into the egress ring of output `o`: its group, class and queue, and its bytes (R304). -/
structure EgW where
  o : Nat
  g : Nat
  k : Nat
  q : Nat
  bs : List Byte
  deriving DecidableEq, Repr

/-- The queue manager (chapter 10). -/
structure Qm where
  cells : Tbl CellE
  /-- Table words: (table × 2¹⁷ + index) × 4 + word. -/
  tab : Tbl Word
  /-- The packets of each queue, head first. -/
  q : Tbl (List Pkt)
  /-- Nodes: table × 2¹⁷ + index. -/
  node : Tbl Node
  /-- Rings: FRING index, or 32768 + output. -/
  ring : Tbl QRing
  /-- One more than the output that dequeued last. -/
  rot : Nat
  /-- The model's number of the next packet. -/
  pid : Nat
  /-- SPILL_FULL has been raised for the present shortage. -/
  full : Bool
  /-- Command slots: slice × 128 + slot, release slots from 64 on: bytes collected, and which. -/
  buf : Tbl (Line × BitVec 64)
  /-- Result words of the enqueue slots: slice × 64 + slot (R289). -/
  res : Tbl Word
  /-- Commands accepted and not yet handled, in order, and descriptors whose write is awaited. -/
  todo : List QmTodo
  egw : List EgW
  deriving DecidableEq, Repr

/-! ## The whole -/

/-- The device, manufacture and the command queue apart. -/
structure Dev where
  /-- Fabric time in nanoseconds (R12). -/
  time : Nat
  /-- Every control-space register that has been written, by address (R19). -/
  csr : Tbl Word
  /-- The model's own count of free values drawn. -/
  fresh : Nat
  /-- The model's own record of outputs, oldest first. -/
  out : List Out
  pwr : Pwr
  ctr : Ctr
  coh : Coh
  pool : Pool
  bind : Bind
  sor : Sori
  wq : Wq
  host : HostIf
  moves : List MoveOp
  drk : Drk
  /-- Link layers of the PEER ports, by lead port. -/
  link : Tbl Link
  fpc : Fpc
  qm : Qm
  tap : Tap
  deriving DecidableEq, Repr

/-- The state: manufacture's part, the device, and the commands that wait, first in first out. -/
structure State where
  fuse : Fuse
  dev : Dev
  pending : List Instr
  deriving DecidableEq, Repr

/-- Why the machine stops. -/
inductive Fault where
  /-- A command's operand is no operand of its row. No meaning raises it: operands beyond a row's bounds leave the device
unchanged, so no command stops the machine; safe. -/
  | illFormed
  deriving DecidableEq, Repr

/-- Why a command has no meaning. -/
inductive Refusal where
  /-- The command has no meaning yet: raised by the dispatch alone; safe. -/
  | notModelled (mnemonic : String)
  deriving DecidableEq, Repr

/-! ## Reset -/

/-- Nothing counted. -/
def Ctr.cold : Ctr := ⟨[], [], [], [], [], [], [], none, [], []⟩
/-- No cache holds a line, and nothing is in flight (R84). -/
def Coh.cold : Coh := ⟨[], [], [], [], [], [], [], [], [], [], [], [], [], 0, [], none, [], [], [], [], []⟩
/-- No memory has been written: HBM and SRAM hold no defined contents (R399). -/
def Pool.cold : Pool := ⟨[], [], [], [], [], [], [], [], [], [], [], [], [], [], [], false⟩
def Bind.cold : Bind := ⟨[], [], [], [], [], [], [], 0, []⟩
def Sori.cold : Sori := ⟨[], [], [], [], [], [], [], [], [], [], [], [], none, [], [], 0, [], [], [], [], [], []⟩
def Wq.cold : Wq := ⟨[], [], [], [], [], [], []⟩
def HostIf.cold : HostIf := ⟨[], [], [], [], [], [], []⟩
def Fpc.cold : Fpc := ⟨[], 0⟩
def Qm.cold : Qm := ⟨[], [], [], [], [], 0, 0, false, [], [], [], []⟩
def Tap.cold : Tap := ⟨0, []⟩
def Pps.cold : Pps := ⟨false, none, false, 0, 0, 0, 0⟩
/-- The I3C target before it has a dynamic address; a packet carries 64 payload bytes (R362, R364). -/
def I3c.cold : I3c := ⟨none, 0, false, 64, 64⟩

/-- The darkroom as the end of cold reset leaves it, before its boot ROM runs (R346). -/
def Drk.cold : Drk where
  evq := []
  evSent := 0
  evLost := 0
  safeLog := []
  fmq := []
  slots := []
  mlog := []
  mlogOvf := false
  fe := []
  fwOk := false
  fwDig := []
  want := 0
  img := []
  fm := []
  reload := false
  xfer := false
  armed := false
  udsOff := false
  idKey := false
  nonces := []
  used := []
  auth := 0
  lockEv := false
  pps := Pps.cold
  i3c := I3c.cold
  eid := 0
  oob := 0
  asm := []
  tx := []
  relays := []
  cnt := []
  spdm := []
  sess := []
  answers := []
  ide := []

/-- PORT[n].CFG of the manager port after reset (R126): mode PCIE, width x4, host 0, EN; the other fields are cold. -/
def mgrCfg : Nat := 0x18092

/-- The device right after the end of cold reset with STRAP = 0b0100 and every rail valid: every register cold but the
manager port's CFG, the boot ROM waiting for the darkroom firmware image over MCTP, and the FD and PDs held in reset (R346,
R396, R399). -/
def Dev.reset : Dev where
  time := 0
  csr := [(0x100000, BitVec.ofNat 64 mgrCfg)]
  fresh := 0
  out := []
  pwr := {
    rails := 0x7FF, order := [8, 9, 10, 7, 0, 1, 2, 3, 4, 5, 6], raised := 0, dark := true, pwrok := true
    fdReset := true, locked := false, hbmOrder := false, warm := none, booted := false, safeLow := false
    safeDrv := false, thermCrit := 0, strap := 0b0100, alert := false, startFail := false, seqNew := 0 }
  ctr := Ctr.cold
  coh := Coh.cold
  pool := Pool.cold
  bind := Bind.cold
  sor := Sori.cold
  wq := Wq.cold
  host := HostIf.cold
  moves := []
  drk := { Drk.cold with want := 1, udsOff := true, idKey := true }
  link := []
  fpc := Fpc.cold
  qm := Qm.cold
  tap := Tap.cold

/-- A part whose OTP holds no key and no policy: every OTP word 0 or empty (R345). -/
def Fuse.blank : Fuse :=
  ⟨0, List.replicate 32 0, 0, List.replicate 4 [], List.replicate 2 [], [], [], false⟩

/-- The machine right after reset (R346, R399). -/
def State.reset : State := ⟨Fuse.blank, Dev.reset, []⟩

end Sys2Proof.Machine
end

