-- ==== Sys2Proof/Machine/Ops.lean ====
section
/-! DEFINITION. The named operations over registers, memory, free values and outputs that every meaning is made of. -/

namespace Sys2Proof.Machine

/-! ## Outcomes -/

/-- The outcome of a command. -/
abbrev Result := Host.Outcome State Fault Refusal

/-- A command that changes the device alone: manufacture's part, the waiting commands and fabric time stand (R3, R12). -/
def State.act (s : State) (g : Fuse → Dev → Dev) : Result :=
  .next { s with dev := { g s.fuse s.dev with time := s.dev.time } }

/-- `g` where the condition holds, nothing otherwise: an event that cannot occur in this state leaves it unchanged. -/
def Dev.when (d : Dev) (c : Bool) (g : Dev → Dev) : Dev := if c then g d else d

/-! ## Control space -/

/-- The value held at a control-space address, `cold` where nothing has written it. -/
def Dev.word (d : Dev) (a : Nat) (cold : Nat) : Word := Tbl.get (w64 cold) d.csr a

/-- The register that a reference names. -/
def Dev.reg (d : Dev) (r : FRef) : Word := d.word r.addr r.cold

/-- The field that a reference names. -/
def Dev.f (d : Dev) (r : FRef) : Nat := getBits (d.reg r) r.lo r.w

/-- A one-bit field as a condition. -/
def Dev.fb (d : Dev) (r : FRef) : Bool := d.f r == 1

/-- The device with a register's whole value replaced. -/
def Dev.setReg (d : Dev) (r : FRef) (v : Word) : Dev := { d with csr := Tbl.put (w64 r.cold) d.csr r.addr v }

/-- The device with one field replaced. -/
def Dev.setF (d : Dev) (r : FRef) (v : Nat) : Dev := d.setReg r (putBits (d.reg r) r.lo r.w v)

/-- One field changed by a function of its value. -/
def Dev.updF (d : Dev) (r : FRef) (g : Nat → Nat) : Dev := d.setF r (g (d.f r))

/-- A saturating count in a field. -/
def Dev.incF (d : Dev) (r : FRef) : Dev := d.setF r (satAdd r.w (d.f r) 1)

/-! ## Free values, outputs, messages -/

/-- The next free value and the device with the draw counted. -/
def Dev.draw (d : Dev) : BitVec 64 × Dev := (Config.freeBits d.fresh, { d with fresh := d.fresh + 1 })

/-- One of a non-empty list's members, by a free value; a single member is taken without a draw. -/
def Dev.pick {α : Type} (d : Dev) : List α → Option α × Dev
  | [] => (none, d)
  | [x] => (some x, d)
  | l => (l[(Config.freeBits d.fresh).toNat % l.length]?, { d with fresh := d.fresh + 1 })

/-- One output appended to the record. -/
def Dev.emit (d : Dev) (o : Out) : Dev := { d with out := d.out ++ [o] }

/-- This device's ID (R16, PORT.GLINK.DEVID). -/
def Dev.devId (d : Dev) : Nat := d.f PORT.GLINK.DEVID

/-- Fabric time as a reading: it advances in steps of 4 ns. Every island gives the same one, where R13 lets two differ by up to
20 ns (DESIGN CHOICE, log entry 135). -/
def Dev.now (d : Dev) : Nat := d.time - d.time % 4

/-- The FD runs: it is not held in reset. -/
def Dev.fdUp (d : Dev) : Bool := !d.pwr.fdReset

/-- Safelight is in force (R409). -/
def Dev.safe (d : Dev) : Bool := d.fb SYS.SAFE.ACTIVE

/-- The control space takes writes: its requesters are strands, of which none runs in safelight, and the debug master, whose
writes safelight ignores (R18, R411). -/
def Dev.cspOn (d : Dev) : Bool := d.fdUp && !d.safe

/-! ## Counters -/

/-- Unit counter `k` advanced by `n` (R386): exact, modulo 2⁶⁴. -/
def Dev.count (d : Dev) (k n : Nat) : Dev :=
  { d with ctr := { d.ctr with unit := Tbl.upd 0 d.ctr.unit k fun v => v + w64 n } }

/-- Slice counter `i` of slice `n` advanced (R383). -/
def Dev.countSlice (d : Dev) (n i k : Nat) : Dev :=
  { d with ctr := { d.ctr with slice := Tbl.upd 0 d.ctr.slice (n * 16 + i) fun v => v + w64 k } }

/-- A gauge of R386 set. -/
def Dev.gauge (d : Dev) (k n : Nat) : Dev :=
  { d with ctr := { d.ctr with unit := Tbl.put 0 d.ctr.unit k (w64 n) } }

/-- A physical Frond's event `code` counted `n` times in every programmable counter that selects it (R385). -/
def Dev.frEvent (d : Dev) (p code n : Nat) : Dev :=
  let sel := (d.reg (CTR.FSEL.CLR p)).toNat
  let step := fun (t : Tbl Word) (j : Nat) =>
    if bitsN sel (7 * j) 7 == code then Tbl.upd 0 t (p * 8 + j) (fun v => v + w64 n) else t
  { d with ctr := { d.ctr with pmc := (List.range 8).foldl step d.ctr.pmc } }

/-! ## Events (R375–R378) -/

/-- Source `k` raised with a 32-bit detail: a record is formed, or the held record's COUNT advances (R378). -/
def Dev.raise (d : Dev) (k det : Nat) : Dev :=
  if !d.fdUp then d
  else if d.fb (EVT.ROUTE.PEND k) then
    d.setReg (EVT.RECA.HEAD k)
      (putBits (d.reg (EVT.RECA.HEAD k)) 16 16 (satAdd 16 (getBits (d.reg (EVT.RECA.HEAD k)) 16 16) 1))
  else
    ((d.setReg (EVT.RECA.HEAD k) (w64 (1 + k * 2 + 1 * 2 ^ 16 + det % 2 ^ 32 * 2 ^ 32))).setReg
      (EVT.RECB.TIME k) (w64 d.now)).setF (EVT.ROUTE.PEND k) 1

/-- A raise whose detail goes with a line: EVT.XFPA[j] takes it with the record's first raise (R376, R392). -/
def Dev.raiseFpa (d : Dev) (k det j ln : Nat) : Dev :=
  ((if d.fb (EVT.ROUTE.PEND k) || !d.fdUp then d else d.setF (EVT.XFPA.FPA j) ln)).raise k det

/-- A fabric-origin system source (R376). -/
def Dev.raiseSys (d : Dev) (k det : Nat) : Dev := d.raise (960 + k) det

/-! ## Lines and bytes of memory -/

/-- Memory in its canonical form: addresses rising, and no byte listed that an unlisted address reads as. -/
abbrev Memory.wf (m : List Host.Cell) : Bool := Tbl.wf (0 : Byte) m

/-- A byte of home memory; memory that nothing has written reads 0. -/
def Dev.byte (d : Dev) (a : Nat) : Byte := Tbl.get 0 d.pool.mem a

/-- `n` bytes of home memory from `a` on. -/
def Dev.bytes (d : Dev) (a n : Nat) : List Byte := Tbl.range 0 d.pool.mem a n

/-- Home memory with bytes written from `a` on. -/
def Dev.putBytes (d : Dev) (a : Nat) (bs : List Byte) : Dev :=
  { d with pool := { d.pool with mem := Tbl.putRange 0 d.pool.mem a bs } }

/-- The line at line address `ln` (FPA[51:6]). -/
def Dev.line (d : Dev) (ln : Nat) : Line := BitVec.ofNat 512 (leNat (d.bytes (ln * 64) 64))

/-- The bytes of a line, byte 0 first. -/
def lineBytes (x : Line) : List Byte := leBytes 64 x.toNat

/-- A line written whole. -/
def Dev.putLine (d : Dev) (ln : Nat) (x : Line) : Dev := d.putBytes (ln * 64) (lineBytes x)

/-- The line `old` with the bytes that `mask` names taken from `x`. -/
def mergeLine (old x : Line) (mask : BitVec 64) : Line :=
  BitVec.ofNat 512 (leNat ((List.range 64).map fun i =>
    if mask.getLsbD i then byteOf x.toNat i else byteOf old.toNat i))

/-- A line's metadata. -/
def LMeta.clean : LMeta := ⟨false, 0, 0⟩
def Dev.lmeta (d : Dev) (ln : Nat) : LMeta := Tbl.get LMeta.clean d.pool.lmeta ln
def Dev.setMeta (d : Dev) (ln : Nat) (m : LMeta) : Dev :=
  { d with pool := { d.pool with lmeta := Tbl.put LMeta.clean d.pool.lmeta ln m } }

/-- `n` bytes at offset `off` of a line. -/
def lineSlice (x : Line) (off n : Nat) : List Byte := (lineBytes x).drop off |>.take n

/-- The line with bytes from offset `off` on replaced. -/
def linePatch (x : Line) (off : Nat) (bs : List Byte) : Line :=
  BitVec.ofNat 512 (leNat ((List.range 64).map fun i =>
    if off ≤ i && i < off + bs.length then bs.getD (i - off) 0 else byteOf x.toNat i))

/-! ## The sorus stores -/

def Dev.storeBytes (d : Dev) (n a k : Nat) : List Byte := Tbl.range 0 d.sor.store (n * 2 ^ 20 + a) k
/-- Bytes written into a store; a line that is written whole is uncorrectable no longer. -/
def Dev.putStore (d : Dev) (n a : Nat) (bs : List Byte) : Dev :=
  let whole := fun j => j / 2 ^ 14 == n && a ≤ j % 2 ^ 14 * 64 && j % 2 ^ 14 * 64 + 64 ≤ a + bs.length
  { d with sor := { d.sor with
    store := Tbl.putRange 0 d.sor.store (n * 2 ^ 20 + a) bs
    bad := d.sor.bad.filter fun j => !whole j } }

end Sys2Proof.Machine
end

