-- ==== Sys2Proof/Machine/EmpMsg.lean ====
section
/-! DEFINITION. The bytes of an EMP message (R366), the messages of the fabric engine, and the measurement slots and their
log (R349). -/

namespace Sys2Proof.Machine

/-- Endpoints of EMP (R366). -/
def eDR : Nat := 0
def eFE : Nat := 1
def eFM : Nat := 2
def eOOB : Nat := 3

/-- A whole message: SOM and EOM set. -/
def empBytes (rsp : Bool) (op status tag src dst : Nat) (payload : List Byte) : List Byte :=
  [BitVec.ofNat 8 (0x61 + b2n rsp * 16), BitVec.ofNat 8 op, BitVec.ofNat 8 status, BitVec.ofNat 8 tag,
   BitVec.ofNat 8 src, BitVec.ofNat 8 dst] ++ leBytes 2 payload.length ++ payload

/-- An endpoint of this device in a header. -/
def Dev.ep (d : Dev) (e : Nat) : Nat := d.devId + e * 8

/-- A request of the fabric engine to the darkroom, put on its way. -/
def Dev.feSend (d : Dev) (op tag : Nat) (payload : List Byte) : Dev :=
  { d with drk := { d.drk with fe := d.drk.fe ++ [empBytes false op 0 tag (d.ep eFE) (d.ep eDR) payload] } }

/-- A measurement slot; 0 at cold reset. -/
def mslotZero : List Byte := List.replicate 48 0
def Dev.mslot (d : Dev) (i : Nat) : List Byte := Tbl.get mslotZero d.drk.slots i

/-- A slot extended and the extend logged; the fabric time recorded is 0 before the fabric die runs (R349). -/
def Dev.extend (d : Dev) (slot kind : Nat) (dig : List Byte) : Dev :=
  let full := d.drk.mlog.length ≥ 1024
  let e := (slot, kind, if d.fdUp then d.now else 0, dig)
  { d with drk := { d.drk with
      slots := Tbl.put mslotZero d.drk.slots slot (sha384 (d.mslot slot ++ dig))
      mlog := if full then d.drk.mlog else d.drk.mlog ++ [e]
      mlogOvf := d.drk.mlogOvf || full } }

end Sys2Proof.Machine
end

