-- ==== Sys2Proof/Machine/Lcomp.lean ====
section
/-! DEFINITION. The line compressor and decompressor of R248–R250, which LCOMP, LDECOMP and the memory-side cache
share (R104). -/

namespace Sys2Proof.Machine

/-- The `n`-byte words of a 64-byte line (R5). -/
def lineWords (x : Line) (n : Nat) : List Nat := (List.range (64 / n)).map fun i => bitsN x.toNat (8 * n * i) (8 * n)

/-- Every word is within a sign-extended delta of `k` bytes of the first, modulo the `n`-byte word size. -/
def deltasFit (ws : List Nat) (n k : Nat) : Bool :=
  ws.all fun w =>
    let dlt := (w + 2 ^ (8 * n) - ws.getD 0 0) % 2 ^ (8 * n)
    dlt < 2 ^ (8 * k - 1) || 2 ^ (8 * n) - 2 ^ (8 * k - 1) ≤ dlt

/-- Base word and deltas of `k` bytes. -/
def deltaBytes (ws : List Nat) (n k : Nat) : List Byte :=
  leBytes n (ws.getD 0 0) ++ (ws.map fun w => leBytes k (w + 2 ^ (8 * n) - ws.getD 0 0)).flatten

/-- Non-zero words of scheme ZW, lowest first. -/
def zwWords (x : Line) : List Nat := (lineWords x 8).filter (· != 0)

/-- Mask byte of scheme ZW. -/
def zwMask (x : Line) : Nat := (List.range 8).foldl (fun m i => if (lineWords x 8).getD i 0 != 0 then setBitN m i else m) 0

/-- The schemes that apply to a line, each with its slot size and the bytes after the header (R249). -/
def lcompSchemes (x : Line) : List (Nat × Nat × List Byte) :=
  let w := lineWords x 8
  let v := lineWords x 4
  let z := (zwWords x).length
  (if x = 0 then [(0, 32, [])] else []) ++
  (if w.all (· == w.getD 0 0) then [(1, 32, leBytes 8 (w.getD 0 0))] else []) ++
  (if deltasFit w 8 1 then [(2, 32, deltaBytes w 8 1)] else []) ++
  (if deltasFit w 8 2 then [(3, 32, deltaBytes w 8 2)] else []) ++
  (if deltasFit v 4 1 then [(4, 32, deltaBytes v 4 1)] else []) ++
  (if z ≤ 5 then [(5, if z ≤ 3 then 32 else 48, BitVec.ofNat 8 (zwMask x) :: ((zwWords x).map (leBytes 8)).flatten)] else []) ++
  (if deltasFit w 8 4 then [(6, 48, deltaBytes w 8 4)] else []) ++
  (if deltasFit v 4 2 then [(7, 48, deltaBytes v 4 2)] else [])

/-- The slot of a line: its size and its bytes (R249): the smallest slot, and in it the lowest scheme. -/
def lcomp (x : Line) : Nat × List Byte :=
  let ss := lcompSchemes x
  match (ss.find? fun s => s.2.1 == 32).orElse fun _ => ss.find? fun s => s.2.1 == 48 with
  | some s => (s.2.1, BitVec.ofNat 8 s.1 :: s.2.2)
  | none => (64, leBytes 64 x.toNat)

/-- The granules of a line in the memory-side cache (R104): its slot in units of 16 bytes. -/
def lcompGran (x : Line) : Nat := (lcomp x).1 / 16

/-- Eight words of `n` bytes rebuilt from a base and `k`-byte deltas. -/
def undelta (bs : List Byte) (n k : Nat) : Line :=
  let base := leNat (bs.take n)
  let step := fun i => leBytes n ((base + (sext (8 * k) (leNat ((bs.drop (n + i * k)).take k)) % (2 ^ (8 * n) : Nat)).toNat) % 2 ^ (8 * n))
  BitVec.ofNat 512 (leNat ((List.range (64 / n)).map step).flatten)

/-- The words of scheme ZW put back where its mask says. -/
def unzw : Nat → Nat → List Byte → List Byte
  | 0, _, _ => []
  | k + 1, m, bs => if m % 2 == 1 then bs.take 8 ++ unzw k (m / 2) (bs.drop 8) else leBytes 8 0 ++ unzw k (m / 2) bs

/-- Length of a scheme, header and mask included (R249). -/
def schemeLen (sc : Nat) (bs : List Byte) : Nat :=
  match sc with
  | 0 => 1 | 1 => 9 | 2 => 17 | 3 => 25 | 4 => 21
  | 5 => 2 + 8 * popN 8 ((bs.getD 1 0).toNat)
  | 6 => 41 | _ => 37

/-- The line a slot of the given size holds, or none where the slot is invalid (R249). -/
def ldecomp (bs : List Byte) (size : Nat) : Option Line :=
  if size == 64 then some (BitVec.ofNat 512 (leNat (bs.take 64)))
  else if size != 32 && size != 48 then none
  else
    let h := (bs.getD 0 0).toNat
    if h ≥ 8 || schemeLen h bs > size then none
    else
      let r := bs.drop 1
      match h with
      | 0 => some 0
      | 1 => some (BitVec.ofNat 512 (leNat (List.replicate 8 (r.take 8)).flatten))
      | 2 => some (undelta r 8 1)
      | 3 => some (undelta r 8 2)
      | 4 => some (undelta r 4 1)
      | 5 => some (BitVec.ofNat 512 (leNat (unzw 8 (r.getD 0 0).toNat (r.drop 1))))
      | 6 => some (undelta r 8 4)
      | _ => some (undelta r 4 2)

end Sys2Proof.Machine
end

