-- ==== Sys2Proof/Machine/Plru.lean ====
section
/-! DEFINITION. Pseudo-LRU replacement of a set of 2^k ways, as a binary tree of 2^k − 1 bits: bit `i` names the half of its
node in which the next victim lies, 0 the lower ways (R62, R65, R106; the tree is the model's reading, log entry 126). -/

namespace Sys2Proof.Machine

/-- The ways below node `i`, the next victim first; `b` is the lowest of them. -/
def plruWalk : Nat → Nat → Nat → Nat → List Nat
  | 0, _, _, b => [b]
  | k + 1, t, i, b =>
    let l := plruWalk k t (2 * i + 1) b
    let r := plruWalk k t (2 * i + 2) (b + 2 ^ k)
    if bitN t i then r ++ l else l ++ r

/-- Every way of a set in the order in which replacement names them. -/
def plruOrder (k t : Nat) : List Nat := plruWalk k t 0 0

/-- The bits on the path to way `w` from node `i` turned away from it. -/
def plruPath : Nat → Nat → Nat → Nat → Nat
  | 0, t, _, _ => t
  | k + 1, t, i, w =>
    if bitN w k then plruPath k (clrBitN t i) (2 * i + 2) w else plruPath k (setBitN t i) (2 * i + 1) w

/-- Way `w` of a set used. -/
def plruTouch (k t w : Nat) : Nat := plruPath k t 0 w

/-- The members of a set sorted by the order of their ways. -/
def plruSort (k t : Nat) (way : Nat → Nat) (ls : List Nat) : List Nat :=
  (plruOrder k t).flatMap fun w => ls.filter fun ln => way ln == w

end Sys2Proof.Machine
end

