-- ==== Sys2Proof/Machine/Prot.lean ====
section
/-! DEFINITION. Where an FPA lies (R93–R97), who owns an extent (R28–R31), and what the protection checkers admit
(R330–R336). -/

namespace Sys2Proof.Machine

/-! ## The local FPA map -/

/-- The kinds of range of the local FPA map (R93, R94). -/
inductive FpaKind where
  | nts | opb | hbm | exp (e : Nat) | fab | slot | none
  deriving DecidableEq, Repr

/-- The kind of range that an FPA's low 49 bits name, under the partition and the admitted windows (R93–R96). -/
def Dev.fpaKind (d : Dev) (a49 : Nat) : FpaKind :=
  let a := a49 % 2 ^ 49
  if a ≤ 0x5FFFFFF then .nts
  else if 0x10000000 ≤ a && a ≤ 0x12FFFFFF then .opb
  else if 0x4000000000 ≤ a && a < 0x8000000000 then
    let o := (a - 0x4000000000) % 0x1000000000
    let k := o / 0x40000000
    if k < 33 then
      if k < d.f HBM.PART.F then .fab
      else if k < d.f HBM.PART.F + d.f HBM.PART.M + d.f HBM.PART.Q then .slot
      else .hbm
    else if o ≤ 0x86FBFFFFF then .fab
    else .none
  else if 0x800000000000 ≤ a && a < 0x1000000000000 then
    let e := (a - 0x800000000000) / 0x20000000000
    if (a - 0x800000000000) % 0x20000000000 < d.f (HBM.EXP.CAP_GIB e) * 0x40000000 then .exp e else .none
  else .none

/-- The kind of the range that a line address lies in. -/
def Dev.lnKind (d : Dev) (ln : Nat) : FpaKind := d.fpaKind (ln * 64)

/-- FPA[51:49] of a line address: its home device (R16). -/
def lnDev (ln : Nat) : Nat := bitsN ln 43 3

/-- The home agent of a line (R97). -/
def homeOf (ln : Nat) : Nat :=
  bitsN ln 0 6 ^^^ bitsN ln 6 6 ^^^ bitsN ln 12 6 ^^^ bitsN ln 18 6

/-- The stack, channel and pseudo-channel (0–31 of the stack) of an HBM line (R97). -/
def hbmStack (ln : Nat) : Nat := bitsN ln 30 2
def hbmChan (ln : Nat) : Nat := bitsN ln 0 4 ^^^ bitsN ln 12 4
def hbmPc (ln : Nat) : Nat := hbmChan ln * 2 + (bitsN ln 4 1 ^^^ bitsN ln 16 1)

/-- The line lies in HBM of this device. -/
def Dev.inHbm (d : Dev) (ln : Nat) : Bool :=
  match d.lnKind ln with
  | .hbm | .fab => true
  | _ => false

/-- The extent space (R25): HBM-proper slots and expander windows. -/
def FpaKind.isExt : FpaKind → Bool
  | .hbm | .exp _ => true
  | _ => false

/-! ## Extents -/

/-- Address of an extent's table entry (R28). -/
def Dev.extAddr (d : Dev) (x : Nat) : Nat := d.f BIND.EXTTBL.BASE * 2 ^ 21 + x * 4

/-- A line of fabric-reserved memory with the bytes that a coherent read of it gives: those of a Frond's copy in M, of a message
that brings them home (WbM, RspD), or of the home. -/
def Dev.freshLine (d : Dev) (ln : Nat) : Line :=
  match d.coh.l1.find? fun e => e.1 % 2 ^ 46 == ln && e.2.st == some .m with
  | some e => e.2.data
  | none =>
    match d.coh.net.find? fun m => (m.op == 0x25 || m.op == 0x43) && m.addr.toNat == ln with
    | some m => m.data
    | none => d.line ln

/-- An aligned table entry of 4 bytes as a coherent read gives it (R30, R330). -/
def Dev.tableEntry (d : Dev) (a : Nat) : Nat := leNat (lineSlice (d.freshLine (a / 64)) (a % 64) 4)

/-- An aligned table entry of 4 bytes written by the unit that owns the table: the home and every copy of the line in the device
hold it from then on, so that nothing which a Frond stored before the table came into use undoes it (R29). -/
def Dev.putTable (d : Dev) (a w : Nat) : Dev :=
  let ln := a / 64
  let g := fun (x : Line) => linePatch x (a % 64) (leBytes 4 w)
  let d := d.putBytes a (leBytes 4 w)
  { d with coh := { d.coh with
      l1 := d.coh.l1.map fun e => if e.1 % 2 ^ 46 == ln && e.2.st.isSome then (e.1, { e.2 with data := g e.2.data }) else e
      net := d.coh.net.map fun m => if (m.op == 0x25 || m.op == 0x43) && m.addr.toNat == ln then { m with data := g m.data } else m } }

/-- The indices of the entries that may not be 0 of a table of 2 MiB at `base`: those with a byte listed in home memory, and those
of lines that a Frond holds or a message carries. -/
def Dev.tableUsed (d : Dev) (base : Nat) : List Nat :=
  let copies := (d.coh.l1.map fun e => e.1 % 2 ^ 46) ++ d.coh.net.map fun m => m.addr.toNat
  (((d.pool.mem.filter fun c => base ≤ c.1 && c.1 < base + 2 ^ 21).map fun c => (c.1 - base) / 4) ++
    ((copies.filter fun ln => ln / 2 ^ 15 == base / 2 ^ 21).map fun ln =>
      (List.range 16).map fun i => ln % 2 ^ 15 * 16 + i).flatten).eraseDups

/-- The extent table entry (R28). -/
def Dev.extEntry (d : Dev) (x : Nat) : Nat := d.tableEntry (d.extAddr x)
def extOwner (w : Nat) : Nat := bitsN w 0 12
def extState (w : Nat) : Nat := bitsN w 12 3
def extLast (w : Nat) : Nat := bitsN w 16 12
def extWord (owner state last : Nat) : Nat := owner % 4096 + state % 8 * 4096 + last % 4096 * 65536

/-- The binding unit's write of an entry. -/
def Dev.setExt (d : Dev) (x w : Nat) : Dev := d.putTable (d.extAddr x) w

/-- The extent index of a line, FPA[48:30]. -/
def extOf (ln : Nat) : Nat := bitsN ln 24 19

/-- The line's extent is OWNED by slice `n` (R31). -/
def Dev.owned (d : Dev) (ln n : Nat) : Bool :=
  d.fb BIND.EXTTBL.EN &&
    (let w := d.extEntry (extOf ln); extState w == 1 && extOwner w == n)

/-- The line lies in the extent table or the mirror table while it is in use (R29, R110). -/
def Dev.inTables (d : Dev) (ln : Nat) : Bool :=
  (d.fb BIND.EXTTBL.EN && bitsN ln 15 31 == d.f BIND.EXTTBL.BASE) ||
  (d.fb HBM.MIRTBL.EN && bitsN ln 15 31 == d.f HBM.MIRTBL.BASE)

/-! ## The region table and the checkers -/

/-- The domains of R330. -/
inductive Dom where
  | s | f | dbg | drk
  deriving DecidableEq, Repr

/-- The request kinds of R331: read, write, atomic, far update, fetch. -/
inductive Kind where
  | rd | wr | at | up | fe
  deriving DecidableEq, Repr

/-- The code of a domain in FPC.PVINFO. -/
def Dom.code : Dom → Nat
  | .s => 0 | .f => 1 | .dbg => 2 | .drk => 3

/-- The code of a kind in FPC.PVINFO. -/
def Kind.code : Kind → Nat
  | .rd => 0 | .wr => 1 | .at => 2 | .up => 3 | .fe => 4

/-- Region `i` is enabled and covers the page of `a` (R332). -/
def Dev.regionHits (d : Dev) (i a : Nat) : Bool :=
  let w0 := d.reg (FPC.REGION0.WORD0 i)
  getBits w0 0 1 == 1 && getBits w0 12 40 ≤ a / 4096 &&
    a / 4096 ≤ getBits (d.reg (FPC.REGION1.WORD1 i)) 12 40

/-- The indices of the region words 0 that are not 0. -/
def Dev.regionsSet (d : Dev) : List Nat :=
  (d.csr.filter fun e => 0xB81000 ≤ e.1 && e.1 < 0xB83000 && e.1 % 32 == 0).map fun e => (e.1 - 0xB81000) / 32

/-- The enabled region that covers an FPA; enabled regions never overlap (R338). -/
def Dev.regionOf (d : Dev) (a : Nat) : Option Nat := d.regionsSet.find? fun i => d.regionHits i a

/-- Region `i` admits the request (R333). -/
def Dev.regionAllows (d : Dev) (i : Nat) (m : Dom) (k : Kind) (n : Nat) : Bool :=
  let w0 := d.reg (FPC.REGION0.WORD0 i)
  let w2 := d.reg (FPC.REGION2.WORD2 i)
  let dom := match m with
    | .drk => getBits w2 0 1 == 1
    | .f => getBits w2 1 1 == 1
    | .s => getBits w2 2 1 == 1 && getBits w2 16 12 ≤ n && n ≤ getBits w2 32 12
    | .dbg => getBits w2 3 1 == 1
  let perm := match k with
    | .rd => getBits w0 1 1 == 1
    | .wr => getBits w0 2 1 == 1
    | .at => getBits w0 4 1 == 1
    | .up => getBits w0 2 1 == 1 && getBits w0 4 1 == 1
    | .fe => getBits w0 3 1 == 1 && m == .f
  dom && perm

/-- The table of R333 for an FPA in no enabled region. -/
def Dev.noRegionAllows (d : Dev) (a : Nat) (m : Dom) (k : Kind) : Bool :=
  match m with
  | .f => true
  | .s => (d.fpaKind a).isExt && k != .fe
  | .dbg => d.fb FPC.DBG.AUTH && bitN (d.f FPC.DBG.SCOPE) 0 && (k == .rd || k == .wr)
  | .drk => false

/-- A checker's judgement of one request (R331, R333): admitted, or refused by region `i` or by none. -/
inductive Verdict where
  | ok | region (i : Nat) | noreg
  deriving DecidableEq, Repr

def Dev.check (d : Dev) (a : Nat) (m : Dom) (k : Kind) (n : Nat) : Verdict :=
  match d.regionOf a with
  | some i => if d.regionAllows i m k n then .ok else .region i
  | none => if d.noRegionAllows a m k then .ok else .noreg

/-- The region field and the NOREG bit of a refusal's record. -/
def Verdict.fields : Verdict → Nat × Nat
  | .ok => (0, 0)
  | .region i => (i, 0)
  | .noreg => (0, 1)

/-- The verdict that a notice carries for a failure found at the home: the region of the line, or none (R336). -/
def Dev.regionVerdict (d : Dev) (fpa : Nat) : Verdict :=
  match d.regionOf fpa with
  | some i => .region i
  | none => .noreg

/-- A precise refusal recorded in FPC.PVIOL, PVINFO and VCNT (R335, R336). -/
def Dev.pviol (d : Dev) (v : Verdict) (a : Nat) (m : Dom) (k : Kind) (agent n : Nat) : Dev :=
  let d := d.setReg FPC.PVIOL.FPA (putBits 0 6 46 (a / 64))
  let d := d.setReg FPC.PVINFO.REGION
    (w64 (v.fields.1 + v.fields.2 * 2 ^ 8 + agent % 1024 * 2 ^ 9 + n % 4096 * 2 ^ 19 + m.code * 2 ^ 31 + k.code * 2 ^ 33))
  d.incF FPC.VCNT.PRECISE

/-- The imprecise notice (R336). -/
def Dev.notice (d : Dev) (v : Verdict) (agent n : Nat) (posted : Bool) : Dev :=
  (d.incF FPC.VCNT.NOTICE).raiseSys 0
    (v.fields.1 + agent % 1024 * 2 ^ 8 + n % 4096 * 2 ^ 18 + b2n posted * 2 ^ 30 + v.fields.2 * 2 ^ 31)

/-- FPC.REGION[i].LOCK. -/
def Dev.regionLocked (d : Dev) (i : Nat) : Bool := d.fb (FPC.REGIONL.LOCK i)

/-- A packet-buffer cell, and the cell that a line of the packet buffer lies in. -/
def CellE.free : CellE := ⟨0, 0, 0⟩
def Dev.cellE (d : Dev) (c : Nat) : CellE := Tbl.get CellE.free d.qm.cells c
def cellOfLn (ln : Nat) : Nat := (ln * 64 % 2 ^ 49 - 0x10000000) / 256

/-- The cell check of R283: a slice reaches a cell that is GIVEN or EGRESS and its own. -/
def Dev.cellOk (d : Dev) (ln n : Nat) : Bool :=
  let e := d.cellE (cellOfLn ln)
  (e.st == 1 || e.st == 3) && e.owner == n

/-- The queue manager's agent number. -/
def qmAgent : Nat := 0x301

/-- What the home itself refuses agent `ag`, checkers apart (R29, R31, R95, R110, R283): the line is unmapped, the extent or the cell
is not the slice's, or a write would change a table in use. The queue manager passes the cell check. -/
def Dev.homeRefuses (d : Dev) (ln ag : Nat) (priv : Bool) (n : Nat) (writes : Bool) : Bool :=
  match d.lnKind ln with
  | .none | .slot => true
  | .hbm | .exp _ => !priv && !d.owned ln n
  | .nts => false
  | .opb => !priv && ag != qmAgent && !d.cellOk ln n
  | .fab => !priv || (writes && d.inTables ln)

end Sys2Proof.Machine
end

