-- ==== Sys2Proof/Machine/Rs.lean ====
section
/-! DEFINITION. The Reed-Solomon line code of R98 over GF(2⁸). -/

namespace Sys2Proof.Machine

/-- Multiplication by α in GF(2⁸) with polynomial 0x11D. -/
def gfX2 (a : Nat) : Nat := if a < 128 then 2 * a else (2 * a) ^^^ 0x11D

/-- The product in GF(2⁸). -/
def gfMul (a b : Nat) : Nat :=
  ((List.range 8).foldl (fun s i => (if b.testBit i then s.1 ^^^ s.2 else s.1, gfX2 s.2)) (0, a)).1

/-- α to the power `n`. -/
def gfPow (n : Nat) : Nat := (List.range n).foldl (fun x _ => gfX2 x) 1

/-- One step of the division by g(x): the remainder c3, c2, c1, c0 with symbol `m` brought in. -/
def rsStep (c : Nat × Nat × Nat × Nat) (m : Nat) : Nat × Nat × Nat × Nat :=
  let q := m ^^^ c.1
  (c.2.1 ^^^ gfMul q 0x0F, c.2.2.1 ^^^ gfMul q 0x36, c.2.2.2 ^^^ gfMul q 0x78, gfMul q 0x40)

/-- The check symbols C3, C2, C1, C0 of a message given from its highest symbol down (R98). -/
def rsCheck (m : List Nat) : Nat × Nat × Nat × Nat := m.foldl rsStep (0, 0, 0, 0)

/-- The 70 stored symbols of a line: D0–D63, M0, M1, C3–C0 (R98). -/
def rsEncode (psn : Bool) (data : Line) (md : Nat) : List Nat :=
  let body := (leBytes 64 data.toNat).map (·.toNat) ++ [md % 256, md / 256 % 256]
  let c := rsCheck (b2n psn :: body)
  body ++ [c.1, c.2.1, c.2.2.1, c.2.2.2]

/-- The stored symbols with an error pattern added, symbol i in bits 8i to 8i + 7. -/
def rsNoise (w : List Nat) (err : BitVec 560) : List Nat :=
  (List.range 70).map fun i => w.getD i 0 ^^^ bitsN err.toNat (8 * i) 8

/-- Syndrome j: the 71-symbol word, P first, evaluated at α^j. -/
def rsSynd (p : Nat) (w : List Nat) (j : Nat) : Nat :=
  (p :: w).foldl (fun s x => gfMul s (gfPow j) ^^^ x) 0

/-- The four syndromes. -/
def rsSynds (p : Nat) (w : List Nat) : List Nat := [rsSynd p w 0, rsSynd p w 1, rsSynd p w 2, rsSynd p w 3]

/-- The syndromes that one error of value `e` in the symbol of power `x` leaves. -/
def rsOne (e x : Nat) : List Nat := [e, gfMul e (gfPow x), gfMul e (gfPow (2 * x)), gfMul e (gfPow (3 * x))]

/-- The power of a single symbol in error that the syndromes are consistent with, among the stored symbols. -/
def rsLocate (s : List Nat) : Option Nat :=
  (List.range 70).find? fun x => s.getD 0 0 != 0 && rsOne (s.getD 0 0) x == s

/-- What the decoder makes of a stored word (R98, "Decoder outcomes"). -/
inductive RsOut where
  /-- A line without poison; `ce` when a symbol was corrected. -/
  | clean (data : Line) (md : Nat) (ce : Bool)
  /-- A poisoned line with the reason its MD holds. -/
  | poison (data : Line) (md : Nat) (ce : Bool)
  | bad
  deriving DecidableEq, Repr

/-- The word with the symbol of power `x` corrected by `e`. -/
def rsFix (w : List Nat) (x e : Nat) : List Nat :=
  (List.range 70).map fun i => if i + x == 69 then w.getD i 0 ^^^ e else w.getD i 0

/-- Data and MD of a stored word. -/
def rsData (w : List Nat) : Line := BitVec.ofNat 512 (leNat ((w.take 64).map (BitVec.ofNat 8)))
def rsMd (w : List Nat) : Nat := w.getD 64 0 + 256 * w.getD 65 0

/-- The decoder: at most one row of the table of R98 applies. -/
def rsDecode (w : List Nat) : RsOut :=
  let s0 := rsSynds 0 w
  let s1 := rsSynds 1 w
  if s0 == [0, 0, 0, 0] then .clean (rsData w) (rsMd w) false
  else if s1 == [0, 0, 0, 0] then .poison (rsData w) (rsMd w) false
  else match rsLocate s0 with
    | some x => let v := rsFix w x (s0.getD 0 0); .clean (rsData v) (rsMd v) true
    | none => match rsLocate s1 with
      | some x => let v := rsFix w x (s1.getD 0 0); .poison (rsData v) (rsMd v) true
      | none => .bad

/-- A line as it is read back under an error pattern: with none, as it was written. -/
def rsRead (psn : Bool) (data : Line) (md : Nat) (err : BitVec 560) : RsOut :=
  if err = 0 then (if psn then .poison data md false else .clean data md false)
  else rsDecode (rsNoise (rsEncode psn data md) err)

end Sys2Proof.Machine
end

