-- ==== Sys2Proof/Machine/Mem.lean ====
section
/-! DEFINITION. Home memory as a home agent reads and writes it: the line code and its counters (R98–R100), page
retirement candidates (R103), mirrored copies (R110–R114), and the memory-side cache with its expanders (R104–R106,
R113, R117, R118). -/

namespace Sys2Proof.Machine

/-! ## The mirror table (R110) -/

def Dev.mirAddr (d : Dev) (x : Nat) : Nat := d.f HBM.MIRTBL.BASE * 2 ^ 21 + x * 4

/-- A mirror table entry; 0 while the table is not in use. -/
def Dev.mirEntry (d : Dev) (x : Nat) : Nat := if d.fb HBM.MIRTBL.EN then d.tableEntry (d.mirAddr x) else 0
def Dev.setMir (d : Dev) (x w : Nat) : Dev := d.putTable (d.mirAddr x) w
def mirPartner (w : Nat) : Nat := bitsN w 0 19
def mirRole (w : Nat) : Nat := bitsN w 19 1
def mirState (w : Nat) : Nat := bitsN w 20 3
def mirVerify (w : Nat) : Bool := bitsN w 23 1 == 1
def mirWord (partner role state : Nat) (verify : Bool) : Nat :=
  partner % 2 ^ 19 + role % 2 * 2 ^ 19 + state % 8 * 2 ^ 20 + b2n verify * 2 ^ 23

/-- The same line in another extent of the device. -/
def lineIn (ln x : Nat) : Nat := lnDev ln * 2 ^ 43 + x * 2 ^ 24 + ln % 2 ^ 24

/-- The other copy of a mirrored line. -/
def Dev.partnerOf (d : Dev) (ln : Nat) : Option Nat :=
  let w := d.mirEntry (extOf ln)
  if mirState w == 0 then none else some (lineIn ln (mirPartner w))

/-- The copy that reads are served from: the primary (R111, R114). -/
def Dev.readCopy (d : Dev) (ln : Nat) : Nat :=
  match d.partnerOf ln with
  | some q => if mirRole (d.mirEntry (extOf ln)) == 1 then q else ln
  | none => ln

/-- The copy that a read may fall back on: the secondary of an INTACT pair (R114, R120). -/
def Dev.spareCopy (d : Dev) (ln : Nat) : Option Nat :=
  match d.partnerOf ln with
  | some q => if mirState (d.mirEntry (extOf ln)) == 1 then some (if d.readCopy ln == ln then q else ln) else none
  | none => none

/-! ## Expander windows -/

/-- The window of an expander line. -/
def winOf (ln : Nat) : Nat := bitsN ln 35 6

/-- The expander answers requests: it is ONLINE or REJOINING (R116, R117). -/
def Dev.expLive (d : Dev) (e : Nat) : Bool := d.f (HBM.EXP.STATE e) == 1 || d.f (HBM.EXP.STATE e) == 3

/-- The copy of a line in its extent lacks its data: it was missed while its expander was dead, or is not copied yet (R117,
R120, R121). -/
def Dev.lacks (d : Dev) (ln : Nat) : Bool :=
  let g := Tbl.get (0, []) d.pool.gone (extOf ln)
  g.1 != 0 && g.1 ≤ ln % 2 ^ 24 + 1 && !g.2.contains (ln % 2 ^ 24)

/-- A line of such a copy written. -/
def Dev.refill1 (d : Dev) (ln : Nat) : Dev :=
  let i := ln % 2 ^ 24
  if !d.lacks ln then d
  else { d with pool := { d.pool with gone := Tbl.upd (0, []) d.pool.gone (extOf ln) fun g =>
    if g.1 == i + 1 then (i + 2, g.2) else (g.1, g.2 ++ [i]) } }

/-- The copy of a line can be read from its expander. -/
def Dev.expHas (d : Dev) (ln : Nat) : Bool := d.expLive (winOf ln) && !d.lacks ln

/-- A request to an expander put on record until its response (R117, R118). -/
def Dev.expReq (d : Dev) (ln home : Nat) (wr : Bool) (stamp : Option (Nat × Nat)) : Dev :=
  let e := winOf ln
  { d with pool := { d.pool with exps := d.pool.exps ++ [⟨e, ln, home, wr, d.f (HBM.EXP.EPOCH e), false, stamp⟩] } }

/-- A read of an expander line for the home line `home` (R118). -/
def Dev.expRead (d : Dev) (ln home : Nat) : Dev :=
  (d.emit (.expRd (winOf ln) (d.f (HBM.EXP.EPOCH (winOf ln))) ln)).expReq ln home false none

/-- A write of an expander line for the home line `home`. -/
def Dev.expPut (d : Dev) (ln home : Nat) (x : Line) (psn : Bool) : Dev :=
  ((d.emit (.expWr (winOf ln) (d.f (HBM.EXP.EPOCH (winOf ln))) ln x psn)).expReq ln home true none).refill1 ln

/-- The home line of a write that no line of the memory-side cache waits for. -/
def noHome : Nat := 2 ^ 46

/-- The stamp line of an expander line, and the byte of its stamp in it: the stamp area lies at the top of the window,
32 MiB an extent, 2 bytes a line (R113). -/
def Dev.stampLn (d : Dev) (ln : Nat) : Nat × Nat :=
  let e := winOf ln
  let cap := d.f (HBM.EXP.CAP_GIB e)
  let b := 131072 + e * 2048
  let byte := (b + cap - (cap + 31) / 32) * 2 ^ 30 + (extOf ln - b) * 2 ^ 25 + 2 * (ln % 2 ^ 24)
  (lnDev ln * 2 ^ 43 + byte / 64, byte % 64)

/-- The line lies in the stamp area of its expander's window (R113). -/
def Dev.isStamp (d : Dev) (ln : Nat) : Bool :=
  match d.lnKind ln with
  | .exp e =>
    let cap := d.f (HBM.EXP.CAP_GIB e)
    131072 + e * 2048 + cap - (cap + 31) / 32 ≤ extOf ln
  | _ => false

/-! ## The memory-side cache -/

def MscT.none : MscT := ⟨0, false, []⟩
def Dev.msc (d : Dev) (ln : Nat) : MscT := Tbl.get MscT.none d.pool.msc ln

/-- The line is in the memory-side cache. -/
def Dev.inMsc (d : Dev) (ln : Nat) : Bool := (d.msc ln).gran != 0

/-- The gauge of R386 that counts lines of a slot size at a home. -/
def mscGauge (ln gran : Nat) : Nat := 768 + 16 * homeOf ln + 3 + gran

/-- The sets of the memory-side cache: 4 × M GiB in sets of 1,024 bytes (R94, R104). -/
def Dev.mscSets (d : Dev) : Nat := 4 * d.f HBM.PART.M * 2 ^ 20

/-- The set of a line. -/
def Dev.mscSetOf (d : Dev) (ln : Nat) : Nat := Config.mscSet d.mscSets ln

/-- The expander lines of open requests that are to come into the memory-side cache. -/
def Dev.mscComing (d : Dev) : List Nat :=
  (d.coh.txns.filter fun t => (match t.kind with | .req _ => true | _ => false) && !d.inMsc t.ln &&
    (match d.lnKind t.ln with | .exp _ => true | _ => false)).map (·.ln)

/-- The other lines of a line's set, those that are on their way into it among them. With fewer than sixteen lines in all,
every set has room and every line a tag of its own (R104). -/
def Dev.mscMates (d : Dev) (ln : Nat) : List Nat :=
  let all := (d.pool.msc.map (·.1) ++ d.mscComing).filter (· != ln)
  if all.length < 16 then all else all.filter fun j => d.mscSetOf j == d.mscSetOf ln

/-- The tag of a line, 0–31. -/
def Dev.mscWay (d : Dev) (ln : Nat) : Nat := Tbl.get 0 d.pool.mscWay ln - 1

/-- The pseudo-channel of a tag's data has failed: no line is allocated there (R102). -/
def Dev.mscDead (d : Dev) (set w : Nat) : Bool :=
  (List.range 4).any (fun k => d.f (HBM.STAT.PCFAIL k) != 0) &&
  (let x := Config.mscPlace d.mscSets set w; bitN (d.f (HBM.STAT.PCFAIL (x % 4))) (x / 4 % 32))

/-- The tags of a line's set that no line of it has and that can be given out, rising. -/
def Dev.mscFree (d : Dev) (ln : Nat) : List Nat :=
  let used := ((d.mscMates ln).filter d.inMsc).map d.mscWay
  (List.range 32).filter fun w => !used.contains w && !d.mscDead (d.mscSetOf ln) w

/-- The replacement state of a line's set after a use of the line (R106). -/
def Dev.mscTouch (d : Dev) (ln : Nat) : Dev :=
  { d with pool := { d.pool with mscLru := Tbl.upd 0 d.pool.mscLru (d.mscSetOf ln) fun t => plruTouch 5 t (d.mscWay ln) } }

/-- The HBM line in which a line of the memory-side cache lies, in one of the cache's slots (R94). -/
def Dev.mscHbm (d : Dev) (ln : Nat) : Nat :=
  let x := Config.mscPlace d.mscSets (d.mscSetOf ln) (d.mscWay ln)
  let slot := d.f HBM.PART.F + x / 128 % max 1 (d.f HBM.PART.M)
  let at_ := x / 128 / max 1 (d.f HBM.PART.M) % 2 ^ 19
  let pc := x / 4 % 32
  let hi := at_ / 2 ^ 7 * 2 ^ 12
  2 ^ 32 + x % 4 * 2 ^ 30 + slot * 2 ^ 24 + hi + at_ % 2 ^ 7 * 2 ^ 5 + (pc % 2 ^^^ bitsN hi 16 1) * 2 ^ 4 + (pc / 2 ^^^ bitsN hi 12 4)

/-- The HBM line that a line lies in: its own, spill slots included, or its place in the memory-side cache; none for a line in
SRAM. -/
def Dev.hbmLn (d : Dev) (ln : Nat) : Option Nat :=
  match d.lnKind ln with
  | .hbm | .fab | .slot => some ln
  | .exp _ => some (d.mscHbm ln)
  | _ => none

/-- A read (`k` = 0) or a write (`k` = 1) of a line counted for the HBM channel that holds it (R386). -/
def Dev.hbmOp (d : Dev) (ln k : Nat) : Dev :=
  match (match d.lnKind ln with | .exp _ => if d.inMsc ln then d.hbmLn ln else none | _ => d.hbmLn ln) with
  | some h => d.count (1792 + 8 * (16 * hbmStack h + hbmChan h) + k) 1
  | none => d

/-- A tag written, with the home's gauges of lines in 32-, 48- and 64-byte slots (R386): a line that comes in takes the
lowest free tag, and one whose tag's data lies in a failed pseudo-channel another (R102). -/
def Dev.setMsc (d : Dev) (ln : Nat) (t : MscT) : Dev :=
  let o := d.msc ln
  let adj := fun (d : Dev) (g : Nat) (up : Bool) =>
    if g == 0 then d else
      { d with ctr := { d.ctr with unit := Tbl.upd 0 d.ctr.unit (mscGauge ln g) fun v => if up then v + 1 else v - 1 } }
  let d := adj (adj d o.gran false) t.gran true
  let way := if t.gran == 0 then 0
    else if o.gran != 0 && !d.mscDead (d.mscSetOf ln) (d.mscWay ln) then Tbl.get 0 d.pool.mscWay ln
    else 1 + ((d.mscFree ln).head?).getD (d.mscWay ln)
  let d : Dev := { d with pool := { d.pool with
    msc := Tbl.put MscT.none d.pool.msc ln t, mscWay := Tbl.put 0 d.pool.mscWay ln way } }
  if t.gran == 0 then d else d.mscTouch ln

/-- An entry of the snoop filter, and whether it names an O holder of its line (R55). -/
def SfE.empty : SfE := ⟨0, 0, 0⟩
def Dev.sfe (d : Dev) (ln : Nat) : SfE := Tbl.get SfE.empty d.coh.sf ln
def Dev.heldO (d : Dev) (ln : Nat) : Bool := 33 ≤ (d.sfe ln).own && (d.sfe ln).own ≤ 64

/-- The expanders that a dirty victim goes to: both copies of a mirrored line (R106). -/
def Dev.copies (d : Dev) (ln : Nat) : List Nat :=
  (ln :: (d.partnerOf ln).toList).filter fun c => d.expLive (winOf c)

/-- Two bytes of a stamp line changed in the memory-side cache, its slot following its data (R104). -/
def Dev.stampIn (d : Dev) (sl off v : Nat) : Dev :=
  let x := linePatch (d.line sl) off (leBytes 2 v)
  (d.putLine sl x).setMsc sl { d.msc sl with gran := lcompGran x }

/-- The stamp of a mirrored line's copy written: into its stamp line, which is read first where the memory-side cache does not
hold it, by one read for all the stamps that wait for it (R113). The line is written to the expander at once and is clean in the
cache; one that is poisoned stays so (R56). -/
def Dev.stampPut (d : Dev) (c home stamp : Nat) : Dev :=
  let (sl, off) := d.stampLn c
  if d.inMsc sl then let d := d.stampIn sl off stamp; d.expPut sl home (d.line sl) (d.lmeta sl).psn
  else
    let d := if d.pool.exps.any fun r => r.ln == sl && r.stamp.isSome then d
      else d.emit (.expRd (winOf sl) (d.f (HBM.EXP.EPOCH (winOf sl))) sl)
    d.expReq sl home false (some (off, stamp))

/-- A copy of a line written to its expander, and the stamp of a mirrored one to its stamp line (R106, R113). -/
def Dev.expWrite (d : Dev) (c home : Nat) (x : Line) (stamp : Nat) (psn : Bool) : Dev :=
  let d := d.expPut c home x psn
  if (d.partnerOf c).isNone then d else d.stampPut c home stamp

/-- One victim of a set given up: a clean line leaves at once, a dirty one once every copy and its stamp have been
acknowledged (R106, R113). -/
def Dev.mscEvict (d : Dev) (v : Nat) : Dev :=
  if (d.msc v).dirty then
    let cs := d.copies v
    let two := (d.partnerOf v).isSome
    let d := d.hbmOp v 0
    let d := cs.foldl (fun (d : Dev) c => d.expWrite c v (d.line v) (d.lmeta v).stamp (d.lmeta v).psn) d
    d.setMsc v { d.msc v with dirty := false, pin := cs.flatMap fun c => if two then [winOf c, winOf c] else [winOf c] }
  else d.setMsc v MscT.none

/-- Granules that a line of a set is reckoned at: four while it may change where it is, so that what comes always fits. -/
def Dev.mscGran (d : Dev) (ln : Nat) : Nat :=
  if (d.sfe ln).own != 0 || (d.coh.txns.any (·.ln == ln)) || !d.inMsc ln || d.isStamp ln then 4 else (d.msc ln).gran
def Dev.mscUse (d : Dev) (l : List Nat) : Nat := (l.map d.mscGran).sum

/-- The line may be chosen as a victim: no O holder, not waiting for an acknowledgement, no open transaction (R55, R106). -/
def Dev.mscEligible (d : Dev) (j : Nat) : Bool :=
  d.inMsc j && !d.heldO j && (d.msc j).pin.isEmpty && !(d.coh.txns.any (·.ln == j))

/-- The lines of a set in the order of replacement. -/
def Dev.mscOrder (d : Dev) (ln : Nat) (ls : List Nat) : List Nat :=
  plruSort 5 (Tbl.get 0 d.pool.mscLru (d.mscSetOf ln)) d.mscWay ls

/-- The set has room for a line in a 64-byte slot beside its other lines `ms`. -/
def Dev.mscFits (d : Dev) (ln : Nat) (ms : List Nat) : Bool :=
  d.mscUse ms + 4 ≤ 64 && ms.length < 32 && (d.inMsc ln || (ms.filter fun j => !d.inMsc j).length < (d.mscFree ln).length)

/-- Room for a line of 4 granules in its set, made by evicting lines in the order of replacement; false while it is still to
come from write-backs under way, and where every line left is pinned or has an O holder. -/
def Dev.mscRoom : Nat → Dev → Nat → Bool × Dev
  | 0, d, _ => (false, d)
  | k + 1, d, ln =>
    let ms := d.mscMates ln
    if d.mscFits ln ms then (true, d)
    else
      let stay := ms.filter fun j => (d.msc j).pin.isEmpty
      if stay.length < ms.length && d.mscUse stay + 4 ≤ 64 then (false, d)
      else
        match (d.mscOrder ln (ms.filter d.mscEligible)).head? with
        | some v => Dev.mscRoom k (d.mscEvict v) ln
        | none => (false, d)

/-- A line entered in the memory-side cache (R104, R105). -/
def Dev.mscFill (d : Dev) (ln : Nat) (x : Line) (psn : Bool) (why stamp : Nat) (dirty : Bool) : Dev :=
  (((d.putLine ln x).setMeta ln ⟨psn, why, stamp⟩).setMsc ln ⟨lcompGran x, dirty, (d.msc ln).pin⟩).hbmOp ln 1

/-! ## Reading and writing a line -/

/-- The line is homed on another device; for such a line the shadow home keeps the bytes of its local holders (R80). -/
def Dev.remote (d : Dev) (ln : Nat) : Bool := lnDev ln != d.devId

/-- What a read of home memory gives. -/
structure LRead where
  data : Line
  psn : Bool
  why : Nat
  /-- The WHY of a CmpP that answered it, 0 where it was served (R72). -/
  fail : Nat := 0

/-- The MD that a line carries: its stamp when mirrored, its poison reason otherwise, 0 in the memory-side cache
(R100). -/
def Dev.mdOf (d : Dev) (ln : Nat) : Nat :=
  match d.lnKind ln with
  | .exp _ => 0
  | _ => if (d.partnerOf ln).isSome then (d.lmeta ln).stamp else (d.lmeta ln).why

/-- A correctable or uncorrectable error counted where its memory's counters are (R98, R386): the home for SRAM, the channel
for HBM, the memory-side cache's lines included. -/
def Dev.countErr (d : Dev) (ln : Nat) (ue : Bool) : Dev :=
  match d.hbmLn ln with
  | some h => d.count (1792 + 8 * (16 * hbmStack h + hbmChan h) + 2 + b2n ue) 1
  | none => d.count (768 + 16 * homeOf ln + 8 + b2n ue) 1

/-- The page of an HBM line, counted in 4 KiB from the start of slot 0 of its stack (R103). -/
def hbmPage (ln : Nat) : Nat := bitsN ln 6 24

/-- A corrected error makes its page a candidate (R103): 256 candidates a stack, the one with the oldest last error
replaced. -/
def Dev.candidate (d : Dev) (ln : Nat) : Dev :=
  match d.hbmLn ln with
  | none => d
  | some ln =>
    let s := hbmStack ln
    let k := s * 2 ^ 24 + hbmPage ln
    let mine := d.pool.cand.filter fun e => e.1 / 2 ^ 24 == s
    let t := if Tbl.get (0, 0) d.pool.cand k == (0, 0) && mine.length ≥ 256 then
        match mine.foldl (fun (b : Option (Nat × Nat × Nat)) e =>
          match b with
          | some o => if e.2.2 < o.2.2 then some e else b
          | none => some e) none with
        | some o => Tbl.erase d.pool.cand o.1
        | none => d.pool.cand
      else d.pool.cand
    { d with pool := { d.pool with cand := Tbl.put (0, 0) t k ((Tbl.get (0, 0) t k).1 + 1, d.now + 1) } }

/-- The pseudo-channel that holds a line of home memory has failed (R102). -/
def Dev.pcFailed (d : Dev) (ln : Nat) : Bool :=
  d.inHbm ln && bitN (d.f (HBM.STAT.PCFAIL (hbmStack ln))) (hbmPc ln)

/-- The pseudo-channel that holds an HBM line pauses for recalibration or retrains: its requests queue (R101, R102). A line
of the memory-side cache is looked up only where some pseudo-channel does. -/
def Dev.pcPaused (d : Dev) (ln : Nat) : Bool :=
  !d.pool.pc.isEmpty &&
  match (if d.inMsc ln || d.inHbm ln then d.hbmLn ln else none) with
  | some h => let v := Tbl.get 0 d.pool.pc (hbmStack h * 32 + hbmPc h); v == 1 || v == 2
  | none => false

/-- Both copies of a line that a read or a write of it needs: neither pauses. -/
def Dev.pairPaused (d : Dev) (ln : Nat) : Bool :=
  !d.pool.pc.isEmpty && (d.pcPaused ln || match d.partnerOf ln with | some q => d.pcPaused q | none => false)

/-- A line of the memory-side cache lies in a failed pseudo-channel (R102). -/
def Dev.mscGone (d : Dev) (ln : Nat) : Bool := d.inMsc ln && d.mscDead (d.mscSetOf ln) (d.mscWay ln)

/-- One copy read under an error pattern, counted, corrected or found uncorrectable (R98, R102). -/
def Dev.readOne (d : Dev) (ln : Nat) (err : BitVec 560) : Option LRead × Dev :=
  let m := d.lmeta ln
  let d := d.hbmOp ln 0
  if d.pcFailed ln || d.mscGone ln then (none, d)
  else if (match d.lnKind ln with | .exp _ => true | _ => false) then
    match rsRead false (d.line ln) 0 err with
    | .clean x _ ce => (some ⟨x, m.psn, m.why, 0⟩, if ce then (d.countErr ln false).candidate ln else d)
    | .poison x _ _ => (some ⟨x, true, 7, 0⟩, d)
    | .bad => (none, d.countErr ln true)
  else match rsRead m.psn (d.line ln) (d.mdOf ln) err with
    | .clean x _ ce => (some ⟨x, false, 0, 0⟩, if ce then (d.countErr ln false).candidate ln else d)
    | .poison x md ce =>
      (some ⟨x, true, if (d.partnerOf ln).isSome then 7 else md % 16, 0⟩, if ce then (d.countErr ln false).candidate ln else d)
    | .bad => (none, d.countErr ln true)

/-- Two intact copies compared (R115): differing data is settled by the stamps, with one event; equal data with
different stamps has the secondary's stamp rewritten. -/
def Dev.reconcile (d : Dev) (c q : Nat) : Dev :=
  let a := (d.lmeta c).stamp
  let b := (d.lmeta q).stamp
  if d.line c != d.line q then
    let k := (a + 65536 - b) % 65536
    let (w, l) := if k ≥ 32769 then (q, c) else (c, q)
    (((d.putLine l (d.line w)).setMeta l (d.lmeta w)).hbmOp l 1).raiseFpa 801 (a % 65536 + b % 65536 * 65536) 1 c
  else if a != b then (d.setMeta q { d.lmeta q with stamp := a }).hbmOp q 1
  else d

/-- Line metadata of a poisoned line; a mirrored line keeps no reason (R100). -/
def Dev.poisonMeta (d : Dev) (ln why : Nat) : LMeta :=
  ⟨true, if (d.partnerOf ln).isSome && (match d.lnKind ln with | .exp _ => false | _ => true) then 0 else why, (d.lmeta ln).stamp⟩

/-- The home's read of a line of local memory that is present: from its primary copy, from the other intact copy where
that one is uncorrectable or failed, and poisoned with WHY = MEDIA where no copy is good (R98, R114). The failed copy is
rewritten from the good one. With VERIFY both copies are read, and compared where both are good (R114, R115). -/
def Dev.homeRead (d : Dev) (ln : Nat) (err : BitVec 560) : LRead × Dev :=
  if d.remote ln then (⟨d.line ln, (d.lmeta ln).psn, (d.lmeta ln).why, 0⟩, d) else
  match d.lnKind ln with
  | .exp _ =>
    let d := d.mscTouch ln
    match d.readOne ln err with
    | (some r, d) => (r, d)
    | (none, d) => (⟨d.line ln, true, 7, 0⟩, d.setMeta ln ⟨true, 7, (d.lmeta ln).stamp⟩)
  | _ =>
    let c := d.readCopy ln
    let alt := d.spareCopy ln
    match d.readOne c err with
    | (some r, d) =>
      match (if mirVerify (d.mirEntry (extOf ln)) then alt else none) with
      | none => (r, d)
      | some q =>
        match d.readOne q 0 with
        | (some y, d) =>
          if r.psn || y.psn then (r, d)
          else let d := d.reconcile c q; (⟨d.line c, false, 0, 0⟩, d)
        | (none, d) => (r, if d.pcFailed q then d else ((d.putLine q r.data).setMeta q (d.lmeta c)).hbmOp q 1)
    | (none, d) =>
      match alt with
      | some q =>
        match d.readOne q 0 with
        | (some r, d) =>
          if r.psn then (⟨r.data, true, 7, 0⟩, d.setMeta c (d.poisonMeta c 7))
          else (r, if d.pcFailed c then d else ((d.putLine c r.data).setMeta c (d.lmeta q)).hbmOp c 1)
        | (none, d) => (⟨0, true, 7, 0⟩, (d.setMeta c (d.poisonMeta c 7)).setMeta q (d.poisonMeta q 7))
      | none =>
        if d.pcFailed c then (⟨d.line c, true, 7, 0⟩, d)
        else (⟨d.line c, true, 7, 0⟩, d.setMeta c (d.poisonMeta c 7))

/-- The next write sequence of a home, and its low 16 bits (R112). -/
def Dev.nextSeq (d : Dev) (ln : Nat) : Nat × Dev :=
  let v := (Tbl.get 0 d.coh.wseq (homeOf ln) + 1) % 2 ^ 48
  (v % 2 ^ 16, { d with coh := { d.coh with wseq := Tbl.put 0 d.coh.wseq (homeOf ln) v } })

/-- The metadata after a write: a write of all 64 bytes clears poison, a partial one keeps it (R56). -/
def metaAfter (m : LMeta) (full : Bool) (stamp : Nat) : LMeta :=
  if full then ⟨false, 0, stamp⟩ else { m with stamp := stamp }

/-- The home's write of the bytes that `mask` names, to every copy of the line (R56, R112). An expander line goes to the
memory-side cache; a write-back that finds no room in its set is written to its expanders, so that it waits for nothing (R59;
the model's choice, log entry 141). -/
def Dev.homeWrite (d : Dev) (ln : Nat) (x : Line) (mask : BitVec 64) : Dev :=
  let full := mask == BitVec.allOnes 64
  if d.remote ln then (d.putLine ln (mergeLine (d.line ln) x mask)).setMeta ln (metaAfter (d.lmeta ln) full 0) else
  match d.lnKind ln with
  | .exp _ =>
    let st := if (d.partnerOf ln).isSome then d.nextSeq ln else ((d.lmeta ln).stamp, d)
    let v := mergeLine (st.2.line ln) x mask
    let m := metaAfter (st.2.lmeta ln) full st.1
    let (room, d) := if st.2.inMsc ln then (true, st.2) else Dev.mscRoom 64 st.2 ln
    if room then (((d.putLine ln v).setMeta ln m).setMsc ln ⟨lcompGran v, true, (d.msc ln).pin⟩).hbmOp ln 1
    else (d.copies ln).foldl (fun d c => d.expWrite c noHome v st.1 m.psn) d
  | _ =>
    match d.partnerOf ln with
    | none =>
      let d := d.hbmOp ln 1
      (d.putLine ln (mergeLine (d.line ln) x mask)).setMeta ln (metaAfter (d.lmeta ln) full (d.lmeta ln).stamp)
    | some q =>
      let (st, d) := d.nextSeq ln
      let v := mergeLine (d.line (d.readCopy ln)) x mask
      let m := metaAfter (d.lmeta (d.readCopy ln)) full st
      [ln, q].foldl (fun d c =>
        ((d.hbmOp c 1).putLine c v).setMeta c m) d

/-- The home's note that a line is poisoned, with its reason (R56, R76). -/
def Dev.poison (d : Dev) (ln why : Nat) : Dev := d.setMeta ln (d.poisonMeta ln why)

/-- The line is in no cache and a live expander holds it: it must be fetched (R104, R117). -/
def Dev.atExp (d : Dev) (ln : Nat) : Bool :=
  if d.remote ln then false else
  match d.lnKind ln with
  | .exp _ => !d.inMsc ln && d.expHas (d.readCopy ln)
  | _ => false

/-- The line can be served now: without a request to an expander, and from no pseudo-channel that pauses. -/
def Dev.present (d : Dev) (ln : Nat) : Bool := !d.atExp ln && !d.pairPaused ln

/-- An expander line that no live expander has a good copy of reads poisoned with WHY = EXP_LOST (R117). -/
def Dev.lostExp (d : Dev) (ln : Nat) : Bool :=
  if d.remote ln then false else
  match d.lnKind ln with
  | .exp _ => !d.inMsc ln && !d.expHas (d.readCopy ln)
  | _ => false

end Sys2Proof.Machine
end

