-- ==== Sys2Proof/Machine/LinkLayer.lean ====
section
/-! DEFINITION. The Cestralink flit, its CRC-64 and FEC (R139–R142), training ordered sets (R138), the packing of
coherence messages (R143), and the sending side of the link layer: sequence, credits, replay buffer (R144–R148). -/

namespace Sys2Proof.Machine

/-! ## Checks -/

/-- One bit of a CRC of `w` bits, highest bit first. -/
def crcBit (w poly c : Nat) (b : Bool) : Nat :=
  let top := c.testBit (w - 1) ^^ b
  let s := c * 2 % 2 ^ w
  if top then s ^^^ poly else s

/-- A CRC without reflection over bytes, highest bit of each first. -/
def crcMsb (w poly init : Nat) (bs : List Byte) : Nat :=
  bs.foldl (fun c b => (List.range 8).foldl (fun c i => crcBit w poly c (b.getLsbD (7 - i))) c) init

/-- CRC-64/ECMA-182 (R140), and the CRC-16 of a TOS (R138). -/
def crc64 (bs : List Byte) : Nat := crcMsb 64 0x42F0E1EBA9EA3693 0 bs
def crc16 (bs : List Byte) : Nat := crcMsb 16 0x1021 0xFFFF bs

/-- The two check bytes of an interleave's message, the x¹ coefficient first (R141). -/
def fecCheck (m : List Nat) : Nat × Nat :=
  m.foldl (fun c x => let q := x ^^^ c.1; (c.2 ^^^ gfMul q 3, gfMul q 2)) (0, 0)

/-- The positions of an interleave's bytes in the flit, checks last (R141). -/
def fecPos (i : Nat) : List Nat := (List.range 128).filter fun j => j % 3 == i

/-- An interleave corrected by at most one byte: the corrected bytes, and whether one was wrong (R141). -/
def fecFix (w : List Nat) : List Nat × Bool :=
  let n := w.length
  let s0 := w.foldl (fun s x => s ^^^ x) 0
  let s1 := w.foldl (fun s x => gfMul s 2 ^^^ x) 0
  if s0 == 0 && s1 == 0 then (w, false)
  else match (List.range n).find? fun p => s0 != 0 && gfMul s0 (gfPow p) == s1 with
    | some p => (w.set (n - 1 - p) (w.getD (n - 1 - p) 0 ^^^ s0), true)
    | none => (w, false)

/-- A received flit corrected (R141): its bytes, and the number of bytes corrected. -/
def flitFix (x : BitVec 1024) : List Byte × Nat :=
  let b := (leBytes 128 x.toNat).map (·.toNat)
  let r := (List.range 3).foldl (fun (acc : List Nat × Nat) i =>
    let ps := fecPos i
    let (w, hit) := fecFix (ps.map fun j => b.getD j 0)
    ((ps.zip w).foldl (fun l pw => l.set pw.1 pw.2) acc.1, acc.2 + b2n hit)) (b, 0)
  (r.1.map (BitVec.ofNat 8), r.2)

/-- The 128 bytes of a flit (R139–R141). -/
def flitMake (seq hdr : Nat) (payload : List Byte) : BitVec 1024 :=
  let body := leBytes 4 hdr ++ (List.range 110).map fun i => payload.getD i 0
  let c := crc64 (leBytes 4 seq ++ body)
  let m := (body ++ leBytes 8 c).map (·.toNat)
  let chk := fun i => fecCheck ((m.zipIdx.filter fun e => e.2 % 3 == i).map (·.1))
  let c0 := chk 0; let c1 := chk 1; let c2 := chk 2
  BitVec.ofNat 1024 (leNat ((m ++ [c2.1, c0.1, c1.1, c2.2, c0.2, c1.2]).map (BitVec.ofNat 8)))

/-- A flit on its lanes: byte j on active lane j mod W, active lanes counted upward (R142). -/
def flitStripe (mask : Nat) (x : BitVec 1024) : List (Nat × List Byte) :=
  let b := leBytes 128 x.toNat
  let w := popN 16 mask
  (onesN 16 mask).zipIdx.map fun l => (l.1, (List.range (128 / w)).map fun i => b.getD (i * w + l.2) 0)

/-- The flit whose 128 bytes came on `w` lanes and are given lane by lane, the lowest lane first (R142). -/
def flitMerge (w : Nat) (x : BitVec 1024) : BitVec 1024 :=
  if w ≤ 1 then x
  else
    let b := leBytes 128 x.toNat
    BitVec.ofNat 1024 (leNat ((List.range 128).map fun j => b.getD (j % w * (128 / w) + j / w) 0))

/-! ## Coherence messages as bytes (R72, R143) -/

/-- A bit string: fields appended least significant bit first. -/
def bitCat : List (Nat × Nat) → Nat
  | [] => 0
  | (w, v) :: r => v % 2 ^ w + 2 ^ w * bitCat r

def bitLen (l : List (Nat × Nat)) : Nat := (l.map (·.1)).sum

/-- The further fields of a message by its code, in the order of R72's table. -/
def msgFields (m : Msg) : List (Nat × Nat) :=
  let sp := [(12, m.slice.toNat), (1, b2n m.priv)]
  let dp := [(512, m.data.toNat), (1, b2n m.psn)]
  match m.op.toNat with
  | 0x01 | 0x02 | 0x03 | 0x04 => sp
  | 0x05 => sp ++ [(512, m.data.toNat)]
  | 0x06 => sp ++ [(64, m.mask.toNat), (512, m.data.toNat)]
  | 0x07 => sp ++ [(4, m.aop.toNat), (1, b2n m.sz), (2, m.place.toNat), (1, b2n m.acq), (1, b2n m.rel), (3, m.off.toNat),
      (64, m.opa.toNat), (64, m.opb.toNat)]
  | 0x12 => [(4, m.why.toNat)]
  | 0x20 | 0x21 | 0x22 | 0x23 => dp
  | 0x24 => [(64, m.old.toNat), (2, m.res.toNat)]
  | 0x25 => [(512, m.data.toNat)]
  | 0x30 | 0x31 | 0x32 => [(3, m.req.toNat / 1024), (10, m.req.toNat % 1024)]
  | 0x43 => [(512, m.data.toNat), (2, m.new.toNat)]
  | 0x44 => [(2, m.wb.toNat)]
  | 0x45 => [(4, m.cnt.toNat)]
  | _ => []

/-- The bytes of a message: device ID before agent ID in SRC and DST. -/
def msgPack (m : Msg) : List Byte :=
  let ag : BitVec 13 → List (Nat × Nat) := fun x => [(3, x.toNat / 1024), (10, x.toNat % 1024)]
  let l := [(6, m.op.toNat)] ++ ag m.src ++ ag m.dst ++ [(12, m.tag.toNat), (46, m.addr.toNat)] ++ msgFields m
  leBytes ((bitLen l + 7) / 8) (bitCat l)

/-- A message read back from its bytes. -/
def msgUnpack (bs : List Byte) : Msg :=
  let x := leNat bs
  let ag := fun lo => BitVec.ofNat 13 (bitsN x lo 3 * 1024 + bitsN x (lo + 3) 10)
  let m : Msg := { op := BitVec.ofNat 6 x, src := ag 6, dst := ag 19, tag := BitVec.ofNat 12 (bitsN x 32 12),
                   addr := BitVec.ofNat 46 (bitsN x 44 46) }
  let f := fun lo w => bitsN x (90 + lo) w
  let sp := { m with slice := BitVec.ofNat 12 (f 0 12), priv := f 12 1 == 1 }
  let data := fun lo => (BitVec.ofNat 512 (f lo 512) : Line)
  match m.op.toNat with
  | 0x01 | 0x02 | 0x03 | 0x04 => sp
  | 0x05 => { sp with data := data 13 }
  | 0x06 => { sp with mask := BitVec.ofNat 64 (f 13 64), data := data 77 }
  | 0x07 => { sp with aop := BitVec.ofNat 4 (f 13 4), sz := f 17 1 == 1, place := BitVec.ofNat 2 (f 18 2), acq := f 20 1 == 1, rel := f 21 1 == 1, off := BitVec.ofNat 3 (f 22 3), opa := w64 (f 25 64), opb := w64 (f 89 64) }
  | 0x12 => { m with why := BitVec.ofNat 4 (f 0 4) }
  | 0x20 | 0x21 | 0x22 | 0x23 => { m with data := data 0, psn := f 512 1 == 1 }
  | 0x24 => { m with old := w64 (f 0 64), res := BitVec.ofNat 2 (f 64 2) }
  | 0x25 => { m with data := data 0 }
  | 0x30 | 0x31 | 0x32 => { m with req := BitVec.ofNat 13 (f 0 3 * 1024 + f 3 10) }
  | 0x43 => { m with data := data 0, new := BitVec.ofNat 2 (f 512 2) }
  | 0x44 => { m with wb := BitVec.ofNat 2 (f 0 2) }
  | 0x45 => { m with cnt := BitVec.ofNat 4 (f 0 4) }
  | _ => m

/-- The virtual channel of a message by its code (R72, R144). -/
def msgVc (m : Msg) : Nat :=
  let c := m.op.toNat
  if c < 0x10 then 0 else if c < 0x20 then 1 else if c < 0x30 then 2 else if c < 0x40 then 3 else 4

/-! ## Training ordered sets (R138) -/

/-- A TOS: its kind and fields. -/
structure Tos where
  kind : Nat
  lane : Nat := 0
  rev : Bool := false
  rates : Nat := 7
  rate : Nat := 0
  width : Nat := 0
  devid : Nat := 0
  port : Nat := 0
  action : Nat := 0
  aseq : Nat := 0
  cred : List Nat := []
  lmask : Nat := 0
  nextrx : Nat := 0
  preset : Nat := 255
  deriving DecidableEq, Repr

def tosKinds : List Nat := [0x1E, 0x2D, 0x4B, 0x78]

/-- The 32 bytes of a TOS. -/
def tosMake (t : Tos) : BitVec 256 :=
  let body := [t.kind, t.lane % 16 + b2n t.rev * 16, t.rates % 8 + t.rate % 4 * 16, t.width % 8, t.devid % 8, t.port % 128,
      t.action, t.aseq % 256].map (BitVec.ofNat 8) ++ ((List.range 8).map fun v => leBytes 2 (t.cred.getD v 0)).flatten ++
    leBytes 2 t.lmask ++ leBytes 2 (t.nextrx % 4096) ++ [BitVec.ofNat 8 t.preset, 0]
  BitVec.ofNat 256 (leNat (body ++ leBytes 2 (crc16 body)))

/-- A received TOS: none where its CRC is wrong or a field holds a reserved value. -/
def tosRead (x : BitVec 256) : Option Tos :=
  let b := leBytes 32 x.toNat
  let g := fun i => (b.getD i 0).toNat
  let body := b.take 30
  if crc16 body != g 30 + 256 * g 31 then none
  else if !tosKinds.contains (g 0) || g 2 / 16 % 4 == 3 || g 3 % 8 > 4 || g 6 > 5 || (g 28 > 10 && g 28 != 255) then none
  else some
    { kind := g 0, lane := g 1 % 16, rev := bitN (g 1) 4, rates := g 2 % 8, rate := g 2 / 16 % 4, width := g 3 % 8,
      devid := g 4 % 8, port := g 5 % 128, action := g 6, aseq := g 7,
      cred := (List.range 8).map fun v => g (8 + 2 * v) + 256 * g (9 + 2 * v),
      lmask := g 24 + 256 * g 25, nextrx := (g 26 + 256 * g 27) % 4096, preset := g 28 }

/-! ## The sending side -/

def Link.none : Link :=
  ⟨0, 0, [], [], [], [], 0, false, [], false, false, 0, 0, 0, Option.none, 0, 0, 0, false, 0, Option.none, [], []⟩
def Dev.lnk (d : Dev) (p : Nat) : Link := Tbl.get Link.none d.link p
def Dev.setLnk (d : Dev) (p : Nat) (x : Link) : Dev := { d with link := Tbl.put Link.none d.link p x }
def Dev.updLnk (d : Dev) (p : Nat) (g : Link → Link) : Dev := d.setLnk p (g (d.lnk p))

/-- The credits that this device advertises (R144). -/
def advCredits : List Nat := [64, 32, 96, 32, 32, 48, 8, 0]

/-- The link carries flits: it is UP or CALIBRATING. -/
def Dev.linkRuns (d : Dev) (p : Nat) : Bool := d.f (PORT.STAT.LINK p) == 2 || d.f (PORT.STAT.LINK p) == 4

/-- The lowest VC whose credits are owed, with up to 63 of them (R145). -/
def Link.owes (x : Link) : Option (Nat × Nat) := (x.owed.head?).map fun e => (e.1, min 63 e.2)

/-- A header (R139): IDLE headers return no credits. -/
def Link.header (x : Link) (vc type : Nat) : Nat :=
  let (cv, cn) := if type == 0 then (0, 0) else (x.owes.getD (0, 0))
  vc + type * 8 + cv * 2 ^ 8 + cn * 2 ^ 11 + b2n x.nak * 2 ^ 17 + 2 ^ 18 + (x.rxSeq + 4095) % 4096 * 2 ^ 19

/-- One flit transmitted on the lanes of `mask`: its header takes the credits owed and the NAK due (R142, R145, R147). -/
def Dev.flitTx (d : Dev) (p mask seq vc type : Nat) (payload : List Byte) : Dev :=
  let x := d.lnk p
  let d := (d.emit (.flit p (flitStripe mask (flitMake seq (x.header vc type) payload)))).count (8 * p + 1) 1
  let owed := match (if type == 0 then none else x.owes) with
    | some (v, n) => Tbl.put 0 x.owed v (Tbl.get 0 x.owed v - n)
    | none => x.owed
  d.setLnk p { x with owed := owed, nak := false, nakAt := if x.nak then d.now else x.nakAt }

/-- A MSG or CTRL flit takes the next sequence number and a place in the replay buffer (R140, R148). -/
def Dev.flitNew (d : Dev) (p vc type : Nat) (payload : List Byte) : Dev :=
  let seq := (d.lnk p).txSeq
  (d.flitTx p (d.lnk p).txMask seq vc type payload).updLnk p fun x =>
    { x with txSeq := (seq + 1) % 2 ^ 32, replay := x.replay ++ [(seq, type, vc, payload)] }

/-- A message may be sent on its VC: the link runs, the buffer of 512 has room, and a credit is held, which CTRL flits take none
of (R144, R145). -/
def Dev.canSend (d : Dev) (p vc : Nat) : Bool :=
  d.linkRuns p && (d.lnk p).replay.length < 512 && (vc == 7 || Tbl.get 0 (d.lnk p).cred vc != 0)

/-- A CTRL flit goes out; the flits after an LSWITCH go on the action's lanes (R151). -/
def Dev.ctrlOut (d : Dev) (p : Nat) (payload : List Byte) : Dev :=
  let seq := (d.lnk p).txSeq
  let d := d.flitNew p 7 2 payload
  if payload.headD 0 != 4 then d
  else d.updLnk p fun x =>
    match x.act with
    | some a => { x with act := some { a with lsw := some (seq, x.txMask) }, txMask := a.mask }
    | .none => x

/-- A waiting message goes out: it takes a credit of its VC. -/
def Dev.msgOut (d : Dev) (p vc : Nat) (bs : List Byte) : Dev :=
  if vc == 7 then d.ctrlOut p bs
  else (d.updLnk p fun x => { x with cred := Tbl.put 0 x.cred vc (Tbl.get 0 x.cred vc - 1) }).flitNew p vc 1 (BitVec.ofNat 8 bs.length :: bs)

/-- Waiting messages sent, in order within each VC; one without a credit holds back its own VC alone (R144). -/
def Dev.linkFlush (d : Dev) (p : Nat) : Dev :=
  let q := (d.lnk p).txq
  let r := q.foldl (fun (acc : List (Nat × List Byte) × Dev) e =>
    let (keep, d) := acc
    if (keep.any (·.1 == e.1)) || !d.canSend p e.1 then (keep ++ [e], d)
    else (keep, d.msgOut p e.1 e.2)) ([], d.updLnk p fun x => { x with txq := [] })
  r.2.updLnk p fun x => { x with txq := r.1 }

/-- A message handed to a link. -/
def Dev.linkSend (d : Dev) (p vc : Nat) (bs : List Byte) : Dev :=
  (d.updLnk p fun x => { x with txq := x.txq ++ [(vc, bs)] }).linkFlush p

/-- A CTRL flit (R151): CODE, WIDTH, DEVID, PORT, ACTION, ASEQ, LMASK. It waits while the replay buffer is full (R148). -/
def Dev.ctrlSend (d : Dev) (p code width action aseq lmask : Nat) : Dev :=
  if !d.linkRuns p then d
  else d.linkSend p 7 ([code, width, d.f PORT.GLINK.DEVID, p, action, aseq].map (BitVec.ofNat 8) ++ leBytes 2 lmask)

/-- The lanes that a flit of the replay buffer goes on: the old ones up to the own LSWITCH (R151). -/
def Link.lanesOf (x : Link) (seq : Nat) : Nat :=
  match x.act.bind (·.lsw) with
  | some (s, old) => if (s + 2 ^ 32 - seq) % 2 ^ 32 < 512 then old else x.txMask
  | .none => x.txMask

/-- Every flit not yet acknowledged sent again, oldest first, with the current ACK and credit fields (R148). -/
def Dev.flitReplay (d : Dev) (p : Nat) : Dev :=
  (d.lnk p).replay.foldl (fun d e => d.flitTx p ((d.lnk p).lanesOf e.1) e.1 e.2.2.1 e.2.1 e.2.2.2) d

end Sys2Proof.Machine
end

