-- ==== Sys2Proof/Machine/PrimFn.lean ====
section
/-! DEFINITION. What the table, counting and metering primitives compute (R224–R241), as functions of their operands. -/

namespace Sys2Proof.Machine

/-! ## Hashing (R224) -/

/-- One bit of the reflected CRC-32C. -/
def crc32cBit (c : Nat) : Nat := if c % 2 == 1 then (c / 2) ^^^ 0x82F63B78 else c / 2

/-- CRC-32C of a register value over bytes, byte 0 first, with no initial value or final XOR. -/
def crc32c (c : Nat) (bs : List Byte) : Nat :=
  bs.foldl (fun c b => (List.range 8).foldl (fun c _ => crc32cBit c) (c ^^^ b.toNat)) c

/-- One bit of CRC-64, most significant bit first. -/
def hashCrc64Bit (c : Nat) : Nat :=
  if c.testBit 63 then (c * 2 % 2 ^ 64) ^^^ 0x42F0E1EBA9EA3693 else c * 2 % 2 ^ 64

/-- CRC-64 of a register value over bytes. -/
def hashCrc64 (c : Nat) (bs : List Byte) : Nat :=
  bs.foldl (fun c b => (List.range 8).foldl (fun c _ => hashCrc64Bit c) (c ^^^ (b.toNat * 2 ^ 56))) c

/-- The Toeplitz hash of `n` bits, bytes in order, under the 96-bit key. -/
def toeplitz (key : Nat) (bs : List Byte) : Nat :=
  (List.range (8 * bs.length)).foldl (fun h i =>
    if ((bs.getD (i / 8) 0).toNat).testBit (7 - i % 8) then h ^^^ bitsN key (64 - i) 32 else h) 0

/-- The Toeplitz key of a register pair. -/
def toepKey (a b : Word) : Nat := a.toNat * 2 ^ 32 + b.toNat / 2 ^ 32

/-- The four words of SipHash. -/
structure Sip where
  v0 : Word
  v1 : Word
  v2 : Word
  v3 : Word

/-- SipRound. -/
def Sip.round (s : Sip) : Sip :=
  let v0 := s.v0 + s.v1
  let v1 := s.v1.rotateLeft 13 ^^^ v0
  let v0 := v0.rotateLeft 32
  let v2 := s.v2 + s.v3
  let v3 := s.v3.rotateLeft 16 ^^^ v2
  let v0 := v0 + v3
  let v3 := v3.rotateLeft 21 ^^^ v0
  let v2 := v2 + v1
  let v1 := v1.rotateLeft 17 ^^^ v2
  ⟨v0, v1, v2.rotateLeft 32, v3⟩

/-- One message word. -/
def Sip.word (s : Sip) (m : Word) : Sip :=
  let s := (Sip.round (Sip.round { s with v3 := s.v3 ^^^ m }))
  { s with v0 := s.v0 ^^^ m }

/-- SipHash-2-4 of a message of whole 8-byte words. -/
def sipHash (k0 k1 : Word) (ms : List Word) : Word :=
  let s : Sip := ⟨k0 ^^^ 0x736f6d6570736575, k1 ^^^ 0x646f72616e646f6d, k0 ^^^ 0x6c7967656e657261, k1 ^^^ 0x7465646279746573⟩
  let s := (ms ++ [w64 (8 * ms.length % 256 * 2 ^ 56)]).foldl Sip.word s
  let s := Sip.round (Sip.round (Sip.round (Sip.round { s with v2 := s.v2 ^^^ 0xff })))
  s.v0 ^^^ s.v1 ^^^ s.v2 ^^^ s.v3

/-! ## Lookups (R225–R230) -/

/-- A field of a node: `n` bytes at offset `off`. -/
def lineField (x : Line) (off n : Nat) : Nat := bitsN x.toNat (8 * off) (8 * n)

/-- Byte `i` of the 128-bit key in a register pair (R226). -/
def keyByte (hi lo : Word) (i : Nat) : Nat := if i < 8 then getBits hi (56 - 8 * i) 8 else getBits lo (56 - 8 * (i - 8)) 8

/-- Position in IBM of the prefix of length `l` of byte `b` (R225). -/
def ibmIx (b l : Nat) : Nat := 2 ^ l - 1 + b / 2 ^ (8 - l)

/-- The longest prefix of byte `b` that a node records: its position in IBM. -/
def ibmBest (ibm b : Nat) : Option Nat :=
  ([7, 6, 5, 4, 3, 2, 1, 0].map (ibmIx b)).find? fun i => ibm.testBit i

/-- TRIE.STEP: the next node's address, 0 for none, and the best result (R226). -/
def trieStep (node : Line) (hi lo best : Word) : Word × Word :=
  let ibm := lineField node 0 32
  let csum := lineField node 32 8
  let dep := lineField node 56 1
  let b := if dep < 16 then keyByte hi lo dep else 0
  let best := match ibmBest ibm b with
    | some i => w64 (lineField node 48 8 + popN i ibm * 2 ^ bitsN (lineField node 57 1) 0 3)
    | none => best
  let c := b / 4
  let next := if csum.testBit c then w64 (lineField node 40 8 + 256 * popN c csum + 64 * (b % 4)) else 0
  (next, best)

/-- The 96-bit fold of an EXM.PROBE key (R228). -/
def exmFold (hi lo : Word) : Nat := (getBits hi 0 32 ^^^ getBits hi 32 32) * 2 ^ 64 + lo.toNat

/-- EXM.PROBE: the result and CF.V (R228). -/
def exmProbe (x : Line) (hi lo : Word) : Word × Bool :=
  match (List.range 4).find? fun s => lineField x (16 * s + 12) 4 != 0 && lineField x (16 * s) 12 == exmFold hi lo with
  | some s => (w64 (lineField x (16 * s + 12) 4 + s * 2 ^ 32), true)
  | none => (0, false)

/-- RANGE.CMP and RANGE.CMP.S: the number of boundaries at or below a value, and whether one equals it (R230). -/
def rangeCmp (x : Line) (signed : Bool) (v : Word) : Word × Bool :=
  let bs := (List.range 8).map fun j => w64 (lineField x (8 * j) 8)
  (w64 ((bs.filter fun b => if signed then b.sle v else b.ule v).length), bs.contains v)

/-! ## Counting (R231–R235) -/

/-- CINC on the sixteen bytes of a counter pair. -/
def cincNew (bs : List Byte) (n : Word) : List Byte :=
  leBytes 8 (leNat (bs.take 8) + 1) ++ leBytes 8 (leNat (bs.drop 8) + n.toNat)

/-- The least exponent from `e` on at which `t` fits the mantissa (R232). -/
def logExp : Nat → Nat → Nat → Nat
  | 0, e, _ => e
  | k + 1, e, t => if t > 4095 * 2 ^ e then logExp k (e + 1) t else e

/-- CINC.A on a counter, with a random value (R232). -/
def cincaNew (c n : Nat) (rnd : Nat) : Nat :=
  let e := c / 4096 % 16
  let t := c % 4096 * 2 ^ e + n % 65536
  if t ≥ 4095 * 2 ^ 15 then 0xFFFF
  else
    let e := logExp 16 e t
    let q := t / 2 ^ e
    let r := t % 2 ^ e
    e * 4096 + (if r != 0 && rnd % 2 ^ e < r then q + 1 else q)

/-- The row constants of a sketch (R234). -/
def sketchK (j : Nat) : Nat :=
  match j with
  | 0 => 0xA3C59AC28E610D1B | 1 => 0x5F2D4B87C913E6A5 | 2 => 0xD14E72B903A758C3 | _ => 0x7B96E01FA54C3D2F

/-- The address of the cell that hash `h` selects in row `j` of a sketch of width 2^k at `a` (R234). -/
def sketchCell (a h k j : Nat) : Nat := a + 4 * (2 ^ k * j + h * sketchK j % 2 ^ 64 / 2 ^ (64 - k))

/-! ## Metering (R237–R240) -/

/-- A rate code's rate in half bits per second: (1024 + M) × 2^E (R238). -/
def rate2 (code : Nat) : Nat := (1024 + code % 1024) * 2 ^ (code / 1024)

/-- Raw units that a rate credits in a step of 1,024 ns (R239). -/
def rateUnits (code : Nat) : Nat := rate2 code * 2 ^ 38 / 10 ^ 9

/-- A rate code above 1.6 Tb/s is reserved (R238). -/
def rateOk (code : Nat) : Bool := rate2 code ≤ 2 * 1600000000000

/-- A meter record's fields (R237). -/
structure Meter where
  crate : Nat
  prate : Nat
  cbs : Nat
  pbs : Nat
  mode : Nat
  res : Nat
  last : Nat
  tc : Nat
  tp : Nat
  deriving DecidableEq, Repr

def Meter.ofBytes (bs : List Byte) : Meter :=
  let f := fun o n => leNat ((bs.drop o).take n)
  ⟨f 0 2, f 2 2, f 4 3, f 7 3, f 10 1, f 11 1, f 12 6, f 18 7, f 25 7⟩

def Meter.bytes (m : Meter) : List Byte :=
  leBytes 2 m.crate ++ leBytes 2 m.prate ++ leBytes 3 m.cbs ++ leBytes 3 m.pbs ++ leBytes 1 m.mode ++ leBytes 1 m.res ++
    leBytes 6 m.last ++ leBytes 7 m.tc ++ leBytes 7 m.tp

/-- The record is trTCM, and colour-aware. -/
def Meter.tr (m : Meter) : Bool := m.mode.testBit 0
def Meter.aware (m : Meter) : Bool := m.mode.testBit 1

/-- A valid record, and a length that METER takes (R240). -/
def Meter.ok (m : Meter) (len : Nat) : Bool :=
  m.mode < 4 && m.res == 0 && rateOk m.crate && rateOk m.prate && m.cbs != 0 && len < 2 ^ 24 &&
  (if m.tr then m.pbs != 0 && rate2 m.crate ≤ rate2 m.prate else m.prate == 0)

/-- The buckets credited for the steps since the last update (R239). -/
def Meter.credit (m : Meter) (now : Nat) : Meter :=
  let step := now / 1024 % 2 ^ 48
  let n := (step + 2 ^ 48 - m.last) % 2 ^ 48
  let cb := m.cbs * 2 ^ 32
  let pb := m.pbs * 2 ^ 32
  let x := m.tc + n * rateUnits m.crate
  if m.tr then { m with last := step, tc := min x cb, tp := min (m.tp + n * rateUnits m.prate) pb }
  else { m with last := step, tc := min x cb, tp := if x > cb then min (m.tp + (x - cb)) pb else m.tp }

/-- The colour of a packet of `b` raw units, 0 green, 1 yellow, 2 red, and the record after it (R239). -/
def Meter.colour (m : Meter) (b pre : Nat) : Nat × Meter :=
  if m.tr then
    if (m.aware && pre ≥ 2) || m.tp < b then (2, m)
    else if (m.aware && pre == 1) || m.tc < b then (1, { m with tp := m.tp - b })
    else (0, { m with tp := m.tp - b, tc := m.tc - b })
  else if (!m.aware || pre == 0) && m.tc ≥ b then (0, { m with tc := m.tc - b })
  else if (!m.aware || pre < 2) && m.tp ≥ b then (1, { m with tp := m.tp - b })
  else (2, m)

/-- METER on the bytes of a record: the new bytes, or none where the record stands, and the colour (R239, R240). -/
def meterNew (bs : List Byte) (len pre now : Nat) : Option (List Byte) × Nat :=
  let m := Meter.ofBytes bs
  if !m.ok len then (none, 2)
  else
    let (c, m) := (m.credit now).colour (len * 2 ^ 32) pre
    (some m.bytes, c)

/-! ## Far updates (R222) -/

/-- The model's operation codes of the far updates: CINC, CINC.A, a sketch cell, METER. -/
def upCINC : Nat := 10
def upCINCA : Nat := 11
def upSKETCH : Nat := 12
def upMETER : Nat := 13

/-- Bytes that a far update reads and writes. -/
def upSize (op : Nat) : Nat :=
  match op with
  | 10 => 16 | 11 => 2 | 12 => 4 | _ => 32

/-- A far update of the bytes `bs`: the new bytes, or none where they stand, and the value returned. -/
def upNew (op : Nat) (bs : List Byte) (a b : Word) (now rnd : Nat) : Option (List Byte) × Nat :=
  match op with
  | 10 => (some (cincNew bs a), 0)
  | 11 => (some (leBytes 2 (cincaNew (leNat bs) (getBits a 0 16) rnd)), 0)
  | 12 => (some (leBytes 4 (min (2 ^ 32 - 1) (leNat bs + getBits a 0 32))), 0)
  | _ => meterNew bs a.toNat (getBits b 0 2) now

end Sys2Proof.Machine
end

