-- ==== Sys2Proof/Machine/Coh.lean ====
section
/-! DEFINITION. The home agents: requests, snoops and their answers, write-backs, recalls, atomics, the predictor,
shadow homes, and the departure of a host or a peer (R53–R84). -/

namespace Sys2Proof.Machine

/-! ## Message codes and agents (R72) -/

def opRdS : BitVec 6 := 0x01
def opRdX : BitVec 6 := 0x02
def opUpg : BitVec 6 := 0x03
def opRdU : BitVec 6 := 0x04
def opWrU : BitVec 6 := 0x05
def opWrP : BitVec 6 := 0x06
def opAtom : BitVec 6 := 0x07
def opGntM : BitVec 6 := 0x10
def opCmp : BitVec 6 := 0x11
def opCmpP : BitVec 6 := 0x12
def opWbAck : BitVec 6 := 0x13
def opDataS : BitVec 6 := 0x20
def opDataE : BitVec 6 := 0x21
def opDataM : BitVec 6 := 0x22
def opDataU : BitVec 6 := 0x23
def opDataA : BitVec 6 := 0x24
def opWbM : BitVec 6 := 0x25
def opWbO : BitVec 6 := 0x26
def opEvictC : BitVec 6 := 0x27
def opSnpS : BitVec 6 := 0x30
def opSnpI : BitVec 6 := 0x31
def opSnpC : BitVec 6 := 0x32
def opRspI : BitVec 6 := 0x40
def opRspS : BitVec 6 := 0x41
def opRspO : BitVec 6 := 0x42
def opRspD : BitVec 6 := 0x43
def opRspIWb : BitVec 6 := 0x44
def opSnpCnt : BitVec 6 := 0x45

/-- The codes of the message table (R72, R73). -/
def msgCodes : List (BitVec 6) :=
  [opRdS, opRdX, opUpg, opRdU, opWrU, opWrP, opAtom, opGntM, opCmp, opCmpP, opWbAck, opDataS, opDataE, opDataM, opDataU,
   opDataA, opWbM, opWbO, opEvictC, opSnpS, opSnpI, opSnpC, opRspI, opRspS, opRspO, opRspD, opRspIWb, opSnpCnt]

/-- A device and an agent. -/
def mkAg (dev agent : Nat) : BitVec 13 := BitVec.ofNat 13 (dev * 1024 + agent)
def agDev (x : BitVec 13) : Nat := x.toNat / 1024
def agId (x : BitVec 13) : Nat := x.toNat % 1024

/-- An agent of this device. -/
def Dev.ag (d : Dev) (agent : Nat) : BitVec 13 := mkAg d.devId agent

/-- The home agent of a line on the line's own device, and the shadow home of this device (R80). -/
def Dev.homeAg (d : Dev) (ln : Nat) : BitVec 13 := d.ag (0x200 + homeOf ln)

/-! ## Sending -/

/-- The PEER links that carry traffic for a device, direct ones first, relays where there is none (R156). -/
def Dev.peerLinks (d : Dev) (dev : Nat) : List Nat :=
  let live := (List.range 96).filter fun p =>
    d.f (PORT.CFG.MODE p) == 4 && (d.f (PORT.STAT.LINK p) == 2 || d.f (PORT.STAT.LINK p) == 4)
  let direct := live.filter fun p => d.f (PORT.STAT.REMDEV p) == dev
  if direct.isEmpty then live.filter fun p => bitN (d.f (PORT.PEER.RELAY p)) dev else direct

/-- The link that a message takes (R156): where several serve, by the hash of its destination and address. -/
def Dev.peerPort (d : Dev) (m : Msg) (notOn : Nat) : Option Nat :=
  match (d.peerLinks (agDev m.dst)).filter (· != notOn) with
  | [] => none
  | [p] => some p
  | ps => ps[Config.linkHash m.dst.toNat (m.addr.toNat / 64) % ps.length]?

/-- The message expects an answer of its receiver: a request, a snoop or a write-back (R157). -/
def msgAnswered (m : Msg) : Bool :=
  m.op.toNat < 0x10 || m.op == opWbM || m.op == opWbO || m.op == opEvictC || (0x30 ≤ m.op.toNat && m.op.toNat < 0x40)

/-- A request that R158 covers and that found no path within 200 µs of its link's loss: it is not reissued (R159). -/
def Dev.tooLate (d : Dev) (m : Msg) : Bool :=
  m.op.toNat < 0x10 && m.op != opRdU && d.coh.late.any fun e => e.2 == m && e.1 + 200000 < d.now

/-- A message reissued for device `v` is still to be sent on its link (R157). -/
def Dev.reissuing (d : Dev) (v : Nat) : Bool :=
  d.coh.again.any fun e => agDev e.2.dst == v && (d.lnk e.1).txq.contains (msgVc e.2, msgPack e.2)

/-- A message to another device: sent on its link, kept until it is answered, or kept waiting: for a path, behind what waits for
one already, and until every reissue for the device has been sent (R156–R159). -/
def Dev.sendPeer (d : Dev) (m : Msg) : Dev :=
  let own := agDev m.src == d.devId && msgAnswered m
  let m := if own then { m with tag := BitVec.ofNat 12 d.coh.ptag } else m
  let d : Dev := if own then { d with coh := { d.coh with ptag := (d.coh.ptag + 1) % 4096 } } else d
  let keep := fun (d : Dev) (p : Nat) => { d with coh := { d.coh with rem := d.coh.rem ++ [(p, m)] } }
  if d.reissuing (agDev m.dst) || d.coh.rem.any fun e => 96 ≤ e.1 && agDev e.2.dst == agDev m.dst && !d.tooLate e.2 then keep d 96
  else match d.peerPort m 96 with
  | some p => let d := d.linkSend p (msgVc m) (msgPack m); if own then keep d p else d
  | none => keep d 96

/-- A message sent: across the crossbar, or to another device over a PEER port (R72, R80). -/
def Dev.send (d : Dev) (m : Msg) : Dev :=
  if agDev m.dst == d.devId then { d with coh := { d.coh with net := d.coh.net ++ [m] } } else d.sendPeer m

/-- The kinds of agent of R72: a Frond, a home agent, a sorus's snoop unit, a port proxy, and the units that make accesses of
their own. A sorus's move engine goes by the number of its snoop unit (log entry 127). -/
def isFrond (a : Nat) : Bool := a < 0x120
def isHome (a : Nat) : Bool := 0x200 ≤ a && a < 0x240
def isUnit (a : Nat) : Bool := 0x240 ≤ a && a < 0x260
def isPort (a : Nat) : Bool := 0x280 ≤ a && a < 0x2E0
def isOwn (a : Nat) : Bool := isUnit a || (0x300 ≤ a && a < 0x303)

/-- A write that reached a host's port before the answer to a back-invalidate is part of that answer: its Cmp goes out as the
home accepts it (R70, R90). -/
def Dev.joinedDone (d : Dev) (m : Msg) : Dev :=
  if m.op != opRspD || !isPort (agId m.src) then d
  else match d.host.reqs.find? fun r => r.kind == 6 && r.port == agId m.src - 0x280 && r.ln == m.addr.toNat with
    | some r => ({ d with host := { d.host with reqs := d.host.reqs.erase r } } : Dev).emit (.cxlCmp r.port r.ld r.tag)
    | none => d

/-- A message received: one copy of it is in flight no longer. -/
def Dev.take (d : Dev) (m : Msg) : Dev := ({ d with coh := { d.coh with net := d.coh.net.erase m } } : Dev).joinedDone m

/-- The place in the device that an agent's messages arrive at: a sorus for its Fronds and its snoop unit. -/
def agPlace (x : BitVec 13) : Nat :=
  let a := agId x
  if isFrond a then 0x240 + a / 9 else a

/-- The message gives its receiver a copy of its line. -/
def msgGrants (m : Msg) : Bool :=
  m.op == opDataS || m.op == opDataE || m.op == opDataM || m.op == opGntM || (m.op == opDataA && m.res == 1)

/-- The message is the next of its channel: nothing sent before it within one virtual channel from its source to its
destination is still on the way (R11), and a snoop does not overtake a grant of its line to the place that it goes to. -/
def Dev.inTurn (d : Dev) (m : Msg) : Bool :=
  (match d.coh.net.find? fun u => msgVc u == msgVc m && u.src == m.src && u.dst == m.dst with
   | some u => u == m
   | none => true) &&
  !((m.op == opSnpS || m.op == opSnpI || m.op == opSnpC) &&
    ((d.coh.net.takeWhile (· != m)).any fun u =>
      msgGrants u && u.addr == m.addr && agDev u.dst == agDev m.dst && agPlace u.dst == agPlace m.dst))

/-- The answer of a home to a request of another device recorded for duplicates of it (R158): of an Atom that is done near, the
DataM that ends it. -/
def Dev.dupAnswer (d : Dev) (m a : Msg) : Dev :=
  if agDev m.src == d.devId || (a.op == opDataA && a.res == 1) then d
  else { d with coh := { d.coh with dup := d.coh.dup.map fun e => if e.1.src == m.src && e.1.tag == m.tag then (e.1, some a) else e } }

/-- The home's answer to request `m`: `a` with source, destination, tag and address of the exchange. -/
def Dev.answer (d : Dev) (m a : Msg) : Dev :=
  let a := { a with src := d.homeAg m.addr.toNat, dst := m.src, tag := m.tag, addr := m.addr }
  (d.dupAnswer m a).send a

/-- CmpP with its reason (R72). -/
def Dev.failReq (d : Dev) (m : Msg) (why : Nat) : Dev := d.answer m { op := opCmpP, why := BitVec.ofNat 4 why }

/-! ## Frond lines -/

def L1Line.none : L1Line := ⟨Option.none, 0, false, 0, false⟩
def l1Key (p ln : Nat) : Nat := p * 2 ^ 46 + ln
def Dev.l1 (d : Dev) (p ln : Nat) : L1Line := Tbl.get L1Line.none d.coh.l1 (l1Key p ln)
def Dev.setL1 (d : Dev) (p ln : Nat) (x : L1Line) : Dev :=
  { d with coh := { d.coh with l1 := Tbl.put L1Line.none d.coh.l1 (l1Key p ln) x } }

/-- The Frond holds the line in M, O, E or S, or in SM (R67). -/
def L1St.holds : L1St → Bool
  | .m | .o | .e | .s | .sm => true
  | _ => false

/-- An eviction of the line is in flight (R67). -/
def L1St.leaving : L1St → Bool
  | .mi | .oi | .ei => true
  | _ => false

/-- The physical Fronds of a sorus whose duplicate tags list the line (R61): held, or still to be acknowledged. A WbAck on its
way to a Frond has passed the sorus. -/
def Dev.sorusHolders (d : Dev) (s ln : Nat) : List Nat :=
  ((List.range 9).map (s * 9 + ·)).filter fun p =>
    match (d.l1 p ln).st with
    | some st => st.holds || (st.leaving && !(d.coh.net.any fun u => u.op == opWbAck && u.addr.toNat == ln && u.dst == d.ag p))
    | none => false

/-- A Frond's answer to a snoop and its line after it (R67, R56). -/
def frSnoop (x : L1Line) (op : BitVec 6) : Msg × L1Line :=
  match x.st with
  | some .m =>
    if op == opSnpS then ({ op := opRspD, data := x.data, new := 2 }, { x with st := some .o })
    else if op == opSnpI then ({ op := opRspD, data := x.data, new := 0 }, L1Line.none)
    else ({ op := opRspD, data := x.data, new := 1 }, { x with st := some .s })
  | some .o =>
    if op == opSnpS then ({ op := opRspO }, x)
    else if op == opSnpI then ({ op := opRspI }, L1Line.none)
    else ({ op := opRspS }, { x with st := some .s })
  | some .e =>
    if op == opSnpI then ({ op := opRspI }, L1Line.none) else ({ op := opRspS }, { x with st := some .s })
  | some .s => if op == opSnpI then ({ op := opRspI }, L1Line.none) else ({ op := opRspS }, x)
  | some .sm => if op == opSnpI then ({ op := opRspI }, { x with st := some .im }) else ({ op := opRspS }, x)
  | some .mi => ({ op := opRspIWb, wb := 1 }, x)
  | some .oi => ({ op := opRspIWb, wb := 2 }, x)
  | some .ei => ({ op := opRspIWb, wb := 3 }, x)
  | _ => ({ op := opRspI }, x)

/-! ## Hosts as holders -/

/-- The port whose HOSTID is `h`: a HOST or PCIE port with EN set (R127). -/
def Dev.portOfHost (d : Dev) (h : Nat) : Option Nat :=
  (List.range 96).find? fun p =>
    (d.f (PORT.CFG.MODE p) == 1 || d.f (PORT.CFG.MODE p) == 2) && d.fb (PORT.CFG.EN p) && d.f (PORT.CFG.HOSTID p) == h

/-- The port's link is up: UP, RETRAIN or CALIBRATING; a retrain that keeps the link up is no link down (R136). -/
def Dev.linkUp (d : Dev) (p : Nat) : Bool :=
  let l := d.f (PORT.STAT.LINK p)
  l == 2 || l == 3 || l == 4

/-- The hosts of a group whose port links are up (R64). -/
def Dev.groupHosts (d : Dev) (n g : Nat) : List Nat :=
  (onesN 64 (d.f (HOME.HGMAP.HOSTS n g))).filter fun h =>
    match d.portOfHost h with
    | some p => d.linkUp p
    | none => false

/-- The group a host is recorded under: the lowest whose map holds it (R64). -/
def Dev.hostGroup (d : Dev) (n h : Nat) : Option Nat :=
  (List.range 24).find? fun g => bitN (d.f (HOME.HGMAP.HOSTS n g)) h

/-! ## Snoop-filter entries -/

/-- The set of a line within its home (R62), and the set's number among all homes'. -/
def sfSet (ln : Nat) : Nat := bitsN ln 0 11
def sfKey (ln : Nat) : Nat := homeOf ln * 2048 + sfSet ln

/-- The lines of one set of one home that have a way. -/
def Dev.sfMates (d : Dev) (ln : Nat) : List Nat := (d.coh.sfWay.map (·.1)).filter fun j => sfKey j == sfKey ln

/-- The way of a line's entry. -/
def Dev.sfWay (d : Dev) (ln : Nat) : Nat := Tbl.get 0 d.coh.sfWay ln - 1

/-- The line's entry has moved to the recall buffer (R65). -/
def Dev.recalled (d : Dev) (ln : Nat) : Bool :=
  d.coh.txns.any fun t => t.ln == ln && (match t.kind with | .recall => true | _ => false)

/-- An entry written: one that begins takes the lowest free way of its set, and its way counts as used (R62, R65). -/
def Dev.setSf (d : Dev) (ln : Nat) (e : SfE) : Dev :=
  let w := Tbl.get 0 d.coh.sfWay ln
  let used := (d.sfMates ln).map d.sfWay
  let w := if e == SfE.empty || d.recalled ln then 0
    else if w != 0 then w else (((List.range 16).find? fun i => !used.contains i).map (· + 1)).getD 0
  { d with coh := { d.coh with
      sf := Tbl.put SfE.empty d.coh.sf ln e
      sfWay := Tbl.put 0 d.coh.sfWay ln w
      sfLru := if w == 0 then d.coh.sfLru else Tbl.upd 0 d.coh.sfLru (sfKey ln) fun t => plruTouch 4 t (w - 1) } }

/-- A holder named in an entry: who it is. -/
inductive Holder where
  /-- A physical Frond of this device. -/
  | frond (p : Nat)
  /-- A host attachment, through its port. -/
  | host (h : Nat)
  /-- Another device. -/
  | peer (v : Nat)
  /-- No caching agent. -/
  | none
  deriving DecidableEq, Repr

/-- The holder that a requester is (R72, R81). -/
def Dev.holderOf (d : Dev) (x : BitVec 13) : Holder :=
  if agDev x != d.devId then .peer (agDev x)
  else if agId x < 0x120 then .frond (agId x)
  else if 0x280 ≤ agId x && agId x < 0x2E0 then .host (d.f (PORT.CFG.HOSTID (agId x - 0x280)))
  else .none

/-- The entry with a holder added in S (R62). -/
def Dev.addShared (d : Dev) (ln : Nat) (e : SfE) : Holder → SfE
  | .frond p => { e with sori := e.sori ||| BitVec.twoPow 32 (p / 9) }
  | .host h =>
    match d.hostGroup (homeOf ln) h with
    | some g => { e with grps := e.grps ||| BitVec.twoPow 32 g }
    | none => e
  | .peer v => { e with grps := e.grps ||| BitVec.twoPow 32 (24 + v) }
  | .none => e

/-- The GRPS bits that an entry of a remote line starts with: its home device (R62). -/
def Dev.remBits (d : Dev) (ln : Nat) : BitVec 32 :=
  if lnDev ln == d.devId then 0 else BitVec.ofNat 32 (lnDev ln * 2 ^ 24)

/-- The entry that names one holder as owner in E or M (R62). -/
def Dev.soleOwner (d : Dev) (ln : Nat) : Holder → SfE
  | .frond p => ⟨1 + p / 9, 0, d.remBits ln⟩
  | .host h =>
    match d.hostGroup (homeOf ln) h with
    | some g => ⟨65 + g, 0, d.remBits ln ||| BitVec.twoPow 32 g⟩
    | none => SfE.empty
  | .peer v => ⟨89 + v, 0, BitVec.twoPow 32 (24 + v)⟩
  | .none => SfE.empty

/-- The entry that names one holder as owner written, and with it which host of a group that is (R70). -/
def Dev.setOwner (d : Dev) (ln : Nat) (h : Holder) : Dev :=
  let d := d.setSf ln (d.soleOwner ln h)
  match h with
  | .host v => { d with coh := { d.coh with hostOwn := Tbl.put 0 d.coh.hostOwn ln (v + 1) } }
  | _ => d

/-- Host `h` of group `g` is the one that the line was granted to in E or M: its group is recorded so, and it was the last of
it that a grant was made to (log entry 142). -/
def Dev.hostOwns (d : Dev) (ln g h : Nat) : Bool := (d.sfe ln).own == 65 + g && Tbl.get 0 d.coh.hostOwn ln == h + 1

/-- No holder is named. -/
def Dev.noHolder (d : Dev) (ln : Nat) (e : SfE) : Bool :=
  e.own == 0 && e.sori == 0 && (if lnDev ln == d.devId then e.grps == 0 else e.grps &&& 0xFFFFFF == 0)

/-- The entry put away, dropped where it names nobody. -/
def Dev.keepSf (d : Dev) (ln : Nat) (e : SfE) : Dev := if d.noHolder ln e then d.setSf ln SfE.empty else d.setSf ln e

/-- An owner is recorded in E or M. -/
def SfE.excl (e : SfE) : Bool := (1 ≤ e.own && e.own ≤ 32) || (65 ≤ e.own && e.own ≤ 96)

/-- Sori that an invalidation goes to: SORI and a Frond owner's (R63). -/
def SfE.allSori (e : SfE) : List Nat :=
  onesN 32 (e.sori.toNat ||| (if 1 ≤ e.own && e.own ≤ 32 then 2 ^ (e.own - 1) else if 33 ≤ e.own && e.own ≤ 64 then 2 ^ (e.own - 33) else 0))

/-- Host groups and peer devices named. -/
def SfE.allGroups (e : SfE) : List Nat :=
  onesN 24 (e.grps.toNat ||| (if 65 ≤ e.own && e.own ≤ 88 then 2 ^ (e.own - 65) else 0))
def Dev.allPeers (d : Dev) (ln : Nat) (e : SfE) : List Nat :=
  if lnDev ln == d.devId then onesN 8 (e.grps.toNat / 2 ^ 24 ||| (if 89 ≤ e.own && e.own ≤ 96 then 2 ^ (e.own - 89) else 0)) else []

/-! ## Transactions -/

def Dev.txn (d : Dev) (ln : Nat) : Option Txn := d.coh.txns.find? (·.ln == ln)
def Dev.setTxn (d : Dev) (t : Txn) : Dev :=
  { d with coh := { d.coh with txns := d.coh.txns.map fun u => if u.ln == t.ln then t else u } }
def Dev.openTxn (d : Dev) (t : Txn) : Dev := { d with coh := { d.coh with txns := d.coh.txns ++ [t] } }
def Dev.closeTxn (d : Dev) (ln : Nat) : Dev := { d with coh := { d.coh with txns := d.coh.txns.filter (·.ln != ln) } }

/-- A request put at the end of its home's queue (R58). -/
def Dev.queueReq (d : Dev) (m : Msg) : Dev := { d with coh := { d.coh with hq := d.coh.hq ++ [m] } }

def Txn.new (ln : Nat) (k : TxnKind) (err : BitVec 560) : Txn :=
  ⟨ln, k, err, [], 0, [], [], [], [], [], false, 0, false, 0, none, false, [], false, none, 0⟩

/-- Every answer is in. -/
def Txn.ready (t : Txn) : Bool :=
  t.sori.isEmpty && t.owed == 0 && t.hosts.isEmpty && t.peers.isEmpty && t.wbs.isEmpty

/-- Recall-buffer entries of a home in use (R65). -/
def Dev.recalls (d : Dev) (n : Nat) : Nat :=
  (d.coh.txns.filter fun t => (match t.kind with | .recall => true | _ => false) && homeOf t.ln == n).length

/-- The snoops of a transaction sent, with their counters (R63, R64, R386): to the sori, hosts and peers it lists. -/
def Dev.sendSnoops (d : Dev) (t : Txn) (op : BitVec 6) (req : BitVec 13) (tag : BitVec 12) : Dev :=
  let n := homeOf t.ln
  let base : Msg := { op := op, src := d.homeAg t.ln, addr := BitVec.ofNat 46 t.ln, tag := tag, req := req }
  let d := t.sori.foldl (fun d s => (d.send { base with dst := d.ag (0x240 + s) }).count (768 + 16 * n) 1) d
  let d := t.hosts.foldl (fun d h =>
    match d.portOfHost h with
    | some p => ((d.send { base with dst := d.ag (0x280 + p) }).count (768 + 16 * n) 1).count (768 + 16 * n + 1) 1
    | none => d) d
  t.peers.foldl (fun d v => (d.send { base with dst := mkAg v (0x200 + n) }).count (768 + 16 * n) 1) d

/-! ## The predictor (R79) -/

def predKey (ln : Nat) : Nat := homeOf ln * 4096 + (bitsN ln 0 12 ^^^ bitsN ln 12 12)
def PredE.none : PredE := ⟨0, false, 0, 0⟩

/-- 1,024 home cycles at 3.0 GHz, in whole nanoseconds. -/
def predAge : Nat := 341

/-- The agent is the Frond recorded as the line's O holder, its own Upg included: no other Frond of its sorus holds O. -/
def Dev.ownsDuty (d : Dev) (ln : Nat) (x : BitVec 13) : Bool :=
  match d.holderOf x with
  | .frond p => (d.sfe ln).own == 33 + p / 9 &&
      !((d.sorusHolders (p / 9) ln).any fun q => q != p && ((d.l1 q ln).st == some .o || (d.l1 q ln).st == some .oi))
  | _ => false

/-- Another agent than the requester holds the line in M or O: Fronds by their lines, hosts and peer devices as they are
recorded in E/M. -/
def Dev.otherOwner (d : Dev) (ln : Nat) (x : BitVec 13) : Bool :=
  let e := d.sfe ln
  if e.own == 0 then false
  else if e.own ≤ 32 then
    (d.sorusHolders (e.own - 1) ln).any fun q => d.holderOf x != .frond q && ((d.l1 q ln).st == some .m || (d.l1 q ln).st == some .mi)
  else if e.own ≤ 64 then !d.ownsDuty ln x
  else match d.holderOf x with
    | .host h => d.hostGroup (homeOf ln) h != some (e.own - 65)
    | .peer v => e.own != 89 + v
    | _ => true

/-- The entry of a line trained by a request, before its grant (R79). -/
def Dev.train (d : Dev) (m : Msg) : Dev :=
  let k := predKey m.addr.toNat
  let e := Tbl.get PredE.none d.coh.pred k
  let up := d.otherOwner m.addr.toNat m.src || (e.valid && d.time ≤ e.at_ + predAge && e.agent != m.src.toNat)
  let c := if up then min 3 (e.ctr + 1) else e.ctr - 1
  { d with coh := { d.coh with pred := Tbl.put PredE.none d.coh.pred k { e with ctr := c } } }

/-- A grant or far atomic recorded in the entry of its line (R79). -/
def Dev.granted (d : Dev) (m : Msg) : Dev :=
  let k := predKey m.addr.toNat
  let e := { Tbl.get PredE.none d.coh.pred k with valid := true, agent := m.src.toNat, at_ := d.time }
  { d with coh := { d.coh with pred := Tbl.put PredE.none d.coh.pred k e } }

/-- The atomic executes far (R78): hosts always far, then PLACE, then APLACE, then the predictor. -/
def Dev.goesFar (d : Dev) (m : Msg) : Bool :=
  match d.holderOf m.src with
  | .host _ => true
  | _ =>
    if m.place == 1 then false
    else if m.place == 2 then true
    else
      let ap := d.f (HOME.CTL.APLACE (homeOf m.addr.toNat))
      if ap == 1 then false
      else if ap == 2 then true
      else 2 ≤ (Tbl.get PredE.none d.coh.pred (predKey m.addr.toNat)).ctr

/-! ## Atomic operations (R77, R208) -/

/-- AOP codes: 0 ADD, 1 CAS, 2 SWAP, 3 MIN, 4 MAX, 5 MINU, 6 MAXU, 7 AND, 8 OR, 9 XOR (R208), on `n` bytes: the new
value, or none where a compare-and-swap fails. `x` is the operand, `y` the value a CAS stores. -/
def amoNew (op n old x y : Nat) : Option Nat :=
  let m := 2 ^ (8 * n)
  let s := fun v => sext (8 * n) v
  match op with
  | 0 => some ((old + x) % m)
  | 1 => if old == x % m then some (y % m) else none
  | 2 => some (x % m)
  | 3 => some (if s old ≤ s x then old else x % m)
  | 4 => some (if s old ≥ s x then old else x % m)
  | 5 => some (min old (x % m))
  | 6 => some (max old (x % m))
  | 7 => some (old &&& (x % m))
  | 8 => some (old ||| (x % m))
  | _ => some (old ^^^ (x % m))

/-! ## Serving a request -/

/-- The request kind that a checker judges (R331). -/
def msgKind (m : Msg) : Kind :=
  if m.op == opRdS || m.op == opRdU then .rd
  else if m.op == opAtom then (if m.aop ≥ 10 then .up else .at)
  else .wr

/-- The domain of a message that arrived from another device (R330). -/
def msgDom (m : Msg) : Dom :=
  if !m.priv then .s else if m.slice == 0xFFE then .dbg else if m.slice == 0xFFF then .drk else .f

/-- The request changes memory, or may: what R29 refuses on a table in use. -/
def msgWrites (m : Msg) : Bool := m.op == opRdX || m.op == opUpg || m.op == opWrU || m.op == opWrP || m.op == opAtom

/-- The home checker judges the request: it comes from another device, or from a unit whose accesses R331 gives it. -/
def Dev.judged (d : Dev) (m : Msg) : Bool :=
  agDev m.src != d.devId || (0x300 ≤ agId m.src && (!m.priv || 0xFFE ≤ m.slice.toNat))

/-- The home turns the request away: its own checks, and the home checker's (R31, R82, R331). -/
def Dev.turnsAway (d : Dev) (m : Msg) : Bool :=
  d.homeRefuses m.addr.toNat (agId m.src) m.priv m.slice.toNat (msgWrites m) ||
  (d.judged m && d.check (m.addr.toNat * 64) (msgDom m) (msgKind m) m.slice.toNat != .ok) ||
  (m.op == opAtom && m.place == 0)

/-- The snoop that a request needs first, if any (R54, R74, R77). -/
def Dev.snoopFor (d : Dev) (m : Msg) (far : Bool) : Option (BitVec 6) :=
  let e := d.sfe m.addr.toNat
  if m.op == opRdS || m.op == opRdU then (if e.excl then some opSnpS else none)
  else if m.op == opAtom && !far then some opSnpI
  else some opSnpI

/-- The request passes its requester over in the snoop (R63). -/
def msgSparesSelf (m : Msg) : Bool := m.op == opRdX || m.op == opUpg

/-- The transaction of a request with the holders it must hear from. A host's own copy is not snooped by its write
(R70). -/
def Dev.mkTxn (d : Dev) (m : Msg) (err : BitVec 560) (op : BitVec 6) (spare : Bool) : Txn :=
  let ln := m.addr.toNat
  let e := d.sfe ln
  let t := Txn.new ln (.req m) err
  let self := d.holderOf m.src
  let sori := if op == opSnpS then (if 1 ≤ e.own && e.own ≤ 32 then [e.own - 1] else []) else e.allSori
  let grps := if op == opSnpS then (if 65 ≤ e.own && e.own ≤ 88 then [e.own - 65] else []) else e.allGroups
  let peers := if op == opSnpS then (if 89 ≤ e.own && e.own ≤ 96 then [e.own - 89] else []) else d.allPeers ln e
  let hosts := ((grps.map fun g => d.groupHosts (homeOf ln) g).flatten).eraseDups
  { t with
    sori := sori
    hosts := hosts.filter fun h => !((spare || m.op == opWrU || m.op == opWrP) && self == .host h)
    peers := peers.filter fun v => !(spare && self == .peer v) }

/-- Record of the owner after a read snoop: O, S or gone (R54, R62). -/
def afterRead (t : Txn) (e : SfE) : SfE :=
  if !e.excl then e
  else if 1 ≤ e.own && e.own ≤ 32 then
    let s := e.own - 1
    if t.ownNew == 2 then { e with own := 33 + s, sori := e.sori ||| BitVec.twoPow 32 s }
    else if t.ownNew == 1 then { e with own := 0, sori := e.sori ||| BitVec.twoPow 32 s }
    else { e with own := 0, sori := e.sori &&& ~~~ BitVec.twoPow 32 s }
  else if 65 ≤ e.own && e.own ≤ 88 then
    if t.ownNew == 0 then { e with own := 0, grps := e.grps &&& ~~~ BitVec.twoPow 32 (e.own - 65) }
    else { e with own := 0, grps := e.grps ||| BitVec.twoPow 32 (e.own - 65) }
  else
    if t.ownNew == 0 then { e with own := 0, grps := e.grps &&& ~~~ BitVec.twoPow 32 (e.own - 89 + 24) }
    else { e with own := 0, grps := e.grps ||| BitVec.twoPow 32 (e.own - 89 + 24) }

/-- An O holder has been invalidated: the home takes the backing-store duty (R74). -/
def Dev.takeDuty (d : Dev) (ln : Nat) : Dev :=
  if d.heldO ln && d.inMsc ln then d.setMsc ln { d.msc ln with dirty := true } else d

/-- Bytes of an atomic's operand within its line. -/
def atomOff (m : Msg) : Nat := m.off.toNat * 8

/-! ## Accesses of the device's own units (R57, R330, R331) -/

/-- Nothing of the line is under way at its home, and the home can serve it now. -/
def Dev.still (d : Dev) (ln : Nat) : Bool :=
  lnDev ln == d.devId && (d.txn ln).isNone && d.present ln &&
  !(d.coh.hq.any fun m => m.addr.toNat == ln) && !(d.coh.net.any fun m => m.addr.toNat == ln)

/-- A write of the line has its place in the memory-side cache. -/
def Dev.mscHolds (d : Dev) (ln : Nat) : Bool :=
  match d.lnKind ln with
  | .exp _ => d.inMsc ln && d.mscFits ln (d.mscMates ln)
  | _ => true

/-- The request of a unit (R72). -/
def Dev.ownMsg (d : Dev) (o : Own) (op : BitVec 6) (ln : Nat) : Msg :=
  { op := op, src := d.ag o.agent, dst := d.homeAg ln, addr := BitVec.ofNat 46 ln, slice := BitVec.ofNat 12 o.slice, priv := o.priv }

/-- The unit's request `m` as it is outstanding, or answered and not yet used. -/
def Dev.ownOf (d : Dev) (o : Own) (m : Msg) : Option OwnReq :=
  d.coh.own.find? fun r => r.own == o && { r.m with tag := 0 } == m
def Dev.dropOwn (d : Dev) (r : OwnReq) : Dev := { d with coh := { d.coh with own := d.coh.own.erase r } }

/-- The command in hand must wait for the unit's request `m`, the first of those that it must wait for. -/
def Dev.await (d : Dev) (o : Own) (m : Msg) : Dev :=
  { d with coh := { d.coh with need := some (d.coh.need.getD (o, m)) } }

/-- A unit's request sent to the home of its line, under a tag that none of the agent's outstanding ones has. -/
def Dev.ownPost (d : Dev) (o : Own) (m : Msg) : Dev :=
  let tag := ((List.range 4096).find? fun k => !(d.coh.own.any fun r => r.m.src == m.src && r.m.tag.toNat == k)).getD 0
  let m := { m with tag := BitVec.ofNat 12 tag }
  ({ d with coh := { d.coh with own := d.coh.own ++ [⟨o, m, none⟩] } } : Dev).send m

/-- One that is outstanding is not sent twice. -/
def Dev.ownSend (d : Dev) (o : Own) (m : Msg) : Dev := if (d.ownOf o m).isSome then d else d.ownPost o m

/-- What those that `p` picks wait for is asked for by nobody any longer: answers are dropped, now and when they come. -/
def Dev.forget (d : Dev) (p : OwnFor → Bool) : Dev :=
  { d with coh := { d.coh with
    own := (d.coh.own.filter fun r => !p r.own.who || r.ans.isNone).map fun r =>
      if p r.own.who then { r with own := { r.own with who := .posted } } else r } }

/-- The accesses for a queue of a slice. -/
def OwnFor.ofSlice (n : Nat) : OwnFor → Bool
  | .cq m _ | .sq m _ => m == n
  | _ => false

/-- `g` where none of its accesses must wait; otherwise nothing of it happens but that the request it waits for is sent. -/
def Dev.tryOwn {α : Type} (d : Dev) (g : Dev → α × Dev) : Option α × Dev :=
  let (a, e) := g { d with coh := { d.coh with need := none } }
  match e.coh.need with
  | none => (some a, { e with coh := { e.coh with need := d.coh.need } })
  | some (o, m) => (none, d.ownSend o m)
def Dev.attempt (d : Dev) (g : Dev → Dev) : Dev := (d.tryOwn fun d => ((), g d)).2

/-- What a home refuses a unit (R29, R31, R331). -/
def Dev.ownRefused (d : Dev) (m : Msg) : Bool := d.turnsAway { m with place := 2 }

/-- A unit's request answered with `k` at once where its line is still and `ready`, with the answer that came where it was
sent before, and awaited otherwise. -/
def Dev.ownAsk (d : Dev) (o : Own) (m : Msg) (ready : Bool) (k : Dev → Msg × Dev) : Msg × Dev :=
  match d.ownOf o m with
  | some r =>
    match r.ans with
    | some a => (a, d.dropOwn r)
    | none => ({ op := opCmpP }, d.await o m)
  | none =>
    if !ready || !d.still m.addr.toNat then ({ op := opCmpP }, d.await o m)
    else if d.ownRefused m then ({ op := opCmpP, why := 1 }, d)
    else k d

/-- A line read by one of the device's own units (R54, R330). -/
def Dev.cohRead (d : Dev) (o : Own) (ln : Nat) : LRead × Dev :=
  let (a, d) := d.ownAsk o (d.ownMsg o opRdU ln) (!(d.sfe ln).excl) fun d =>
    let (r, d) := if d.lostExp ln then (⟨0, true, 8, 0⟩, d) else d.homeRead ln 0
    ({ op := opDataU, data := r.data, psn := r.psn }, d)
  (if a.op == opCmpP then ⟨0, true, 0, a.why.toNat⟩ else ⟨a.data, a.psn, 0, 0⟩, d)

/-- A line written by one of the device's own units: the WHY of its failure, 0 for none (R56, R74). -/
def Dev.cohWrite (d : Dev) (o : Own) (ln : Nat) (x : Line) (mask : BitVec 64) : Nat × Dev :=
  let full := mask == BitVec.allOnes 64
  let m := { d.ownMsg o (if full then opWrU else opWrP) ln with data := x, mask := if full then 0 else mask }
  let (a, d) := d.ownAsk o m (d.sfe ln == SfE.empty && d.mscHolds ln) fun d =>
    ({ op := opCmp }, d.homeWrite ln x mask)
  (if a.op == opCmpP then a.why.toNat else 0, d)

/-- Bits set in the aligned 8-byte word at FPA `a` by one of the device's own units. -/
def Dev.cohOr (d : Dev) (o : Own) (a : Nat) (v : Word) : Dev :=
  let ln := a / 64
  let m := { d.ownMsg o opAtom ln with aop := 8, sz := true, place := 2, off := BitVec.ofNat 3 (a % 64 / 8), opa := v }
  (d.ownAsk o m (d.sfe ln == SfE.empty && d.mscHolds ln) fun d =>
    let (r, d) := d.homeRead ln 0
    if r.psn then ({ op := opCmpP, why := 3 }, d)
    else
      let old := leNat (lineSlice r.data (a % 64) 8)
      ({ op := opDataA }, d.homeWrite ln (linePatch 0 (a % 64) (leBytes 8 (old ||| v.toNat))) (BitVec.ofNat 64 (255 * 2 ^ (a % 64))))).2

/-- A counter in memory advanced by one of the device's own units, as a posted addition to the aligned 8-byte word at FPA `a`:
nobody waits for it. -/
def Dev.cohAdd (d : Dev) (agent a k : Nat) : Dev :=
  let ln := a / 64
  let o : Own := ⟨.posted, agent, 0, true⟩
  let m := { d.ownMsg o opAtom ln with aop := 0, sz := true, place := 2, off := BitVec.ofNat 3 (a % 64 / 8), opa := w64 k }
  if !d.still ln || d.sfe ln != SfE.empty || !d.mscHolds ln then d.ownPost o m
  else if d.ownRefused m then d
  else
    let (r, d) := d.homeRead ln 0
    if r.psn then d
    else d.homeWrite ln (linePatch 0 (a % 64) (leBytes 8 (leNat (lineSlice r.data (a % 64) 8) + k))) (BitVec.ofNat 64 (255 * 2 ^ (a % 64)))

/-- Bytes read through the homes from an FPA on: their poison, and the WHY of a failure. -/
def Dev.cohBytes : Nat → Dev → Own → Nat → Nat → (List Byte × Bool × Nat) × Dev
  | 0, d, _, _, _ => (([], false, 0), d)
  | k + 1, d, o, a, n =>
    if n == 0 then (([], false, 0), d)
    else
      let take := min n (64 - a % 64)
      let (r, d) := d.cohRead o (a / 64)
      let (rest, d) := Dev.cohBytes k d o (a + take) (n - take)
      ((lineSlice r.data (a % 64) take ++ rest.1, r.psn || rest.2.1, if r.fail != 0 then r.fail else rest.2.2), d)

/-- Bytes written through the homes from an FPA on: the WHY of a failure. -/
def Dev.cohPut : Nat → Dev → Own → Nat → List Byte → Nat × Dev
  | 0, d, _, _, _ => (0, d)
  | k + 1, d, o, a, bs =>
    if bs.isEmpty then (0, d)
    else
      let take := min bs.length (64 - a % 64)
      let (w, d) := d.cohWrite o (a / 64) (linePatch 0 (a % 64) (bs.take take)) (BitVec.ofNat 64 ((2 ^ take - 1) * 2 ^ (a % 64)))
      let (w', d) := Dev.cohPut k d o (a + take) (bs.drop take)
      (if w != 0 then w else w', d)

/-! ## The dirty-page log (R47–R49) -/

/-- The unit that writes the log and walks the translation tables, not checked (R330). -/
def logOwn (w : OwnFor) : Own := ⟨w, 0x300, 0, true⟩

/-- The bit of one 4 KiB page set, or the miss counted. -/
def Dev.dlogPage (d : Dev) (w : OwnFor) (n sa : Nat) : Dev :=
  let pg := sa / 2 ^ 21
  let base := d.f (SLICE.DLOG_RANGE.BASE_PG n)
  if pg < base || d.f (SLICE.DLOG_RANGE.LIMIT_PG n) < pg then d.incF (SLICE.DLOG_CTL.MISS n)
  else
    let i := (sa - base * 2 ^ 21) / 4096
    d.cohOr (logOwn w) (d.f (SLICE.DLOG_BASE.BASE n) * 4096 + i / 64 * 8) (BitVec.twoPow 64 (i % 64))

/-- A write of `len` bytes logged where slice `n` logs (R47): both pages where it spans two. -/
def Dev.dlog (d : Dev) (w : OwnFor) (n sa len : Nat) : Dev :=
  if !d.fb (SLICE.DLOG_BASE.EN n) || len == 0 then d
  else
    let d := d.dlogPage w n sa
    if (sa + len - 1) / 4096 != sa / 4096 then d.dlogPage w n (sa + len - 1) else d

/-- A far atomic or update of a Frond at slice privilege is logged by its home before it is visible (R48): the model carries
the slice address in DATA. A request of another device is logged there. -/
def Dev.logFar (d : Dev) (m : Msg) (n : Nat) : Dev :=
  if m.priv || agDev m.src != d.devId || !isFrond (agId m.src) then d
  else d.dlog (.home m.addr.toNat) m.slice.toNat m.data.toNat n

/-- A far update performed on home memory as one transaction (R222, R231–R239). The model carries the update's code in
AOP, and the byte offset below the 8-byte word in MASK; `now` is when the transaction opened (R239). -/
def Dev.farUpdate (d : Dev) (m : Msg) (err : BitVec 560) (now : Nat) : Dev :=
  let ln := m.addr.toNat
  let off := atomOff m + m.mask.toNat % 8
  let n := upSize m.aop.toNat
  let (r, d) := d.homeRead ln err
  if r.psn then d.failReq m 3
  else
    let (rnd, d) := if m.aop.toNat == upCINCA then d.draw else (0, d)
    match upNew m.aop.toNat (lineSlice r.data off n) m.opa m.opb now rnd.toNat with
    | (some bs, v) =>
      ((d.logFar m n).homeWrite ln (linePatch r.data off bs) (BitVec.ofNat 64 ((2 ^ n - 1) * 2 ^ off))).answer m
        { op := opDataA, old := w64 v, res := 0 }
    | (none, v) => d.answer m { op := opDataA, old := w64 v, res := 2 }

/-- A far atomic performed on home memory (R77, R56). OFF names the 8-byte word; a 4-byte atomic in its upper half is
named by bit 2 of the byte offset that the model carries in MASK. -/
def Dev.farAtomic (d : Dev) (m : Msg) (err : BitVec 560) : Dev :=
  let ln := m.addr.toNat
  let n := if m.sz then 8 else 4
  let off := atomOff m + (if m.sz then 0 else m.mask.toNat % 8)
  let (r, d) := d.homeRead ln err
  if r.psn then d.failReq m 3
  else
    let old := leNat (lineSlice r.data off n)
    match amoNew m.aop.toNat n old m.opa.toNat m.opb.toNat with
    | none => d.answer m { op := opDataA, old := w64 old, res := 2 }
    | some v =>
      ((d.logFar m n).homeWrite ln (linePatch r.data off (leBytes n v)) (BitVec.ofNat 64 ((2 ^ n - 1) * 2 ^ off))).answer m
        { op := opDataA, old := w64 old, res := 0 }

/-- A read that finds its line lost by a departed holder (R76). -/
def lostRead (r : LRead) (t : Txn) : LRead := if t.lost == 0 then r else { r with psn := true, why := t.lost }

/-- A line that a departed holder was recorded for in E/M is poisoned, counted and reported (R76). -/
def Dev.poisonLost (d : Dev) (ln why : Nat) : Dev :=
  let n := homeOf ln
  let d := (d.poison ln why).incF (HOME.PSTAT.COUNT n)
  let d := (d.setF (HOME.PSTAT.WHY n) why).setF (HOME.PFPA.FPA n) ln
  d.raiseFpa 865 (n + why * 64) 3 ln

/-- The line of a transaction whose E/M holder departed is poisoned, unless another answer brought its data or said
that its host held it (R76). -/
def Dev.settleLost (d : Dev) (t : Txn) : Txn × Dev :=
  if t.lost != 0 && !t.got then (t, d.poisonLost t.ln t.lost) else ({ t with lost := 0 }, d)

/-- The entry after a partial write: the writing host's own record is unchanged (R70). A line that another host of its group
owned is nobody's: that one has been asked for it. -/
def Dev.afterWrP (d : Dev) (ln : Nat) (e : SfE) : Holder → SfE
  | .host h =>
    match d.hostGroup (homeOf ln) h with
    | some g =>
      if e.own == 65 + g && !d.hostOwns ln g h then SfE.empty
      else ⟨if e.own == 65 + g then e.own else 0, 0, e.grps &&& BitVec.twoPow 32 g⟩
    | none => SfE.empty
  | _ => SfE.empty

/-- What the host of a full write keeps of its line: as its MetaValue says, and nothing once its link is down (R70, R76). -/
def Dev.keepsCopy (d : Dev) (m : Msg) : BitVec 2 := if isPort (agId m.src) && d.linkUp (agId m.src - 0x280) then m.new else 0

/-- What this device holds of a line of another device (R80). -/
def Dev.shadowOf (d : Dev) (ln : Nat) : Nat := Tbl.get 0 d.coh.shadow ln
def Dev.setShadow (d : Dev) (ln v : Nat) : Dev := { d with coh := { d.coh with shadow := Tbl.put 0 d.coh.shadow ln v } }

/-- The message by which a shadow home tells the remote home that its local copies of a line are gone (R81): WbM with
modified data, WbO where a local holder had the O duty, EvictC otherwise. -/
def Dev.giveUp (d : Dev) (ln : Nat) (dutyO : Bool) : Dev :=
  let m : Msg := {
    op := if d.shadowOf ln == 3 then opWbM else if dutyO then opWbO else opEvictC, src := d.homeAg ln
    dst := mkAg (lnDev ln) (0x200 + homeOf ln), addr := BitVec.ofNat 46 ln, data := if d.shadowOf ln == 3 then d.line ln else 0 }
  if d.shadowOf ln == 0 then d else (d.setShadow ln 0).send m

/-- A host's full write that leaves a copy with the host (R70). A remote home learns of copies by grants alone, so a shadow home
takes the line in M for it (R80, R81; log entry 143). -/
def shadowKeeps (m : Msg) : Bool := m.op == opWrU && m.new != 0

/-- Such a write made in a line that the shadow home has in M: its data is kept here, and the host recorded as its MetaValue
says. -/
def Dev.shadowWrite (d : Dev) (m : Msg) : Dev :=
  let ln := m.addr.toNat
  let self := d.holderOf m.src
  let d := ((d.putLine ln m.data).setMeta ln LMeta.clean).setShadow ln 3
  let keep := d.keepsCopy m
  let d := if keep == 2 then d.setOwner ln self else d.keepSf ln (if keep == 1 then d.addShared ln ⟨0, 0, d.remBits ln⟩ self else SfE.empty)
  (if d.noHolder ln (d.sfe ln) then d.giveUp ln false else d).answer m { op := opCmp }

/-- The local finish of a transaction: every answer is in and the line is present. A shadow home that has no holder left
afterwards gives the line up. The predictor records every grant of ownership, DataE among them (R56, R79). -/
def Dev.finishReq (d : Dev) (t : Txn) (m : Msg) : Dev :=
  let ln := t.ln
  let (t, d) := d.settleLost t
  let e := d.sfe ln
  let self := d.holderOf m.src
  let d := d.closeTxn ln
  let lost := fun (x : Dev) => x.lostExp ln
  if m.op == opRdS then
    let (r, d) := if lost d then (⟨0, true, 8, 0⟩, d) else d.homeRead ln t.err
    let r := lostRead r t
    let e' := afterRead t e
    if d.noHolder ln e' && (lnDev ln == d.devId || 2 ≤ d.shadowOf ln) then
      ((d.granted m).setOwner ln self).answer m { op := opDataE, data := r.data, psn := r.psn }
    else (d.setSf ln (d.addShared ln { e' with grps := e'.grps ||| d.remBits ln } self)).answer m { op := opDataS, data := r.data, psn := r.psn }
  else if m.op == opRdU then
    let (r, d) := if lost d then (⟨0, true, 8, 0⟩, d) else d.homeRead ln t.err
    let r := lostRead r t
    let d := d.keepSf ln (afterRead t e)
    let d := if d.remote ln && d.noHolder ln (d.sfe ln) then d.giveUp ln false else d
    d.answer m { op := opDataU, data := r.data, psn := r.psn }
  else if m.op == opUpg && (match self with | .frond p => (d.l1 p ln).st == some .sm | .peer v => e.grps.getLsbD (24 + v) | _ => false) && !(t.lost != 0) then
    ((if t.ownNew == 6 then d else d.takeDuty ln).granted m |>.setOwner ln self).answer m { op := opGntM }
  else if m.op == opRdX || m.op == opUpg then
    let d := d.takeDuty ln
    let (r, d) := if lost d then (⟨0, true, 8, 0⟩, d) else d.homeRead ln t.err
    let r := lostRead r t
    ((d.granted m).setOwner ln self).answer m { op := opDataM, data := r.data, psn := r.psn }
  else if d.remote ln && shadowKeeps m then d.shadowWrite m
  else if m.op == opWrU || m.op == opWrP then
    let d := d.takeDuty ln
    let d := if m.op == opWrU then d.homeWrite ln m.data (BitVec.allOnes 64)
      else if lost d then d
      else (d.homeRead ln t.err).2.homeWrite ln m.data m.mask
    let keep := d.keepsCopy m
    let d := if m.op == opWrU && keep == 2 then d.setOwner ln self
      else d.setSf ln (if m.op == opWrP then d.afterWrP ln e self else if keep == 1 then d.addShared ln SfE.empty self else SfE.empty)
    d.answer m { op := opCmp }
  else if t.ownNew == 7 then
    let d := d.takeDuty ln
    let (r, d) := if lost d then (⟨0, true, 8, 0⟩, d) else d.homeRead ln t.err
    if t.lost != 0 then (d.setSf ln SfE.empty).failReq m t.lost
    else
      let d := ((d.granted m).setOwner ln self).count (768 + 16 * homeOf ln + 3) 1
      (d.answer m { op := opDataA, res := 1 }).answer m { op := opDataM, data := r.data, psn := r.psn }
  else
    let d := (d.takeDuty ln).setSf ln SfE.empty
    if t.lost != 0 then d.failReq m t.lost
    else if lost d then d.failReq m 3
    else if m.aop ≥ 10 then (d.granted m).farUpdate m t.err t.at_
    else ((d.granted m).count (768 + 16 * homeOf ln + 4) 1).farAtomic m t.err

/-- A write-back of this device's shadow home is on its way to the remote home, or not yet acknowledged: its code in WB. -/
def Dev.givingUp (d : Dev) (ln : Nat) : Nat :=
  match d.coh.rem.find? fun e => e.2.src == d.homeAg ln && e.2.addr.toNat == ln && (e.2.op == opWbM || e.2.op == opWbO || e.2.op == opEvictC) with
  | some e => if e.2.op == opWbM then 1 else if e.2.op == opWbO then 2 else 3
  | none => 0

/-- The answer of a shadow home to a snoop, joined from its local holders (R81), and its entry after it. `was` is the O duty
of a local holder before the snoop. -/
def Dev.shadowAnswer (d : Dev) (t : Txn) (m : Msg) : Dev :=
  let ln := t.ln
  let e := d.sfe ln
  let wb := d.givingUp ln
  let dirty := d.shadowOf ln == 3
  let rsp : Msg := { op := opRspI, src := d.homeAg ln, dst := m.src, tag := m.tag, addr := m.addr, data := if dirty then d.line ln else 0 }
  if wb != 0 then
    let a := { rsp with op := opRspIWb, wb := BitVec.ofNat 2 wb }
    (d.dupAnswer m a).send a
  else if m.op == opSnpI then
    let a := { rsp with op := if dirty then opRspD else opRspI }
    (((d.setSf ln SfE.empty).setShadow ln 0).dupAnswer m a).send a
  else
    let e' := if m.op == opSnpC && 33 ≤ e.own && e.own ≤ 64 then { e with own := 0, sori := e.sori ||| BitVec.twoPow 32 (e.own - 33) }
      else afterRead t e
    let stays := !d.noHolder ln e'
    let hasO := 33 ≤ e'.own && e'.own ≤ 64
    let new := if hasO then 2 else if stays then 1 else 0
    let op := if dirty then opRspD else if hasO then opRspO else if stays then opRspS else opRspI
    let a := { rsp with op := op, new := if dirty then BitVec.ofNat 2 new else 0 }
    (((d.keepSf ln e').setShadow ln (if stays then 1 else 0)).dupAnswer m a).send a

/-- A recall, a clean, a shadow snoop, the search for a departed host's line, a scrub or a resilver's copy finished (R65, R55,
R76, R81). -/
def Dev.finishOther (d : Dev) (t : Txn) : Dev :=
  match t.kind with
  | .recall =>
    let d := (d.settleLost t).2
    let duty := d.heldO t.ln
    let d := ((d.takeDuty t.ln).closeTxn t.ln).setSf t.ln SfE.empty
    if d.remote t.ln then d.giveUp t.ln duty else d
  | .clean =>
    let e := d.sfe t.ln
    let d := (d.closeTxn t.ln).keepSf t.ln { e with own := 0 }
    (d.setMsc t.ln { d.msc t.ln with dirty := true }).mscEvict t.ln
  | .shadow m => (d.closeTxn t.ln).shadowAnswer t m
  | .depart | .scrub | .resil _ =>
    let (u, d) := d.settleLost t
    let d := d.closeTxn t.ln
    if t.lost == 0 then d
    else
      let d := if u.lost == 0 then d.takeDuty t.ln else d
      let d := d.setSf t.ln SfE.empty
      if d.remote t.ln then d.giveUp t.ln false else d
  | .req _ => d

/-- A forwarded request finished with the remote home's response: the requester is recorded and answered (R80), and what the
device holds of the line is noted. -/
def Dev.finishShadow (d : Dev) (t : Txn) (m a : Msg) : Dev :=
  let ln := t.ln
  let self := d.holderOf m.src
  let d := d.closeTxn ln
  let keep := fun (d : Dev) => (d.putLine ln a.data).setMeta ln ⟨a.psn, 0, 0⟩
  if a.op == opDataS then
    let d := (keep d).setShadow ln 1
    (d.setSf ln (d.addShared ln { d.sfe ln with grps := (d.sfe ln).grps ||| d.remBits ln } self)).answer m
      { op := opDataS, data := a.data, psn := a.psn }
  else if a.op == opDataE then
    let d := (keep d).setShadow ln 2
    (d.setOwner ln self).answer m { op := opDataE, data := a.data, psn := a.psn }
  else if a.op == opDataU then d.answer m { op := opDataU, data := a.data, psn := a.psn }
  else if shadowKeeps m && (a.op == opDataM || a.op == opGntM) then d.shadowWrite m
  else if a.op == opDataM || a.op == opGntM then
    let d := (if a.op == opDataM then keep d else d).setShadow ln 2
    let d := d.setOwner ln self
    let data : Msg := { op := opDataM, data := d.line ln, psn := (d.lmeta ln).psn }
    let sm := match self with | .frond p => (d.l1 p ln).st == some .sm | _ => false
    if m.op == opAtom && t.ownNew == 7 then (d.answer m { op := opDataA, res := 1 }).answer m data
    else if a.op == opGntM && m.op == opUpg && sm then d.answer m { op := opGntM }
    else d.answer m data
  else if a.op == opDataA then d.answer m { op := opDataA, old := a.old, res := a.res }
  else if a.op == opCmpP then
    let wants := m.op == opRdX || m.op == opUpg || m.op == opAtom || shadowKeeps m
    if !wants || d.shadowOf ln == 0 then d.failReq m a.why.toNat
    else
      let duty := d.heldO ln
      let d := d.keepSf ln (match self with
        | .host h => (match d.hostGroup (homeOf ln) h with
          | some g => ⟨0, 0, (d.sfe ln).grps &&& (BitVec.twoPow 32 g ||| 0xFF000000)⟩
          | none => SfE.empty)
        | _ => SfE.empty)
      (if d.noHolder ln (d.sfe ln) then d.giveUp ln duty else d).failReq m a.why.toNat
  else d.answer m { op := a.op }

/-- A request forwarded to the remote home of its line. -/
def Dev.forward (d : Dev) (m : Msg) (op : BitVec 6) : Dev :=
  let ln := m.addr.toNat
  d.send { m with op := op, src := d.homeAg ln, dst := mkAg (lnDev ln) (0x200 + homeOf ln) }

/-- The other copy of a mirrored expander line that can be read: the one reads are not served from, of an INTACT pair, on a
live expander (R114). -/
def Dev.spareExp (d : Dev) (ln : Nat) : Option Nat :=
  match d.spareCopy ln with
  | some q => if d.expLive (winOf q) then some q else none
  | none => none

/-- Expander lines asked for, for a transaction: those that are not awaited, and that the memory-side cache does not hold. -/
def Dev.expAsk (d : Dev) (t : Txn) (ls : List Nat) : Dev :=
  let ls := ls.filter fun l => !(t.exps.contains l) && !(t.rd.any (·.1 == l))
  ls.foldl (fun d l => d.expRead l t.ln) (d.setTxn { t with exps := t.exps ++ ls })

/-- A copy's line and, of a mirrored one, its stamp line where the memory-side cache does not hold it (R113). -/
def Dev.copyLines (d : Dev) (c : Nat) : List Nat :=
  if (d.partnerOf c).isNone then [c]
  else let sl := (d.stampLn c).1; if d.inMsc sl then [c] else [c, sl]

/-- The read of an expander line that is not in the memory-side cache: of its primary copy, or of both copies where the
pair is verified (R104, R114). -/
def Dev.expFetch (d : Dev) (t : Txn) : Dev :=
  let c := d.readCopy t.ln
  match (if mirVerify (d.mirEntry (extOf t.ln)) then d.spareExp t.ln else none) with
  | some q => d.expAsk { t with both := true } (d.copyLines c ++ d.copyLines q)
  | none => d.expAsk t (d.copyLines c)

/-- A clean line of the memory-side cache that reads uncorrectable, and whose mirrored copies lie on its expanders, is read
again from them (R98). -/
def Dev.mscAgain (d : Dev) (t : Txn) : Bool :=
  match d.lnKind t.ln with
  | .exp _ => d.inMsc t.ln && !(d.msc t.ln).dirty && (d.msc t.ln).pin.isEmpty && (d.partnerOf t.ln).isSome &&
      d.expHas (d.readCopy t.ln) && (match rsRead false (d.line t.ln) 0 t.err with | .bad => true | _ => false)
  | _ => false

/-- An Atom that a remote home may perform far is logged before it is sent, so that its page's bit is set before the write is
visible (R48): the bit is set whether or not the line is then changed (DESIGN CHOICE, log entry 32). -/
def Dev.logAhead (d : Dev) (m : Msg) : Dev :=
  if m.op != opAtom || m.place == 1 then d
  else d.logFar m (if m.aop ≥ 10 then upSize m.aop.toNat else if m.sz then 8 else 4)

/-- The transaction taken as far as it goes: it waits for answers, for the remote home, or for an expander's data, and
is finished otherwise (R57, R80, R104). -/
def Dev.advance (d : Dev) (ln : Nat) : Dev :=
  match d.txn ln with
  | none => d
  | some t =>
    if !t.ready || !t.exps.isEmpty then d
    else match t.kind with
      | .req m =>
        match (if t.fwd then t.snp else none) with
        | some s => (d.setTxn { t with snp := none }).shadowAnswer t s
        | none =>
        if t.fwd then d
        else if t.give then
          let duty := d.heldO ln
          d.attempt fun d => (((d.logAhead m).setTxn { t with give := false, fwd := true }).setSf ln SfE.empty).giveUp ln duty |>.forward m m.op
        else if lnDev ln == d.devId && d.mscAgain t then
          ((d.countErr ln true).setMsc ln MscT.none).expFetch { t with err := 0 }
        else if lnDev ln == d.devId && !d.present ln then
          if d.atExp ln then d.expFetch t else d
        else match t.resp with
          | some a => d.finishShadow t m a
          | none => if m.op == opAtom && t.ownNew != 7 then d.attempt fun d => d.finishReq t m else d.finishReq t m
      | _ => if lnDev ln == d.devId && d.pairPaused ln then d else d.finishOther t

/-! ## Allocation and recalls (R65, R66) -/

/-- The entry of a line recalled: it moves to the recall buffer, its way is free, and SnpI goes to every holder. -/
def Dev.recall (d : Dev) (ln : Nat) : Dev :=
  let e := d.sfe ln
  let t := { Txn.new ln .recall 0 with
    sori := e.allSori
    hosts := ((e.allGroups.map fun g => d.groupHosts (homeOf ln) g).flatten).eraseDups
    peers := d.allPeers ln e }
  let d : Dev := { d with coh := { d.coh with sfWay := Tbl.put 0 d.coh.sfWay ln 0 } }
  ((d.openTxn t).sendSnoops t opSnpI (d.homeAg ln) 0).advance ln

/-- The request of an open transaction leaves a copy with its requester (R61). -/
def Txn.leavesCopy (t : Txn) : Bool :=
  match t.kind with
  | .req m => m.op == opRdS || m.op == opRdX || m.op == opUpg || (m.op == opAtom && t.ownNew == 7) || shadowKeeps m
  | _ => false

/-- A way for a line: true when its set has room beside the entries that open transactions are to enter, or a victim could be
recalled to make it: one without an owner first, then by the order of replacement (R65). -/
def Dev.sfRoom (d : Dev) (ln : Nat) : Bool × Dev :=
  let mates := d.sfMates ln
  let coming := d.coh.txns.filter fun t => t.leavesCopy && t.ln != ln && sfKey t.ln == sfKey ln && !mates.contains t.ln
  if mates.contains ln || mates.length + coming.length < 16 then (true, d)
  else if d.recalls (homeOf ln) ≥ 32 then (false, d)
  else
    let el := plruSort 4 (Tbl.get 0 d.coh.sfLru (sfKey ln)) d.sfWay (mates.filter fun j => (d.txn j).isNone)
    match ((el.filter fun j => (d.sfe j).own == 0) ++ el).head? with
    | some v => (true, d.recall v)
    | none => (false, d)

/-- The request needs a snoop-filter entry of its own: it leaves a copy with its requester (R61). -/
def Dev.allocates (d : Dev) (m : Msg) (far : Bool) : Bool :=
  (m.op == opRdS || m.op == opRdX || m.op == opUpg || (m.op == opAtom && !far) || shadowKeeps m) && d.holderOf m.src != .none

/-- An expander line needs a place in the memory-side cache before it can be served: it is not there, or it may grow
(R104, R106). -/
def Dev.needsMsc (d : Dev) (ln : Nat) : Bool :=
  match d.lnKind ln with
  | .exp _ => !d.inMsc ln || !d.mscFits ln (d.mscMates ln)
  | _ => false

/-- Where every way of a set of the memory-side cache has an O holder, the holder of the one that the order of replacement
names is asked to hand it back clean (R55). -/
def Dev.cleanOne (d : Dev) (ln : Nat) : Dev :=
  let ms := (d.mscMates ln).filter d.inMsc
  if !ms.all d.heldO then d
  else match (d.mscOrder ln (ms.filter fun j => (d.txn j).isNone)).head? with
    | some v =>
      let t := { Txn.new v .clean 0 with sori := [(d.sfe v).own - 33] }
      (d.openTxn t).sendSnoops t opSnpC (d.homeAg v) 0
    | none => d

/-- A Frond whose Upg is turned away holds the line no longer (R67): its record goes, and an O duty with it. -/
def Dev.dropFailed (d : Dev) (m : Msg) : Dev :=
  match d.holderOf m.src with
  | .frond p =>
    let ln := m.addr.toNat
    let s := p / 9
    let e := d.sfe ln
    let others := (d.sorusHolders s ln).filter (· != p)
    let duty := d.ownsDuty ln m.src
    let d := if duty then d.takeDuty ln else d
    let e := if duty || e.own == 1 + s then { e with own := 0 } else e
    d.keepSf ln (if others.isEmpty then { e with sori := e.sori &&& ~~~ BitVec.twoPow 32 s } else e)
  | _ => d

/-- A request goes back into the queue, before the later ones of its line, and waits: for a snoop-filter way from `since` on,
one more than the time, or for a place in the memory-side cache with 0. A wait for a way keeps its beginning. -/
def Dev.waitStart (d : Dev) (m : Msg) (since : Nat) : Dev :=
  let i := (d.coh.hq.findIdx? fun u => u.addr == m.addr).getD d.coh.hq.length
  let d : Dev := { d with coh := { d.coh with hq := d.coh.hq.take i ++ m :: d.coh.hq.drop i } }
  let old := (d.coh.waits.find? (·.1 == m)).map (·.2)
  if old.any (· != 0) || old == some since then d
  else { d with coh := { d.coh with waits := d.coh.waits.filter (·.1 != m) ++ [(m, since)] } }

/-- A wait ends, and that of R66 brings HOME[n].SFSTAT.WAITMAX up to date. -/
def Dev.waitEnd (d : Dev) (m : Msg) : Dev :=
  match d.coh.waits.find? (·.1 == m) with
  | some e =>
    let d : Dev := { d with coh := { d.coh with waits := d.coh.waits.erase e } }
    if e.2 == 0 then d
    else d.updF (HOME.SFSTAT.WAITMAX (homeOf m.addr.toNat)) fun x => max x (min (2 ^ 32 - 1) (d.now + 1 - e.2))
  | none => d

/-- A snoop-filter way for a request's line, where it needs one: it waits otherwise, counted as its wait begins, and nothing more
happens (R66, R386). -/
def Dev.withWay (d : Dev) (m : Msg) (needs : Bool) (k : Dev → Dev) : Dev :=
  let ln := m.addr.toNat
  let (room, d) := if needs then d.sfRoom ln else (true, d)
  if room then k d
  else
    let d := if d.coh.waits.any (fun e => e.1 == m && e.2 != 0) then d else d.count (768 + 16 * homeOf ln + 2) 1
    d.waitStart m (d.now + 1)

/-- The record of a request that the home turns away and that it judges (R335, R336): a notice for writes, posted updates and the
device's own accesses, PVIOL for reads and atomics; a debug request is recorded by its own device. -/
def Dev.homeRecord (d : Dev) (m : Msg) : Dev :=
  let a := m.addr.toNat * 64
  let v := d.check a (msgDom m) (msgKind m) m.slice.toNat
  let v := if v == .ok then d.regionVerdict a else v
  let own := !isFrond (agId m.src) && !isPort (agId m.src)
  if msgDom m == .dbg then d
  else if own || msgKind m == .wr || (msgKind m == .up && m.aop.toNat != upMETER) then
    d.notice v (agId m.src) m.slice.toNat (msgDom m != .drk && (own || msgKind m == .up))
  else d.pviol v a (msgDom m) (msgKind m) (agId m.src) m.slice.toNat

/-- A home opens the transaction of a request on a line it owns (R57): checks, predictor, allocation, snoops. An Atom's
place is chosen before it trains the predictor, and stays with a request that has to wait (R79). -/
def Dev.openReq (d : Dev) (m : Msg) (err : BitVec 560) : Dev :=
  let ln := m.addr.toNat
  if d.turnsAway m then
    let d := d.waitEnd m
    (if d.judged m then d.homeRecord m else if m.op == opUpg then d.dropFailed m else d).failReq m 1
  else
    let far := m.op == opAtom && d.goesFar m
    let m := if m.op == opAtom then { m with place := if far then 2 else 1 } else m
    let d := if (m.op == opRdX || m.op == opUpg || m.op == opAtom) && !(d.coh.waits.any (·.1 == m)) then d.train m else d
    d.withWay m (d.allocates m far) fun d =>
      let d := d.waitEnd m
      let (mroom, d) := if d.needsMsc ln then d.mscRoom 64 ln else (true, d)
      if !mroom then (d.cleanOne ln).waitStart m 0
      else
        let t := match d.snoopFor m far with
          | some op => d.mkTxn m err op (msgSparesSelf m)
          | none => Txn.new ln (.req m) err
        let t := { t with at_ := d.now }
        let t := if m.op == opAtom && !far then { t with ownNew := 7 } else if m.op == opUpg && d.ownsDuty ln m.src then { t with ownNew := 6 } else t
        let d := d.openTxn t
        let d := match d.snoopFor m far with
          | some op => d.sendSnoops t op (if (msgSparesSelf m) then m.src else d.homeAg ln) m.tag
          | none => d
        d.advance ln

/-! ## Shadow homes (R80, R81) -/

/-- The transaction of a request for a line of another device: served by the local holders where they can, forwarded to
the remote home otherwise. The shadow home keeps the line's current bytes while it has local holders. A request that leaves
no copy of what the holders have is forwarded once they have given the line up; PLACE = 0 is no placement (R78). -/
def Dev.openShadow (d : Dev) (m : Msg) : Dev :=
  let ln := m.addr.toNat
  let e := d.sfe ln
  let far := m.op == opAtom && d.goesFar m
  let near := m.op == opAtom && !far
  let wantsOwn := m.op == opRdX || m.op == opUpg || near || shadowKeeps m
  let owns := 2 ≤ d.shadowOf ln
  let mark := fun (t : Txn) => { t with at_ := d.now, ownNew := if near && m.place != 0 then 7 else t.ownNew }
  d.withWay m (d.allocates m far) fun d =>
    let d := d.waitEnd m
    if (m.op == opAtom && m.place == 0) then d.failReq m 1
    else if d.noHolder ln e then
      if m.op == opAtom then (d.openTxn (mark { Txn.new ln (.req m) 0 with give := true })).advance ln
      else (d.openTxn (mark { Txn.new ln (.req m) 0 with fwd := true })).forward m (if shadowKeeps m then opRdX else m.op)
    else if (m.op == opRdS || m.op == opRdU) then
      let t := if e.excl then d.mkTxn m 0 opSnpS false else Txn.new ln (.req m) 0
      ((d.openTxn (mark t)).sendSnoops t opSnpS (d.homeAg ln) m.tag).advance ln
    else
      let t := mark (d.mkTxn m 0 opSnpI (msgSparesSelf m))
      let t := { t with fwd := wantsOwn && !owns, give := !wantsOwn }
      let d := (d.openTxn t).sendSnoops t opSnpI (if msgSparesSelf m then m.src else d.homeAg ln) m.tag
      if wantsOwn && !owns then d.forward m opUpg else d.advance ln

/-! ## A request arrives -/

/-- An eviction of the requester's own copy is in flight (R74, R438): to the home, or on the link of a device that is
still recorded in E/M; and at a shadow home, this device's own write-back of the line to its home. -/
def Dev.ownEviction (d : Dev) (m : Msg) : Bool :=
  (d.coh.net.any fun x => x.src == m.src && x.addr == m.addr && (x.op == opWbM || x.op == opWbO || x.op == opEvictC)) ||
  (agDev m.src != d.devId && lnDev m.addr.toNat == d.devId && (d.sfe m.addr.toNat).own == 89 + agDev m.src) ||
  (lnDev m.addr.toNat != d.devId && d.givingUp m.addr.toNat != 0)

/-- A duplicate of a message that another device sent before (R158): the recorded answer is sent again. -/
def Dev.isDup (d : Dev) (m : Msg) : Option (Option Msg) :=
  if agDev m.src == d.devId then none
  else (d.coh.dup.find? fun e => e.1.src == m.src && e.1.tag == m.tag).map (·.2)

/-- The recorded answer to `m` sent again: the data of a data response is read again from home memory, and the DataM of an Atom
that is done near comes behind its DataA (R78, R158). -/
def Dev.resend (d : Dev) (m a : Msg) : Dev :=
  let data := a.op == opDataS || a.op == opDataE || a.op == opDataM || a.op == opDataU
  let d := if m.op == opAtom && a.op == opDataM then d.send { a with op := opDataA, res := 1, data := 0, psn := false } else d
  d.send (if data then { a with data := d.line (d.readCopy a.addr.toNat) } else a)

/-- A covered message of another device entered in the duplicate table, with the highest occupancy (R158, R160). -/
def Dev.noteDup (d : Dev) (m : Msg) : Dev :=
  if agDev m.src == d.devId then d
  else
    let d := { d with coh := { d.coh with dup := d.coh.dup ++ [(m, none)] } }
    d.updF PORT.GLINK.DUPMAX fun x => max x (min 65535 d.coh.dup.length)

/-- A request reaches its home or shadow home: it waits behind an open transaction, an older request of its line or its own
eviction, and opens its transaction otherwise (R57, R58, R74). -/
def Dev.request (d : Dev) (m : Msg) (err : BitVec 560) : Dev :=
  let ln := m.addr.toNat
  match (if m.op == opRdU then none else d.isDup m) with
  | some (some a) => (d.count (768 + 16 * homeOf ln + 10) 1).resend m a
  | some none => d.count (768 + 16 * homeOf ln + 10) 1
  | none =>
    let d := if m.op == opRdU then d else d.noteDup m
    if (d.txn ln).isSome || (d.coh.hq.any fun u => u.addr == m.addr) || (m.op != opUpg && d.ownEviction m) then d.queueReq m
    else if lnDev ln == d.devId then d.openReq m err
    else d.openShadow m

/-- The oldest waiting request of a line opens its transaction once none is open (R58, R66). -/
def Dev.dequeue (d : Dev) (ln : Nat) (err : BitVec 560) : Dev :=
  if (d.txn ln).isSome then d
  else match d.coh.hq.find? fun m => m.addr.toNat == ln with
    | none => d
    | some m =>
      if m.op != opUpg && d.ownEviction m then d
      else
        let d := { d with coh := { d.coh with hq := d.coh.hq.erase m } }
        if lnDev ln == d.devId then d.openReq m err else d.openShadow m

/-! ## Write-backs and evictions (R59, R61, R74) -/

/-- The entry without one Frond of a sorus: the sorus stays named while another of its Fronds holds the line. -/
def Dev.dropFrond (d : Dev) (e : SfE) (p ln : Nat) : SfE :=
  let s := p / 9
  let e := if e.own == 1 + s || (e.own == 33 + s && ((d.l1 p ln).st == some .oi || (d.l1 p ln).st == some .mi)) then { e with own := 0 } else e
  if (d.sorusHolders s ln).any (· != p) || e.own == 33 + s then e
  else { e with sori := e.sori &&& ~~~ BitVec.twoPow 32 s }

/-- The holder that sent a write-back or eviction notice is recorded no longer, or as its MetaValue says (R70). A group that
was recorded S keeps its record while another of its hosts has its link up: which of them holds the line is not known. The record
of a line in E/M is its owner's alone. -/
def Dev.unrecord (d : Dev) (m : Msg) : Dev :=
  let ln := m.addr.toNat
  let e := d.sfe ln
  match d.holderOf m.src with
  | .frond p => d.keepSf ln (d.dropFrond e p ln)
  | .host h =>
    match d.hostGroup (homeOf ln) h with
    | none => d
    | some g =>
      if m.new == 2 || (e.own == 65 + g && !d.hostOwns ln g h) then d
      else
        let mates := (d.groupHosts (homeOf ln) g).filter (· != h)
        let gone := e.own == 65 + g || mates.isEmpty
        let e := if e.own == 65 + g then { e with own := 0 } else e
        if m.new == 1 then d.keepSf ln { e with grps := e.grps ||| BitVec.twoPow 32 g }
        else if gone then d.keepSf ln { e with grps := e.grps &&& ~~~ BitVec.twoPow 32 g }
        else d.keepSf ln e
  | .peer v => d.keepSf ln { e with own := if e.own == 89 + v then 0 else e.own, grps := e.grps &&& ~~~ BitVec.twoPow 32 (24 + v) }
  | .none => d

/-- Modified data that comes home: into home memory, or, for another device's line, into the shadow home's keeping. -/
def Dev.homeData (d : Dev) (ln : Nat) (x : Line) : Dev :=
  if lnDev ln == d.devId then d.homeWrite ln x (BitVec.allOnes 64) else ((d.putLine ln x).setMeta ln LMeta.clean).setShadow ln 3

/-- A write-back, hand-over or clean notice accepted at the home (R58, R59): its data written, the holder dropped, WbAck
sent, and a transaction that waits for it carried on. A shadow home with no holder left, and no transaction, gives the line
up. -/
def Dev.writeBack (d : Dev) (m : Msg) : Dev :=
  let ln := m.addr.toNat
  match d.isDup m with
  | some (some a) => (d.count (768 + 16 * homeOf ln + 10) 1).resend m a
  | some none => d.count (768 + 16 * homeOf ln + 10) 1
  | none =>
    let d := d.noteDup m
    let duty := d.heldO ln
    let d := if m.op == opWbM then d.homeData ln m.data
      else if m.op == opWbO && d.inMsc ln then d.setMsc ln { d.msc ln with dirty := true } else d
    let d := d.unrecord m
    let d := d.answer m { op := opWbAck }
    match d.txn ln with
    | none => if d.remote ln && d.noHolder ln (d.sfe ln) then d.giveUp ln (duty || m.op == opWbO) else d
    | some t =>
      let t := if t.wbs.contains m.src.toNat then { t with wbs := t.wbs.erase m.src.toNat } else { t with wbIn := m.src.toNat :: t.wbIn }
      (d.setTxn t).advance ln

/-! ## Snoop answers (R63, R72, R74) -/

/-- One answer counted: a Frond's, a host's or a peer device's. -/
def Dev.countAnswer (d : Dev) (t : Txn) (m : Msg) : Txn :=
  match d.holderOf m.src with
  | .frond _ => { t with owed := t.owed - 1 }
  | .host h => { t with hosts := t.hosts.filter (· != h) }
  | .peer v => { t with peers := t.peers.filter (· != v) }
  | .none => t

/-- A snoop answer at the home of its line. -/
def Dev.snoopAnswer (d : Dev) (m : Msg) : Dev :=
  let ln := m.addr.toNat
  match d.txn ln with
  | none => d
  | some t =>
    if m.op == opSnpCnt then
      (d.setTxn { t with sori := t.sori.filter (· != agId m.src - 0x240), owed := t.owed + m.cnt.toNat }).advance ln
    else
      let t := d.countAnswer t m
      if m.op == opRspIWb then
        let t := if t.wbIn.contains m.src.toNat then { t with wbIn := t.wbIn.erase m.src.toNat } else { t with wbs := m.src.toNat :: t.wbs }
        (d.setTxn t).advance ln
      else
        let t := if t.ownNew == 7 then t
          else if m.op == opRspS then { t with ownNew := max t.ownNew 1 }
          else if m.op == opRspO then { t with ownNew := 2 }
          else if m.op == opRspD then { t with ownNew := m.new.toNat, got := true }
          else t
        let d := if m.op == opRspD then d.homeData ln m.data else d
        (d.setTxn { t with got := t.got || m.op == opRspD || (m.op == opRspI && m.new == 3) }).advance ln

/-- A snoop reaches a sorus's snoop unit: it is delivered to every Frond that holds the line, but for the one REQ names,
and one SnpCnt tells the home how many answers to expect (R63). -/
def Dev.snoopUnit (d : Dev) (m : Msg) : Dev :=
  let s := agId m.dst - 0x240
  let ps := (d.sorusHolders s m.addr.toNat).filter fun p => d.ag p != m.req
  let d := ps.foldl (fun d p => d.send { m with dst := d.ag p }) d
  d.send { op := opSnpCnt, src := m.dst, dst := m.src, tag := m.tag, addr := m.addr, cnt := BitVec.ofNat 4 ps.length }

/-- A snoop reaches a Frond's cache controller (R67, R59). -/
def Dev.snoopFrond (d : Dev) (m : Msg) : Dev :=
  let p := agId m.dst
  let (a, x) := frSnoop (d.l1 p m.addr.toNat) m.op
  ((d.setL1 p m.addr.toNat x).frEvent p 7 1).send { a with src := m.dst, dst := m.src, tag := m.tag, addr := m.addr }

/-- A remote home's snoop at the shadow home (R81). With no transaction of the line open it opens one of its own. Where the
local holders of an open one are still being asked, the snoop waits for their answers, which wait for nothing else; where
that transaction awaits the remote home, it goes on to the holders at once (R59). -/
def Dev.shadowSnoop (d : Dev) (m : Msg) : Dev :=
  let ln := m.addr.toNat
  let e := d.sfe ln
  let ask : Txn :=
    let r := d.mkTxn { m with op := opRdS } 0 (if m.op == opSnpS then opSnpS else opSnpI) false
    if m.op == opSnpC then
      { r with hosts := [], sori := if 33 ≤ e.own && e.own ≤ 64 then [e.own - 33] else if 1 ≤ e.own && e.own ≤ 32 then [e.own - 1] else [] }
    else r
  match d.txn ln with
  | none =>
    let t := { Txn.new ln (.shadow m) 0 with sori := ask.sori, hosts := ask.hosts }
    ((d.openTxn t).sendSnoops t m.op m.req m.tag).advance ln
  | some t =>
    if !t.fwd || !t.ready then { d with coh := { d.coh with net := d.coh.net ++ [m] } }
    else
      let t := { t with sori := ask.sori, hosts := ask.hosts, snp := some m }
      ((d.setTxn t).sendSnoops t m.op m.req m.tag).advance ln

/-! ## Departures (R76, R82) -/

/-- A write-back or clean notice of agent `x` for the line is in flight to its home. -/
def Dev.evictsNow (d : Dev) (ln : Nat) (x : BitVec 13) : Bool :=
  d.coh.net.any fun m => m.src == x && m.addr.toNat == ln && (m.op == opWbM || m.op == opEvictC)

/-- An E/M record of a departed host's group is resolved (R76): the group's hosts whose links are up are asked for the line, and
it is lost where none had it. A request that has asked them, or whose own host it is, finds that out itself. -/
def Dev.departOwner (d : Dev) (h ln : Nat) (rest : List Nat) : Dev :=
  match d.txn ln with
  | some t =>
    match t.kind with
    | .scrub | .resil _ =>
      let t := { t with lost := 4, hosts := rest }
      ((d.setTxn t).sendSnoops { t with sori := [], peers := [] } opSnpI (d.homeAg ln) 0).advance ln
    | .req m => if m.op != opWrU && d.holderOf m.src == .host h then d.setTxn { t with lost := 4 } else d
    | _ => d
  | none =>
    if rest.isEmpty then
      let d := (d.poisonLost ln 4).setSf ln SfE.empty
      if d.remote ln then d.giveUp ln false else d
    else
      let t := { Txn.new ln .depart 0 with hosts := rest, lost := 4 }
      (d.openTxn t).sendSnoops t opSnpI (d.homeAg ln) 0

/-- One entry after host `h` at port `p` has departed, under the group that it is recorded under (R64). A line recorded for it in
E/M waits for what the port sent before. -/
def Dev.departEntry (d : Dev) (p h ln : Nat) : Dev :=
  let n := homeOf ln
  match d.hostGroup n h with
  | none => d
  | some g =>
    let e := d.sfe ln
    if !e.grps.getLsbD g then d
    else
      let rest := (d.groupHosts n g).filter (· != h)
      if e.own == 65 + g then
        if d.evictsNow ln (d.ag (0x280 + p)) || (match d.txn ln with | some t => t.hosts.contains h | none => false) then d
        else d.departOwner h ln rest
      else if rest.isEmpty then d.keepSf ln { e with grps := e.grps &&& ~~~ BitVec.twoPow 32 g }
      else d

/-- A transaction that waited for host `h`: the snoop completes as RspI, as RspIWb where a write-back is on its way, or
with the write that had reached the port (R76). -/
def Dev.departTxn (d : Dev) (p h : Nat) (bi : List BiSnp) (ln : Nat) : Dev :=
  match d.txn ln with
  | none => d
  | some t =>
    let own := (d.sfe ln).own
    let em := 65 ≤ own && own ≤ 88 && bitN (d.f (HOME.HGMAP.HOSTS (homeOf ln) (own - 65))) h
    let wr := (bi.find? (·.ln == ln)).bind (·.wr)
    let wb := wr.isNone && d.evictsNow ln (d.ag (0x280 + p))
    let d := match wr with
      | some x => d.homeData ln x
      | none => d
    let t := { t with hosts := t.hosts.filter (· != h), got := t.got || wr.isSome }
    let t := if wb then { t with wbs := (d.ag (0x280 + p)).toNat :: t.wbs } else if em && wr.isNone then { t with lost := 4 } else t
    (d.setTxn t).advance ln

/-- Host `h` has departed: its outstanding back-invalidates complete, and every home drops or poisons its lines (R76). -/
def Dev.depart (d : Dev) (p h : Nat) : Dev :=
  let bi := d.coh.bisnp.filter (·.port == p)
  let d := { d with coh := { d.coh with
    bisnp := d.coh.bisnp.filter (·.port != p)
    net := d.coh.net.filter fun m => !(m.dst == d.ag (0x280 + p) && (m.op == opSnpS || m.op == opSnpI || m.op == opSnpC)) } }
  let d := (d.coh.sf.map (·.1)).foldl (fun d ln => d.departEntry p h ln) d
  ((d.coh.txns.filter fun t => t.hosts.contains h).map (·.ln)).foldl (fun d ln => d.departTxn p h bi ln) d

/-- Peer device `v` is treated as a departed holder, with reason PEER_LOST (R82). -/
def Dev.departPeer (d : Dev) (v : Nat) : Dev :=
  let d := (d.coh.sf.map (·.1)).foldl (fun d ln =>
    let e := d.sfe ln
    if lnDev ln != d.devId then d
    else if e.own == 89 + v then
      match d.txn ln with
      | some t => if t.peers.contains v then d else d.setTxn { t with lost := 5 }
      | none => (d.poisonLost ln 5).keepSf ln { e with own := 0, grps := e.grps &&& ~~~ BitVec.twoPow 32 (24 + v) }
    else if e.grps.getLsbD (24 + v) then d.keepSf ln { e with grps := e.grps &&& ~~~ BitVec.twoPow 32 (24 + v) }
    else d) d
  (d.coh.txns.filter fun t => t.peers.contains v).foldl (fun d t =>
    (d.setTxn { t with peers := t.peers.filter (· != v), lost := if (d.sfe t.ln).own == 89 + v then 5 else t.lost }).advance t.ln) d

end Sys2Proof.Machine
end

