-- ==== Sys2Proof/Machine/Work.lean ====
section
/-! DEFINITION. Slice translation (R32–R34), the dirty-page log (R47, R48), MSI-X raises (R380), the device's own
accesses to slice memory (R261, R330), completion queues and windows (R257–R276), and the start and end of work
(R164–R169, R180). -/

namespace Sys2Proof.Machine

/-! ## Translation -/

/-- What an access asks of a leaf (R32). -/
inductive Want where
  | r | w | a
  deriving DecidableEq, Repr

def tlbKey (unit n page : Nat) : Nat := (unit * 4096 + n) * 2 ^ 27 + page

/-- The translation unit of a port's group, and of a sorus (R33). -/
def portUnit (p : Nat) : Nat := p / 8
def sorusUnit (n : Nat) : Nat := 12 + n

/-- The entries a translation unit may hold (R33). -/
def tlbCap (unit : Nat) : Nat := if unit < 12 then 4096 else 1024

/-- A leaf is usable by slice `n`: valid, nothing reserved set, not fabric-reserved, and its local extent OWNED (R32). -/
def Dev.leafOk (d : Dev) (n : Nat) (e : Word) : Bool :=
  getBits e 0 1 == 1 && getBits e 3 18 == 0 && getBits e 52 12 == 0 &&
  (let ln := getBits e 21 31 * 2 ^ 15
   match d.lnKind ln with
   | .fab => false
   | .hbm | .exp _ => lnDev ln != d.devId || d.owned ln n
   | _ => true)

/-- A leaf permits the access (R32). -/
def leafGrants (e : Word) : Want → Bool
  | .r => true
  | .w => getBits e 1 1 == 1
  | .a => getBits e 1 1 == 1 && getBits e 2 1 == 1

/-- Eight bytes of a table, read coherently on behalf of `o`, which waits for the line's home where it must (R33); poison and a
failed read give an invalid entry. -/
def Dev.tableWord (d : Dev) (o : OwnFor) (a : Nat) : Word × Dev :=
  let (r, d) := d.cohRead (logOwn o) (a / 64)
  (if r.psn then 0 else w64 (leNat (lineSlice r.data (a % 64) 8)), d)

/-- The walk of R32: the leaf of a page of slice `n`. -/
def Dev.walk (d : Dev) (o : OwnFor) (n page : Nat) : Option Word × Dev :=
  if !d.fb (SLICE.XLAT_ROOT.V n) then (none, d)
  else
    let (e1, d) := d.tableWord o (d.f (SLICE.XLAT_ROOT.ROOT n) * 2 ^ 17 + page / 2 ^ 13 * 8)
    if getBits e1 0 1 == 0 || getBits e1 1 15 != 0 || getBits e1 52 12 != 0 then (none, d)
    else
      let (e2, d) := d.tableWord o (getBits e1 16 36 * 2 ^ 16 + page % 2 ^ 13 * 8)
      if d.leafOk n e2 then (some e2, d) else (none, d)

/-- The leaf of a page, from the unit's translation cache or by a walk that fills it (R33). -/
def Dev.leaf (d : Dev) (o : OwnFor) (unit n page : Nat) : Option Word × Dev :=
  let k := tlbKey unit n page
  let e := Tbl.get 0 d.bind.tlb k
  if e != 0 then (if d.leafOk n e then some e else none, d)
  else match d.walk o n page with
    | (none, d) => (none, d)
    | (some e, d) =>
      let mine := (d.bind.tlb.filter fun x => x.1 / 2 ^ 39 == unit).map (·.1)
      let (v, d) := if mine.length < tlbCap unit then (none, d) else d.pick mine
      let t := match v with | some j => Tbl.erase d.bind.tlb j | none => d.bind.tlb
      (some e, { d with bind := { d.bind with tlb := Tbl.put 0 t k e } })

/-- A slice address translated (R32): none is a translation fault. -/
def Dev.translate (d : Dev) (o : OwnFor) (unit n sa : Nat) (q : Want) : Option Nat × Dev :=
  if sa ≥ 2 ^ 48 then (none, d)
  else match d.leaf o unit n (sa / 2 ^ 21) with
    | (some e, d) => (if leafGrants e q then some (getBits e 21 31 * 2 ^ 21 + sa % 2 ^ 21) else none, d)
    | (none, d) => (none, d)

/-- The cached leaves that `p` picks dropped. -/
def Dev.dropTlb (d : Dev) (p : Nat → Word → Bool) : Dev :=
  { d with bind := { d.bind with tlb := d.bind.tlb.filter fun e => !p e.1 e.2 } }

/-! ## MSI-X (R380, R381) -/

def MsixE.reset : MsixE := ⟨0, 0, true⟩
def msixKey (p tbl i : Nat) : Nat := (p * 16 + tbl) * 16 + i

/-- The entry may send: unmasked, its function unmasked, and MSI-X enabled. -/
def Dev.msixOpen (d : Dev) (p tbl i : Nat) : Bool :=
  let c := Tbl.get 0 d.host.ctl (p * 16 + tbl)
  !(Tbl.get MsixE.reset d.host.msix (msixKey p tbl i)).mask && bitN c 0 && !bitN c 1

/-- The message of an entry sent, and counted for the slice it is for (R383, EVENTS). -/
def Dev.msixSend (d : Dev) (p tbl i : Nat) (slice : Option Nat) : Dev :=
  let e := Tbl.get MsixE.reset d.host.msix (msixKey p tbl i)
  let d := d.emit (.msix p tbl i e.addr.toNat e.data.toNat)
  match slice with
  | some n => d.countSlice n 15 1
  | none => d

/-- One entry of one port raised: sent, or left pending (R380). -/
def Dev.msixRaise (d : Dev) (p tbl i : Nat) (slice : Option Nat) : Dev :=
  if d.msixOpen p tbl i then d.msixSend p tbl i slice
  else
    let v := match slice with | some n => n + 2 | none => 1
    if Tbl.get 0 d.host.pend (msixKey p tbl i) != 0 then d
    else { d with host := { d.host with pend := Tbl.put 0 d.host.pend (msixKey p tbl i) v } }

/-- Pending messages of a table sent once their entries may send (R380). -/
def Dev.msixFlush (d : Dev) (p tbl : Nat) : Dev :=
  (List.range 16).foldl (fun d i =>
    let v := Tbl.get 0 d.host.pend (msixKey p tbl i)
    if v != 0 && d.msixOpen p tbl i then
      let d : Dev := { d with host := { d.host with pend := Tbl.put 0 d.host.pend (msixKey p tbl i) 0 } }
      d.msixSend p tbl i (if v ≥ 2 then some (v - 2) else none)
    else d) d

def frameKey (h f : Nat) : Nat := h * 512 + f

/-- The active frame of a host that carries a slice. -/
def Dev.frameOf (d : Dev) (h n : Nat) : Option Nat :=
  ((d.bind.frA.filter fun e => e.1 / 512 == h && e.2 == n + 1).map fun e => e.1 % 512).head?

/-- Vector `v` of slice `n` raised on every host it is open on (R380). -/
def Dev.raiseVec (d : Dev) (n v : Nat) : Dev :=
  (onesN 64 (d.f (SLICE.HOSTS.MASK n))).foldl (fun d h =>
    match d.portOfHost h with
    | none => d
    | some p =>
      if d.f (PORT.CFG.MODE p) == 2 then d.msixRaise p 0 v (some n)
      else match d.frameOf h n with
        | some k => d.msixRaise p k v (some n)
        | none => d) d

/-- The manager port (R126). -/
def Dev.mgrPort (d : Dev) : Nat := if d.pwr.strap.getLsbD 3 then 48 else 0

/-! ## Accesses on a slice's behalf (R261, R330, R331) -/

/-- A write of the device on a slice's behalf: translated, judged at its home in domain S, logged before it is made; false
where it fails, with the notice of R335. It counts where it is admitted (R331, R383): where the checker of this device lets it pass,
or that of another device's home did not refuse it. -/
def Dev.sliceWrite (d : Dev) (w : OwnFor) (unit n sa agent : Nat) (bs : List Byte) : Bool × Dev :=
  match d.translate w unit n sa .w with
  | (none, d) => (false, d)
  | (some fpa, d) =>
    let far := d.remote (fpa / 64)
    let v := d.check fpa .s .wr n
    if !far && v != .ok then (false, d.notice v agent n true)
    else
      let d := if far then d else d.countSlice n 7 1
      if !far && d.homeRefuses (fpa / 64) agent false n true then (false, d.notice (d.regionVerdict fpa) agent n true)
      else if !far && (d.lmeta (fpa / 64)).psn && bs.length < 64 then (false, d)
      else
        let (why, d) := Dev.cohPut 3 (d.dlog w n sa bs.length) ⟨w, agent, n, false⟩ fpa bs
        (why == 0, if far && why != 1 then d.countSlice n 7 1 else d)

/-- A read of the device on a slice's behalf: none where it faults or returns poison. -/
def Dev.sliceRead (d : Dev) (w : OwnFor) (unit n sa len agent : Nat) : Option (List Byte) × Dev :=
  match d.translate w unit n sa .r with
  | (none, d) => (none, d)
  | (some fpa, d) =>
    let far := d.remote (fpa / 64)
    let v := d.check fpa .s .rd n
    if !far && v != .ok then (none, d.pviol v fpa .s .rd agent n)
    else
      let ((bs, psn, why), d) := Dev.cohBytes 3 (if far then d else d.countSlice n 6 1) ⟨w, agent, n, false⟩ fpa len
      (if psn || why != 0 then none else some bs, if far && why != 1 then d.countSlice n 6 1 else d)

/-- The agent that requests for SQ and CQ entries carry: the fabric die's own (log entry 152). -/
def dispAgent : Nat := 0x300

/-! ## Completion queues (R257, R260, R269–R271) -/

/-- The number the manager queue goes by in the tables of the queues. -/
def mgrN : Nat := 4096

/-- k of a CQ's ring: 8 for the manager's (R277). -/
def Dev.cqLog (d : Dev) (n q : Nat) : Nat := if n == mgrN then 8 else d.f (SLICE.CQA.LOGSZ n q)
def Dev.sqLog (d : Dev) (n q : Nat) : Nat := if n == mgrN then 8 else d.f (SLICE.SQA.LOGSZ n q)
def Dev.cqEn (d : Dev) (n q : Nat) : Bool := n == mgrN && q == 0 || n != mgrN && d.fb (SLICE.CQA.EN n q)

/-- Entries between head and tail (R258). -/
def ringUsed (head tail : Nat) : Nat := (tail + 65536 - head) % 65536
def Dev.cqUsed (d : Dev) (n q : Nat) : Nat := ringUsed (d.f (SLICE.CQB.HEAD n q)) (d.f (SLICE.CQB.TAIL n q))
def Dev.cqHeld (d : Dev) (n q : Nat) : List (Bool × List Byte) := Tbl.get [] d.wq.held (n * 8 + q)

/-- The completions of a CQ that are not yet in its ring, and HELD: those of them that have spent their reservation on a hold
slot (R269, R271). -/
def Dev.setHeld (d : Dev) (n q : Nat) (l : List (Bool × List Byte)) : Dev :=
  { d with wq := { d.wq with held := Tbl.put [] d.wq.held (n * 8 + q) l } }.setF (SLICE.CQB.HELD n q) (List.countP (fun (e : Bool × List Byte) => !e.1) l)

/-- A vector of a CQ raised: a slice's, or the manager port's vector 0 (R278). -/
def Dev.cqVec (d : Dev) (n q : Nat) : Dev :=
  if n == mgrN then d.msixRaise d.mgrPort 0 0 none else d.raiseVec n (d.f (SLICE.CQA.VEC n q))

/-- A completion slot reserved, or CQ_FULL on the first failure (R269, R270). -/
def Dev.cqReserve (d : Dev) (n q : Nat) : Bool × Dev :=
  if d.cqUsed n q + d.f (SLICE.CQB.HELD n q) + d.f (SLICE.CQB.RSV n q) < 2 ^ d.cqLog n q + 16 then
    (true, (d.setF (SLICE.CQB.RSV n q) (d.f (SLICE.CQB.RSV n q) + 1)).setF (SLICE.CQB.FULL n q) 0)
  else if d.fb (SLICE.CQB.FULL n q) then (false, d)
  else
    let d := d.setF (SLICE.CQB.FULL n q) 1
    (false, if n != mgrN && d.fb (SLICE.CQA.FULLIE n q) then d.cqVec n q else d)

/-- A reservation returned unused (R269). -/
def Dev.cqReturn (d : Dev) (n q : Nat) : Dev := d.setF (SLICE.CQB.RSV n q) (d.f (SLICE.CQB.RSV n q) - 1)

/-- A completion written at the tail, and the message that ARM asked for once it is visible (R89, R265): false where the write
fails, none while its home has not answered. -/
def Dev.cqWrite (d : Dev) (unit n q : Nat) (e : List Byte) : Option Bool × Dev :=
  let tail := d.f (SLICE.CQB.TAIL n q)
  let pos := tail % 2 ^ d.cqLog n q
  let (ok, d) := if n == mgrN then
      (some true, { d with wq := { d.wq with mgr := Tbl.putRange 0 d.wq.mgr (0x2000 + pos * 32) e } })
    else d.tryOwn fun d => d.sliceWrite (.cq n q) unit n (d.f (SLICE.CQA.BASE n q) * 512 + pos * 32) dispAgent e
  if ok != some true then (ok, d)
  else
    let d := d.setF (SLICE.CQB.TAIL n q) (tail + 1)
    let d := if n == mgrN then d.cqVec n q else d.countSlice n 1 1
    (some true, if !d.fb (SLICE.CQB.ARMED n q) then d
      else let d := d.setF (SLICE.CQB.ARMED n q) 0; if n == mgrN then d else d.cqVec n q)

/-- A write failure noted: WERR, and one message (R271). -/
def Dev.cqFail (d : Dev) (n q : Nat) : Dev :=
  if d.fb (SLICE.CQB.WERR n q) then d else (d.setF (SLICE.CQB.WERR n q) 1).cqVec n q

/-- Completions moved into the ring, oldest first, while it has room. One that is written spends the reservation that it
kept, and no write fails any longer (R269, R271). -/
def Dev.cqFlush (unit n q : Nat) : Nat → Dev → Dev
  | 0, d => d
  | k + 1, d =>
    match d.cqHeld n q with
    | [] => d
    | e :: es =>
      if d.cqUsed n q ≥ 2 ^ d.cqLog n q then d
      else match d.cqWrite unit n q e.2 with
        | (some true, d) =>
          let d := (d.setHeld n q es).setF (SLICE.CQB.WERR n q) 0
          Dev.cqFlush unit n q k (if e.1 then d.cqReturn n q else d)
        | (some false, d) => d.cqFail n q
        | (none, d) => d

/-- Held completions of a CQ tried again (R269, R271), and those of a slice. -/
def Dev.cqRetry (d : Dev) (n q : Nat) : Dev := Dev.cqFlush 0 n q 100000 d
def Dev.cqRetryAll (d : Dev) (n : Nat) : Dev :=
  (List.range 8).foldl (fun d q => if (d.cqHeld n q).isEmpty then d else d.cqRetry n q) d

/-- A completion posted: where the ring is full it spends its reservation on a hold slot; otherwise it keeps it until it is
in the ring, at once or behind those before it (R269, R271). -/
def Dev.cqPost (d : Dev) (unit n q : Nat) (e : List Byte) : Dev :=
  let l := d.cqHeld n q
  let full := 2 ^ d.cqLog n q ≤ d.cqUsed n q + l.length && !d.fb (SLICE.CQB.WERR n q)
  let d := (if full then d.cqReturn n q else d).setHeld n q (l ++ [(!full, e)])
  if l.isEmpty then Dev.cqFlush unit n q 1 d else d

/-- A CQ entry (R260). -/
def cqEntry (status sq idx detail tag : Nat) (result : List Byte) : List Byte :=
  [1, BitVec.ofNat 8 status] ++ leBytes 2 sq ++ leBytes 2 idx ++ [BitVec.ofNat 8 detail, 0] ++ leBytes 4 tag ++
    (List.range 20).map fun i => result.getD i 0

/-- OWN written clear in the entry that work was started with, and the head moved past it once that is made (R257, R261,
R266). -/
def Dev.sqDisown (d : Dev) (n q : Nat) : Dev :=
  match Tbl.get 0 d.wq.sqOwn (n * 8 + q) with
  | 0 => d
  | v + 1 =>
    let head := d.f (SLICE.SQB.HEAD n q)
    let pos := head % 2 ^ d.sqLog n q * 64
    let b : Byte := BitVec.ofNat 8 v &&& 0xFE
    let unit := 12 + (Tbl.get 0 d.wq.sqRot (n * 8 + q) + 31) % 32
    match (if n == mgrN then (some true, { d with wq := { d.wq with mgr := Tbl.put 0 d.wq.mgr (0x4000 + pos) b } })
      else d.tryOwn fun d => d.sliceWrite (.sq n q) unit n (d.f (SLICE.SQA.BASE n q) * 1024 + pos) dispAgent [b]) with
    | (some _, d) =>
      ({ d with wq := { d.wq with sqOwn := Tbl.put 0 d.wq.sqOwn (n * 8 + q) 0 } } : Dev).setF (SLICE.SQB.HEAD n q) ((head + 1) % 65536)
    | (none, d) => d

/-! ## Windows (R272–R276) -/

def Win.idle : Win := ⟨0, 0, 0, false, false, 0, 0, 0, 0, Option.none, 0⟩
def Dev.win (d : Dev) (n w : Nat) : Win := Tbl.get Win.idle d.wq.win (n * 64 + w)
def Dev.setWin (d : Dev) (n w : Nat) (x : Win) : Dev := { d with wq := { d.wq with win := Tbl.put Win.idle d.wq.win (n * 64 + w) x } }

/-- A device record (R274). -/
def winRecord (status : Nat) (rest : List Byte) : Line :=
  BitVec.ofNat 512 (leNat (leBytes 8 (0xFFFFFFFFFFFFFF00 + status) ++ (List.range 56).map fun i => rest.getD i 0))

/-- Bytes 8–23 of a FAULT record (R274). -/
def faultRest (pc cause spore addr : Nat) : List Byte :=
  leBytes 4 pc ++ [BitVec.ofNat 8 cause, 0] ++ leBytes 2 spore ++ leBytes 8 addr

/-- The bytes of a result slot that a held read asked for. -/
def Dev.answerRead (d : Dev) (r : HeldRd) (x : Line) : Dev := d.emit (.bar0 r.port r.off (lineSlice x (r.off % 64) r.len))

/-- A field of a window's register as its command runs under it: a change while the window is BUSY applies from the next
command (R276). -/
def Dev.winF (d : Dev) (n w : Nat) (r : FRef) : Nat :=
  let x := d.win n w
  if x.state == 1 then getBits x.cfg r.lo r.w else d.f r

/-- The reads that the ports hold, the first 64 of each, and those that wait in the ports' receive buffers (R275). -/
def holdSplit (l : List HeldRd) : List HeldRd × List HeldRd :=
  l.foldl (fun a r => if a.1.countP (·.port == r.port) < 64 then (a.1 ++ [r], a.2) else (a.1, a.2 ++ [r])) ([], [])

/-- The read stays held: its window is BUSY, and lets reads wait. -/
def Dev.readHolds (d : Dev) (r : HeldRd) : Bool :=
  (d.win r.slice r.w).state == 1 && d.winF r.slice r.w (SLICE.WIN.EN r.slice r.w) == 1 && d.winF r.slice r.w (SLICE.WIN.HOLD r.slice r.w) != 0

/-- A read of a result slot answered as its window stands: all bits set where it is not enabled, the slot where it is not BUSY, the
NOT_READY record otherwise (R272, R275). -/
def Dev.slotAnswer (d : Dev) (r : HeldRd) : Dev :=
  let x := d.win r.slice r.w
  if d.winF r.slice r.w (SLICE.WIN.EN r.slice r.w) != 1 then d.emit (.bar0 r.port r.off (List.replicate r.len 0xFF))
  else if x.state != 1 then d.answerRead r x.slot
  else ((d.setWin r.slice r.w { x with nr := true }).countSlice r.slice 3 1).answerRead r (winRecord 0x87 [])

/-- Places of held reads have come free: reads from the receive buffers take them, and are answered where nothing holds them. -/
def Dev.readsGo : Nat → Dev → Dev
  | 0, d => d
  | k + 1, d =>
    match (holdSplit d.wq.reads).1.find? fun r => !d.readHolds r with
    | none => d
    | some r => Dev.readsGo k (({ d with wq := { d.wq with reads := d.wq.reads.erase r } } : Dev).slotAnswer r)

/-- A window's work completed: the slot and the status word in one step, and every held read released (R274, R275). -/
def Dev.winDone (d : Dev) (n w status detail : Nat) (x : Line) : Dev :=
  let d := d.setWin n w { d.win n w with status := status, detail := detail, state := 2, slot := x }
  Dev.readsGo d.wq.reads.length d

/-! ## Strands and work -/

def Work.none : Work := ⟨0, 0, 0, 0, 0, 0, 0, false, .none, [], 0, false⟩
def Strand.idle : Strand := ⟨false, [], 0, 0, 0, false, Work.none, .none, 0, false, false, 0⟩
def Dev.str (d : Dev) (t : Nat) : Strand := Tbl.get Strand.idle d.sor.strand t
def Dev.setStr (d : Dev) (t : Nat) (x : Strand) : Dev := { d with sor := { d.sor with strand := Tbl.put Strand.idle d.sor.strand t x } }
def Dev.updStr (d : Dev) (t : Nat) (g : Strand → Strand) : Dev := d.setStr t (g (d.str t))

/-- The parts of a strand's number. -/
def sorusOf (t : Nat) : Nat := t / 32
def lfOf (t : Nat) : Nat := t / 4 % 8

/-- The physical Frond, 0–287, that carries a strand (R161, LFMAP). -/
def Dev.physOf (d : Dev) (t : Nat) : Nat := sorusOf t * 9 + d.f (SORUS.LFMAP.PHYS (sorusOf t) (lfOf t))

/-- A general register: g0 reads as zero (R162). -/
def Strand.g (x : Strand) (r : Nat) : Word := if r == 0 then 0 else Tbl.get 0 x.regs r

/-- A write to a general register; g0 ignores it (R192). -/
def Strand.setG (x : Strand) (r : Nat) (v : Word) : Strand := if r == 0 then x else { x with regs := Tbl.put 0 x.regs r v }

/-- The slice whose work the strand runs, for the counters of R383: KIND SQ, WINDOW or CHANNEL. -/
def Strand.sliceWork (x : Strand) : Option Nat := if x.live && x.work.kind ≤ 2 then some x.work.slice else none

/-- The strands of a sorus that run, with their numbers. -/
def Dev.running (d : Dev) (s : Nat) : List (Nat × Strand) := d.sor.strand.filter fun e => e.1 / 32 == s && e.2.live

/-- The strands that run work of slice `n` (R42). -/
def Dev.sliceStrands (d : Dev) (n : Nat) : List Nat := (d.sor.strand.filter fun e => e.2.sliceWork == some n).map (·.1)

/-- The strands of a sorus that run a spore. -/
def Dev.sporeRun (d : Dev) (s i : Nat) : Nat := ((d.running s).filter fun e => e.2.work.spore == i).length

/-- The entry point `k` of a loaded spore. -/
def Dev.entryOf (d : Dev) (s i k : Nat) : Option Nat :=
  match (Tbl.get (⟨[], []⟩ : Spore) d.sor.spore (s * 1024 + i)).entry[k]? with
  | some e => if e == 0xFFFFFFFF then none else some e
  | none => none

/-- The spore may run as the work asks (R166): loaded, the entry present, S privilege and the slice in range for slice
work; for other work an F image. -/
def Dev.sporeOk (d : Dev) (s i k n : Nat) (f : Bool) : Bool :=
  d.fb (SORUS.SPTABA.V s i) && (d.entryOf s i k).isSome &&
  (if f then d.fb (SORUS.SPTABA.PRIV s i)
   else !d.fb (SORUS.SPTABA.PRIV s i) && d.f (SORUS.SPTABA.SLO s i) ≤ n && n ≤ d.f (SORUS.SPTABA.SHI s i))

/-- MAXSTR strands run the spore already (R166). -/
def Dev.sporeFull (d : Dev) (s i : Nat) : Bool :=
  d.f (SORUS.SPTABA.MAXSTR s i) != 0 && d.sporeRun s i ≥ d.f (SORUS.SPTABA.MAXSTR s i)

/-- The strand can take work: free, its logical Frond not DOWN, not halted, not being moved (R164, R184, R256). -/
def Dev.freeStrand (d : Dev) (t : Nat) : Bool :=
  !(d.str t).live && !(d.str t).held && !bitN (d.f (SORUS.STAT.DOWN (sorusOf t))) (lfOf t) &&
  Tbl.get 0 d.sor.swap (sorusOf t) != 1 + lfOf t && Tbl.get 0 d.sor.halt (sorusOf t) == 0 &&
  Tbl.get 0 d.sor.fencing (d.physOf t) == 0

/-- The free strands of a sorus for slice work: strands 0–3 of sorus 0 take manager work only (R165). -/
def Dev.freeStrands (d : Dev) (s : Nat) : List Nat :=
  ((List.range 32).map (s * 32 + ·)).filter fun t => d.freeStrand t && !(s == 0 && lfOf t == 0)

/-- DINFO (R167). -/
def dinfo (k : Work) : Word :=
  w64 (k.kind + k.src % 65536 * 16 + k.slice % 4096 * 2 ^ 20 + k.spore % 1024 * 2 ^ 32 + k.entry % 8 * 2 ^ 42)

/-- Work started on a strand (R167). -/
def Dev.startWork (d : Dev) (t : Nat) (k : Work) (priv : Bool) : Dev :=
  let k := { k with time := d.now }
  let x := { Strand.idle with
    live := true, pc := (d.entryOf (sorusOf t) k.spore k.entry).getD 0, priv := priv
    slice := if k.kind ≥ 3 then 0 else k.slice, work := k }
  let x := (x.setG 1 (dinfo k)).setG 2 (if k.kind == 0 || k.kind == 3 then w64 k.idx else 0)
  let x := x.setG 3 (w64 k.time)
  let x := (List.range 8).foldl (fun (x : Strand) i => x.setG (8 + i) (k.body.getD i 0)) x
  (d.setStr t x).frEvent (d.physOf t) 19 1

/-- The strand frees: what it leaves in the store buffer stays to be published. -/
def Dev.freeStr (d : Dev) (t : Nat) : Dev := d.setStr t Strand.idle

/-- The completion of a piece of work that the device writes (R182, R260, R274). -/
def Dev.complete (d : Dev) (unit : Nat) (k : Work) (status detail : Nat) (cqRes winRest : List Byte) : Dev :=
  match k.slot with
  | .none => d
  | .cq n q => d.cqPost unit n q (cqEntry status k.src k.idx detail k.cookie cqRes)
  | .mgr => d.cqPost unit mgrN 0 (cqEntry status 0 k.idx detail k.cookie cqRes)
  | .win n w => d.winDone n w status detail (winRecord status winRest)

/-- A strand's stores or posted updates that retired before `seq` are still under way. -/
def Dev.storesOut (d : Dev) (t seq : Nat) : Bool :=
  (d.sor.sb.any fun e => e.t == t && e.seq < seq) || d.sor.posts.any fun e => e.t == t && e.seq < seq

/-- The strand's work ends with a device status, its reservation spent or returned (R168, R217). The record is written with
release: it waits for the strand's stores (R89, R261). -/
def Dev.endWork (d : Dev) (t status detail : Nat) (cqRes winRest : List Byte) : Dev :=
  let x := d.str t
  let u := sorusUnit (sorusOf t)
  let d := if x.posted || x.work.slot == .none then d
    else if d.storesOut t d.sor.seq then
      { d with sor := { d.sor with ends := d.sor.ends ++ [⟨t, d.sor.seq, u, x.work, status, detail, cqRes, winRest⟩] } }
    else d.complete u x.work status detail cqRes winRest
  d.freeStr t

/-- The records of ended work whose strand's stores are done are written, in their order. -/
def Dev.endsGo (d : Dev) : Dev :=
  let go := d.sor.ends.filter fun e => !d.storesOut e.t e.seq
  let d : Dev := { d with sor := { d.sor with ends := d.sor.ends.filter fun e => d.storesOut e.t e.seq } }
  go.foldl (fun d e => d.complete e.unit e.work e.status e.detail e.cqRes e.winRest) d

/-- The fabric manager's strand started again at entry point 1 (R169): at most once within 1 s of a restart, and not in
safelight. True where it was. -/
def Dev.restartFm (d : Dev) (t : Nat) : Bool × Dev :=
  let again := match d.sor.restart with
    | some r => d.now - r ≥ 1000000000
    | none => true
  if again && (d.entryOf 0 0 1).isSome && !d.safe then
    let d := d.startWork t { Work.none with kind := 4, spore := 0, entry := 1 } true
    (true, { d with sor := { d.sor with restart := some d.now } })
  else (false, d)

/-- A strand fault (R180): recorded, raised, completed with status FAULT; the faulting instruction has no effect. -/
def Dev.strandFault (d : Dev) (t cause addr : Nat) : Dev :=
  let x := d.str t
  let s := sorusOf t
  let i := t % 32
  let d := if d.fb (SORUS.FRECA.V s i) then d.incF (SORUS.FRECA.OVF s i)
    else (d.setReg (SORUS.FRECA.V s i)
        (w64 (1 + cause * 2 ^ 8 + x.slice % 4096 * 2 ^ 16 + b2n x.priv * 2 ^ 28 + x.pc % 2 ^ 32 * 2 ^ 32))).setReg
      (SORUS.FRECB.ADDR s i) (w64 (addr % 2 ^ 52 + x.work.spore % 1024 * 2 ^ 52))
  let det := cause + i * 2 ^ 8
  let d := d.raise (384 + 6 * s) det
  let d := match x.sliceWork with | some n => d.countSlice n 13 1 | none => d
  let d := d.frEvent (d.physOf t) 18 1
  let rest := faultRest x.pc cause x.work.spore addr
  let d := d.endWork t 0x80 cause (leBytes 4 x.pc ++ leBytes 8 (addr % 2 ^ 52) ++ leBytes 2 x.work.spore) rest
  if x.work.kind ≥ 4 then (d.restartFm t).2 else d

/-- An instruction of a strand retires: the pc moves on and the counters of R383 and R385 advance. -/
def Dev.retire (d : Dev) (t pc : Nat) : Dev :=
  let x := d.str t
  let d := d.setStr t { x with pc := pc, wait := .none }
  let d := d.frEvent (d.physOf t) 2 1
  match x.sliceWork with
  | some n => d.countSlice n 5 1
  | none => d

/-- Retirement past the instruction at the strand's pc. -/
def Dev.next (d : Dev) (t : Nat) : Dev := d.retire t ((d.str t).pc + 4)

/-- A result written to a register, and the instruction retired. -/
def Dev.give (d : Dev) (t rd : Nat) (v : Word) : Dev := (d.updStr t fun x => x.setG rd v).next t

end Sys2Proof.Machine
end

