-- ==== Sys2Proof/Machine/Frond.lean ====
section
/-! DEFINITION. A Frond at work: instruction issue and its first checks (R189–R195, R207), effective addresses (R201),
the L1D, the store buffer and the accesses that wait on them (R67, R85–R88, R202–R204, R210, R438). -/

namespace Sys2Proof.Machine

/-! ## Fault causes (R180) -/

def cILLEGAL : Nat := 0x01
def cPRIV : Nat := 0x02
def cXLAT : Nat := 0x03
def cPROT : Nat := 0x04
def cPOISON : Nat := 0x05
def cALIGN : Nat := 0x06
def cCSPUNMAPPED : Nat := 0x07
def cCSPALIGN : Nat := 0x08
def cCHAN : Nat := 0x0C
def cDIVZERO : Nat := 0x0D
def cFETCH : Nat := 0x0E

/-- The fault cause of a CmpP's WHY (R67, R180). -/
def whyCause (why : Nat) : Nat :=
  match why with
  | 1 => cPROT | 2 => cXLAT | 3 => cPOISON | 4 => 0x09 | 5 => 0x0A | _ => 0x0B

/-! ## Issue -/

/-- The strand can issue an instruction: it runs, waits for nothing, is not held, and no safelight is in force. -/
def Dev.canIssue (d : Dev) (t : Nat) : Bool :=
  let x := d.str t
  d.fdUp && x.live && x.wait == .none && !x.held && !d.safe

/-- Where the strand's pc fetches from: an FPA where its spore's code stays in HBM (LOC), an offset in the sorus store
otherwise. -/
def Dev.codeLoc (d : Dev) (t : Nat) : Bool := d.fb (SORUS.SPTABA.LOC (sorusOf t) (d.str t).work.spore)
def Dev.codeAt (d : Dev) (t : Nat) : Nat := d.f (SORUS.SPTABB.BASE (sorusOf t) (d.str t).work.spore) + (d.str t).pc

/-- A line of code in the L1I of a physical Frond (R161). -/
def l1iKey (p : Nat) (loc : Bool) (ln : Nat) : Nat := p * 2 ^ 47 + b2n loc * 2 ^ 46 + ln
def Dev.l1iLine (d : Dev) (t : Nat) : Option Line :=
  Tbl.get none d.sor.l1i (l1iKey (d.physOf t) (d.codeLoc t) (d.codeAt t / 64))

/-- The line of code as its memory holds it, none where it reads uncorrectable (R180). -/
def Dev.codeLine (d : Dev) (t : Nat) : Option Line :=
  let ln := d.codeAt t / 64
  let s := sorusOf t
  if d.codeLoc t then (if (d.lmeta ln).psn || d.pcFailed ln then none else some (d.freshLine ln))
  else if d.sor.bad.contains (s * 2 ^ 14 + ln) then none
  else some (BitVec.ofNat 512 (leNat (Tbl.range 0 d.sor.store (s * 2 ^ 20 + ln * 64) 64)))

/-- The fetch at the strand's pc is outside the code, or reads an uncorrectable line (R207). -/
def Dev.fetchBad (d : Dev) (t : Nat) : Bool :=
  let x := d.str t
  x.pc % 4 != 0 || d.f (SORUS.SPTABA.CLEN (sorusOf t) x.work.spore) ≤ x.pc ||
    ((d.l1iLine t).isNone && (d.codeLine t).isNone)

/-- The fetch of code that stays in HBM is judged in domain F, where the L1I does not hold it (R330, R335). -/
def Dev.fetchVerdict (d : Dev) (t : Nat) : Verdict :=
  if d.codeLoc t && (d.l1iLine t).isNone then d.check (d.codeAt t) .f .fe 0 else .ok

/-- The line that is fetched comes into the L1I, a miss of it (R385); where its 32 KiB are full another line of a free choice
leaves. -/
def Dev.fetchFill (d : Dev) (t : Nat) : Dev :=
  match d.l1iLine t, d.codeLine t with
  | none, some x =>
    let p := d.physOf t
    let d := d.frEvent p 8 1
    let mine := (d.sor.l1i.filter fun e => e.1 / 2 ^ 47 == p).map (·.1)
    let (v, d) := if mine.length < 512 then (none, d) else d.pick mine
    let l := match v with | some j => Tbl.put none d.sor.l1i j none | none => d.sor.l1i
    { d with sor := { d.sor with l1i := Tbl.put none l (l1iKey p (d.codeLoc t) (d.codeAt t / 64)) (some x) } }
  | _, _ => d

/-- The word at the strand's pc, little-endian (R189). -/
def Dev.fetchWord (d : Dev) (t : Nat) : BitVec 32 :=
  BitVec.ofNat 32 (leNat (lineSlice ((d.l1iLine t).getD 0) (d.codeAt t % 64) 4))

/-- One instruction issued: FETCH, then for a privileged opcode PRIV whatever its fields hold, then ILLEGAL, for a word that is
no instruction and for an instruction's own fields, then the instruction's own effect (R190, R191, R195). -/
def Dev.issue (d : Dev) (t : Nat) (privileged illegal : Bool) (k : Dev → Dev) : Dev :=
  if !d.canIssue t then d
  else if d.fetchBad t then d.strandFault t cFETCH 0
  else if d.fetchVerdict t != .ok then (d.pviol (d.fetchVerdict t) (d.codeAt t) .f .fe (d.physOf t) 0).strandFault t cPROT 0
  else
    let d := d.fetchFill t
    if (privileged || frondPriv (d.fetchWord t) && (frondRead (d.fetchWord t)).isNone) && !(d.str t).priv then d.strandFault t cPRIV 0
    else if illegal || (frondRead (d.fetchWord t)).isNone then d.strandFault t cILLEGAL 0
    else k d

/-! ## The L1D -/

/-- The lines of a Frond's set that occupy a way: those whose eviction is in flight have left it (R67). -/
def Dev.l1Mates (d : Dev) (p ln : Nat) : List Nat :=
  ((d.coh.l1.filter fun e => e.1 / 2 ^ 46 == p && e.1 % 128 == ln % 128 &&
    (match e.2.st with | some st => !st.leaving | none => false)).map fun e => e.1 % 2 ^ 46)

/-- A line evicted: WbM from M, WbO from O, EvictC from E or S (R67). -/
def Dev.l1Evict (d : Dev) (p ln : Nat) : Dev :=
  let x := d.l1 p ln
  let out := fun (op : BitVec 6) (st : L1St) =>
    ((d.setL1 p ln { x with st := some st }).frEvent p 6 1).send
      { op := op, src := d.ag p, dst := d.homeAg ln, addr := BitVec.ofNat 46 ln, data := x.data }
  match x.st with
  | some .m => out opWbM .mi
  | some .o => out opWbO .oi
  | some .e => out opEvictC .ei
  | some .s => out opEvictC .ei
  | _ => d

/-- A way for a line in its set, made by evicting a line of a free choice where all eight are taken. -/
def Dev.l1Room (d : Dev) (p ln : Nat) : Bool × Dev :=
  let ms := d.l1Mates p ln
  if ms.length < 8 then (true, d)
  else
    match d.pick (ms.filter fun j => match (d.l1 p j).st with
      | some .m | some .o | some .e | some .s => true
      | _ => false) with
    | (some v, d) => (true, d.l1Evict p v)
    | (none, d) => (false, d)

/-- An admitted request of a Frond counted for its slice: 6 for reads and atomics, 7 for writes (R383). -/
def Dev.countReq (d : Dev) (n : Nat) (priv : Bool) (i : Nat) : Dev := if priv then d else d.countSlice n i 1

/-- The tags of a Frond's requests: a strand's number for its Atom, 1024 and up for an RdU, 2048 and up for a posted update,
and this one for the request of a line. -/
def lineTag : BitVec 12 := 4095

/-- A Frond's request for a line (R72), counted for its slice in counter `i`. -/
def Dev.frReqC (d : Dev) (p : Nat) (op : BitVec 6) (ln n : Nat) (priv : Bool) (i : Nat) : Dev :=
  let d := d.countReq n priv i
  d.send { op := op, src := d.ag p, dst := d.homeAg ln, addr := BitVec.ofNat 46 ln, slice := BitVec.ofNat 12 n, priv := priv, tag := lineTag }

def Dev.frReq (d : Dev) (p : Nat) (op : BitVec 6) (ln n : Nat) (priv : Bool) : Dev :=
  d.frReqC p op ln n priv (if op == opRdS then 6 else 7)

/-- A Frond's RdU has not been taken up by its home yet: what it will read is not older than anything read so far. -/
def Dev.rduUnserved (d : Dev) (p tag : Nat) : Bool :=
  (d.coh.net ++ d.coh.hq).any fun m => m.op == opRdU && m.src == d.ag p && m.tag.toNat == tag

/-- A Frond's RdU and its tag: one that its home has not taken up yet is shared, unless a copy of the line has come to the Frond
since it was sent, so that a read is never served with data older than what led to it (R85, R87, R221). -/
def Dev.frRdu (d : Dev) (p ln n : Nat) (priv : Bool) : Nat × Dev :=
  match d.sor.rdu.find? fun e => e.p == p && e.ln == ln && e.shared && d.rduUnserved p e.tag with
  | some e => (e.tag, d)
  | none =>
    let tag := 1024 + ((List.range 1024).find? fun k => !(d.sor.rdu.any fun e => e.p == p && e.tag == 1024 + k)).getD 0
    let d : Dev := { d.countReq n priv 6 with sor := { (d.countReq n priv 6).sor with rdu := d.sor.rdu ++ [⟨p, ln, tag, true⟩] } }
    (tag, d.send {
      op := opRdU, src := d.ag p, dst := d.homeAg ln, addr := BitVec.ofNat 46 ln, slice := BitVec.ofNat 12 n, priv := priv
      tag := BitVec.ofNat 12 tag })

/-- The domain of a strand's accesses (R330). -/
def strDom (priv : Bool) : Dom := if priv then .f else .s

/-! ## The store buffer (R203) -/

/-- A retired store dropped with the imprecise notice (R203, R336). -/
def Dev.dropStore (d : Dev) (e : SbE) (v : Verdict) : Dev :=
  ((d.frEvent e.p 17 1).notice v e.p e.slice false)

/-- The first store of an epoch to the line logs its page; the bit is set before the store is made (R48). -/
def Dev.logsStore (d : Dev) (p ln n : Nat) (priv : Bool) : Bool :=
  !priv && d.fb (SLICE.DLOG_BASE.EN n) && (d.l1 p ln).log != d.f (SLICE.DLOG_CTL.EPOCH n) + 1

/-- A store made in the L1D: the line is in M, its bytes changed; at slice privilege the page is logged before the first
store of an epoch, on behalf of `w` (R48, R67). -/
def Dev.storeL1 (d : Dev) (w : OwnFor) (p ln off : Nat) (bs : List Byte) (n : Nat) (priv : Bool) (sa : Nat) : Dev :=
  let ep := d.f (SLICE.DLOG_CTL.EPOCH n) + 1
  let logs := !priv && d.fb (SLICE.DLOG_BASE.EN n)
  let d := if d.logsStore p ln n priv then d.dlog w n sa bs.length else d
  let x := d.l1 p ln
  d.setL1 p ln { x with
    st := some .m, data := linePatch x.data off bs, psn := x.psn && bs.length != 64, log := if logs then ep else x.log }

/-- No earlier store of the same strand, before a FENCE.W, is still buffered (R211). -/
def sbFirst (l : List SbE) (e : SbE) : Bool := !(l.any fun u => u.t == e.t && u.p == e.p && u.fw < e.fw)

/-- A posted update of the strand to the line is outstanding: its later reads of the line stay behind it. -/
def Dev.postOn (d : Dev) (t ln : Nat) : Bool := d.sor.posts.any fun u => u.t == t && u.fpa / 64 == ln

/-- A posted update of the strand, before a FENCE.W, is outstanding (R211, R223). -/
def Dev.postBefore (d : Dev) (t fw : Nat) : Bool := d.sor.posts.any fun u => u.t == t && u.fw < fw

/-- A posted update of the strand to the store's line that retired before the store is outstanding (R85). -/
def Dev.postFirst (d : Dev) (e : SbE) : Bool := d.sor.posts.any fun u => u.t == e.t && u.fpa / 64 == e.fpa / 64 && u.seq < e.seq

/-- One buffered store taken as far as it goes: performed where the line is held in M or E, once its page is logged, dropped
where it cannot be (and in a table in use, which nothing changes, R29, R110), its ownership requested otherwise. True when it
has left the buffer. -/
def Dev.drainOne (d : Dev) (e : SbE) : Bool × Dev :=
  let ln := e.fpa / 64
  let x := d.l1 e.p ln
  let verdict := d.check e.fpa (strDom e.priv) .wr e.slice
  let whole := e.bs.length == 64
  if d.postFirst e || d.postBefore e.t e.fw then (false, d)
  else match x.st with
  | some .m | some .e =>
    if (x.psn && !whole) || d.inTables ln then (true, d.dropStore e (d.regionVerdict e.fpa))
    else
      let (r, d) := d.tryOwn fun d => ((), d.storeL1 (.log e.p) e.p ln (e.fpa % 64) e.bs e.slice e.priv e.sa)
      (r.isSome, d)
  | some .o | some .s =>
    if x.psn && !whole then (true, d.dropStore e (d.regionVerdict e.fpa))
    else if verdict != .ok then (true, d.dropStore e verdict)
    else (false, (d.setL1 e.p ln { x with st := some .sm }).frReq e.p opUpg ln e.slice e.priv)
  | none =>
    if verdict != .ok then (true, d.dropStore e verdict)
    else match d.l1Room e.p ln with
      | (true, d) => (false, (d.setL1 e.p ln { L1Line.none with st := some .im }).frReq e.p opRdX ln e.slice e.priv)
      | (false, d) => (false, d)
  | _ => (false, d)

/-- The store buffer of a Frond drained as far as it goes, oldest store first. -/
def Dev.drainStores (d : Dev) (p : Nat) : Dev :=
  let all := d.sor.sb
  let step := fun (acc : List SbE × Dev) (e : SbE) =>
    if e.p != p || !sbFirst acc.1 e then (acc.1 ++ [e], acc.2)
    else match acc.2.drainOne e with
      | (true, d) => (acc.1, d)
      | (false, d) => (acc.1 ++ [e], d)
  let r := all.foldl step ([], { d with sor := { d.sor with sb := [] } })
  { r.2 with sor := { r.2.sor with sb := r.1 } }

/-- Lines that a Frond's store buffer holds (R194). -/
def Dev.sbLines (d : Dev) (p : Nat) : List Nat := ((d.sor.sb.filter (·.p == p)).map (·.fpa / 64)).eraseDups

/-- The strand has stores in the buffer, or posted updates outstanding: what a release waits for (R223). -/
def Dev.sbOwn (d : Dev) (t : Nat) : Bool := d.sor.sb.any (·.t == t) || d.sor.posts.any (·.t == t)

/-! ## Posted far updates (R222, R223) -/

/-- A posted update that has left: performed, or dropped. -/
def Dev.postGone (d : Dev) (e : PostE) : Dev := { d with sor := { d.sor with posts := d.sor.posts.filter (·.id != e.id) } }

/-- A posted update dropped with the imprecise notice (R223, R336). -/
def Dev.postDrop (d : Dev) (e : PostE) (v : Verdict) : Dev := (d.postGone e).notice v e.p e.slice true

/-- What a far access carries in DATA for the log of it (R48): the slice address. -/
def Dev.farSa (sa : Nat) (priv : Bool) : Line := if priv then 0 else BitVec.ofNat 512 sa

/-- A posted update sent to its home, once the Frond holds no copy of the line and the strand's earlier stores to it, and
those before its FENCE.W, have been made (R438, R223). -/
def Dev.postGo (d : Dev) (e : PostE) : Dev :=
  let ln := e.fpa / 64
  if e.sent || (d.sor.sb.any fun u => u.t == e.t && (u.fpa / 64 == ln && u.seq < e.seq || u.fw < e.fw)) ||
    d.postBefore e.t e.fw then d
  else match (d.l1 e.p ln).st with
    | some .m | some .o | some .e | some .s => d.l1Evict e.p ln
    | some _ => d
    | none =>
      let v := d.check e.fpa (strDom e.priv) .up e.slice
      if v != .ok then d.postDrop e v
      else
        let m : Msg := {
          op := opAtom, src := d.ag e.p, dst := d.homeAg ln, addr := BitVec.ofNat 46 ln, slice := BitVec.ofNat 12 e.slice,
          priv := e.priv, aop := BitVec.ofNat 4 e.op, place := 2, off := BitVec.ofNat 3 (e.fpa % 64 / 8),
          mask := BitVec.ofNat 64 (e.fpa % 8), opa := e.x, tag := BitVec.ofNat 12 (2048 + e.id), data := Dev.farSa e.sa e.priv }
        let d : Dev := { d with sor := { d.sor with
          posts := d.sor.posts.map fun u => if u.id == e.id then { u with sent := true } else u } }
        (d.countReq e.slice e.priv 6).send m

/-- The posted updates of a Frond sent as far as they can be. -/
def Dev.postsGo (d : Dev) (p : Nat) : Dev := (d.sor.posts.filter (·.p == p)).foldl (fun d e => d.postGo e) d

/-- A posted update queued: its number is the lowest that none outstanding bears. -/
def Dev.post (d : Dev) (t fpa n sa op : Nat) (v : Word) : Dev :=
  let x := d.str t
  let p := d.physOf t
  let id := ((List.range 2047).find? fun i => !(d.sor.posts.any (·.id == i))).getD 0
  let e : PostE := ⟨p, t, fpa, n, x.slice, x.priv, sa, x.fw, op, v, id, false, d.sor.seq⟩
  { d with sor := { d.sor with posts := d.sor.posts ++ [e], seq := d.sor.seq + 1 } }

/-- The posted update that an answer's tag names. -/
def Dev.postOf (d : Dev) (m : Msg) : Option PostE :=
  if m.tag.toNat < 2048 || m.tag == lineTag then none else d.sor.posts.find? fun e => e.sent && e.p == agId m.dst && e.id == m.tag.toNat - 2048

/-- Who stored byte `a` last, of the buffered stores of a Frond, and its value; `other` where the strand's own store of
the byte lies under another strand's (R203). -/
inductive SbByte where
  | none | mine (b : Byte) | covered
  deriving DecidableEq, Repr

def Dev.sbByte (d : Dev) (p t a : Nat) : SbByte :=
  let hit := d.sor.sb.filter fun e => e.p == p && e.fpa ≤ a && a < e.fpa + e.bs.length
  match hit.getLast? with
  | some e =>
    if e.t == t then .mine (e.bs.getD (a - e.fpa) 0)
    else if hit.any (·.t == t) then .covered else .none
  | none => .none

/-- A line as a strand reads it, its own buffered bytes over `y`; none while a byte of its own lies under another strand's
(R203). -/
def Dev.ownLine (d : Dev) (t ln : Nat) (y : Line) : Option Line :=
  if !(d.sor.sb.any fun e => e.t == t && e.fpa / 64 == ln) then some y
  else
    let bs := (List.range 64).map fun i => d.sbByte (d.physOf t) t (ln * 64 + i)
    if bs.any (· == .covered) then none
    else some (BitVec.ofNat 512 (leNat ((List.range 64).map fun i => match bs.getD i .none with | .mine b => b | _ => byteOf y.toNat i)))

/-! ## Accesses that may wait -/

def Dev.waitOn (d : Dev) (t : Nat) (w : Wait) : Dev := d.updStr t fun x => { x with wait := w }

/-- A precise refusal of a strand's access (R335). -/
def Dev.refuse (d : Dev) (t : Nat) (v : Verdict) (fpa va : Nat) (k : Kind) : Dev :=
  let x := d.str t
  (d.pviol v fpa (strDom x.priv) k (d.physOf t) x.slice).strandFault t cPROT va

/-- The strand was stopped while its access was outstanding (R43, R410): its work ends now. -/
def Dev.stopNow (d : Dev) (t : Nat) : Dev := d.endWork t (d.str t).stop 0 [] []

/-- A completed access: the result is given, or discarded with the stopped strand. -/
def Dev.finishAccess (d : Dev) (t : Nat) (k : Dev → Dev) : Dev :=
  if (d.str t).stop != 0 then d.stopNow t else k d

/-- LD taken as far as it goes (R202, R203). -/
def Dev.ldGo (d : Dev) (t rd n fpa va : Nat) (first : Bool) : Dev :=
  let x := d.str t
  let p := d.physOf t
  let ln := fpa / 64
  let bs := (List.range n).map fun i => d.sbByte p t (fpa + i)
  let w := Wait.ld rd n fpa va
  let l := d.l1 p ln
  let miss := fun (d : Dev) => if first then d.frEvent p 5 1 else d
  let value := fun (y : Line) =>
    w64 (leNat ((List.range n).map fun i =>
      match bs.getD i .none with | .mine b => b | _ => byteOf y.toNat (fpa % 64 + i)))
  if bs.any (· == .covered) || d.postOn t ln then d.waitOn t w
  else if bs.all (fun b => match b with | .mine _ => true | _ => false) then d.finishAccess t fun d => d.give t rd (value 0)
  else match l.st with
    | some .m | some .o | some .e | some .s | some .sm =>
      if l.psn then d.finishAccess t fun d => d.strandFault t cPOISON va
      else d.finishAccess t fun d => (if first then d.frEvent p 4 1 else d).give t rd (value l.data)
    | none =>
      let v := d.check fpa (strDom x.priv) .rd x.slice
      if v != .ok then d.refuse t v fpa va .rd
      else
        match (miss d).l1Room p ln with
        | (true, d) => ((d.setL1 p ln { L1Line.none with st := some .is }).frReq p opRdS ln x.slice x.priv).waitOn t w
        | (false, d) => d.waitOn t w
    | _ => (miss d).waitOn t w

/-- A line read looked up for the first time: an L1D hit, or a miss (R385). -/
def Dev.countLook (d : Dev) (t : Nat) (hit : Bool) : Dev :=
  if (d.str t).wait == .none then d.frEvent (d.physOf t) (if hit then 4 else 5) 1 else d

/-- The eight registers of LDL written (R204). -/
def Dev.giveLine (d : Dev) (t rd : Nat) (y : Line) : Dev :=
  (d.updStr t fun x => (List.range 8).foldl (fun (x : Strand) i => x.setG (rd + i) (w64 (bitsN y.toNat (64 * i) 64))) x).next t

/-- LDL taken as far as it goes (R204): RdS, RdU for hint ONCE, RdX or Upg for hint OWN. -/
def Dev.ldlGo (d : Dev) (t rd fpa va hint tag : Nat) : Dev :=
  let x := d.str t
  let p := d.physOf t
  let ln := fpa / 64
  let w := Wait.ldl rd fpa va hint tag
  let l := d.l1 p ln
  let v := d.check fpa (strDom x.priv) .rd x.slice
  let hit := fun (d : Dev) (y : Line) => d.finishAccess t fun d =>
    ((if hint == 2 && l.st == some .e then d.setL1 p ln { l with st := some .m } else d).countLook t true).giveLine t rd y
  let bad := fun (d : Dev) => d.finishAccess t fun d => d.strandFault t cPOISON va
  if tag != 0 || d.postOn t ln then d.waitOn t w
  else match d.ownLine t ln l.data with
    | none => d.waitOn t w
    | some y =>
      match l.st with
      | some .m | some .e => if l.psn then bad d else hit d y
      | some .o | some .s =>
        if hint != 2 then (if l.psn then bad d else hit d y)
        else if v != .ok then d.refuse t v fpa va .rd
        else if l.psn then bad d
        else ((d.setL1 p ln { l with st := some .sm }).frReqC p opUpg ln x.slice x.priv 6).waitOn t w
      | some .sm => if hint == 2 then d.waitOn t w else if l.psn then bad d else hit d y
      | none =>
        if v != .ok then d.refuse t v fpa va .rd
        else if hint == 1 then
          let (k, d) := (d.countLook t false).frRdu p ln x.slice x.priv
          d.waitOn t (.ldl rd fpa va hint k)
        else match (d.countLook t false).l1Room p ln with
          | (true, d) =>
            ((d.setL1 p ln { L1Line.none with st := some (if hint == 2 then .im else .is) }).frReqC p
              (if hint == 2 then opRdX else opRdS) ln x.slice x.priv 6).waitOn t w
          | (false, d) => d.waitOn t w
      | _ => (d.countLook t false).waitOn t w

/-- A primitive retires: it is counted, TRIE.STEP a second time (R385). -/
def Dev.primNext (d : Dev) (t : Nat) (trie : Bool) : Dev :=
  let d := d.frEvent (d.physOf t) 12 1
  (if trie then d.frEvent (d.physOf t) 13 1 else d).next t

/-- CF.V of a strand. -/
def Strand.withV (x : Strand) (b : Bool) : Strand := { x with cf := putBits x.cf 4 1 (b2n b) }

/-- The eight registers from `rd` on given the words of a line. -/
def Strand.setLine (x : Strand) (rd : Nat) (y : Nat) : Strand :=
  (List.range 8).foldl (fun (x : Strand) i => x.setG (rd + i) (w64 (bitsN y (64 * i) 64))) x

/-- The result of a primitive whose lines have been read (R226, R228, R230, R235, R248). -/
def Dev.primDone (d : Dev) (t : Nat) (k : Prim) (got : List Line) : Dev :=
  let y := got.getD 0 0
  match k with
  | .trie rd hi lo best =>
    let (n, b) := trieStep y hi lo best
    (d.updStr t fun x => ((x.setG rd n).setG (rd + 1) b).withV (n != 0)).primNext t true
  | .exm rd hi lo => (d.updStr t fun x => (x.setG rd (exmProbe y hi lo).1).withV (exmProbe y hi lo).2).primNext t false
  | .range rd sg v => (d.updStr t fun x => (x.setG rd (rangeCmp y sg v).1).withV (rangeCmp y sg v).2).primNext t false
  | .est rd =>
    let c := (got.map fun g => bitsN g.toNat 0 32).foldl min (2 ^ 32 - 1)
    (d.updStr t fun x => (x.setG rd (w64 c)).withV (c != 2 ^ 32 - 1)).primNext t false
  | .lcomp rd rc =>
    let (n, bs) := lcomp y
    (d.updStr t fun x => ((x.setLine rd (leNat bs)).setG rc (w64 n)).withV (n < 64)).primNext t false

/-- The lines of a primitive read one after another, each as LDL with hint ONCE reads it (R221). -/
def Dev.primGo (t : Nat) (k : Prim) : List (Nat × Nat) → Nat → List Line → Dev → Dev
  | [], _, got, d => d.finishAccess t fun d => d.primDone t k got
  | (fpa, va) :: rest, tag, got, d =>
    let x := d.str t
    let p := d.physOf t
    let ln := fpa / 64
    let l := d.l1 p ln
    if tag != 0 || d.postOn t ln then d.waitOn t (.prim k ((fpa, va) :: rest) tag got)
    else match d.ownLine t ln l.data with
      | none => d.waitOn t (.prim k ((fpa, va) :: rest) 0 got)
      | some y =>
        match l.st with
        | some .m | some .e | some .o | some .s | some .sm =>
          if l.psn then d.finishAccess t fun d => d.strandFault t cPOISON va
          else Dev.primGo t k rest 0 (got ++ [y >>> (8 * (fpa % 64))]) (d.countLook t true)
        | none =>
          let v := d.check fpa (strDom x.priv) .rd x.slice
          if v != .ok then d.refuse t v fpa va .rd
          else
            let (g, d) := (d.countLook t false).frRdu p ln x.slice x.priv
            d.waitOn t (.prim k ((fpa, va) :: rest) g got)
        | _ => (d.countLook t false).waitOn t (.prim k ((fpa, va) :: rest) 0 got)

/-- ST taken into the store buffer, where a line of it is free or already holds the store's line (R194, R203). -/
def Dev.stGo (d : Dev) (t fpa va : Nat) (bs : List Byte) : Dev :=
  let x := d.str t
  let p := d.physOf t
  let ls := d.sbLines p
  if !ls.contains (fpa / 64) && ls.length ≥ 16 then d.waitOn t (.st fpa va bs)
  else if x.stop != 0 then d.stopNow t
  else
    let e : SbE := ⟨p, t, fpa, bs, x.slice, x.priv, va, x.fw, d.sor.seq⟩
    let d := d.next t
    Dev.drainStores { d with sor := { d.sor with sb := d.sor.sb ++ [e], seq := d.sor.seq + 1 } } p

/-- An atomic's result (R209): the old value, and CF.V for a compare-and-swap. -/
def Dev.amoDone (d : Dev) (t rd op : Nat) (old : Word) (ok : Bool) : Dev :=
  (d.updStr t fun x =>
    let x := x.setG rd old
    if op == 1 || op == upMETER then x.withV ok else x) |> fun d => if op == upMETER then d.primNext t false else d.next t

/-- An atomic performed on a line held exclusively, once its page is logged; a line in E is in M after it, whether or not a
compare-and-swap matched (R67, R78, R209, R48). -/
def Dev.amoNear (d : Dev) (t rd op n fpa va : Nat) (a b : Word) (w : Wait) : Dev :=
  let x := d.str t
  let p := d.physOf t
  let ln := fpa / 64
  let l := d.l1 p ln
  let old := leNat (lineSlice l.data (fpa % 64) n)
  match amoNew op n old a.toNat b.toNat with
  | none => ((d.setL1 p ln { l with st := some .m }).frEvent p 10 1).amoDone t rd op (w64 old) false
  | some y =>
    match d.tryOwn fun d => ((), d.storeL1 (.log p) p ln (fpa % 64) (leBytes n y) x.slice x.priv va) with
    | (some _, d) => (d.frEvent p 10 1).amoDone t rd op (w64 old) true
    | (none, d) => d.waitOn t w

/-- An atomic taken as far as it goes (R78, R209, R210, R438); in a table in use it faults (R29, R110). An L1D hit is no
request, and is not judged (R331). -/
def Dev.amoGo (d : Dev) (t rd op n fpa va : Nat) (a b : Word) (place : Nat) (acq rel : Bool) (ph : Nat) : Dev :=
  let x := d.str t
  let p := d.physOf t
  let ln := fpa / 64
  let w := fun k => Wait.amo rd op n fpa va a b place acq rel k
  let l := d.l1 p ln
  let kind : Kind := if op == upMETER then .up else .at
  let v := d.check fpa (strDom x.priv) kind x.slice
  if ph == 2 then d
  else if (d.sor.sb.any fun e => if rel then e.p == p else e.t == t && e.fpa / 64 == ln) || (rel && d.sbOwn t) || d.postOn t ln then
    d.waitOn t (w ph)
  else match l.st with
    | some .m | some .e =>
      if op == upMETER then (d.l1Evict p ln).waitOn t (w 0)
      else if d.inTables ln then d.finishAccess t fun d => d.strandFault t cPROT va
      else if l.psn then d.finishAccess t fun d => d.strandFault t cPOISON va
      else d.finishAccess t fun d => d.amoNear t rd op n fpa va a b (w ph)
    | some .o | some .s =>
      if place != 1 then (d.l1Evict p ln).waitOn t (w 0)
      else if v != .ok then d.refuse t v fpa va kind
      else if l.psn then d.finishAccess t fun d => d.strandFault t cPOISON va
      else ((d.setL1 p ln { l with st := some .sm }).frReqC p opUpg ln x.slice x.priv 6).waitOn t (w 1)
    | none =>
      if v != .ok then d.refuse t v fpa va kind
      else
        let m : Msg := {
          op := opAtom, src := d.ag p, dst := d.homeAg ln, addr := BitVec.ofNat 46 ln,
          slice := BitVec.ofNat 12 x.slice, priv := x.priv, aop := BitVec.ofNat 4 op, sz := n == 8,
          place := BitVec.ofNat 2 place, acq := acq, rel := rel, off := BitVec.ofNat 3 (fpa % 64 / 8),
          mask := BitVec.ofNat 64 (fpa % 8), opa := a, opb := b, tag := BitVec.ofNat 12 t, data := Dev.farSa va x.priv }
        ((d.countReq x.slice x.priv 6).send m).waitOn t (w 2)
    | _ => d.waitOn t (w (if ph == 1 then 1 else 0))

/-- FENCE done once the strand's stores and posted updates are visible or have failed (R211). -/
def Dev.fenceGo (d : Dev) (t : Nat) : Dev :=
  if d.sbOwn t then d.waitOn t .fence
  else if (d.str t).stop != 0 then d.stopNow t
  else d.next t

/-! ## RULESYNC (R340) -/

/-- The requests that checkers have admitted and that have not completed, an Atom's placement apart. -/
def Dev.admitted (d : Dev) : List Msg :=
  (d.coh.net.filter (·.op.toNat < 0x10) ++ d.coh.hq ++ d.coh.waits.map (·.1) ++
    d.coh.txns.filterMap fun t => match t.kind with | .req m => some m | _ => none).map fun m => { m with place := 0 }

/-- The lines of a set of changes that the snoop filters list. -/
def Dev.rsyncLines (d : Dev) (marks : List Nat) : List Nat :=
  let cs := d.fpc.chg.filter fun c => marks.contains c.id
  (d.coh.sf.map (·.1)).filter fun ln => cs.any fun c => c.lo ≤ ln / 64 && ln / 64 ≤ c.hi

/-- The lines recalled as far as recall-buffer entries are free and no transaction holds them (R65): those still to recall. -/
def Dev.rsyncWalk (d : Dev) (ls : List Nat) : List Nat × Dev :=
  ls.foldl (fun (acc : List Nat × Dev) ln =>
    let d := acc.2
    if (d.sfe ln) == SfE.empty then acc
    else if (d.txn ln).isSome || d.recalls (homeOf ln) ≥ 32 then (acc.1 ++ [ln], d)
    else let d := d.recall ln; if (d.txn ln).isSome then (acc.1 ++ [ln], d) else (acc.1, d)) ([], d)

/-- RULESYNC taken as far as it goes: its own stores, the requests admitted before it, then the walk. -/
def Dev.rsyncGo (d : Dev) (t : Nat) (marks : List Nat) (old : List Msg) (lines : Option (List Nat)) : Dev :=
  let now := d.admitted
  let old := old.filter fun m => now.contains m
  if d.sbOwn t || !old.isEmpty then d.waitOn t (.rsync marks old lines)
  else
    let (ls, d) := d.rsyncWalk (lines.getD (d.rsyncLines marks))
    d.waitOn t (.rsync marks [] (some ls))

/-- RULESYNC complete: nothing is left to recall, the marks it covers clear, and the strand goes on. -/
def Dev.rsyncEnd (d : Dev) (t : Nat) : Dev :=
  match (d.str t).wait with
  | .rsync marks old lines =>
    let d := d.rsyncGo t marks old lines
    match (d.str t).wait with
    | .rsync _ [] (some []) =>
      if (d.str t).stop != 0 then d.stopNow t
      else
        let gone := d.fpc.chg.filter fun c => marks.contains c.id
        let left := d.fpc.chg.filter fun c => !marks.contains c.id
        let d : Dev := { d with fpc := { d.fpc with chg := left } }
        let d := gone.foldl (fun d c => if left.any (·.i == c.i) then d else d.setF (FPC.REGIONL.CHG c.i) 0) d
        d.next t
    | _ => d
  | _ => d

/-- What the strand waited for has come: it goes on with the instruction at its pc, unless it has been stopped. -/
def Dev.unhold (d : Dev) (t : Nat) : Dev := if (d.str t).stop != 0 then d.stopNow t else d.updStr t fun x => { x with wait := .none }

/-- A strand's release holds: its earlier stores and posted updates are visible, or have failed; the instruction waits until
then, and is taken up again (R89). -/
def Dev.released (d : Dev) (t : Nat) (k : Dev → Dev) : Dev := if d.sbOwn t then d.waitOn t (.hold 0) else k d

/-- `g` where none of its accesses must wait; the instruction is held until the answer comes otherwise, and taken up again. -/
def Dev.tryHold (d : Dev) (t : Nat) (g : Dev → Dev) : Dev :=
  match d.tryOwn fun d => ((), g d) with
  | (some _, d) => d
  | (none, d) => d.waitOn t (.hold 2)

/-- A waiting access of a strand taken up again. -/
def Dev.resume (d : Dev) (t : Nat) : Dev :=
  match (d.str t).wait with
  | .ld rd n fpa va => d.ldGo t rd n fpa va false
  | .ldl rd fpa va h k => d.ldlGo t rd fpa va h k
  | .prim k todo g got => Dev.primGo t k todo g got d
  | .st fpa va bs => d.stGo t fpa va bs
  | .amo rd op n fpa va a b pl acq rel ph => d.amoGo t rd op n fpa va a b pl acq rel ph
  | .fence => d.fenceGo t
  | .rsync ms old ls => d.rsyncGo t ms old ls
  | .hold 0 => if d.sbOwn t then d else d.unhold t
  | _ => d

/-- The strands of a physical Frond. -/
def Dev.strandsOf (d : Dev) (p : Nat) : List Nat :=
  ((List.range 32).map (p / 9 * 32 + ·)).filter fun t => d.physOf t == p && (d.str t).live

/-! ## Prefetches (R205) -/

/-- A prefetch dropped is counted. -/
def Dev.prefDrop (d : Dev) (p : Nat) : Dev := d.count (2320 + p) 1

/-- A prefetch taken as far as it goes: true where it is done with. It waits while its line is leaving, or coming without the
ownership that it asks for, or while its set has no way to give. -/
def Dev.prefGo (d : Dev) (e : PrefE) : Bool × Dev :=
  let ln := e.fpa / 64
  let bad := d.check e.fpa (strDom e.priv) (if e.m then .wr else .rd) e.slice != .ok
  match (d.l1 e.p ln).st with
  | none =>
    if bad then (true, d.prefDrop e.p)
    else match d.l1Room e.p ln with
      | (true, d) =>
        (true, (d.setL1 e.p ln { L1Line.none with st := some (if e.m then .im else .is), pref := true }).frReq e.p
          (if e.m then opRdX else opRdS) ln e.slice e.priv)
      | (false, d) => (false, d)
  | some .s | some .o =>
    if !e.m then (true, d)
    else if bad then (true, d.prefDrop e.p)
    else (true, (d.setL1 e.p ln { d.l1 e.p ln with st := some .sm, pref := true }).frReq e.p opUpg ln e.slice e.priv)
  | some .is => (!e.m, d)
  | some .mi | some .oi | some .ei => (false, d)
  | _ => (true, d)

/-- The waiting prefetches of a Frond tried again. -/
def Dev.prefsGo (d : Dev) (p : Nat) : Dev :=
  (d.sor.prefs.filter (·.p == p)).foldl (fun d e =>
    match d.prefGo e with
    | (true, d) => { d with sor := { d.sor with prefs := d.sor.prefs.erase e } }
    | (false, d) => d) d

/-! ## The flush of an L1D (R83) -/

/-- The lines of a Frond's L1D. -/
def Dev.l1Lines (d : Dev) (p : Nat) : List Nat := (d.coh.l1.filter fun e => e.1 / 2 ^ 46 == p).map fun e => e.1 % 2 ^ 46

/-- One line flushed (R83): M as WbM, O as WbO, E and S as EvictC. A line whose ownership is awaited leaves as the S or O
line that it is; a line whose data is awaited holds nothing yet. -/
def Dev.flushLine (d : Dev) (p : Nat) (last : Bool) (ln : Nat) : Dev :=
  let x := d.l1 p ln
  match x.st with
  | some .m | some .o | some .e | some .s => d.l1Evict p ln
  | some .sm =>
    if !last then d
    else
      let owner := (d.sfe ln).own == 33 + p / 9 && !((d.sorusHolders (p / 9) ln).any fun q => (d.l1 q ln).st == some .o)
      (d.setL1 p ln { x with st := some (if owner then .o else .s) }).l1Evict p ln
  | some .is | some .im => if last then d.setL1 p ln L1Line.none else d
  | _ => d

/-- The L1D of a Frond flushed by its cache controller. `last` where the core's own requests are given up. -/
def Dev.flushFrond (d : Dev) (p : Nat) (last : Bool) : Dev := (d.l1Lines p).foldl (fun d ln => d.flushLine p last ln) d

/-- The Frond's crossbar gate passes nothing that its core asks for (R83, R182, R183). -/
def Dev.gated (d : Dev) (p : Nat) : Bool := Tbl.get 0 d.sor.fencing p != 0 || bitN (d.f (SORUS.STAT.FENCED (p / 9))) (p % 9)

/-- Everything of a Frond that a change of its L1D may let go on: its buffered stores, its waiting accesses, then the records of
work that has ended. A line that
comes to a Frond being fenced is flushed, and its core stays held. -/
def Dev.wake (d : Dev) (p : Nat) : Dev :=
  if d.gated p then d.flushFrond p false
  else
    let d := ((d.drainStores p).postsGo p).prefsGo p
    ((((d.strandsOf p).foldl (fun d t => d.resume t) d).drainStores p).postsGo p).endsGo

/-- A posted update answered: performed (R222), or dropped for the reason the home gives (R223). -/
def Dev.postDone (d : Dev) (e : PostE) : Dev := ((d.postGone e).frEvent e.p 11 1).wake e.p
def Dev.postFail (d : Dev) (e : PostE) : Dev := (d.postDrop e (d.regionVerdict e.fpa)).wake e.p

/-! ## Responses at a Frond (R67, R56) -/

/-- The state a data response leaves a line in: never M where it carries poison (R56). -/
def fillSt (op : BitVec 6) (psn : Bool) : L1St :=
  if op == opDataS then .s else if op == opDataE || psn then .e else .m

/-- DataS, DataE or DataM fills a waiting line, in the state it gives it (R67). -/
def Dev.fillFrond (d : Dev) (m : Msg) : Dev :=
  let p := agId m.dst
  let ln := m.addr.toNat
  match (d.l1 p ln).st with
  | some .is | some .im | some .sm =>
    let d := d.setL1 p ln { st := some (fillSt m.op m.psn), data := m.data, psn := m.psn, log := 0, pref := false }
    let d : Dev := { d with sor := { d.sor with rdu := d.sor.rdu.map fun e => if e.p == p && e.ln == ln then { e with shared := false } else e } }
    d.wake p
  | _ => d

/-- GntM at a Frond in SM: M, or E where the line is held poisoned (R67, R56). -/
def Dev.gntFrond (d : Dev) (m : Msg) : Dev :=
  let p := agId m.dst
  let ln := m.addr.toNat
  let x := d.l1 p ln
  if x.st == some .sm then (d.setL1 p ln { x with st := some (if x.psn then .e else .m), pref := false }).wake p else d

/-- WbAck at a Frond whose eviction is in flight: the line is gone (R67). -/
def Dev.wbAckFrond (d : Dev) (m : Msg) : Dev :=
  let p := agId m.dst
  let ln := m.addr.toNat
  match (d.l1 p ln).st with
  | some st => if st.leaving then (d.setL1 p ln L1Line.none).wake p else d
  | none => d

/-- A failure of a line's request ends every access that shares it: loads, LDL and near atomics fault, buffered stores are
dropped with a notice, a prefetch is counted, and the line is I (R67, R203, R205). A load that only waits for its strand's
buffered bytes, or for an update of the strand, made no request. -/
def Dev.failLine (d : Dev) (p ln why : Nat) : Dev :=
  let x := d.l1 p ln
  let waits := x.st == some .is || x.st == some .im || x.st == some .sm
  let fails := ((d.strandsOf p).filterMap fun t =>
    match (d.str t).wait with
    | .ld _ n fpa va => if fpa / 64 == ln && !d.postOn t ln && ((List.range n).all fun i => d.sbByte p t (fpa + i) != .covered) then some (t, va) else none
    | .ldl _ fpa va _ 0 => if fpa / 64 == ln && !d.postOn t ln && (d.ownLine t ln 0).isSome then some (t, va) else none
    | .prim _ ((fpa, va) :: _) 0 _ => if fpa / 64 == ln && !d.postOn t ln && (d.ownLine t ln 0).isSome then some (t, va) else none
    | .amo _ _ _ fpa va _ _ _ _ _ 1 => if fpa / 64 == ln then some (t, va) else none
    | _ => none)
  if !waits then d
  else
    let d := d.setL1 p ln L1Line.none
    let d := if x.pref then d.prefDrop p else d
    let mine := d.sor.sb.filter fun e => e.p == p && e.fpa / 64 == ln
    let d : Dev := { d with sor := { d.sor with sb := d.sor.sb.filter fun e => !(e.p == p && e.fpa / 64 == ln) } }
    let d := mine.foldl (fun d e => d.dropStore e (d.regionVerdict e.fpa)) d
    (fails.foldl (fun d e => d.finishAccess e.1 fun d => d.strandFault e.1 (whyCause why) e.2) d).wake p

/-- The strands of a Frond that wait for an RdU, by its tag. -/
def Dev.rduWaits (d : Dev) (p tag : Nat) : List Nat :=
  (d.strandsOf p).filter fun t => match (d.str t).wait with
    | .ldl _ _ _ _ k => k == tag
    | .prim _ _ k _ => k == tag
    | _ => false

/-- The RdU that an answer is for: it is outstanding no longer. -/
def Dev.rduDone (d : Dev) (p : Nat) (m : Msg) : Bool × Dev :=
  match d.sor.rdu.find? fun e => e.p == p && e.tag == m.tag.toNat && e.ln == m.addr.toNat with
  | some e => (true, { d with sor := { d.sor with rdu := d.sor.rdu.erase e } })
  | none => (false, d)

/-- DataU at a Frond: every LDL with hint ONCE and primitive that waits for it takes the line (R204, R221). -/
def Dev.dataUFrond (d : Dev) (m : Msg) : Dev :=
  let p := agId m.dst
  match d.rduDone p m with
  | (false, d) => d
  | (true, d) =>
    (d.rduWaits p m.tag.toNat).foldl (fun d t =>
      match (d.str t).wait with
      | .ldl rd fpa va h _ =>
        if m.psn then d.finishAccess t fun d => d.strandFault t cPOISON va
        else match d.ownLine t (fpa / 64) m.data with
          | some y => d.finishAccess t fun d => d.giveLine t rd y
          | none => d.waitOn t (.ldl rd fpa va h 0)
      | .prim k ((fpa, va) :: rest) _ got =>
        if m.psn then d.finishAccess t fun d => d.strandFault t cPOISON va
        else match d.ownLine t (fpa / 64) m.data with
          | some y => Dev.primGo t k rest 0 (got ++ [y >>> (8 * (fpa % 64))]) d
          | none => d.waitOn t (.prim k ((fpa, va) :: rest) 0 got)
      | _ => d) d

/-- An RdU has failed: the accesses that wait for it fault (R67, R204). -/
def Dev.failRdu (d : Dev) (m : Msg) : Dev :=
  let p := agId m.dst
  match d.rduDone p m with
  | (false, d) => d
  | (true, d) =>
    (d.rduWaits p m.tag.toNat).foldl (fun d t =>
      match (d.str t).wait with
      | .ldl _ _ va _ _ => d.finishAccess t fun d => d.strandFault t (whyCause m.why.toNat) va
      | .prim _ ((_, va) :: _) _ _ => d.finishAccess t fun d => d.strandFault t (whyCause m.why.toNat) va
      | _ => d) d

/-- A CmpP at a Frond, by what it answers: a line's request, an RdU, or the Atom of a strand (R67, R210). -/
def Dev.failFrond (d : Dev) (m : Msg) : Dev :=
  let p := agId m.dst
  let ln := m.addr.toNat
  if m.tag == lineTag then d.failLine p ln m.why.toNat
  else if 1024 ≤ m.tag.toNat then d.failRdu m
  else if d.physOf m.tag.toNat != p then d
  else match (d.str m.tag.toNat).wait with
    | .amo _ _ _ fpa va _ _ _ _ _ 2 =>
      if fpa / 64 == ln then (d.finishAccess m.tag.toNat fun d => d.strandFault m.tag.toNat (whyCause m.why.toNat) va).wake p else d
    | _ => d

/-- The line whose DataM follows a DataA that fetches it near. -/
def Dev.comesNear (d : Dev) (p ln : Nat) : Dev :=
  if (d.l1 p ln).st.isNone then (d.l1Room p ln).2.setL1 p ln { L1Line.none with st := some .im } else d

/-- DataA at a Frond (R77, R78): the old value, a fetch near whose DataM follows, or a failed compare-and-swap. The core of a
Frond being fenced takes none; the line that follows is flushed (R83). -/
def Dev.dataAFrond (d : Dev) (m : Msg) : Dev :=
  let p := agId m.dst
  let ln := m.addr.toNat
  let t := m.tag.toNat % 1024
  if d.gated p then (if m.res == 1 then d.comesNear p ln else d)
  else if d.physOf t != p then d
  else match (d.str t).wait with
    | .amo rd op n fpa va a b pl acq rel 2 =>
      if fpa / 64 != ln then d
      else if m.res == 1 then
        (d.comesNear p ln).waitOn t (.amo rd op n fpa va a b pl acq rel 1)
      else
        d.finishAccess t fun d => (d.frEvent p 11 1).amoDone t rd op m.old (m.res == 0)
    | _ => d

/-! ## Effective addresses (R201) -/

/-- What an address comes to: an FPA, or the fault it draws. -/
inductive Ea where
  | ok (fpa : Nat) | fault (cause : Nat)
  deriving DecidableEq, Repr

/-- The steps of R201 after alignment: translation at S privilege, the 52-bit limit at F. -/
def Dev.eaOf (d : Dev) (t ea : Nat) (q : Want) : Ea × Dev :=
  let x := d.str t
  if x.priv then (if ea ≥ 2 ^ 52 then .fault cPROT else .ok ea, d)
  else if ea ≥ 2 ^ 48 then (.fault cXLAT, d)
  else match d.translate (.strand t) (sorusUnit (sorusOf t)) x.slice ea q with
    | (some fpa, d) => (.ok fpa, d)
    | (none, d) => (.fault cXLAT, d)

/-- An aligned access by a strand: ALIGN, then translation, which the instruction waits for where it walks the tables, then `k`
with the FPA (R195, R201, R33). -/
def Dev.access (d : Dev) (t ea n : Nat) (q : Want) (k : Nat → Dev → Dev) : Dev :=
  if ea % n != 0 then d.strandFault t cALIGN (ea % 2 ^ 52)
  else match d.tryOwn fun d => d.eaOf t ea q with
    | (some (.ok fpa), d) => k fpa d
    | (some (.fault c), d) => d.strandFault t c (ea % 2 ^ 52)
    | (none, d) => d.waitOn t (.hold 2)

end Sys2Proof.Machine
end

