-- ==== Sys2Proof/Machine/HostMem.lean ====
section
/-! DEFINITION. Host memory requests at a port: window decoding (R35, R129), ingress check and translation (R33, R331),
the messages sent to the homes (R70, R130), their answers (R90, R439), and back-invalidate snoops (R70, R71, R131). -/

namespace Sys2Proof.Machine

def Dec.none : Dec := ⟨0, 0, 0, false, false, false⟩
def decKey (h f k : Nat) : Nat := frameKey h f * 16 + k

/-- The port carries a host: HOST or PCIE mode with its link up. -/
def Dev.hostPort (d : Dev) (p : Nat) : Bool :=
  d.fdUp && (d.f (PORT.CFG.MODE p) == 1 || d.f (PORT.CFG.MODE p) == 2) && d.linkUp p

/-- The host attachment of a port. -/
def Dev.hostOf (d : Dev) (p : Nat) : Nat := d.f (PORT.CFG.HOSTID p)

/-- Decoding for the port's host is paused by a generation change (R36). -/
def Dev.paused (d : Dev) (p : Nat) : Bool :=
  d.fb (BIND.HGEN.PEND (d.hostOf p)) && Tbl.get 0 d.bind.swapped (d.hostOf p) == 0

/-- The slice that an active frame carries. -/
def Dev.frameSlice (d : Dev) (h f : Nat) : Option Nat :=
  match Tbl.get 0 d.bind.frA (frameKey h f) with
  | 0 => none
  | n + 1 => some n

/-- What a request needs of its decoder (R35). -/
inductive Perm where
  | r | w | rw | none
  deriving DecidableEq, Repr

/-- The slice address of an HPA: by the enabled decoder of the frame whose range holds it and that grants what the
request needs (R35). -/
def Dev.decode (d : Dev) (h f hpa : Nat) (q : Perm) : Option Nat :=
  ((List.range 16).findSome? fun k =>
    let x := Tbl.get Dec.none d.bind.decA (decKey h f k)
    if x.en && x.size != 0 && x.hpa * 2 ^ 21 ≤ hpa && hpa < (x.hpa + x.size) * 2 ^ 21 then some x else none).bind fun x =>
      let ok := match q with | .r => x.r | .w => x.w | .rw => x.r && x.w | .none => true
      if ok then some (x.sa * 2 ^ 21 + (hpa - x.hpa * 2 ^ 21)) else none

/-- The port's access-error counter (R386). -/
def Dev.accErr (d : Dev) (p : Nat) : Dev := d.count (8 * p) 1

/-- The outcome of a host request's way to its home: the FPA and the slice, or why it goes no further. -/
inductive Reach where
  | ok (fpa n : Nat)
  /-- Decoding or translation fails (R33, R35). -/
  | xlat
  /-- The ingress checker refuses it (R335). -/
  | prot
  deriving DecidableEq, Repr

/-- A host request decoded, translated and, where its line is one that `judge` says, checked; a refusal is recorded as R335 gives
for a read or a write. -/
def Dev.reach (d : Dev) (p f hpa : Nat) (q : Perm) (t : Want) (k : Kind) (write : Bool) (judge : Nat → Bool) : Reach × Dev :=
  let h := d.hostOf p
  match d.frameSlice h f with
  | none => (.xlat, d)
  | some n =>
    match d.decode h f hpa q with
    | none => (.xlat, d)
    | some sa =>
      match d.translate (.port p) (portUnit p) n sa t with
      | (none, d) => (.xlat, d)
      | (some fpa, d) =>
        let v := d.check fpa .s k n
        if v == .ok || !judge (fpa / 64) then (.ok fpa n, d)
        else (.prot, if write then d.notice v (0x280 + p) n false else d.pviol v fpa .s k (0x280 + p) n)

/-- The lowest request tag of a port that no outstanding request uses. -/
def Dev.freeTag (d : Dev) (p : Nat) : Nat :=
  ((List.range 4096).find? fun t => !(d.host.reqs.any fun r => r.port == p && r.ptag == t)).getD 0

/-- A request sent to the home of a line, with what the port keeps of it. -/
def Dev.hostSend (d : Dev) (p : Nat) (m : Msg) (r : PortReq) : Dev :=
  let tag := d.freeTag p
  let r := { r with port := p, host := d.hostOf p, gen := d.f (BIND.HGEN.CUR (d.hostOf p)), ln := m.addr.toNat, ptag := tag }
  let d : Dev := { d with host := { d.host with reqs := d.host.reqs ++ [r] } }
  d.send { m with src := d.ag (0x280 + p), dst := d.homeAg m.addr.toNat, tag := BitVec.ofNat 12 tag }

def PortReq.blank : PortReq := ⟨0, 4096, 0, 0, 0, 0, 0, 0, 0, 0, none, 0⟩

/-- The logical device presents HDM-DB (R131). -/
def Dev.hdmDb (d : Dev) (p k : Nat) : Bool := d.fb (PORT.CFG.DB p) && Tbl.get 0 d.host.commit (p * 16 + k) == 1

/-- The host is the one recorded E/M for the line (R70, log entry 142). -/
def Dev.hostEM (d : Dev) (p ln : Nat) : Bool :=
  match d.hostGroup (homeOf ln) (d.hostOf p) with
  | some g => d.hostOwns ln g (d.hostOf p)
  | none => false

/-- How MetaValue is carried to the home in a write (R70): the state the host keeps. -/
def mvKeep : CxlMeta → BitVec 2
  | .i => 0 | .s => 1 | .a => 2

/-- A host's read that goes no further: poison, counted (R33, R335). -/
def Dev.readFails (d : Dev) (p ld tag : Nat) : Dev := (d.accErr p).emit (.cxlData p ld tag 0 true)

/-- A host's write that goes no further: discarded, counted, and completed (R33, R335). -/
def Dev.writeFails (d : Dev) (p ld tag : Nat) : Dev := (d.accErr p).emit (.cxlCmp p ld tag)

/-- A MemRd or MemRdData (R70): RdS, RdX or RdU by MetaValue; always RdU where the logical device presents HDM-H, whose
copies are not tracked (R69). -/
def Dev.memRead (d : Dev) (p : Nat) (r : CxlReq) (caching : Bool) : Dev :=
  let op := if !caching || !d.hdmDb p r.ld.toNat then opRdU
    else match r.mv with | .i => opRdU | .s => opRdS | .a => opRdX
  let a := caching && r.mv == .a
  match d.reach p r.ld.toNat r.hpa.toNat (if a then .rw else .r) (if a then .w else .r) (if a then .wr else .rd) false fun _ => true with
  | (.ok fpa n, d) =>
    (d.countSlice n 6 1).hostSend p { op := op, addr := BitVec.ofNat 46 (fpa / 64), slice := BitVec.ofNat 12 n }
      { PortReq.blank with tag := r.tag.toNat, kind := 0, ld := r.ld.toNat }
  | (_, d) => d.readFails p r.ld.toNat r.tag.toNat

/-- A back-invalidate of the line outstanding at the port. -/
def Dev.biOf (d : Dev) (p ln : Nat) : Option BiSnp := d.coh.bisnp.find? fun b => b.port == p && b.ln == ln

/-- A MemWr or MemWrPtl (R70): a write-back from a host recorded E/M, joined to an outstanding back-invalidate where
there is one; WrU or WrP otherwise. A write-back is not checked (R330). -/
def Dev.memWrite (d : Dev) (p : Nat) (r : CxlReq) (part : Bool) : Dev :=
  match d.reach p r.ld.toNat r.hpa.toNat .w .w .wr true fun ln => part || !d.hostEM p ln with
  | (.ok fpa n, d) =>
    let ln := fpa / 64
    let base : Msg := { op := opWrU, addr := BitVec.ofNat 46 ln, slice := BitVec.ofNat 12 n, data := r.data }
    let keep := if d.hdmDb p r.ld.toNat then mvKeep r.mv else 0
    let d := if !part && d.hostEM p ln then d else d.countSlice n 7 1
    let q := { PortReq.blank with tag := r.tag.toNat, kind := 1, ld := r.ld.toNat }
    if part then d.hostSend p { base with op := opWrP, mask := r.mask } q
    else if d.hostEM p ln then
      if (d.biOf p ln).isSome then
        let d : Dev := { d with coh := { d.coh with bisnp := d.coh.bisnp.map fun b => if b.port == p && b.ln == ln then { b with wr := some r.data } else b } }
        { d with host := { d.host with reqs := d.host.reqs ++ [{ q with port := p, host := d.hostOf p, gen := d.f (BIND.HGEN.CUR (d.hostOf p)), ln := ln, kind := 6 }] } }
      else d.hostSend p { base with op := opWbM, new := keep } q
    else d.hostSend p { base with new := keep } q
  | (_, d) => d.writeFails p r.ld.toNat r.tag.toNat

/-- A MemClnEvct (R70): EvictC, whatever its decoder permits, and not checked (R35, R330). -/
def Dev.memClean (d : Dev) (p : Nat) (r : CxlReq) : Dev :=
  match d.reach p r.ld.toNat r.hpa.toNat .none .r .rd true fun _ => false with
  | (.ok fpa n, d) =>
    d.hostSend p { op := opEvictC, addr := BitVec.ofNat 46 (fpa / 64), slice := BitVec.ofNat 12 n }
      { PortReq.blank with tag := r.tag.toNat, kind := 5, ld := r.ld.toNat }
  | (_, d) => d.writeFails p r.ld.toNat r.tag.toNat

/-! ## PCIe requests on BAR2 (R129, R130, R439) -/

/-- Frame and part-relative address of a BAR2 offset (R129). -/
def Dev.bar2 (d : Dev) (p off : Nat) : Nat × Nat :=
  let k := d.f (PORT.PCIE.B2LOG p) - 9
  (off / 2 ^ k % 512, off % 2 ^ k)

/-- The lines of a PCIe read that are still to be answered are answered to nobody, and the others are dropped (R439). -/
def Dev.pcieCut (d : Dev) (p tag : Nat) : Dev :=
  { d with host := { d.host with
    reqs := (d.host.reqs.filter fun u => !(u.port == p && u.tag == tag && u.kind == 2 && u.ans.isSome)).map fun u =>
      if u.port == p && u.tag == tag && u.kind == 2 then { u with kind := 7 } else u } }

/-- The answered lines of a PCIe read given out in address order, up to the first that is not answered; a protection
failure ends the request (R439). -/
def Dev.pcieOut (p tag : Nat) : Nat → Dev → Dev
  | 0, d => d
  | k + 1, d =>
    match d.host.reqs.find? fun r => r.port == p && r.tag == tag && r.kind == 2 with
    | none => d
    | some r =>
      match r.ans with
      | none => d
      | some (4, _) => (d.pcieCut p tag).emit (.pcieStat p tag 4)
      | some (st, bs) =>
        Dev.pcieOut p tag k
          (({ d with host := { d.host with reqs := d.host.reqs.erase r } } : Dev).emit (.pcieData p tag r.part bs (st == 1)))

/-- One line of a PCIe read: an RdU, or an answer already known (R130, R439). -/
def Dev.pcieLine (d : Dev) (p tag off len part : Nat) : Dev :=
  let (f, hpa) := d.bar2 p off
  let q := { PortReq.blank with tag := tag, kind := 2, off := off % 64, len := len, part := part }
  let known := fun (d : Dev) (st : Nat) =>
    { d with host := { d.host with reqs := d.host.reqs ++ [{ q with port := p, host := d.hostOf p, gen := d.f (BIND.HGEN.CUR (d.hostOf p)), ans := some (st, []) }] } }
  match d.reach p f hpa .r .r .rd false fun _ => true with
  | (.ok fpa n, d) =>
    (d.countSlice n 6 1).hostSend p { op := opRdU, addr := BitVec.ofNat 46 (fpa / 64), slice := BitVec.ofNat 12 n } q
  | (.xlat, d) => known (d.accErr p) 1
  | (.prot, d) => known (d.accErr p) 4

/-- The lines of a PCIe read (R130). -/
def Dev.pcieLines (p tag : Nat) : Nat → Dev → Nat → Nat → Nat → Dev
  | 0, d, _, _, _ => d
  | k + 1, d, off, len, part =>
    if len == 0 then d
    else
      let take := min len (64 - off % 64)
      Dev.pcieLines p tag k (d.pcieLine p tag off take part) (off + take) (len - take) (part + 1)

def Dev.pcieRead (d : Dev) (p : Nat) (r : PcieReq) : Dev :=
  Dev.pcieOut p r.tag.toNat 130 (Dev.pcieLines p r.tag.toNat 130 d r.off.toNat r.len.toNat 0)

/-- A posted PCIe write: WrU for a whole aligned line, WrP otherwise; nothing is returned (R130, R439). -/
def Dev.pcieWrite (p : Nat) : Nat → Dev → Nat → List Byte → Dev
  | 0, d, _, _ => d
  | k + 1, d, off, bs =>
    if bs.isEmpty then d
    else
      let take := min bs.length (64 - off % 64)
      let (f, hpa) := d.bar2 p off
      let part := bs.take take
      let d := match d.reach p f hpa .w .w .wr true fun _ => true with
        | (.ok fpa n, d) =>
          let m : Msg := {
            op := if take == 64 then opWrU else opWrP, addr := BitVec.ofNat 46 (fpa / 64), slice := BitVec.ofNat 12 n,
            data := linePatch 0 (fpa % 64) part, mask := BitVec.ofNat 64 ((2 ^ take - 1) * 2 ^ (fpa % 64)) }
          (d.countSlice n 7 1).hostSend p m { PortReq.blank with kind := 3 }
        | (_, d) => d.accErr p
      Dev.pcieWrite p k d (off + take) (bs.drop take)

/-- A PCIe AtomicOp: an Atom with PLACE = FAR; a CAS of 128 bits and an AtomicOp on BAR0 are Unsupported Requests (R130,
R439). -/
def Dev.pcieAtomic (d : Dev) (p tag : Nat) (o : PcieAop) (sz : Bool) (off : Nat) (a b : Word) : Dev :=
  let (f, hpa) := d.bar2 p off
  let aop := match o with | .cas => 1 | .swap => 2 | _ => 0
  if o == .cas128 || o == .bar0 then d.emit (.pcieStat p tag 1)
  else match d.reach p f hpa .rw .a .at false fun _ => true with
  | (.ok fpa n, d) =>
    let m : Msg := {
      op := opAtom, addr := BitVec.ofNat 46 (fpa / 64), slice := BitVec.ofNat 12 n, aop := BitVec.ofNat 4 aop,
      sz := sz, place := 2, off := BitVec.ofNat 3 (fpa % 64 / 8), mask := BitVec.ofNat 64 (fpa % 8), opa := a, opb := b }
    (d.countSlice n 6 1).hostSend p m { PortReq.blank with tag := tag, kind := 4, len := if sz then 8 else 4 }
  | (.xlat, d) => (d.accErr p).emit (.pcieData p tag 0 [] true)
  | (.prot, d) => (d.accErr p).emit (.pcieStat p tag 4)

/-! ## Requests as a port takes them -/

/-- What a request does but answer its host, whose link has gone down since. -/
def Dev.unanswered (d : Dev) (p : Nat) (k : Dev → Dev) : Dev :=
  let u := k d
  let mute := fun (o : Out) => match o with | .cxlCmp q _ _ => q == p | _ => false
  let n := d.host.reqs.length
  let late := ((u.host.reqs.drop n).filter (·.kind != 6)).map fun r => { r with kind := 7 }
  { u with
    out := d.out ++ (u.out.drop d.out.length).filter fun o => !mute o
    host := { u.host with reqs := u.host.reqs.take n ++ late } }

/-- The port that a request came to. -/
def heldPort : HostReq → Nat
  | .memRd p _ | .memRdData p _ | .memWr p _ | .memWrPtl p _ | .memClnEvct p _ | .pcieRd p _ | .pcieWr p _ _
  | .pcieAt p _ _ _ _ _ _ | .bar0Rd p _ _ | .bar0Wr p _ _ | .lateWr p _ _ | .lateCln p _ => p

/-- A memory request of a host. -/
def Dev.memTake (d : Dev) (r : HostReq) : Dev :=
  match r with
  | .memRd p r => d.memRead p r true
  | .memRdData p r => d.memRead p r false
  | .memWr p r => d.memWrite p r false
  | .memWrPtl p r => d.memWrite p r true
  | .memClnEvct p r => d.memClean p r
  | .pcieRd p r => d.pcieRead p r
  | .pcieWr p off bs => Dev.pcieWrite p (bs.length + 1) d off bs
  | .pcieAt p tag o sz off a b => d.pcieAtomic p tag o sz off a b
  | .lateWr p r part => d.unanswered p fun d => d.memWrite p r part
  | .lateCln p r => d.unanswered p fun d => d.memClean p r
  | .bar0Rd _ _ _ | .bar0Wr _ _ _ => d

/-- A memory request that waits for a table walk is kept at its port, behind those that do so already. -/
def Dev.memWalk (d : Dev) (r : HostReq) : Dev := { d with host := { d.host with walks := d.host.walks ++ [r] } }
def Dev.memReq (d : Dev) (r : HostReq) : Dev :=
  if d.host.walks.any fun u => heldPort u == heldPort r then d.memWalk r
  else match d.tryOwn fun d => ((), d.memTake r) with
    | (some _, d) => d
    | (none, d) => d.memWalk r

/-- The requests that wait at a port for a walk taken up again in their order, while decoding is not paused (R33, R36). -/
def Dev.walksOn (d : Dev) (p : Nat) : Dev :=
  if d.paused p then d
  else
    let mine := d.host.walks.filter fun r => heldPort r == p
    mine.foldl Dev.memReq { d with host := { d.host with walks := d.host.walks.filter fun r => heldPort r != p } }

/-! ## Answers at a port -/

/-- The outstanding request that a home's answer is for. -/
def Dev.portReqOf (d : Dev) (p tag : Nat) : Option PortReq := d.host.reqs.find? fun r => r.port == p && r.ptag == tag
def Dev.dropReq (d : Dev) (r : PortReq) : Dev := { d with host := { d.host with reqs := d.host.reqs.erase r } }

/-- One line of a PCIe read answered, and what is in order given out. -/
def Dev.pcieAns (d : Dev) (r : PortReq) (st : Nat) (bs : List Byte) : Dev :=
  let d : Dev := { d with host := { d.host with reqs := d.host.reqs.map fun u => if u == r then { u with ans := some (st, bs), ptag := 4096 } else u } }
  Dev.pcieOut r.port r.tag 130 d

/-- A home's answer reaches a port proxy: the host's completion follows (R90, R439). A copy granted to a host that has
departed meanwhile is given back. -/
def Dev.portAnswer (d : Dev) (m : Msg) : Dev :=
  let p := agId m.dst - 0x280
  match d.portReqOf p m.tag.toNat with
  | none =>
    if m.op == opDataS || m.op == opDataE || m.op == opDataM then
      d.send { op := opEvictC, src := m.dst, dst := m.src, addr := m.addr }
    else d
  | some r =>
    let data := m.op == opDataS || m.op == opDataE || m.op == opDataM || m.op == opDataU
    if r.kind == 7 then
      if data && m.op != opDataU then (d.dropReq r).send { op := opEvictC, src := m.dst, dst := m.src, addr := m.addr }
      else d.dropReq r
    else if r.kind == 2 then
      if data then d.pcieAns r (b2n m.psn) (if m.psn then [] else lineSlice m.data r.off r.len)
      else if m.op == opCmpP then (d.accErr p).pcieAns r (if m.why == 1 then 4 else 1) []
      else d
    else
      let d := d.dropReq r
      if r.kind == 0 then
        if data then d.emit (.cxlData p r.ld r.tag (if m.psn then 0 else m.data) m.psn)
        else if m.op == opCmpP then d.readFails p r.ld r.tag
        else d
      else if r.kind == 4 then
        if m.op == opDataA then d.emit (.pcieData p r.tag 0 (leBytes r.len m.old.toNat) false)
        else if m.op == opCmpP then
          (d.accErr p).emit (if m.why == 1 then .pcieStat p r.tag 4 else .pcieData p r.tag 0 [] true)
        else d
      else if r.kind == 3 then (if m.op == opCmpP then d.accErr p else d)
      else if m.op == opCmpP then d.writeFails p r.ld r.tag
      else d.emit (.cxlCmp p r.ld r.tag)

/-! ## Back-invalidate snoops (R70, R71, R131) -/

/-- The logical device that a back-invalidate names: a committed one, the one whose slice owns the line's extent first, and the
first committed one where none does (DESIGN CHOICE, log entry 144). -/
def Dev.biLd (d : Dev) (p ln : Nat) : Option Nat :=
  let ks := (List.range 16).filter fun k => d.hdmDb p k
  (ks.find? fun k => match d.frameSlice (d.hostOf p) k with
    | some n => d.owned ln n
    | none => false).orElse fun _ => ks.head?

/-- A snoop reaches a port proxy: BISnpData for SnpS, BISnpInv otherwise; RspI at once where no logical device of the
host presents HDM-DB (R131). -/
def Dev.snoopPort (d : Dev) (m : Msg) : Dev :=
  let p := agId m.dst - 0x280
  let ln := m.addr.toNat
  match d.biLd p ln with
  | none => d.send { op := opRspI, src := m.dst, dst := m.src, tag := m.tag, addr := m.addr }
  | some k =>
    let b : BiSnp := ⟨p, ln, m.op != opSnpS, m.src, m.tag, none⟩
    let d : Dev := { d with coh := { d.coh with bisnp := d.coh.bisnp ++ [b] } }
    d.emit (.biSnp p k ln (m.op != opSnpS))

/-- A host's answer to a back-invalidate: joined with the write that came first into RspD (R70); RspIWb where a write-back or
clean notice of the host was on its way to the home already (R74). `keep` is 1 for BIRspS. `wasE` marks BIRspE: the home is told
by NEW = 3 of the RspI, which R72 gives no field for it (DESIGN CHOICE, log entry 144). -/
def Dev.biAnswer (d : Dev) (p ln keep : Nat) (wasE : Bool) : Dev :=
  match d.biOf p ln with
  | none => d
  | some b =>
    let d : Dev := { d with coh := { d.coh with bisnp := d.coh.bisnp.erase b } }
    let base : Msg := { op := opRspI, src := d.ag (0x280 + p), dst := b.home, tag := b.tag, addr := BitVec.ofNat 46 ln }
    match d.coh.net.find? fun m => m.src == base.src && m.addr == base.addr && (m.op == opWbM || m.op == opEvictC) with
    | some w => d.send { base with op := opRspIWb, wb := if w.op == opWbM then 1 else 3 }
    | none => match b.wr with
    | some x => d.send { base with op := opRspD, data := x, new := BitVec.ofNat 2 keep }
    | none => d.send { base with op := if keep == 1 then opRspS else opRspI, new := if wasE then 3 else 0 }

/-! ## The Gollos frame DVSEC (R132, R133) -/

/-- Frame `k` of the port's host carries a slice in the active bank, and presents HDM-DB. -/
def Dev.framePresent (d : Dev) (p k : Nat) : Bool :=
  (d.frameSlice (d.hostOf p) k).isSome && (d.f (PORT.CFG.MODE p) == 2 || k < 16)
def Dev.frameDb (d : Dev) (p k : Nat) : Bool := d.framePresent p k && d.f (PORT.CFG.MODE p) == 1 && d.hdmDb p k

/-- Eight bits of a map of the frames. -/
def mapByte (g : Nat → Bool) (i : Nat) : Nat := ((List.range 8).map fun j => if g (8 * i + j) then 2 ^ j else 0).sum

/-- Byte `o` of the DVSEC as the host's configuration reads return it, from offset 4 on; the header's link to the next
capability is not given (R133). -/
def Dev.dvsecByte (d : Dev) (p o : Nat) : Byte :=
  let word := fun (v : Nat) => BitVec.ofNat 8 (v / 2 ^ (8 * (o % 4)))
  if o < 4 then word (0x0023 + 0x1 * 2 ^ 16)
  else if o < 8 then word (0x15C7 + 0x090 * 2 ^ 20)
  else if o < 12 then word 0x0001
  else if o < 16 then
    word (d.f (BIND.HGEN.CUR (d.hostOf p)) % 256 + Tbl.get 0 d.host.notify p * 2 ^ 8 + b2n (d.f (PORT.CFG.MODE p) == 1) * 2 ^ 13)
  else if o < 0x50 then BitVec.ofNat 8 (mapByte (d.framePresent p) (o - 0x10))
  else if o < 0x90 then BitVec.ofNat 8 (mapByte (d.frameDb p) (o - 0x50))
  else 0

end Sys2Proof.Machine
end

