-- ==== Sys2Proof/Machine/Qm.lean ====
section
/-! DEFINITION. The queue manager: cells, free-cell rings, commands, admission, spill and refill, the scheduler, shapers,
egress rings, tables and counters (R280–R311). -/

namespace Sys2Proof.Machine

/-! ## Tables (R311) -/

def tSLICE : Nat := 0
def tFRING : Nat := 1
def tQUEUE : Nat := 2
def tCLASS : Nat := 3
def tGROUP : Nat := 4
def tOUTPUT : Nat := 5

/-- Entries of a table. -/
def qmSize (t : Nat) : Nat :=
  match t with
  | 0 => 4096 | 1 => 32768 | 2 => 131072 | 3 => 32768 | 4 => 4096 | 5 => 256 | _ => 0

/-- Bits of words 0, 1 and 2 of an entry that are not reserved, counted from bit 0. -/
def qmBits (t : Nat) : Nat × Nat × Nat :=
  match t with
  | 0 => (30, 40, 27) | 1 => (8, 48, 0) | 2 => (62, 58, 53) | 3 => (50, 24, 0) | 4 => (42, 58, 53) | _ => (43, 48, 24)

/-- A word of an entry, and a field of it. -/
def Dev.qw (d : Dev) (t i w : Nat) : Word := Tbl.get 0 d.qm.tab ((t * 2 ^ 17 + i) * 4 + w)
def Dev.qf (d : Dev) (t i w lo n : Nat) : Nat := getBits (d.qw t i w) lo n

/-- EN of an entry. -/
def Dev.qEn (d : Dev) (t i : Nat) : Bool := d.qf t i 0 0 1 == 1

/-- Fields of queues, classes, groups and outputs. -/
def Dev.qSlice (d : Dev) (q : Nat) : Nat := d.qf tQUEUE q 0 1 12
def Dev.qSched (d : Dev) (q : Nat) : Bool := d.qf tQUEUE q 0 13 1 == 0
def Dev.qClass (d : Dev) (q : Nat) : Nat := d.qf tQUEUE q 0 14 15
def Dev.cGroup (d : Dev) (k : Nat) : Nat := d.qf tCLASS k 0 1 12
def Dev.gOutput (d : Dev) (g : Nat) : Nat := d.qf tGROUP g 0 1 8
def Dev.oSlice (d : Dev) (o : Nat) : Nat := d.qf tOUTPUT o 0 1 12

/-- The weight of a node (R299). -/
def Dev.weight (d : Dev) (t i : Nat) : Nat :=
  match t with
  | 2 => d.qf tQUEUE i 0 29 16 | 3 => d.qf tCLASS i 0 13 16 | _ => d.qf tGROUP i 0 9 16

/-- SHEN, SRATE and SBURST of a node (R302). -/
def Dev.shaper (d : Dev) (t i : Nat) : Bool × Nat × Nat :=
  match t with
  | 2 => (d.qf t i 0 45 1 == 1, d.qf t i 0 46 16, d.qf t i 2 29 24)
  | 3 => (d.qf t i 0 33 1 == 1, d.qf t i 0 34 16, d.qf t i 1 0 24)
  | 4 => (d.qf t i 0 25 1 == 1, d.qf t i 0 26 16, d.qf t i 2 29 24)
  | _ => (d.qf t i 0 26 1 == 1, d.qf t i 0 27 16, d.qf t i 2 0 24)

/-! ## Cells (R281–R284) -/

def Dev.setCell (d : Dev) (c : Nat) (e : CellE) : Dev := { d with qm := { d.qm with cells := Tbl.put CellE.free d.qm.cells c e } }

/-- A QM event source raised (R309). -/
def Dev.raiseQm (d : Dev) (k det : Nat) : Dev := d.raise (896 + k) det

/-- Free cells of the packet buffer. -/
def Dev.opbFree (d : Dev) : Nat := 196608 - (d.qm.cells.filter fun e => e.2.st != 0).length

/-- Spill cells in all, in use, and free (R295). -/
def Dev.spCap (d : Dev) : Nat := 4 * d.f HBM.PART.Q * 2 ^ 22
def Dev.spCells (d : Dev) : List Nat := (d.qm.q.map fun e => (e.2.map (·.sp)).flatten).flatten
def Dev.spFree (d : Dev) : Nat := d.spCap - d.spCells.length

/-- The first line of a cell of the packet buffer, and of a spill cell (R94). -/
def cellLn (c : Nat) : Nat := (0x10000000 + c * 256) / 64
def Dev.spLn (d : Dev) (s : Nat) : Nat :=
  let per := d.f HBM.PART.Q * 2 ^ 22
  (0x4000000000 + s / per * 0x1000000000 + (d.f HBM.PART.F + d.f HBM.PART.M) * 0x40000000 + s % per * 256) / 64

/-- The lines of `n` cells from `c` on. -/
def cellLines (c n : Nat) : List Nat := (List.range (4 * n)).map (cellLn c + ·)

/-- This device's own line number of a packet-buffer line. -/
def Dev.opbLn (d : Dev) (ln : Nat) : Nat := d.devId * 2 ^ 43 + ln

/-- A free cell's cached copies recalled, as far as the recall buffer has room (R284). -/
def Dev.recallCell (d : Dev) (c : Nat) : Dev :=
  (cellLines c 1).foldl (fun d ln =>
    let ln := d.opbLn ln
    if d.sfe ln == SfE.empty || (d.txn ln).isSome || d.recalls (homeOf ln) ≥ 32 then d else d.recall ln) d

/-- Cells freed (R284). -/
def Dev.freeCells (d : Dev) (c n : Nat) : Dev :=
  (List.range n).foldl (fun d i => (d.setCell (c + i) ⟨0, 0, (d.cellE (c + i)).owner + 1⟩).recallCell (c + i)) d

/-- The run of `n` cells from `c` on is free and lies within one block. -/
def Dev.runFree (d : Dev) (c n : Nat) : Bool :=
  c / 64 == (c + n - 1) / 64 && c + n ≤ 196608 && (List.range n).all fun i => (d.cellE (c + i)).st == 0

/-- Every copy of the run's lines has been recalled (R284). -/
def Dev.runClean (d : Dev) (c n : Nat) : Bool :=
  (cellLines c n).all fun ln => d.sfe (d.opbLn ln) == SfE.empty && (d.txn (d.opbLn ln)).isNone

/-- Nothing about the run's lines is under way. -/
def Dev.runStill (d : Dev) (c n : Nat) : Bool := d.runClean c n && (cellLines c n).all fun ln => d.still (d.opbLn ln)

/-- The lowest run of `n` cells within one block that can be given out (R284, R288). -/
def Dev.allocRun (d : Dev) (n : Nat) : Option Nat := (List.range 196608).find? fun c => d.runFree c n && d.runStill c n

/-- Cells given a state and owner. -/
def Dev.markCells (d : Dev) (c n st owner : Nat) : Dev :=
  (List.range n).foldl (fun d i => d.setCell (c + i) ⟨st, owner, (d.cellE (c + i)).last⟩) d

/-- HELD: the cells GIVEN, QUEUED or EGRESS that slice `n` owns (R311); the cells of a spilled packet are FREE (R281). -/
def Dev.heldOf (d : Dev) (n : Nat) : Nat := (d.qm.cells.filter fun e => e.2.st != 0 && e.2.owner == n).length

/-! ## Queues -/

def Dev.pkts (d : Dev) (q : Nat) : List Pkt := Tbl.get [] d.qm.q q
def Dev.setPkts (d : Dev) (q : Nat) (l : List Pkt) : Dev := { d with qm := { d.qm with q := Tbl.put [] d.qm.q q l } }

/-- Depths in cells of a queue and of a group (R290). -/
def cellsOf (l : List Pkt) : Nat := (l.map (·.n)).sum
def Dev.groupCells (d : Dev) (g : Nat) : Nat :=
  (d.qm.q.map fun e => if d.qSched e.1 && d.cGroup (d.qClass e.1) == g then cellsOf e.2 else 0).sum

/-- One counter of a queue's line advanced (R309). -/
def Dev.qCount (d : Dev) (q i k : Nat) : Dev :=
  if !d.fb QM.CTRBASE.EN then d
  else
    d.cohAdd qmAgent (d.f QM.CTRBASE.BASE * 2 ^ 21 + q * 128 + 8 * i) k

/-- Drop reasons, as the unit counters number them (R386). -/
def rCOLOUR : Nat := 2
def rGLOBAL : Nat := 3
def rHARD : Nat := 4
def rNOCELL : Nat := 5
def rRESET : Nat := 6
def rFLUSH : Nat := 7

/-- A dropped packet counted (R292). -/
def Dev.qDrop (d : Dev) (q reason colour len : Nat) : Dev :=
  let d := (d.count (2304 + reason) 1).countSlice (d.qSlice q) 11 1
  (d.qCount q (6 + colour) 1).qCount q (9 + colour) len

/-! ## The scheduler (R298–R302) -/

def Node.idle : Node := ⟨0, 0, 0, 0, 0, false, 0⟩
def nodeKey (t i : Nat) : Nat := t * 2 ^ 17 + i
def Dev.node (d : Dev) (k : Nat) : Node := Tbl.get Node.idle d.qm.node k
def Dev.setNode (d : Dev) (k : Nat) (x : Node) : Dev := { d with qm := { d.qm with node := Tbl.put Node.idle d.qm.node k x } }

/-- a ≥ b for 48-bit tags (R299). -/
def ge48 (a b : Nat) : Bool := (a + 2 ^ 48 - b % 2 ^ 48) % 2 ^ 48 < 2 ^ 47
def max48 (a b : Nat) : Nat := if ge48 a b then a else b

/-- The shaper of a node lets it send (R302). -/
def Dev.tokOk (d : Dev) (t i : Nat) : Bool := !(d.shaper t i).1 || decide ((d.node (nodeKey t i)).tok > 0)

/-- The backlogged queues, classes and groups (R298). -/
def Dev.blQueues (d : Dev) : List Nat := (d.qm.q.map (·.1)).filter d.qSched
def Dev.blClasses (d : Dev) : List Nat := (d.blQueues.map d.qClass).eraseDups
def Dev.blGroups (d : Dev) : List Nat := (d.blClasses.map d.cGroup).eraseDups

/-- A queue's head packet, where it is resident. -/
def Dev.readyHead (d : Dev) (q : Nat) : Option Pkt :=
  match d.pkts q with
  | p :: _ => if p.sp.isEmpty then some p else none
  | [] => none

/-- Eligibility (R298): every eligible node has EN set. The unlabelled reconfiguration table lets a queue that has been disabled drain;
the labelled rule governs (R1). -/
def Dev.queueOk (d : Dev) (q : Nat) : Bool := d.qSched q && d.qEn tQUEUE q && (d.readyHead q).isSome && d.tokOk tQUEUE q
def Dev.classOk (d : Dev) (k : Nat) : Bool :=
  d.qEn tCLASS k && d.tokOk tCLASS k && d.blQueues.any fun q => d.qClass q == k && d.queueOk q
def Dev.groupOk (d : Dev) (g : Nat) : Bool :=
  d.qEn tGROUP g && d.tokOk tGROUP g && d.blClasses.any fun k => d.cGroup k == g && d.classOk k

/-- The node of least tag among nodes of a table, ties to the lowest index (R299). -/
def Dev.least (d : Dev) (t : Nat) (l : List Nat) : Option Nat :=
  l.foldl (fun b i => match b with
    | none => some i
    | some j =>
      let ti := (d.node (nodeKey t i)).t
      let tj := (d.node (nodeKey t j)).t
      if ti == tj then some (min i j) else if ge48 ti tj then some j else some i) none

/-- select() at a class, a group and an output (R299, R300). -/
def Dev.selQueue (d : Dev) (k : Nat) : Option Nat := d.least tQUEUE (d.blQueues.filter fun q => d.qClass q == k && d.queueOk q)
def Dev.selClass (d : Dev) (g : Nat) : Option Nat :=
  let e := d.blClasses.filter fun k => d.cGroup k == g && d.classOk k
  let sp := e.filter fun k => d.qf tCLASS k 0 29 1 == 1
  match (sp.map fun k => d.qf tCLASS k 0 30 3).min? with
  | some p => d.least tCLASS (sp.filter fun k => d.qf tCLASS k 0 30 3 == p)
  | none => d.least tCLASS e
def Dev.selGroup (d : Dev) (o : Nat) : Option Nat := d.least tGROUP (d.blGroups.filter fun g => d.gOutput g == o && d.groupOk g)

/-- The packet that a queue, class or group would send next. -/
def Dev.nextQ (d : Dev) (q : Nat) : Option Pkt := (d.pkts q).head?
def Dev.nextK (d : Dev) (k : Nat) : Option Pkt := (d.selQueue k).bind d.nextQ
def Dev.nextG (d : Dev) (g : Nat) : Option Pkt := (d.selClass g).bind d.nextK

/-- One node brought up to date (R299): on becoming backlogged its base is set, and on a change of the packet it would send
next its tag. -/
def Dev.tagNode (d : Dev) (t i parent : Nat) (bl : Bool) (nx : Option Pkt) : Dev :=
  let k := nodeKey t i
  let x := d.node k
  if !bl then (if x.bl then d.setNode k { x with bl := false, nx := 0 } else d)
  else
    let x := if x.bl then x else { x with bl := true, base := max48 (d.node parent).v x.fprev, nx := 0 }
    match nx with
    | some p =>
      if x.nx == p.id + 1 then d.setNode k x
      else d.setNode k { x with nx := p.id + 1, t := (x.base + (p.len + 15) / 16 * (2 ^ 24 / d.weight t i)) % 2 ^ 48 }
    | none => d.setNode k x

/-- The nodes of a table that were backlogged. -/
def Dev.wasBl (d : Dev) (t : Nat) : List Nat :=
  (d.qm.node.filter fun e => e.1 / 2 ^ 17 == t && e.2.bl).map fun e => e.1 % 2 ^ 17

/-- Every node brought up to date, children before parents. -/
def Dev.retag (d : Dev) : Dev :=
  let qs := d.blQueues
  let d := ((d.wasBl tQUEUE) ++ qs).eraseDups.foldl (fun d q =>
    d.tagNode tQUEUE q (nodeKey tCLASS (d.qClass q)) (qs.contains q) (d.nextQ q)) d
  let ks := d.blClasses
  let d := ((d.wasBl tCLASS) ++ ks).eraseDups.foldl (fun d k =>
    d.tagNode tCLASS k (nodeKey tGROUP (d.cGroup k)) (ks.contains k) (d.nextK k)) d
  let gs := d.blGroups
  ((d.wasBl tGROUP) ++ gs).eraseDups.foldl (fun d g =>
    d.tagNode tGROUP g (nodeKey tOUTPUT (d.gOutput g)) (gs.contains g) (d.nextG g)) d

/-- A child served at its parent (R299): V moves to its tag, and its next packet is tagged from there. -/
def Dev.servedAt (d : Dev) (parent child : Nat) : Dev :=
  let t := (d.node child).t
  let d := d.setNode parent { d.node parent with v := t }
  d.setNode child { d.node child with fprev := t, base := t, nx := 0 }

/-- A packet's length charged to a node's shaper (R302). -/
def Dev.charge (d : Dev) (t i len : Nat) : Dev :=
  if (d.shaper t i).1 then
    let k := nodeKey t i
    d.setNode k { d.node k with tok := (d.node k).tok - (len * 2 ^ 32 : Nat) }
  else d

/-- One step of credit for every enabled shaper (R302). -/
def Dev.shaperStep (d : Dev) : Dev :=
  let on := [tQUEUE, tCLASS, tGROUP, tOUTPUT].map fun t =>
    (((d.qm.tab.filter fun e => e.1 % 4 == 0 && e.1 / 4 / 2 ^ 17 == t).map fun e => e.1 / 4 % 2 ^ 17).filter fun i =>
      (d.shaper t i).1).map fun i => (t, i)
  let d := on.flatten.foldl (fun d e =>
    let sh := d.shaper e.1 e.2
    let k := nodeKey e.1 e.2
    let x := d.node k
    d.setNode k { x with tok := min (x.tok + (rateUnits sh.2.1 : Nat)) ((sh.2.2 * 2 ^ 32 : Nat) : Int) }) d
  d.retag

/-! ## After every operation: spill thresholds (R295) and tags -/

/-- SPILLING, OPB_LOW and SPILL_FULL brought up to date; `free0` is the number of free cells before. -/
def Dev.qmSettle (d : Dev) (free0 : Nat) : Dev :=
  let free := d.opbFree
  let low := d.f QM.SPILL.LOW
  let can := d.fb QM.SPILL.EN && d.spFree > 0
  let d := if low ≤ free0 && free < low then d.raiseQm 0 0 else d
  let run := if d.fb QM.STAT.SPILLING then can && free < d.f QM.SPILL.HIGH else can && free < low
  let d := d.setF QM.STAT.SPILLING (b2n run)
  let short := free < low && !can
  let d := if short && !d.qm.full then d.raiseQm 1 0 else d
  ({ d with qm := { d.qm with full := short } }).retag

/-- An operation of the queue manager, with what follows from it. -/
def Dev.qmOp (d : Dev) (g : Dev → Dev) : Dev := (g d).qmSettle d.opbFree

/-! ## Rings -/

def QRing.zero : QRing := ⟨0, 0, false, false, false, false⟩
def Dev.qring (d : Dev) (i : Nat) : QRing := Tbl.get QRing.zero d.qm.ring i
def Dev.setRing (d : Dev) (i : Nat) (x : QRing) : Dev := { d with qm := { d.qm with ring := Tbl.put QRing.zero d.qm.ring i x } }
def QRing.used (x : QRing) : Nat := ringUsed x.head x.tail

/-- LOGSZ of a free-cell ring and of an output's ring. -/
def Dev.frLog (d : Dev) (i : Nat) : Nat := d.qf tFRING i 0 1 4
def Dev.egLog (d : Dev) (o : Nat) : Nat := d.qf tOUTPUT o 0 18 4

/-- A run of cells given to a free-cell ring (R285, R284): false where a condition fails. -/
def Dev.refillOk (d : Dev) (i c : Nat) : Bool :=
  let n := i / 8
  let k := 2 ^ d.qf tFRING i 0 5 3
  d.fb QM.CTL.EN && d.qEn tFRING i && d.qEn tSLICE n && (d.qring i).used < 2 ^ d.frLog i &&
    d.heldOf n + k ≤ d.qf tSLICE n 0 1 29 && d.f QM.SPILL.RSV + k < d.opbFree && c % k == 0 && d.runFree c k

/-- The ring is empty and cannot be refilled: STARVED, once (R285). -/
def Dev.starve (d : Dev) (i : Nat) : Dev :=
  let x := d.qring i
  let n := i / 8
  let k := 2 ^ d.qf tFRING i 0 5 3
  let short := d.qf tSLICE n 0 1 29 < d.heldOf n + k || d.opbFree ≤ d.f QM.SPILL.RSV + k
  if d.fb QM.CTL.EN && d.qEn tFRING i && x.used == 0 && short && !x.sw then (d.setRing i { x with sw := true }).raiseQm 3 i else d

/-- A unit's own access that no checker judges (R330). -/
def qmOwn (w : OwnFor) : Own := ⟨w, qmAgent, 0, true⟩

/-- A queue-manager write into a cell that slice `n` has or is given: logged at the cell's place in its packet-buffer window
(R47, R282, R288). -/
def Dev.cellLog (d : Dev) (w : OwnFor) (n c : Nat) : Dev := d.dlog w n (d.qf tSLICE n 2 0 27 * 2 ^ 21 + c * 256) 256

/-- Zeros written to the cells that another slice held, or none (R284). -/
def Dev.zeroRun (d : Dev) (w : OwnFor) (c k n : Nat) : Dev :=
  (List.range k).foldl (fun d i =>
    if (d.cellE (c + i)).last == n + 1 then d
    else (cellLines (c + i) 1).foldl (fun d ln => (d.cohWrite (qmOwn w) (d.opbLn ln) 0 (BitVec.allOnes 64)).2) (d.cellLog w n (c + i))) d

/-- FRING_REFILL's effect: the run from cell `c`, once nothing about its lines is under way, zeroed and written into ring `i`
(R284, R285). -/
def Dev.fringRefill (d : Dev) (i c : Nat) : Dev :=
  let k := 2 ^ d.qf tFRING i 0 5 3
  let n := i / 8
  if !d.refillOk i c then d.starve i
  else if !d.runClean c k then (List.range k).foldl (fun d j => d.recallCell (c + j)) d
  else if !d.runStill c k then d
  else d.attempt fun d =>
    let x := d.qring i
    let e := leBytes 8 (1 + c * 2 ^ 8 + k * 2 ^ 32)
    match (d.zeroRun (.unit 6) c k n).sliceWrite (.unit 6) 0 n (d.qf tFRING i 1 0 48 + x.tail % 2 ^ d.frLog i * 8) qmAgent e with
    | (false, d) => d
    | (true, d) => (d.markCells c k 1 n).setRing i { d.qring i with tail := (x.tail + 1) % 65536, sw := false }

/-- The head doorbell of a free-cell ring (R286). -/
def Dev.fringDoorbell (d : Dev) (p n r v : Nat) : Dev :=
  let i := 8 * n + r
  let x := d.qring i
  if v / 65536 != 0 || !d.qEn tFRING i then d.accErr p
  else if ringUsed x.head v ≤ x.used then (d.setRing i { x with head := v }).starve i
  else d.setRing i { x with herr := true }

/-! ## Egress (R298, R304, R305) -/

/-- The egress descriptor of a packet of queue `q` (R304). -/
def Dev.descriptor (d : Dev) (q : Nat) (p : Pkt) : List Byte :=
  let psn := p.psn || (cellLines p.cell p.n).any fun ln => (d.lmeta (d.opbLn ln)).psn
  [1, BitVec.ofNat 8 (p.colour + b2n psn * 4)] ++ leBytes 2 p.len ++ leBytes 4 p.cell ++ leBytes 4 q ++ leBytes 4 p.info ++
    leBytes 8 p.tin ++ leBytes 4 (d.now / 8) ++ leBytes 2 (d.qSlice q) ++ leBytes 2 0

/-- A packet has left its queue: counted, its cells EGRESS with their new owner (R304, R383, R386). -/
def Dev.departPkt (d : Dev) (q owner : Nat) (p : Pkt) : Dev :=
  let d := ((d.setPkts q (d.pkts q).tail).markCells p.cell p.n 3 owner).count 2305 1
  d.countSlice (d.qSlice q) 12 1

/-- A descriptor of the output is on its way into its ring. -/
def Dev.egBusy (d : Dev) (o : Nat) : Bool := d.qm.egw.any (·.o == o)

/-- The output may dequeue (R298), its egress ring and shaper among the conditions. -/
def Dev.mayDequeue (d : Dev) (o : Nat) : Bool :=
  d.fb QM.CTL.EN && d.qEn tOUTPUT o && (d.qring (32768 + o)).used < 2 ^ d.egLog o && !(d.qring (32768 + o)).paused &&
    !d.egBusy o && d.tokOk tOUTPUT o && (d.selGroup o).isSome

/-- The output's VEC raised for its slice. -/
def Dev.egressVec (d : Dev) (o : Nat) : Dev := d.raiseVec (d.oSlice o) (d.qf tOUTPUT o 0 22 4)

/-- A descriptor written into an output's ring (R304, R305): false where it fails, none while its home has not answered. -/
def Dev.egressWrite (d : Dev) (o : Nat) (bs : List Byte) : Option Bool × Dev :=
  let i := 32768 + o
  let x := d.qring i
  match d.tryOwn fun d => d.sliceWrite (.unit (16 + o)) 0 (d.oSlice o) (d.qf tOUTPUT o 1 0 48 + x.tail % 2 ^ d.egLog o * 32) qmAgent bs with
  | (none, d) => (none, d)
  | (some false, d) => (some false, (if x.sw then d else d.raiseQm 4 o).setRing i { d.qring i with sw := true, paused := true })
  | (some true, d) =>
    let y := { x with tail := (x.tail + 1) % 65536, sw := false, armed := false }
    let d := d.setRing i y
    let d := if y.used ≥ 2 ^ d.egLog o then d.raiseQm (32 + o / 8) o else d
    (some true, if x.armed then d.egressVec o else d)

/-- The output's descriptor is written no longer. -/
def Dev.egDrop (d : Dev) (e : EgW) : Dev := { d with qm := { d.qm with egw := d.qm.egw.erase e } }

/-- A descriptor taken as far as it goes: once it is written its packet leaves, and the scheduler's nodes follow (R299, R304). -/
def Dev.serveOn (d : Dev) (e : EgW) : Dev :=
  match d.readyHead e.q with
  | none => d.egDrop e
  | some p =>
    match d.egressWrite e.o e.bs with
    | (none, d) => d
    | (some false, d) => d.egDrop e
    | (some true, d) =>
      let d := (d.egDrop e).departPkt e.q (d.oSlice e.o) p
      let d := d.servedAt (nodeKey tOUTPUT e.o) (nodeKey tGROUP e.g)
      let d := d.servedAt (nodeKey tGROUP e.g) (nodeKey tCLASS e.k)
      let d := d.servedAt (nodeKey tCLASS e.k) (nodeKey tQUEUE e.q)
      (((d.charge tOUTPUT e.o p.len).charge tGROUP e.g p.len).charge tCLASS e.k p.len).charge tQUEUE e.q p.len

/-- serve(o): the selected packet is sent (R299). -/
def Dev.serve (d : Dev) (o : Nat) : Dev :=
  match d.selGroup o with
  | none => d
  | some g =>
    match d.selClass g with
    | none => d
    | some k =>
      match d.selQueue k with
      | none => d
      | some q =>
        match d.readyHead q with
        | none => d
        | some p =>
          let e : EgW := ⟨o, g, k, q, d.descriptor q p⟩
          ({ d with qm := { d.qm with egw := d.qm.egw ++ [e] } } : Dev).serveOn e

/-- The output whose turn it is, in rotation (R298). -/
def Dev.nextOutput (d : Dev) : Option Nat :=
  ((List.range 256).map fun i => (d.qm.rot + i) % 256).find? d.mayDequeue

/-- SCHEDULED_DEQUEUE's effect. -/
def Dev.schedDequeue (d : Dev) : Dev :=
  match d.nextOutput with
  | some o => (({ d with qm := { d.qm with rot := (o + 1) % 256 } } : Dev)).serve o
  | none => d

/-- A paused output tries its descriptor write again (R305). -/
def Dev.egressRetry (d : Dev) (o : Nat) : Dev :=
  let x := d.qring (32768 + o)
  if !x.paused then d
  else
    let d := d.setRing (32768 + o) { x with paused := false }
    if d.mayDequeue o then d.serve o else d.setRing (32768 + o) { d.qring (32768 + o) with paused := true }

/-- The outputs of a slice. -/
def Dev.outputsOf (d : Dev) (n : Nat) : List Nat := (List.range 256).filter fun o => d.qEn tOUTPUT o && d.oSlice o == n

/-- Failing writes of a slice's outputs tried again after a translation change (R305). -/
def Dev.egressRetryAll (d : Dev) (n : Nat) : Dev :=
  if (d.outputsOf n).all fun o => !(d.qring (32768 + o)).paused then d
  else d.qmOp fun d => (d.outputsOf n).foldl (fun d o => d.egressRetry o) d

/-- Everything of a slice that waits for its translation tried again (R271, R305). -/
def Dev.retryAll (d : Dev) (n : Nat) : Dev := (d.cqRetryAll n).egressRetryAll n

/-- The head doorbell of egress ring slot `e` of slice `n` (R305). -/
def Dev.egressDoorbell (d0 : Dev) (p n e v : Nat) : Dev := d0.qmOp fun d =>
  match (d.outputsOf n).find? fun o => d.qf tOUTPUT o 0 13 5 == e with
  | none => d.accErr p
  | some o =>
    let i := 32768 + o
    let x := d.qring i
    let h := v % 65536
    if bitsN v 16 15 != 0 then d.accErr p
    else if x.used < ringUsed x.head h then (d.setRing i { x with herr := true }).egressRetry o
    else
      let d := (d.setRing i { x with head := h }).egressRetry o
      if !bitN v 31 then d
      else if (d.qring i).used != 0 then d.egressVec o
      else d.setRing i { d.qring i with armed := true }

/-! ## Commands (R287, R288, R294) -/

/-- A packet entry of an enqueue command. -/
structure PktE where
  q : Nat
  meter : Nat
  mtr : Bool
  colour : Nat
  cell : Nat
  len : Nat
  copy : Bool
  res : Nat
  info : Nat

/-- Entry `i` of an enqueue command. -/
def pktE (x : Nat) (i : Nat) : PktE :=
  let b := 64 + 112 * i
  ⟨bitsN x b 17, bitsN x (b + 17) 20, bitsN x (b + 37) 1 == 1, bitsN x (b + 38) 2, bitsN x (b + 40) 18,
    bitsN x (b + 58) 15, bitsN x (b + 73) 1 == 1, bitsN x (b + 74) 6, bitsN x (b + 80) 32⟩

def PktE.n (e : PktE) : Nat := (e.len + 255) / 256

/-- The cells of an entry lie in one block, and each passes a test. -/
def Dev.runAll (d : Dev) (c n : Nat) (g : CellE → Bool) : Bool :=
  c / 64 == (c + n - 1) / 64 && c + n ≤ 196608 && (List.range n).all fun i => g (d.cellE (c + i))

/-- No two of a list of runs share a cell. -/
def disjoint : List (Nat × Nat) → Bool
  | [] => true
  | r :: rs => rs.all (fun u => r.1 + r.2 ≤ u.1 || u.1 + u.2 ≤ r.1) && disjoint rs

/-- The status of an enqueue command (R287): `own` is the slice that the checks use, none at fabric privilege. -/
def Dev.enqStatus (d : Dev) (own : Option Nat) (x : Nat) : Nat :=
  let cnt := bitsN x 0 3
  let es := (List.range cnt).map (pktE x)
  let slice := fun (e : PktE) => own.getD (d.qSlice e.q)
  if cnt == 0 || cnt > 4 || bitsN x 3 61 != 0 || es.any (fun e => e.res != 0 || e.len == 0 || e.len > 16384) then 1
  else if es.any fun e => d.qSlice e.q != slice e || d.f (SLICE.STATE.STATE (d.qSlice e.q)) == 0 then 2
  else if es.any fun e => !d.qEn tQUEUE e.q then 3
  else if es.any fun e => e.mtr && (e.meter < d.qf tSLICE (slice e) 1 0 20 || d.qf tSLICE (slice e) 1 20 20 < e.meter ||
      e.meter ≥ 32768 * d.f QM.MREG.SIZE) then 4
  else if es.any (fun e => !d.runAll e.cell e.n fun c => c.owner == slice e && (c.st == 1 || (e.copy && c.st == 3))) ||
      !disjoint (es.map fun e => (e.cell, e.n)) then 5
  else if !d.fb QM.CTL.EN then 6
  else 0

/-- The colour of a packet that a meter polices, by an update of the record at its home (R288, R239): an invalid record, or a
poisoned one, colours it red. -/
def Dev.police (d : Dev) (w : OwnFor) (m len pre : Nat) : Nat × Dev :=
  let a := d.devId * 2 ^ 49 + d.f QM.MREG.BASE * 2 ^ 20 + 32 * m
  let ln := a / 64
  let u := { d.ownMsg (qmOwn w) opAtom ln with
    aop := BitVec.ofNat 4 upMETER, place := 2, off := BitVec.ofNat 3 (a % 64 / 8), opa := w64 len, opb := w64 pre }
  let (r, d) := d.ownAsk (qmOwn w) u (d.sfe ln == SfE.empty && d.mscHolds ln) fun d =>
    let (r, d) := d.homeRead ln 0
    if r.psn then ({ op := opCmpP, why := 3 }, d)
    else match meterNew (lineSlice r.data (a % 64) 32) len pre d.now with
      | (some y, c) =>
        ({ op := opDataA, old := w64 c }, d.homeWrite ln (linePatch 0 (a % 64) y) (BitVec.ofNat 64 ((2 ^ 32 - 1) * 2 ^ (a % 64))))
      | (none, c) => ({ op := opDataA, old := w64 c }, d)
  (if r.op == opCmpP then 2 else r.old.toNat % 4, d)

/-- The reason that admission drops a packet, 0 for none (R290). -/
def Dev.admitDrop (d : Dev) (q colour n : Nat) : Nat :=
  let g := d.cGroup (d.qClass q)
  let past := fun (w lo : Nat) => d.qf tQUEUE q w lo 29 < cellsOf (d.pkts q) + n ||
    (d.qSched q && d.qf tGROUP g w lo 29 < d.groupCells g + n)
  let free := d.opbFree + d.spFree
  if colour == 2 && past 1 0 then rCOLOUR
  else if colour == 2 && free < d.f QM.GTH.GTH_R then rGLOBAL
  else if colour == 1 && past 1 29 then rCOLOUR
  else if colour == 1 && free < d.f QM.GTH.GTH_Y then rGLOBAL
  else if past 2 0 then rHARD
  else 0

/-- Cells copied by the queue manager, with their poison, and the writes logged for slice `n` (R288). -/
def Dev.qmCopy (d : Dev) (w : OwnFor) (src dst k n : Nat) : Dev :=
  (List.range (4 * k)).foldl (fun d i =>
    let (r, d) := d.cohRead (qmOwn w) (d.opbLn (cellLn src + i))
    let d := if i % 4 == 0 then d.cellLog w n (dst + i / 4) else d
    let d := (d.cohWrite (qmOwn w) (d.opbLn (cellLn dst + i)) r.data (BitVec.allOnes 64)).2
    if r.psn then d.poison (d.opbLn (cellLn dst + i)) r.why else d) d

/-- One packet of a command handled (R288): whether it was admitted, and its colour. The cells of a copy that admission drops hold
data of the queue's slice, and are freed as its cells (R284). -/
def Dev.enqPkt (d : Dev) (w : OwnFor) (e : PktE) : Bool × Nat × Dev :=
  let n := e.n
  let col0 := if e.colour == 3 then 2 else e.colour
  match (if e.copy then d.allocRun n else some e.cell) with
  | none => (false, col0, d.qDrop e.q rNOCELL col0 e.len)
  | some c =>
    let d := if e.copy then d.qmCopy w e.cell c n (d.qSlice e.q) else d
    let (col, d) := if e.mtr then d.police w e.meter e.len e.colour else (col0, d)
    let why := d.admitDrop e.q col n
    if why != 0 then
      (false, col, ((if e.copy then d.markCells c n 1 (d.qSlice e.q) else d).freeCells c n).qDrop e.q why col e.len)
    else
      let p : Pkt := ⟨d.qm.pid, c, n, e.len, col, e.info, d.time / 8, false, []⟩
      let d : Dev := { d with qm := { d.qm with pid := d.qm.pid + 1 } }
      let d := (d.setPkts e.q (d.pkts e.q ++ [p])).markCells c n 2 (d.qSlice e.q)
      let d := ((d.count 2304 1).countSlice (d.qSlice e.q) 9 1).countSlice (d.qSlice e.q) 10 e.len
      (true, col, ((d.qCount e.q col 1).qCount e.q (3 + col) e.len).retag)

/-- The packets of a command in entry order: the result's admitted bits and colours (R242). -/
def Dev.enqAll (d : Dev) (w : OwnFor) (x : Nat) : Nat × Dev :=
  (List.range (bitsN x 0 3)).foldl (fun (acc : Nat × Dev) i =>
    let (ok, col, d) := acc.2.enqPkt w (pktE x i)
    (acc.1 + b2n ok * 2 ^ i + col * 2 ^ (4 + 2 * i), d)) (0, d)

/-- An enqueue command: its result word (R242, R289). -/
def Dev.enqueue (d : Dev) (own : Option Nat) (x : Nat) : Nat × Dev :=
  let st := d.enqStatus own x
  if st != 0 then (st * 2 ^ 16, d)
  else
    let r := d.enqAll (.unit 0) x
    (r.1, r.2.qmSettle d.opbFree)

/-- Entry `i` of a release command: first cell, cells, reserved bits. -/
def relE (x i : Nat) : Nat × Nat × Nat :=
  let b := 64 + 64 * i
  (bitsN x b 18, bitsN x (b + 18) 7, bitsN x (b + 25) 39)

/-- The status of a release command (R287); NCELLS 0 names no cell of a block, and one above 64 crosses its end. -/
def Dev.relStatus (d : Dev) (own : Option Nat) (x : Nat) : Nat :=
  let cnt := bitsN x 0 3
  let es := (List.range cnt).map (relE x)
  if cnt == 0 || bitsN x 3 61 != 0 || es.any (fun e => e.2.2 != 0) then 1
  else if es.any (fun e => e.2.1 == 0 || !d.runAll e.1 e.2.1 fun c => (c.st == 1 || c.st == 3) && (match own with | some n => c.owner == n | none => true)) ||
      !disjoint (es.map fun e => (e.1, e.2.1)) then 5
  else if !d.fb QM.CTL.EN then 6
  else 0

/-- A release command (R294): its status. -/
def Dev.release (d : Dev) (own : Option Nat) (x : Nat) : Nat × Dev :=
  let st := d.relStatus own x
  if st != 0 then (st, d)
  else (0, d.qmOp fun d => (List.range (bitsN x 0 3)).foldl (fun d i => d.freeCells (relE x i).1 (relE x i).2.1) d)

/-! ## The windows (R287, R289, R293) -/

/-- A primitive's result and CF.V given. -/
def Dev.primGiveV (d : Dev) (t rd : Nat) (v : Word) (b : Bool) : Dev :=
  (d.updStr t fun x => (x.setG rd v).withV b).primNext t false

/-- The result of a command given to its slot, counted where it is refused, or to its strand (R242, R289, R41). -/
def Dev.qmResult (d : Dev) (c : QmTodo) (r : Nat) : Dev :=
  match c.strand with
  | some t =>
    match (d.str t).wait with
    | .enq rd => d.finishAccess t fun d => d.primGiveV t rd (w64 r) (r / 2 ^ 16 == 0)
    | _ => d
  | none =>
    if c.rel then d
    else
      let n := c.own.getD 0
      let d := if r / 2 ^ 16 != 0 then d.countSlice n 14 1 else d
      let k := n * 64 + c.slot
      let old := Tbl.get 0 d.qm.res k
      { d with qm := { d.qm with res := Tbl.put 0 d.qm.res k (w64 (r + (getBits old 32 32 + 1) % 2 ^ 32 * 2 ^ 32)) } }

/-- A command carried out, and its result given. -/
def Dev.qmDo (d : Dev) (c : QmTodo) : Dev :=
  let (r, d) := if c.rel then (let r := d.release c.own c.x; (r.1 * 2 ^ 16, r.2)) else d.enqueue c.own c.x
  d.qmResult c r

/-- The commands accepted handled in order, as far as their accesses are answered (R288). -/
def Dev.qmGo : Nat → Dev → Dev
  | 0, d => d
  | k + 1, d =>
    match d.qm.todo with
    | [] => d
    | c :: cs =>
      match d.tryOwn fun d => ((), ({ d with qm := { d.qm with todo := cs } } : Dev).qmDo c) with
      | (some _, d) => Dev.qmGo k d
      | (none, d) => d

/-- A command accepted (R287). -/
def Dev.qmTake (d : Dev) (c : QmTodo) : Dev :=
  Dev.qmGo (d.qm.todo.length + 1) { d with qm := { d.qm with todo := d.qm.todo ++ [c] } }

/-- An access of the queue manager has been answered: what waited for it goes on. -/
def Dev.qmGoOn (d : Dev) (k : Nat) : Dev :=
  if k == 0 then Dev.qmGo d.qm.todo.length d
  else match d.qm.egw.find? (·.o + 16 == k) with
    | some e => d.qmOp fun d => d.serveOn e
    | none => d

/-- A 64-byte enqueue command of a host has arrived in a slot (R41, R289). -/
def Dev.enqTake (d : Dev) (n slot : Nat) (x : Line) : Dev :=
  let st := d.f (SLICE.STATE.STATE n)
  if st == 2 || st == 3 then d.countSlice n 14 1
  else if !d.qEn tSLICE n then d
  else d.qmTake ⟨false, some n, x.toNat, slot, none⟩

/-- Bytes written into a command slot: enqueue slots 0–63, release slots 64–79 (R272, R293). -/
def Dev.qmBytes (d : Dev) (n slot off : Nat) (bs : List Byte) : Dev :=
  let k := n * 128 + slot
  let b := Tbl.get ((0, 0) : Line × BitVec 64) d.qm.buf k
  let bs := bs.take (64 - off)
  let x := linePatch b.1 off bs
  let got := b.2 ||| BitVec.ofNat 64 ((2 ^ bs.length - 1) * 2 ^ off)
  let put := fun (v : Line × BitVec 64) => ({ d with qm := { d.qm with buf := Tbl.put (0, 0) d.qm.buf k v } } : Dev)
  if got == BitVec.allOnes 64 then
    (if slot < 64 then (put (0, 0)).enqTake n slot x else (put (0, 0)).qmTake ⟨true, some n, x.toNat, slot, none⟩)
  else put (x, got)

/-- The status words of a free-cell ring and of an egress ring slot (R293). -/
def Dev.fringWord (d : Dev) (n r : Nat) : Nat :=
  let x := d.qring (8 * n + r)
  x.head + x.tail * 2 ^ 16 + b2n x.herr * 2 ^ 32 + b2n x.sw * 2 ^ 33
def ringWord (x : QRing) : Nat :=
  x.head + x.tail * 2 ^ 16 + b2n x.paused * 2 ^ 32 + b2n x.sw * 2 ^ 33 + b2n x.herr * 2 ^ 34 + b2n x.armed * 2 ^ 35
def Dev.egressWord (d : Dev) (n e : Nat) : Nat :=
  match (d.outputsOf n).find? fun o => d.qf tOUTPUT o 0 13 5 == e with
  | some o => ringWord (d.qring (32768 + o))
  | none => 0

/-- Byte `off` of the release page read: its status words; everything else reads 0. -/
def Dev.relByte (d : Dev) (n off : Nat) : Byte :=
  if 0x800 ≤ off && off < 0x840 then byteOf (d.fringWord n ((off - 0x800) / 8)) (off % 8)
  else if 0x900 ≤ off && off < 0xA00 then byteOf (d.egressWord n ((off - 0x900) / 8)) (off % 8)
  else 0

/-- Byte `off` of the enqueue page read: the result words (R289). -/
def Dev.enqByte (d : Dev) (n off : Nat) : Byte :=
  if off % 64 < 8 then byteOf (Tbl.get 0 d.qm.res (n * 64 + off / 64)).toNat (off % 8) else 0

/-! ## Spill and refill (R295–R297) -/

/-- The packets of a queue with the number of cells before each. -/
def withPos : Nat → List Pkt → List (Nat × Pkt)
  | _, [] => []
  | k, p :: ps => (k, p) :: withPos (k + p.n) ps

/-- The resident packets of a queue that lie wholly beyond its first HEADW cells. -/
def Dev.spillable (d : Dev) (q : Nat) : List Pkt :=
  ((withPos 0 (d.pkts q)).filter fun e => e.2.sp.isEmpty && d.f QM.CTL.HEADW ≤ e.1).map (·.2)

/-- The resident cells of a queue that lie beyond its first HEADW cells, those of a packet that straddles among them. -/
def Dev.beyondHead (d : Dev) (q : Nat) : Nat :=
  let w := d.f QM.CTL.HEADW
  ((withPos 0 (d.pkts q)).map fun e => if e.2.sp.isEmpty then e.1 + e.2.n - max e.1 w else 0).sum

/-- The queue that a spill step takes from: of those with a packet to spill, the one with most resident cells beyond the
head, lowest index on a tie (R295). -/
def Dev.spillQueue (d : Dev) : Option Nat :=
  let l := (d.qm.q.filter fun e => !(d.spillable e.1).isEmpty).map fun e => (e.1, d.beyondHead e.1)
  (l.foldl (fun (b : Option (Nat × Nat)) e => match b with
    | some o => if o.2 < e.2 then some e else b
    | none => some e) none).map (·.1)

/-- The free spill cells from `start` on, wrapping, `n` of them; each queue manager takes them as it will. -/
def Dev.spillRun (d : Dev) (start n : Nat) : List Nat :=
  let used := d.spCells
  (((List.range (used.length + n)).map fun i => (start + i) % d.spCap).filter fun s => !used.contains s).take n

/-- SPILL_STEP's effect: one packet moved to spill cells (R295). -/
def Dev.spillStep (d : Dev) (start : Nat) : Dev :=
  if !d.fb QM.STAT.SPILLING then d
  else match d.spillQueue with
    | none => d
    | some q =>
      match (d.spillable q).getLast? with
      | none => d
      | some p =>
        if d.spFree < p.n then d
        else d.attempt fun d => d.qmOp fun d =>
          let sp := d.spillRun start p.n
          let d := (List.range (4 * p.n)).foldl (fun d i =>
            let (r, d) := d.cohRead (qmOwn (.unit 5)) (d.opbLn (cellLn p.cell + i))
            let ln := d.opbLn (d.spLn (sp.getD (i / 4) 0) + i % 4)
            ((d.putLine ln r.data).setMeta ln ⟨r.psn, r.why, 0⟩).hbmOp ln 1) d
          let d := d.freeCells p.cell p.n
          (d.setPkts q ((d.pkts q).map fun u => if u.id == p.id then { u with sp := sp } else u)).count 2312 1

/-- The spilled packet that a refill of a queue takes: the first that starts within its head (R296). -/
def Dev.refillPkt (d : Dev) (q : Nat) : Option Pkt :=
  ((withPos 0 (d.pkts q)).find? fun e => !e.2.sp.isEmpty && e.1 < d.f QM.CTL.HEADW).map (·.2)

/-- REFILL's effect; bit `i` of `ue` marks line `i` of the packet uncorrectable (R296, R297). -/
def Dev.refill (d : Dev) (q : Nat) (ue : BitVec 256) : Dev :=
  match d.refillPkt q with
  | none => d
  | some p =>
    match d.allocRun p.n with
    | none => d
    | some c => d.attempt fun d => d.qmOp fun d =>
      let lost := fun (d : Dev) (i : Nat) =>
        let ln := d.spLn (p.sp.getD (i / 4) 0) + i % 4
        ue.getLsbD i || bitN (d.f (HBM.STAT.PCFAIL (hbmStack ln))) (hbmPc ln)
      let bad := (List.range (4 * p.n)).any fun i => lost d i
      let d := (List.range (4 * p.n)).foldl (fun d i =>
        let ln := d.opbLn (d.spLn (p.sp.getD (i / 4) 0) + i % 4)
        let dl := d.opbLn (cellLn c + i)
        let m := d.lmeta ln
        let d := d.hbmOp ln 0
        let d := if i % 4 == 0 then d.cellLog (.unit 5) (d.qSlice q) (c + i / 4) else d
        let d := (d.cohWrite (qmOwn (.unit 5)) dl (d.line ln) (BitVec.allOnes 64)).2
        if lost d i then d.poison dl 7 else if m.psn then d.poison dl m.why else d) d
      let d := d.markCells c p.n 2 (d.qSlice q)
      let d := d.setPkts q ((d.pkts q).map fun u =>
        if u.id == p.id then { u with cell := c, sp := [], psn := u.psn || bad } else u)
      let d := d.count 2313 1
      let d := if bad then d.raiseQm 2 q else d
      (d.sor.strand.filter fun e => e.2.live && e.2.wait == .hold 3).foldl (fun d e => d.unhold e.1) d

/-! ## Discards (R306, R307) -/

/-- Every packet of a queue discarded with a reason. -/
def Dev.discard (d : Dev) (q reason : Nat) : Dev :=
  let ps := d.pkts q
  let d : Dev := { d with qm := { d.qm with egw := d.qm.egw.filter (·.q != q) } }
  let d := d.setPkts q []
  ps.foldl (fun d p => (if p.sp.isEmpty then d.freeCells p.cell p.n else d).qDrop q reason p.colour p.len) d

/-- SLRESET's part (R306). -/
def Dev.qmReset (d : Dev) (n : Nat) : Dev :=
  d.qmOp fun d =>
    let d := ((d.qm.q.map (·.1)).filter fun q => d.qSlice q == n).foldl (fun d q => d.discard q rRESET) d
    let d := ((d.qm.cells.filter fun e => e.2.st != 0 && e.2.owner == n).map (·.1)).foldl (fun d c => d.freeCells c 1) d
    let rs := (List.range 8).map (8 * n + ·) ++ ((List.range 256).filter fun o => d.oSlice o == n).map (32768 + ·)
    rs.foldl (fun d i => d.setRing i { d.qring i with head := 0, tail := 0 }) d

/-! ## Table commands (R311) -/

/-- Thresholds in order (R291). -/
def thrOk (w1 w2 : Word) : Bool := getBits w1 0 29 ≤ getBits w1 29 29 && getBits w1 29 29 ≤ getBits w2 0 29

/-- What a WRITE turns away as BAD_ARG. A reserved bit that is set counts as a reserved value (DESIGN CHOICE, log entry 82). -/
def Dev.qmBad (d : Dev) (t i : Nat) (w0 w1 w2 : Word) : Bool :=
  let b := qmBits t
  i ≥ qmSize t || w0.toNat / 2 ^ b.1 != 0 || w1.toNat / 2 ^ b.2.1 != 0 || w2.toNat / 2 ^ b.2.2 != 0 ||
  (match t with
   | 1 => getBits w0 1 4 < 4 || getBits w0 5 3 == 7 || getBits w1 0 48 % (2 ^ getBits w0 1 4 * 8) != 0
   | 2 => getBits w0 29 16 == 0 || !rateOk (getBits w0 46 16) || (w0.getLsbD 45 && getBits w2 29 24 == 0) || !thrOk w1 w2
   | 3 => getBits w0 13 16 == 0 || !rateOk (getBits w0 34 16) || (w0.getLsbD 33 && getBits w1 0 24 == 0)
   | 4 => getBits w0 9 16 == 0 || !rateOk (getBits w0 26 16) || (w0.getLsbD 25 && getBits w2 29 24 == 0) || !thrOk w1 w2
   | 5 => getBits w0 18 4 < 4 || !rateOk (getBits w0 27 16) || (w0.getLsbD 26 && getBits w2 0 24 == 0) ||
      getBits w1 0 48 % (2 ^ getBits w0 18 4 * 32) != 0 ||
      (w0.getLsbD 0 && (List.range 256).any fun o => o != i && d.qEn tOUTPUT o && d.oSlice o == getBits w0 1 12 &&
        d.qf tOUTPUT o 0 13 5 == getBits w0 13 5)
   | _ => false)

/-- What a WRITE turns away as BUSY. -/
def Dev.qmBusy (d : Dev) (t i : Nat) (w0 w1 : Word) : Bool :=
  let on := d.qEn t i
  let diff := fun (lo n : Nat) => getBits w0 lo n != d.qf t i 0 lo n
  match t with
  | 1 => on && (diff 1 4 || getBits w1 0 48 != d.qf t i 1 0 48)
  | 2 => (on || !(d.pkts i).isEmpty) && (diff 1 12 || diff 13 1 || diff 14 15)
  | 3 => on && diff 1 12
  | 4 => on && diff 1 8
  | 5 => on && (diff 18 4 || getBits w1 0 48 != d.qf t i 1 0 48)
  | _ => false

/-- Word 3 of an entry, which is computed. -/
def Dev.qmWord3 (d : Dev) (t i : Nat) : Word :=
  match t with
  | 0 => w64 (d.heldOf i)
  | 1 => w64 (d.fringWord (i / 8) (i % 8))
  | 2 =>
    let ps := d.pkts i
    w64 (cellsOf ps + b2n (ps.any fun p => !p.sp.isEmpty) * 2 ^ 29 + min ps.length (2 ^ 32 - 1) * 2 ^ 30 +
      b2n (match ps.head? with | some p => !p.sp.isEmpty | none => false) * 2 ^ 62)
  | 3 => w64 ((d.blQueues.filter fun q => d.qClass q == i).length)
  | 4 => w64 (d.groupCells i)
  | 5 => w64 (ringWord (d.qring (32768 + i)))
  | _ => 0

/-- The shaper tokens of a node cut to its burst (reconfiguration table). -/
def Dev.cutTokens (d : Dev) (t i : Nat) : Dev :=
  if t < 2 then d
  else
    let k := nodeKey t i
    d.setNode k { d.node k with tok := min (d.node k).tok (((d.shaper t i).2.2 * 2 ^ 32 : Nat) : Int) }

/-- PARENT of a queue, class or group. -/
def Dev.parentOf (d : Dev) (t i : Nat) : Nat :=
  if t == tQUEUE then d.qClass i else if t == tCLASS then d.cGroup i else if t == tGROUP then d.gOutput i else 0

/-- A node under a new parent is not yet backlogged there: R299 gives it a base of that parent when it becomes so. -/
def Dev.newParent (d : Dev) (t i : Nat) : Dev :=
  let k := nodeKey t i
  d.setNode k { d.node k with bl := false, nx := 0 }

/-- A table command carried out: its status, 0 OK, 1 BAD_ARG, 2 BUSY. -/
def Dev.qmCmd (d : Dev) (t i op : Nat) : Nat × Dev :=
  let w := fun j => d.reg (QM.TDATA.WORD j)
  match op with
  | 1 =>
    if i ≥ qmSize t then (1, d)
    else (0, (((d.setReg (QM.TDATA.WORD 0) (d.qw t i 0)).setReg (QM.TDATA.WORD 1) (d.qw t i 1)).setReg
      (QM.TDATA.WORD 2) (d.qw t i 2)).setReg (QM.TDATA.WORD 3) (d.qmWord3 t i))
  | 2 =>
    if d.qmBad t i (w 0) (w 1) (w 2) then (1, d)
    else if d.qmBusy t i (w 0) (w 1) then (2, d)
    else
      let k := (t * 2 ^ 17 + i) * 4
      let tab := Tbl.put 0 (Tbl.put 0 (Tbl.put 0 d.qm.tab k (w 0)) (k + 1) (w 1)) (k + 2) (w 2)
      let old := d.parentOf t i
      let d : Dev := { d with qm := { d.qm with tab := tab } }
      (0, (((if d.parentOf t i == old then d else d.newParent t i)).cutTokens t i).retag)
  | 3 => if t != 2 || i ≥ qmSize t then (1, d) else (0, d.qmOp fun d => d.discard i rFLUSH)
  | _ => (1, d)

/-- A write of QM.TCMD (R311). TABLE_ERR names the queue, output or ring concerned, and 0 where there is none (R376). Each command is one step of this model, so BUSY is never seen set. -/
def Dev.tcmdWrite (d : Dev) (v : Word) : Dev :=
  let t := getBits v 0 3
  let i := getBits v 3 17
  let op := getBits v 20 2
  let d := if t ≤ 5 then d.setF QM.TCMD.TABLE t else d
  let d := d.setF QM.TCMD.INDEX i
  let d := if op != 0 then d.setF QM.TCMD.OP op else d
  if !v.getLsbD 62 then d
  else
    let (st, d) := if t ≤ 5 then d.qmCmd t i op else (1, d)
    (if st != 0 then d.raiseQm 5 (if t == tQUEUE || t == tOUTPUT || t == tFRING then i else 0) else d).setF QM.TCMD.STATUS st

/-! ## SPILL and GTH (R310, R291) -/

/-- A write of QM.SPILL. -/
def Dev.spillWrite (d : Dev) (v : Word) : Dev :=
  let lo := getBits v 1 18
  let hi := getBits v 19 18
  let rsv := getBits v 37 18
  if hi ≤ lo || lo > 196608 || hi > 196608 || rsv > 196608 then d.setF QM.STAT.CFGERR 1
  else (d.setReg QM.SPILL.reg (putBits v 55 9 0)).qmSettle d.opbFree

/-- A write of QM.GTH. -/
def Dev.gthWrite (d : Dev) (v : Word) : Dev :=
  if getBits v 0 30 < getBits v 30 30 then d.setF QM.STAT.CFGERR 1 else d.setReg QM.GTH.reg (putBits v 60 4 0)

end Sys2Proof.Machine
end

