-- ==== Sys2Proof/Machine/Sheets.lean ====
section
/-! DEFINITION. Contact sheets (R389–R391). -/

namespace Sys2Proof.Machine

/-! ## Contact sheets -/

/-- The configuration words of a sheet. -/
def Dev.sheet0 (d : Dev) (k : Nat) : Word := d.reg (CTR.SHEET0.WORD k)
def Dev.sheet1 (d : Dev) (k : Nat) : Word := d.reg (CTR.SHEET1.WORD k)
def Dev.sheet2 (d : Dev) (k : Nat) : Word := d.reg (CTR.SHEET2.WORD k)

/-- Entries of a dump: of slices, or of queues (R390). -/
def dumpLen (queues : Bool) (n : Nat) : Nat := 1 + (if queues then 2 else 3) * n

/-- A configuration that SHEETCFG accepts (R389). -/
def Dev.sheetOk (d : Dev) (w0 w1 w2 w3 : Word) : Bool :=
  let q := getBits w0 1 1 == 1
  let k := getBits w0 3 4
  let per := getBits w0 7 14
  let lo := getBits w1 0 17
  let hi := getBits w1 17 17
  let ds := getBits w1 34 12
  let base := w2.toNat
  let bytes := 2 ^ k * 64
  getBits w0 21 43 == 0 && getBits w1 46 18 == 0 && w3 == 0 && base < 2 ^ 52 && 4 ≤ k && 1 ≤ per && per ≤ 10000 &&
  base % bytes == 0 && lo ≤ hi && (q || hi < 4096) && dumpLen q (hi + 1 - lo) ≤ 2 ^ k && (!q || d.fb QM.CTRBASE.EN) &&
  (if getBits w0 2 1 == 0 then d.fpaKind base == .fab && d.fpaKind (base + bytes - 1) == .fab && base / 2 ^ 49 == d.devId
   else !q && lo == hi && hi == ds && d.fb (SLICE.CTL.CTR_USER ds) && base + bytes ≤ 2 ^ 48)

/-- SHEETCFG's status and effect (R255, R389). -/
def Dev.sheetcfg (d : Dev) (k : Nat) (w0 w1 w2 w3 : Word) : Nat × Dev :=
  if k > 15 then (1, d)
  else if d.fb (CTR.SHEETST.BUSY k) then (2, d)
  else if !d.sheetOk w0 w1 w2 w3 then (1, d)
  else
    let d := ((d.setReg (CTR.SHEET0.WORD k) w0).setReg (CTR.SHEET1.WORD k) w1).setReg (CTR.SHEET2.WORD k) w2
    let d := d.setReg (CTR.SHEET3.WORD k) w3
    if getBits w0 0 1 == 0 then (0, d)
    else
      let d : Dev := { d with ctr := { d.ctr with dseq := Tbl.put 0 d.ctr.dseq k 0 } }
      (0, ((d.setF (CTR.SHEETST.HEAD k) 0).setF (CTR.SHEETST.TAIL k) 0).setF (CTR.SHEETST.DSEQ k) 0)

/-- The ring address of a counter value. -/
def Dev.sheetAt (d : Dev) (k i : Nat) : Nat := (d.sheet2 k).toNat + i % 2 ^ getBits (d.sheet0 k) 3 4 * 64

/-- The accesses that dump a sheet into fabric-reserved memory, and into a slice's (R330). -/
def sheetOwn : Own := ⟨.unit 3, 0x300, 0, true⟩

/-- One ring entry read; none where a slice's ring cannot be read. -/
def Dev.sheetRead (d : Dev) (k i : Nat) : Option (List Byte) × Dev :=
  let a := d.sheetAt k i
  if getBits (d.sheet0 k) 2 1 == 1 then d.sliceRead (.unit 3) 0 (getBits (d.sheet1 k) 34 12) a 64 0x300
  else
    let ((bs, psn, why), d) := Dev.cohBytes 2 d sheetOwn a 64
    (if psn || why != 0 then none else some bs, d)

/-- One ring entry written; false where the write fails (R391). -/
def Dev.sheetWrite (d : Dev) (k i : Nat) (bs : List Byte) : Bool × Dev :=
  let a := d.sheetAt k i
  if getBits (d.sheet0 k) 2 1 == 1 then d.sliceWrite (.unit 3) 0 (getBits (d.sheet1 k) 34 12) a 0x300 bs
  else
    let (why, d) := Dev.cohPut 2 d sheetOwn a bs
    (why == 0, d)

/-- HEAD advanced over entries whose OWN is clear, up to TAIL (R391). -/
def Dev.sheetHead (k : Nat) : Nat → Dev → Dev
  | 0, d => d
  | fuel + 1, d =>
    let h := d.f (CTR.SHEETST.HEAD k)
    if h == d.f (CTR.SHEETST.TAIL k) then d
    else match d.sheetRead k h with
      | (some bs, d) => if ((bs.getD 0 1).toNat) % 2 == 1 then d else Dev.sheetHead k fuel (d.setF (CTR.SHEETST.HEAD k) (h + 1))
      | (none, d) => d

/-- The seven counter words of part `p` of slice `n`, by the slice counters at T, and of part `p` of queue `q`'s line (R390). -/
def slicePart (ctr : Tbl Word) (n p : Nat) : List Word :=
  (List.range 7).map fun j => if 7 * p + j < 16 then Tbl.get 0 ctr (n * 16 + 7 * p + j) else 0
def Dev.queuePart (d : Dev) (q p : Nat) : List Word × Dev :=
  let ((bs, _), d) := Dev.cohBytes 3 d sheetOwn (d.f QM.CTRBASE.BASE * 2 ^ 21 + q * 128) 128
  ((List.range 7).map fun j =>
    let i := 7 * p + j
    if i < 12 then w64 (leNat ((bs.drop (8 * i)).take 8)) else 0, d)

/-- Entry `e` of a dump (R390): its header after OWN, and its words. -/
def Dev.sheetEntry (d : Dev) (k t : Nat) (ctr : Tbl Word) (e len : Nat) : List Byte × Dev :=
  let q := getBits (d.sheet0 k) 1 1 == 1
  let per := if q then 2 else 3
  let lo := getBits (d.sheet1 k) 0 17
  let ix := if e == 0 then 0 else lo + (e - 1) / per
  let part := if e == 0 then 0 else (e - 1) % per
  let hdr := 1 + b2n (e == 0) * 2 + b2n (e + 1 == len) * 4 + b2n q * 8 + k * 16 + ix * 2 ^ 8 + part * 2 ^ 25 +
    Tbl.get 0 d.ctr.dseq k % 2 ^ 32 * 2 ^ 32
  let (ws, d) := if e == 0 then ([w64 t, w64 len, w64 (d.f (CTR.SHEETST.SKIPS k))], d)
    else if q then d.queuePart ix part else (slicePart ctr ix part, d)
  (leBytes 8 hdr ++ ((List.range 7).map fun j => leBytes 8 (ws.getD j 0).toNat).flatten, d)

/-- The entries of a dump written in order from entry `e` on; false where one fails. -/
def Dev.sheetEntries (k t : Nat) (ctr : Tbl Word) (len : Nat) : Nat → Nat → Dev → Bool × Dev
  | 0, _, d => (true, d)
  | fuel + 1, e, d =>
    let (bs, d) := d.sheetEntry k t ctr e len
    let tail := d.f (CTR.SHEETST.TAIL k)
    match d.sheetWrite k tail bs with
    | (false, d) => (false, d)
    | (true, d) => Dev.sheetEntries k t ctr len fuel (e + 1) (d.setF (CTR.SHEETST.TAIL k) (tail + 1))

/-- A dump of a sheet with snapshot instant `t` and the slice counters `ctr` of that instant: skipped whole where the ring has no
room (R390, R391). -/
def Dev.sheetRun (d : Dev) (k t : Nat) (ctr : Tbl Word) : Dev :=
  let d := Dev.sheetHead k 32768 d
  let len := dumpLen (getBits (d.sheet0 k) 1 1 == 1) (getBits (d.sheet1 k) 17 17 + 1 - getBits (d.sheet1 k) 0 17)
  let used := ringUsed (d.f (CTR.SHEETST.HEAD k)) (d.f (CTR.SHEETST.TAIL k))
  if used + len > 2 ^ getBits (d.sheet0 k) 3 4 then ((d.incF (CTR.SHEETST.SKIPS k)).count 2610 1).raiseSys 9 k
  else
    let (ok, d) := Dev.sheetEntries k t ctr len len 0 d
    let d : Dev := { d with ctr := { d.ctr with dseq := Tbl.upd 0 d.ctr.dseq k fun n => (n + 1) % 2 ^ 32 } }
    let d := d.setF (CTR.SHEETST.DSEQ k) (Tbl.get 0 d.ctr.dseq k)
    if ok then d else (d.setF (CTR.SHEETST.WERR k) 1).raiseSys 9 (k + 16)

/-- A sheet's PERIOD elapses (R390, R391): its dump is written at once, or stays in progress while a line of it is not at hand;
a period that falls in a dump skips. -/
def Dev.sheetDump (d : Dev) (k : Nat) : Dev :=
  if getBits (d.sheet0 k) 0 1 == 0 then d
  else if d.fb (CTR.SHEETST.BUSY k) then ((d.incF (CTR.SHEETST.SKIPS k)).count 2610 1).raiseSys 9 k
  else
    let x : Dump := ⟨k, d.now, d.ctr.slice⟩
    match d.tryOwn fun d => ((), d.sheetRun k d.now d.ctr.slice) with
    | (some _, d) => d
    | (none, d) => { d with ctr := { d.ctr with dumps := d.ctr.dumps ++ [x] } }.setF (CTR.SHEETST.BUSY k) 1

/-- The dumps in progress taken on: those that need not wait any longer are written. A dump of queues reads their lines then, and
that is its instant. -/
def Dev.dumpsOn (d : Dev) : Dev :=
  d.ctr.dumps.foldl (fun d x =>
    let t := if getBits (d.sheet0 x.k) 1 1 == 1 then d.now else x.t
    match d.tryOwn fun d => ((), d.sheetRun x.k t x.ctr) with
    | (some _, d) => { d with ctr := { d.ctr with dumps := d.ctr.dumps.erase x } }.setF (CTR.SHEETST.BUSY x.k) 0
    | (none, d) => d) d

/-- A dump into the memory of slice `n` is in progress (R42). -/
def Dev.dumping (d : Dev) (n : Nat) : Bool :=
  d.ctr.dumps.any fun x => getBits (d.sheet0 x.k) 2 1 == 1 && getBits (d.sheet1 x.k) 34 12 == n

end Sys2Proof.Machine
end

