-- ==== Sys2Proof/Machine/Binding.lean ====
section
/-! DEFINITION. Slices and extents: the binding instructions, the slice life cycle, translation invalidation, the
generation change and the dirty-page epoch (R25–R52, R251–R254). -/

namespace Sys2Proof.Machine

/-! ## Statuses of the binding instructions -/

def bOK : Nat := 0x00
def bSTARTED : Nat := 0x01
def bALIGN : Nat := 0x02
def bNOT_FREE : Nat := 0x03
def bNOT_OWNER : Nat := 0x04
def bNO_BACKING : Nat := 0x05
def bREMOTE : Nat := 0x06
def bSLICE_FREE : Nat := 0x07
def bBUSY : Nat := 0x08
def bTABLE_OFF : Nat := 0x09
def bNOT_QUIESCED : Nat := 0x0A
def bEXTENTS_HELD : Nat := 0x0B
def bHOSTS_OPEN : Nat := 0x0C
def bTIMEOUT : Nat := 0x0D
def bRESUMED : Nat := 0x0E
def bBAD_ARG : Nat := 0x0F
def bFRAME_USED : Nat := 0x10
def bSLICE_EXISTS : Nat := 0x11

/-! ## Slices -/

/-- The state of a slice: 0 FREE, 1 ACTIVE, 2 QUIESCING, 3 QUIESCED. -/
def Dev.sliceState (d : Dev) (n : Nat) : Nat := d.f (SLICE.STATE.STATE n)

/-- The entries of the extent table that are not all zero, with their indices. -/
def Dev.extTable (d : Dev) : List (Nat × Nat) :=
  if !d.fb BIND.EXTTBL.EN then [] else (d.tableUsed (d.f BIND.EXTTBL.BASE * 2 ^ 21)).map fun x => (x, d.extEntry x)

/-- Extents owned by a slice, ZEROING and UNBINDING included (SLICE[n].STATE.EXTENTS). -/
def Dev.extents (d : Dev) (n : Nat) : Nat :=
  (d.extTable.filter fun e => 1 ≤ extState e.2 && extState e.2 ≤ 3 && extOwner e.2 == n).length

/-- Completion slots of a slice reserved and not yet written. -/
def Dev.cslots (d : Dev) (n : Nat) : Nat := ((List.range 8).map fun q => d.f (SLICE.CQB.RSV n q)).sum

/-- MOVE and FILL operations of a slice in progress. -/
def Dev.moveCount (d : Dev) (n : Nat) : Nat := (d.moves.filter fun m => m.slice == n && !m.priv).length

/-- Nothing of the slice is in flight (R42). -/
def Dev.sliceIdle (d : Dev) (n : Nat) : Bool :=
  (d.sliceStrands n).isEmpty && d.cslots n == 0 && d.moveCount n == 0 &&
  !(d.wq.win.any fun e => e.1 / 64 == n && e.2.state == 1) && !(d.qm.todo.any fun c => !c.rel && c.own == some n) &&
  !d.dumping n

/-- The wait carries a memory request that has gone out. -/
def Wait.outstanding : Wait → Bool
  | .ld .. => true
  | .ldl .. => true
  | .amo _ _ _ _ _ _ _ _ _ _ ph => ph != 0
  | .prim _ _ tag _ => tag != 0
  | .move .. => true
  | .hold 2 => true
  | .enq _ => true
  | _ => false

/-- A strand stopped with a device status: at once, or when its outstanding request completes (R43, R410). -/
def Dev.stopStrand (d : Dev) (t status : Nat) : Dev :=
  if (d.str t).wait.outstanding then d.updStr t fun x => { x with stop := status }
  else d.endWork t status 0 [] []

/-- The strands and engine operations of a slice stopped, and its window commands that wait for a strand ended with the
ABORTED record (R43). -/
def Dev.abortSlice (d : Dev) (n : Nat) : Dev :=
  let d := (d.sliceStrands n).foldl (fun d t => d.stopStrand t 0x83) d
  let d := (d.wq.win.filter fun e => e.1 / 64 == n && e.2.cmd.isSome).foldl (fun d e =>
    (d.setWin n (e.1 % 64) { d.win n (e.1 % 64) with cmd := none }).winDone n (e.1 % 64) 0x83 0 (winRecord 0x83 [])) d
  { d with moves := d.moves.map fun m => if m.slice == n && !m.priv then { m with abort := true } else m }

/-- Admission stopped: the slice is QUIESCING (R41). -/
def Dev.quiesce (d : Dev) (n : Nat) : Dev := d.setF (SLICE.STATE.STATE n) 2

/-- Strands whose SLQUIESCE waits for slice `n`, with their destinations. -/
def Dev.slqWaiters (d : Dev) (n : Nat) : List (Nat × Nat) :=
  d.sor.strand.filterMap fun e => match e.2.wait with
    | .slq rd k _ => if k == n then some (e.1, rd) else none
    | _ => none

/-- Every waiting SLQUIESCE of a slice returns a status. -/
def Dev.slqReturn (d : Dev) (n status : Nat) : Dev :=
  (d.slqWaiters n).foldl (fun d e => d.finishAccess e.1 fun d => d.give e.1 e.2 (w64 status)) d

/-- SLQUIESCE (R41, R43, R254). -/
def Dev.slQuiesce (d : Dev) (t : Nat) (f : FX) (abort : Bool) : Dev :=
  let x := d.str t
  let a := (x.g f.ra.toNat).toNat
  let n := (x.g f.rb.toNat).toNat
  let rd := f.rd.toNat
  let ret := fun (d : Dev) (v : Nat) => d.give t rd (w64 v)
  if n ≥ 4096 || a ≥ 2 ^ 16 then ret d bBAD_ARG
  else if d.sliceState n == 0 then ret d bSLICE_FREE
  else if d.sliceState n == 3 then ret d bOK
  else
    let d := if d.sliceState n == 1 then d.quiesce n else d
    let d := if abort then d.abortSlice n else d
    let tmo := if a == 0 then d.f (SLICE.CTL.QTMO n) else a
    d.waitOn t (.slq rd n (d.now + tmo * 10000))

/-- SLRESUME (R254). -/
def Dev.slResume (d : Dev) (n : Nat) : Nat × Dev :=
  if n ≥ 4096 then (bBAD_ARG, d)
  else match d.sliceState n with
    | 0 => (bSLICE_FREE, d)
    | 1 => (bOK, d)
    | _ => (bOK, ((d.setF (SLICE.STATE.STATE n) 1).setF (SLICE.STATE.AUTOQ n) 0).slqReturn n bRESUMED)

/-- The registers, queues and windows of a slice at their cold values (R40, CREATE). -/
def Dev.sliceCold (d : Dev) (n : Nat) : Dev :=
  let base := 0x1000000 + n * 0x1000
  { d.forget (OwnFor.ofSlice n) with
    csr := Tbl.drop (fun k => base ≤ k && k < base + 0x1000) d.csr
    wq := { d.wq with
      sqOwn := Tbl.drop (fun k => k / 8 == n) d.wq.sqOwn
      win := Tbl.drop (fun k => k / 64 == n) d.wq.win
      held := Tbl.drop (fun k => k / 8 == n) d.wq.held
      winRot := Tbl.put 0 d.wq.winRot n 0
      sqRot := Tbl.drop (fun k => k / 8 == n) d.wq.sqRot } }

/-! ## Lines of an extent -/

/-- The local line lies in extent `x`. -/
def Dev.inExt (d : Dev) (x ln : Nat) : Bool := lnDev ln == d.devId && extOf ln == x

/-- The entries of an extent's lines recalled, as far as the recall buffers have room (R38, R39, R65). -/
def Dev.recallExt (d : Dev) (x : Nat) : Dev :=
  ((d.coh.sf.map (·.1)).filter (d.inExt x)).foldl (fun d ln =>
    if (d.txn ln).isSome || d.recalls (homeOf ln) ≥ 32 then d else d.recall ln) d

/-- No copy of an extent's lines is left, no transaction on them is open and no message about them is on its way. -/
def Dev.extQuiet (d : Dev) (x : Nat) : Bool :=
  !(d.coh.sf.any fun e => d.inExt x e.1) && !(d.coh.txns.any fun t => d.inExt x t.ln) &&
  !(d.coh.net.any fun m => d.inExt x m.addr.toNat) && !(d.coh.hq.any fun m => d.inExt x m.addr.toNat)

/-- The bytes, metadata and cache tags of an extent's lines at zero (R38): the lines of an HBM extent lie evenly in the sixteen
channels of its stack (R97), which count their writes (R386). -/
def Dev.zeroExt (d : Dev) (x : Nat) : Dev :=
  let dev := d.devId
  let inX := fun k => k / 2 ^ 24 == dev * 2 ^ 19 + x
  let lines := (d.pool.msc.map (·.1)).filter inX
  let d := lines.foldl (fun d ln => d.setMsc ln MscT.none) d
  let d := match d.lnKind (dev * 2 ^ 43 + x * 2 ^ 24) with
    | .hbm => (List.range 16).foldl (fun (d : Dev) c => d.count (1792 + 8 * (16 * hbmStack (x * 2 ^ 24) + c) + 1) (2 ^ 20)) d
    | _ => d
  { d with pool := { d.pool with
    mem := Tbl.drop (fun a => inX (a / 64)) d.pool.mem
    lmeta := Tbl.drop inX d.pool.lmeta
    gone := Tbl.put (0, []) d.pool.gone x (0, []) } }

/-- The extent and its mirror copy. -/
def Dev.extCopies (d : Dev) (x : Nat) : List Nat :=
  let w := d.mirEntry x
  if mirState w != 0 then [x, mirPartner w] else [x]

/-- The zero-fill of an extent and of its mirror copy. -/
def Dev.zeroFill (d : Dev) (x : Nat) : Dev := (d.extCopies x).foldl (fun d y => d.zeroExt y) d

/-- The first line of an extent of this device. -/
def Dev.extLn (d : Dev) (x : Nat) : Nat := d.devId * 2 ^ 43 + x * 2 ^ 24

/-- Copy `y` of extent `x` lies on a live expander. -/
def Dev.onExp (d : Dev) (y : Nat) : Bool :=
  match d.lnKind (d.extLn y) with
  | .exp e => d.expLive e
  | _ => false

/-- `n` lines from `ln` on written with zeros to their expander, for extent `x`. -/
def Dev.zeroLines (d : Dev) (x ln n : Nat) : Dev := (List.range n).foldl (fun d i => d.expPut (ln + i) (d.extLn x) 0 false) d

/-- The zero-fill of a copy of extent `x` on its expander: 2²⁴ lines, and of a mirrored copy the 2¹⁹ lines of its stamps, which
the memory-side cache gives up (R38, R113). -/
def Dev.zeroExp (d : Dev) (x y : Nat) : Dev :=
  let d := d.zeroLines x (d.extLn y) (2 ^ 24)
  if (d.partnerOf (d.extLn y)).isNone then d
  else
    let sl := (d.stampLn (d.extLn y)).1
    let d := ((d.pool.msc.map (·.1)).filter fun l => sl ≤ l && l < sl + 2 ^ 19).foldl (fun d l => d.setMsc l MscT.none) d
    d.zeroLines x sl (2 ^ 19)

/-- An extent's zero-fill is still to be written to its expanders, and is awaited from them. -/
def Dev.zeroDue (d : Dev) (x : Nat) : Bool := !d.bind.zsent.contains x && (d.extCopies x).any d.onExp
def Dev.zeroAwaited (d : Dev) (x : Nat) : Bool := d.pool.exps.any fun e => d.inExt x e.home

/-- The zero-fill of an extent written to its expanders. What the memory-side cache holds of it leaves first, so that nothing of the
old owner is written over the zeros. -/
def Dev.zeroSend (d : Dev) (x : Nat) : Dev :=
  let d := ((d.pool.msc.map (·.1)).filter fun l => lnDev l == d.devId && (d.extCopies x).contains (extOf l)).foldl
    (fun d l => d.setMsc l MscT.none) d
  let d := ((d.extCopies x).filter d.onExp).foldl (fun d y => d.zeroExp x y) d
  { d with bind := { d.bind with zsent := x :: d.bind.zsent } }

/-! ## FBIND and FUNBIND (R38, R39, R252) -/

/-- The checks that FBIND and FUNBIND share, in the order of R252. -/
def Dev.bindCheck (d : Dev) (ea n : Nat) : Option Nat :=
  if n ≥ 4096 || ea ≥ 2 ^ 52 then some bBAD_ARG
  else if !d.fb BIND.EXTTBL.EN then some bTABLE_OFF
  else if d.sliceState n == 0 then some bSLICE_FREE
  else if ea % 2 ^ 30 != 0 then some bALIGN
  else if ea / 2 ^ 49 != d.devId then some bREMOTE
  else
    let w := d.extEntry (ea / 2 ^ 30 % 2 ^ 19)
    if extState w ≥ 4 then some bNO_BACKING
    else if extState w == 2 || extState w == 3 then some bBUSY
    else none

def Dev.fbind (d : Dev) (ea n : Nat) (keep : Bool) : Nat × Dev :=
  match d.bindCheck ea n with
  | some e => (e, d)
  | none =>
    let x := ea / 2 ^ 30 % 2 ^ 19
    let w := d.extEntry x
    if extState w != 0 then (bNOT_FREE, d)
    else if keep && extLast w == n then (bOK, d.setExt x (extWord n 1 (extLast w)))
    else (bSTARTED, (d.setExt x (extWord n 2 (extLast w))).recallExt x)

def Dev.funbind (d : Dev) (ea n : Nat) : Nat × Dev :=
  match d.bindCheck ea n with
  | some e => (e, d)
  | none =>
    let x := ea / 2 ^ 30 % 2 ^ 19
    let w := d.extEntry x
    if !(extState w == 1 && extOwner w == n) then (bNOT_OWNER, d)
    else
      let d := d.setExt x (extWord n 3 (extLast w))
      let d := d.dropTlb fun _ e => getBits e 30 22 == d.devId * 2 ^ 19 + x
      (bSTARTED, d.recallExt x)

/-- A binding instruction: two operands, one status (R252). A field that the text gives the instruction no use for, rc always and ra of
those that name a slice alone, is held to be 0: another value is ILLEGAL (DESIGN CHOICE, log entry 145). -/
def Dev.bindOp (d : Dev) (t : Nat) (f : FX) (illegal : Bool) (k : Dev → Nat → Nat → Nat × Dev) : Dev :=
  d.issue t true illegal fun d =>
    let x := d.str t
    let (v, d) := k d (x.g f.ra.toNat).toNat (x.g f.rb.toNat).toNat
    d.give t f.rd.toNat (w64 v)

/-! ## SLSET (R40) -/

def Dev.slCreate (d : Dev) (n : Nat) : Nat × Dev :=
  if n ≥ 4096 then (bBAD_ARG, d)
  else if d.sliceState n != 0 then (bSLICE_EXISTS, d)
  else
    let d := d.sliceCold n
    let d : Dev := { d with ctr := { d.ctr with slice := Tbl.drop (fun k => k / 16 == n) d.ctr.slice } }
    (bOK, d.setF (SLICE.STATE.STATE n) 3)

/-- The frames of a host's bank that carry slice `n`. -/
def framesOf (m : Tbl Nat) (h n : Nat) : List Nat := (m.filter fun e => e.1 / 512 == h && e.2 == n + 1).map fun e => e.1 % 512

def Dev.slDestroy (d : Dev) (n : Nat) : Nat × Dev :=
  if n ≥ 4096 then (bBAD_ARG, d)
  else if d.sliceState n == 0 then (bSLICE_FREE, d)
  else if d.sliceState n != 3 then (bNOT_QUIESCED, d)
  else if d.extents n != 0 then (bEXTENTS_HELD, d)
  else if d.bind.frA.any (·.2 == n + 1) || d.bind.frS.any (·.2 == n + 1) then (bHOSTS_OPEN, d)
  else (bOK, d.setF (SLICE.STATE.STATE n) 0)

/-- SLSET ROOT: the root is written and the strand waits for the invalidation (R40, R34). -/
def Dev.slRoot (d : Dev) (t rd a n : Nat) : Dev :=
  if n ≥ 4096 || a % 2 != a % 2 ^ 17 || a ≥ 2 ^ 52 then d.give t rd (w64 bBAD_ARG)
  else if d.sliceState n == 0 then d.give t rd (w64 bSLICE_FREE)
  else (d.setReg (SLICE.XLAT_ROOT.V n) (w64 a)).waitOn t (.root rd n)

/-- SLSET HOSTOPEN (R40, R252); the order of its checks is the model's (DESIGN CHOICE, log entry 129). -/
def Dev.hostOpen (d : Dev) (a n : Nat) : Nat × Dev :=
  let h := a % 64
  let f := a / 64 % 512
  if n ≥ 4096 || a ≥ 2 ^ 15 || f == 0 then (bBAD_ARG, d)
  else if d.sliceState n == 0 then (bSLICE_FREE, d)
  else if d.fb (BIND.HGEN.PEND h) then (bBUSY, d.setF (BIND.HGEN.ERR h) 3)
  else if !(framesOf d.bind.frS h n).isEmpty then (bBAD_ARG, d)
  else if Tbl.get 0 d.bind.frS (frameKey h f) != 0 then (bFRAME_USED, d)
  else (bOK, { d with bind := { d.bind with frS := Tbl.put 0 d.bind.frS (frameKey h f) (n + 1) } })

def Dev.hostClose (d : Dev) (a n : Nat) : Nat × Dev :=
  let h := a
  if n ≥ 4096 || a ≥ 64 then (bBAD_ARG, d)
  else if d.sliceState n == 0 then (bSLICE_FREE, d)
  else if d.fb (BIND.HGEN.PEND h) then (bBUSY, d.setF (BIND.HGEN.ERR h) 3)
  else
    let fs := framesOf d.bind.frS h n
    (bOK, { d with bind := { d.bind with
      frS := fs.foldl (fun m f => Tbl.put 0 m (frameKey h f) 0) d.bind.frS
      decS := Tbl.drop (fun k => k / 16 / 512 == h && fs.contains (k / 16 % 512)) d.bind.decS } })

/-! ## Translation invalidation (R34) -/

/-- The FPAs of the access that a strand waits for. -/
def Wait.fpas : Wait → List Nat
  | .ld _ _ fpa _ => [fpa]
  | .ldl _ fpa _ _ _ => [fpa]
  | .prim _ todo _ _ => todo.map (·.1)
  | .st fpa _ _ => [fpa]
  | .amo _ _ _ fpa _ _ _ _ _ _ _ => [fpa]
  | _ => []

/-- An access to one of these 2 MiB pages is still on its way. -/
def Dev.pagesBusy (d : Dev) (n : Nat) (pages : List Nat) : Bool :=
  (d.host.reqs.any fun r => r.ptag != 4096 && pages.contains (r.ln / 2 ^ 15)) ||
  (d.sor.strand.any fun e => e.2.live && e.2.slice == n && !e.2.priv &&
    e.2.wait.fpas.any fun a => pages.contains (a / 2 ^ 21)) ||
  (d.sor.posts.any fun e => e.slice == n && !e.priv && pages.contains (e.fpa / 2 ^ 21)) ||
  (d.sor.sb.any fun e => e.slice == n && !e.priv && pages.contains (e.fpa / 2 ^ 21)) ||
  (d.coh.own.any fun r => r.own.slice == n && !r.own.priv && r.ans.isNone && pages.contains (r.m.addr.toNat / 2 ^ 15))

/-- The cached leaves that an invalidation of `n` covers: one page, or all. -/
def Dev.xinvLeaves (d : Dev) (n : Nat) (page : Option Nat) : List (Nat × Word) :=
  d.bind.tlb.filter fun e => e.1 / 2 ^ 27 % 4096 == n && (match page with | some p => e.1 % 2 ^ 27 == p | none => true)

/-- The invalidation is complete: entries dropped once no access made through them is on its way; false before. -/
def Dev.xinv (d : Dev) (n : Nat) (page : Option Nat) : Bool × Dev :=
  let ls := d.xinvLeaves n page
  if d.pagesBusy n (ls.map fun e => getBits e.2 21 31) then (false, d)
  else (true, d.dropTlb fun k _ => ls.any (·.1 == k))

/-- A write of BIND.XINV (R34): its fields are taken, and GO starts the invalidation unless one runs. -/
def Dev.xinvGo (d : Dev) (v : Word) : Dev :=
  let x := v.toNat
  let busy := d.fb BIND.XINV.BUSY
  let d := ((d.setF BIND.XINV.PAGE (bitsN x 0 27)).setF BIND.XINV.SLICE (bitsN x 27 12)).setF BIND.XINV.ALL (bitsN x 39 1)
  if busy || !bitN x 62 then d
  else { d with bind := { d.bind with xinv := x % 2 ^ 40 } }.setF BIND.XINV.BUSY 1

/-- XINV_DONE: the invalidation of BIND.XINV and those of waiting SLSET ROOTs complete where nothing holds them up. -/
def Dev.xinvDone (d : Dev) : Dev :=
  let d := if d.fb BIND.XINV.BUSY then
      let x := d.bind.xinv
      match d.xinv (bitsN x 27 12) (if bitN x 39 then none else some (bitsN x 0 27)) with
      | (true, d) => (d.setF BIND.XINV.BUSY 0).retryAll (bitsN x 27 12)
      | (false, d) => d
    else d
  let roots := d.sor.strand.filterMap fun e => match e.2.wait with
    | .root rd n => some (e.1, rd, n)
    | _ => none
  roots.foldl (fun d e =>
    match d.xinv e.2.2 none with
    | (true, d) => (d.give e.1 e.2.1 (w64 bOK)).retryAll e.2.2
    | (false, d) => d) d

/-! ## The generation change (R36, R37) -/

/-- The staged decoders of a host that are enabled and not empty, with their frames. -/
def Dev.staged (d : Dev) (h : Nat) : List (Nat × Dec) :=
  (d.bind.decS.filter fun e => e.1 / 16 / 512 == h && e.2.en && e.2.size != 0).map fun e => (e.1 / 16 % 512, e.2)

/-- Two ranges of pages overlap. -/
def rangesMeet (a n b m : Nat) : Bool := a < b + m && b < a + n

def Dev.overlaps (l : List (Nat × Dec)) : Bool :=
  match l with
  | [] => false
  | e :: es => (es.any fun u => u.1 == e.1 &&
      (rangesMeet e.2.hpa e.2.size u.2.hpa u.2.size || rangesMeet e.2.sa e.2.size u.2.sa u.2.size)) || Dev.overlaps es

/-- A write of BIND.HGEN[h].REQ: steps 2 and 3 of R36; RANGE looks at every staged decoder, OVERLAP at the enabled ones. Where
several checks fail, ERR holds the first of OVERLAP, RANGE, NO_PORT and FRAME (DESIGN CHOICE, log entry 129). -/
def Dev.hgenReq (d : Dev) (h : Nat) : Dev :=
  if d.fb (BIND.HGEN.PEND h) then d.setF (BIND.HGEN.ERR h) 3
  else
    let st := d.staged h
    if Dev.overlaps st then d.setF (BIND.HGEN.ERR h) 1
    else if d.bind.decS.any fun e => e.1 / 16 / 512 == h && e.2.sa + e.2.size > 2 ^ 27 then d.setF (BIND.HGEN.ERR h) 2
    else match d.portOfHost h with
      | none => d.setF (BIND.HGEN.ERR h) 4
      | some p =>
        if d.f (PORT.CFG.MODE p) == 1 && d.bind.frS.any (fun e => e.1 / 512 == h && e.1 % 512 > 15 && e.2 != 0) then
          d.setF (BIND.HGEN.ERR h) 5
        else (d.setF (BIND.HGEN.PEND h) 1).setF (BIND.HGEN.DRAINED h) 0

/-- The entries of one host in a table keyed by host × `n`. -/
def hostPart {α : Type} (t : Tbl α) (h n : Nat) : Tbl α := t.filter fun e => e.1 / n == h
def hostSwap {α : Type} [DecidableEq α] (z : α) (act st : Tbl α) (h n : Nat) : Tbl α :=
  (hostPart st h n).foldl (fun t e => Tbl.put z t e.1 e.2) (Tbl.drop (fun k => k / n == h) act)

/-- Step 5 of R36: the banks swap, CUR advances, the slices' host masks follow, and the port notifies its host where
PRESENT changed (R132). Held requests are taken up by the caller. -/
def Dev.genSwap (d : Dev) (h : Nat) : Dev :=
  let before := (hostPart d.bind.frA h 512)
  let after := (hostPart d.bind.frS h 512)
  let d : Dev := { d with bind := { d.bind with
    frA := hostSwap 0 d.bind.frA d.bind.frS h 512
    decA := hostSwap Dec.none d.bind.decA d.bind.decS h 8192
    swapped := Tbl.put 0 d.bind.swapped h 1 } }
  let d := d.updF (BIND.HGEN.CUR h) fun x => (x + 1) % 256
  let d := before.foldl (fun d e => d.updF (SLICE.HOSTS.MASK (e.2 - 1)) fun m => clrBitN m h) d
  let d := after.foldl (fun d e => d.updF (SLICE.HOSTS.MASK (e.2 - 1)) fun m => setBitN m h) d
  match d.portOfHost h with
  | none => d
  | some p =>
    let nv := Tbl.get 0 d.host.notify p
    if bitN nv 4 && before.map (·.1) != after.map (·.1) then d.msixRaise p 0 (nv % 16) none else d

/-- Every request of the previous generations of a host has completed. -/
def Dev.genDrained (d : Dev) (h : Nat) : Bool :=
  d.fb (BIND.HGEN.PEND h) && Tbl.get 0 d.bind.swapped h == 1 &&
    !(d.host.reqs.any fun r => r.host == h && r.kind != 7 && r.gen != d.f (BIND.HGEN.CUR h)) &&
    !(d.wq.reads.any fun r => d.hostOf r.port == h && r.gen != d.f (BIND.HGEN.CUR h))

/-! ## The staged decoders (R51) -/

/-- The staged decoder that BIND.WDSEL selects: none for frame 0. -/
def Dev.wdSel (d : Dev) : Option Nat :=
  if d.f BIND.WDSEL.FRAME == 0 then none else some (decKey (d.f BIND.WDSEL.HOST) (d.f BIND.WDSEL.FRAME) (d.f BIND.WDSEL.DEC))

/-- A write to the staged decoder, refused while the host's generation change is pending (R37). -/
def Dev.wdWrite (d : Dev) (g : Dec → Dec) : Dev :=
  match d.wdSel with
  | none => d
  | some k =>
    let h := d.f BIND.WDSEL.HOST
    if d.fb (BIND.HGEN.PEND h) then d.setF (BIND.HGEN.ERR h) 3
    else { d with bind := { d.bind with decS := Tbl.upd Dec.none d.bind.decS k g } }

def decHpa (v : Nat) (x : Dec) : Dec := { x with size := bitsN v 0 21, hpa := bitsN v 21 31 }
def decSa (v : Nat) (x : Dec) : Dec := { x with en := bitN v 0, r := bitN v 1, w := bitN v 2, sa := bitsN v 21 27 }

/-- What WDHPA and WDSA read: the selected staged decoder; 0 where FRAME = 0 selects nothing, and a write is dropped then
(DESIGN CHOICE, log entry 129). -/
def Dev.wdRead (d : Dev) (sa : Bool) : Word :=
  match d.wdSel with
  | none => 0
  | some k =>
    let x := Tbl.get Dec.none d.bind.decS k
    if sa then w64 (b2n x.en + b2n x.r * 2 + b2n x.w * 4 + x.sa * 2 ^ 21) else w64 (x.size + x.hpa * 2 ^ 21)

/-! ## The extent table's register (R30, R405) -/

/-- A write of BIND.EXTTBL: BASE only while EN is clear. When EN is set an UNBINDING extent becomes FREE, and a ZEROING
extent's fill starts again (R405). -/
def Dev.exttblWrite (d : Dev) (v : Word) : Dev :=
  let was := d.fb BIND.EXTTBL.EN
  let d := if was then d else d.setF BIND.EXTTBL.BASE (getBits v 21 31)
  let d := d.setF BIND.EXTTBL.EN (getBits v 0 1)
  if was || getBits v 0 1 == 0 then d
  else (d.extTable.filter fun e => extState e.2 == 3).foldl (fun d e => d.setExt e.1 (extWord 0 0 (extOwner e.2))) d

/-- A write of DLOG_CTL.BUMP (R49). -/
def Dev.dlogBump (d : Dev) (n : Nat) : Dev :=
  if d.fb (SLICE.DLOG_CTL.BUSY n) then d
  else ((d.updF (SLICE.DLOG_CTL.EPOCH n) fun x => (x + 1) % 256).setF (SLICE.DLOG_CTL.MISS n) 0).setF (SLICE.DLOG_CTL.BUSY n) 1

/-! ## The commands -/

/-- FBIND (R38); for its unused rc see `bindOp`. -/
def execFbind (t : StrandIx) (f : FX) (s : State) : Result :=
  s.act fun _ d => d.bindOp t f (f.rc != 0) fun d a n => d.fbind a n false

/-- FBIND_KEEP (R38). -/
def execFbindKeep (t : StrandIx) (f : FX) (s : State) : Result :=
  s.act fun _ d => d.bindOp t f (f.rc != 0) fun d a n => d.fbind a n true

/-- ZEROING_COMPLETE (R38): the fill ends once every cached copy is recalled, and the expanders have taken their zeros. -/
def execZeroingComplete (k : Fin 524288) (s : State) : Result :=
  s.act fun _ d =>
    let x := k.val
    d.when (d.fdUp && d.fb BIND.EXTTBL.EN && extState (d.extEntry x) == 2) fun d =>
      if !d.extQuiet x then d.recallExt x
      else if d.zeroDue x then d.zeroSend x
      else if d.zeroAwaited x then d
      else
        let w := d.extEntry x
        let d : Dev := { d with bind := { d.bind with zsent := d.bind.zsent.filter (· != x) } }
        ((d.zeroFill x).setExt x (extWord (extOwner w) 1 (extLast w))).raiseSys 6 x

/-- FUNBIND (R39). -/
def execFunbind (t : StrandIx) (f : FX) (s : State) : Result :=
  s.act fun _ d => d.bindOp t f (f.rc != 0) fun d a n => d.funbind a n

/-- UNBIND_COMPLETE (R39). -/
def execUnbindComplete (k : Fin 524288) (s : State) : Result :=
  s.act fun _ d =>
    let x := k.val
    d.when (d.fdUp && d.fb BIND.EXTTBL.EN && extState (d.extEntry x) == 3) fun d =>
      if !d.extQuiet x then d.recallExt x
      else (d.setExt x (extWord 0 0 (extOwner (d.extEntry x)))).raiseSys 6 (x + 2 ^ 19)

/-- SLSET_CREATE (R40). -/
def execSlsetCreate (t : StrandIx) (f : FX) (s : State) : Result :=
  s.act fun _ d => d.bindOp t f (f.rc != 0 || f.ra != 0) fun d _ n => d.slCreate n

/-- SLSET_DESTROY (R40). -/
def execSlsetDestroy (t : StrandIx) (f : FX) (s : State) : Result :=
  s.act fun _ d => d.bindOp t f (f.rc != 0 || f.ra != 0) fun d _ n => d.slDestroy n

/-- SLSET_ROOT (R40). -/
def execSlsetRoot (t : StrandIx) (f : FX) (s : State) : Result :=
  s.act fun _ d => d.issue t true (f.rc != 0) fun d =>
    d.slRoot t f.rd.toNat ((d.str t).g f.ra.toNat).toNat ((d.str t).g f.rb.toNat).toNat

/-- SLSET_HOSTOPEN (R40). -/
def execSlsetHostopen (t : StrandIx) (f : FX) (s : State) : Result :=
  s.act fun _ d => d.bindOp t f (f.rc != 0) fun d a n => d.hostOpen a n

/-- SLSET_HOSTCLOSE (R40). -/
def execSlsetHostclose (t : StrandIx) (f : FX) (s : State) : Result :=
  s.act fun _ d => d.bindOp t f (f.rc != 0) fun d a n => d.hostClose a n

/-- SLQUIESCE (R41). A value in rc, which the text gives no use, is ILLEGAL (DESIGN CHOICE, log entry 145). -/
def execSlquiesce (t : StrandIx) (f : FX) (s : State) : Result :=
  s.act fun _ d => d.issue t true (f.rc != 0) fun d => d.slQuiesce t f false

/-- SLQUIESCE_ABORT (R43), with its unused field as SLQUIESCE. -/
def execSlquiesceAbort (t : StrandIx) (f : FX) (s : State) : Result :=
  s.act fun _ d => d.issue t true (f.rc != 0) fun d => d.slQuiesce t f true

/-- SLICE_QUIESCED (R42). -/
def execSliceQuiesced (n : Fin 4096) (s : State) : Result :=
  s.act fun _ d => d.when (d.sliceState n == 2 && d.sliceIdle n) fun d =>
    ((d.setF (SLICE.STATE.STATE n) 3).raiseSys 7 n).slqReturn n bOK

/-- QUIESCE_TIMEOUT (R44). -/
def execQuiesceTimeout (t : StrandIx) (s : State) : Result :=
  s.act fun _ d => match (d.str t).wait with
    | .slq rd _ _ => d.finishAccess t fun d => d.give t rd (w64 bTIMEOUT)
    | _ => d

/-- SLRESUME (R254). -/
def execSlresume (t : StrandIx) (f : FX) (s : State) : Result :=
  s.act fun _ d => d.bindOp t f (f.rc != 0 || f.ra != 0) fun d _ n => d.slResume n

/-- XINV_GO (R34). -/
def execXinvGo (v : Word) (s : State) : Result := s.act fun _ d => d.when d.cspOn fun d => d.xinvGo v

/-- XINV_DONE (R34). -/
def execXinvDone (s : State) : Result := s.act fun _ d => d.when d.fdUp fun d => d.xinvDone

/-- HGEN_REQ (R36). -/
def execHgenReq (h : Fin 64) (s : State) : Result := s.act fun _ d => d.when d.cspOn fun d => d.hgenReq h

/-- GEN_DRAINED (R36). -/
def execGenDrained (h : Fin 64) (s : State) : Result :=
  s.act fun _ d => d.when (d.genDrained h) fun d =>
    let d : Dev := { d with bind := { d.bind with swapped := Tbl.put 0 d.bind.swapped h.val 0 } }
    ((d.setF (BIND.HGEN.PEND h) 0).setF (BIND.HGEN.DRAINED h) 1).raiseSys 5 (h.val + d.f (BIND.HGEN.CUR h) * 64)

/-- EXTTBL_WRITE (R405). -/
def execExttblWrite (v : Word) (s : State) : Result := s.act fun _ d => d.when d.cspOn fun d => d.exttblWrite v

/-- DLOG_BUMP (R49). -/
def execDlogBump (n : Fin 4096) (s : State) : Result := s.act fun _ d => d.when d.cspOn fun d => d.dlogBump n

/-- DLOG_EPOCH_ADOPTED (R49). -/
def execDlogEpochAdopted (n : Fin 4096) (s : State) : Result :=
  s.act fun _ d => d.setF (SLICE.DLOG_CTL.BUSY n) 0

end Sys2Proof.Machine
end

