-- ==== Sys2Proof/Machine/Safe.lean ====
section
/-! DEFINITION. The darkroom's event queue and the entry to safelight (R356, R382, R409, R410). -/

namespace Sys2Proof.Machine

/-- An event record (R377). -/
def evtRecord (source count det time : Nat) : List Byte :=
  leBytes 2 (1 + source * 2) ++ leBytes 2 count ++ leBytes 4 det ++ leBytes 8 (time - time % 4)

/-- ALERT_N as R356 gives it: a record waits, or a failure at start is in force. -/
def Dev.alertUpd (d : Dev) : Dev := { d with pwr := { d.pwr with alert := !d.drk.evq.isEmpty || d.pwr.startFail } }

/-- A record entered in the darkroom's queue of 256, or counted as lost (R374, R382). -/
def Dev.drkRecord (d : Dev) (source det : Nat) : Dev :=
  let k := d.drk
  if !d.pwr.dark then d
  else if k.evq.length ≥ 256 then { d with drk := { k with evLost := k.evLost + 1 } }.alertUpd
  else { d with drk := { k with evq := k.evq ++ [evtRecord source 1 det d.time] } }.alertUpd

/-- A system source of the darkroom raised (R376). -/
def Dev.drkRaise (d : Dev) (k det : Nat) : Dev := d.drkRecord (960 + k) det

/-! ## Messages to the fabric manager (R373, R374) -/

/-- A message placed in MBXRXD: V is set and source MBX raised. -/
def Dev.mbxPlace (d : Dev) (bs : List Byte) : Dev :=
  let d := (List.range ((bs.length + 7) / 8)).foldl (fun d i =>
    d.setReg (SYS.MBXRXD.DATA i) (w64 (leNat ((bs.drop (8 * i)).take 8)))) d
  ((d.setF SYS.MBXRX.LEN bs.length).setF SYS.MBXRX.V 1).raiseSys 4 bs.length

/-- A message for FM delivered, or held by the darkroom; false where its queue of 16 is full. -/
def Dev.fmDeliver (d : Dev) (bs : List Byte) : Bool × Dev :=
  if !d.fb SYS.MBXRX.V then (true, d.mbxPlace bs)
  else if d.drk.fmq.length ≥ 16 then (false, d)
  else (true, { d with drk := { d.drk with fmq := d.drk.fmq ++ [bs] } }.setF SYS.MBXRX.PEND (d.drk.fmq.length + 1))

/-- Every strand of the device stopped with SAFELIGHT, at once or when its outstanding request completes (R410). -/
def Dev.stopAll (d : Dev) : Dev :=
  ((d.sor.strand.filter fun e => e.2.live).map (·.1)).foldl (fun d t => d.stopStrand t 0x84) d

/-- Every sorus clock at 1.0 GHz, with THR where that is below its CAP (R410, R415). -/
def Dev.slowClocks (d : Dev) : Dev :=
  (List.range 32).foldl (fun d n =>
    (d.setF (SYS.SCLK.CUR n) 10).setF (SYS.SCLK.THR n) (b2n (10 < d.f (SYS.SCLK.CAP n)))) d

/-- Safelight entered (R409, R410); a trigger while it is in force is recorded in the darkroom's log only. -/
def Dev.enterSafe (d : Dev) (reason arg : Nat) : Dev :=
  if !d.fdUp then d
  else if d.safe then { d with drk := { d.drk with safeLog := d.drk.safeLog ++ [(reason, arg, d.now)] } }
  else
    let d := ((d.setF SYS.SAFE.ACTIVE 1).setF SYS.SAFE.REASON reason).setF SYS.SAFE.ARG arg
    let d := d.setReg SYS.SAFETIME.TIME (w64 d.now)
    let d : Dev := { d with pwr := { d.pwr with safeDrv := true } }
    let d := d.drkRaise 18 reason
    let d := d.stopAll
    let d : Dev := { d with moves := d.moves.map fun m => { m with abort := true } }
    d.slowClocks

end Sys2Proof.Machine
end

