-- ==== Sys2Proof/Machine/Chan.lean ====
section
/-! DEFINITION. Channels (R174–R178) and the channel instructions of opcode 0x20 (R213–R215). -/

namespace Sys2Proof.Machine

def Chan.empty : Chan := ⟨0, 0, 0, 0, 0⟩

/-- Channel `c` of sorus `s`: its counts, depth and mode. -/
def Dev.ch (d : Dev) (s c : Nat) : Chan := Tbl.get Chan.empty d.sor.chan (s * 256 + c)
def Dev.setCh (d : Dev) (s c : Nat) (x : Chan) : Dev :=
  { d with sor := { d.sor with chan := Tbl.put Chan.empty d.sor.chan (s * 256 + c) x } }
def Dev.chDepth (d : Dev) (s c : Nat) : Nat := 2 ^ d.f (SORUS.CHCFG.DEPTH s c)
def Dev.chSpill (d : Dev) (s c : Nat) : Bool := 8 < d.f (SORUS.CHCFG.DEPTH s c)

/-- A word of a channel's buffer, by count. -/
def Dev.chAddr (d : Dev) (s c i : Nat) : Nat := d.f (SORUS.CHCFG.BASE s c) * 64 + i % d.chDepth s c * 8
def Dev.chWord (d : Dev) (s c i : Nat) : Word := w64 (leNat (d.storeBytes s (d.chAddr s c i) 8))

/-- The idle word (R175). -/
def idleWord : Word := 0xFFFFFFFFFFFFFF00

/-- The channel holds an unread word. -/
def Dev.chUnread (d : Dev) (s c : Nat) : Bool := d.fb (SORUS.CHCFG.EN s c) && decide ((d.ch s c).r < (d.ch s c).w)

/-- A word counted as lost; the first after LOST was 0 raises CHAN (R187). -/
def Dev.chLost (d : Dev) (s c : Nat) : Dev :=
  let first := d.f (SORUS.CHSTAT.LOST s c) == 0
  let d := d.incF (SORUS.CHSTAT.LOST s c)
  if first then d.raise (384 + 6 * s + 5) (c + 2 * 256) else d

/-- chget() for a strand that takes a word, or the idle word from an empty channel (R174, R175). -/
def Dev.chTake (d : Dev) (t rd s c : Nat) : Dev :=
  let x := d.ch s c
  if x.r < x.w then
    ((d.setCh s c { x with r := x.r + 1 }).updStr t fun y => y.withV true).give t rd (d.chWord s c x.r)
  else (d.updStr t fun y => y.withV false).give t rd idleWord

/-- The strands of a sorus that wait for a word of channel `c` by CHGET.W, and by WAIT.CH. -/
def Dev.chGetters (d : Dev) (s c : Nat) : List (Nat × Nat) :=
  (d.running s).filterMap fun e => match e.2.wait with
    | .chget rd k _ => if k == c then some (e.1, rd) else none
    | _ => none
def Dev.chWaiters (d : Dev) (s c : Nat) : List (Nat × Nat × List Nat) :=
  (d.running s).filterMap fun e => match e.2.wait with
    | .waitCh rd cs _ => if cs.contains c then some (e.1, rd, cs) else none
    | _ => none

/-- WAIT.CH ends with the lowest of its channels that holds an unread word, or with its timeout result (R219). -/
def Dev.waitChEnd (d : Dev) (t rd : Nat) (cs : List Nat) : Dev :=
  match cs.find? fun c => d.chUnread (sorusOf t) c with
  | some c => (d.updStr t fun y => y.withV true).give t rd (w64 c)
  | none => (d.updStr t fun y => y.withV false).give t rd (BitVec.allOnes 64)

/-- Words are there to read: each goes to one of the strands that wait in CHGET.W, and WAIT.CHs end where one is left unread
(R215, R219). -/
def Dev.chServe (s c : Nat) : Nat → Dev → Dev
  | 0, d => d
  | k + 1, d =>
    if !d.chUnread s c then d
    else match d.pick (d.chGetters s c) with
    | (some (t, rd), d) => Dev.chServe s c k (d.chTake t rd s c)
    | (none, d) => (d.chWaiters s c).foldl (fun d e => if d.chUnread s c then d.waitChEnd e.1 e.2.1 e.2.2 else d) d

/-- A word has arrived, or words are unread again: at most 32 strands wait for them. -/
def Dev.chArrived (d : Dev) (s c : Nat) : Dev := Dev.chServe s c 33 d

/-- A word written to a channel that has room, or whose oldest word it overwrites (R174); a word that a CHSKIP still has
to drop is dropped (R177). -/
def Dev.chWrite (d : Dev) (s c : Nat) (v : Word) : Dev :=
  let x := d.ch s c
  if 0 < x.skip then d.setCh s c { x with skip := x.skip - 1 }
  else
    let full := x.w - x.f == d.chDepth s c
    let d := if full then d.chLost s c else d
    let x := if full then { x with f := x.f + 1, m := max x.m (x.f + 1), r := max x.r (x.f + 1) } else x
    let d := d.putStore s (d.chAddr s c x.w) (leBytes 8 v.toNat)
    (d.setCh s c { x with w := x.w + 1 }).chArrived s c

/-- A channel in credit mode has no room (R174). A word that is to be dropped needs none. -/
def Dev.chFull (d : Dev) (s c : Nat) : Bool :=
  let x := d.ch s c
  !d.chSpill s c && x.skip == 0 && x.w - x.f == d.chDepth s c

/-! ## Enabling and disabling (R178) -/

/-- Loaded spores whose code lies in the sorus store: offset and length. -/
def Dev.storeSpores (d : Dev) (s : Nat) : List (Nat × Nat) :=
  let base := 0x901000 + s * 0x10000
  (d.csr.filter fun e => base ≤ e.1 && e.1 < base + 0x4000 && e.1 % 16 == 0 && getBits e.2 0 1 == 1 && getBits e.2 2 1 == 0).map
    fun e => (d.f (SORUS.SPTABB.BASE s ((e.1 - base) / 16)), getBits e.2 39 25)

/-- Enabled channels of a sorus. -/
def Dev.chansOn (d : Dev) (s : Nat) : List Nat :=
  let base := 0x905000 + s * 0x10000
  (d.csr.filter fun e => base ≤ e.1 && e.1 < base + 0x800 && getBits e.2 0 1 == 1).map fun e => (e.1 - base) / 8

/-- The buffer of an enabled channel: offset and length. -/
def Dev.chBuf (d : Dev) (s c : Nat) : Nat × Nat := (d.f (SORUS.CHCFG.BASE s c) * 64, 8 * d.chDepth s c)

/-- A range of the store lies within the part that spores and channels may use, and meets none of them. -/
def Dev.storeFree (d : Dev) (s off n : Nat) : Bool :=
  0x10000 ≤ off && off + n ≤ 0x100000 &&
  !((d.storeSpores s ++ (d.chansOn s).map (d.chBuf s)).any fun r => off < r.1 + r.2 && r.1 < off + n)

/-- The fields of CHCFG but EN, as a write carries them; a reserved DEPTH keeps the old one (R7). -/
def Dev.chFields (d : Dev) (s c : Nat) (v : Word) : Dev :=
  let old := d.reg (SORUS.CHCFG.EN s c)
  let dep := getBits v 4 4
  let v := putBits (putBits v 0 1 (getBits old 0 1)) 47 17 0
  d.setReg (SORUS.CHCFG.EN s c) (if 4 ≤ dep && dep ≤ 12 then v else putBits v 4 4 (getBits old 4 4))

/-- The channel is disabled: held words are discarded, waiting CHGETs return the idle word, waiting CHPUTs lose theirs. -/
def Dev.chOff (d : Dev) (s c : Nat) : Dev :=
  let puts := (d.running s).filterMap fun e => match e.2.wait with
    | .chput k _ => if k == c then some e.1 else none
    | _ => none
  let d := (d.setF (SORUS.CHCFG.EN s c) 0).setCh s c Chan.empty
  let d := (d.chGetters s c).foldl (fun d e => d.chTake e.1 e.2 s c) d
  puts.foldl (fun d t => (d.chLost s c).next t) d

/-- A write of SORUS[n].CHCFG[c] (R178). -/
def Dev.chcfgWrite (d : Dev) (s c : Nat) (v : Word) : Dev :=
  let en := getBits v 0 1 == 1
  if d.fb (SORUS.CHCFG.EN s c) then (if en then d else (d.chOff s c).chFields s c v)
  else
    let d := d.chFields s c v
    let d : Dev := { d with sor := { d.sor with chanErr := Tbl.put 0 d.sor.chanErr (s * 256 + c) 0 } }
    if !en then d
    else
      let b := d.chBuf s c
      if d.storeFree s b.1 b.2 then
        ((d.setF (SORUS.CHCFG.EN s c) 1).setF (SORUS.CHSTAT.LOST s c) 0).setCh s c Chan.empty
      else (d.setF (SORUS.STAT.CFGERR s) 1).raise (384 + 6 * s + 5) c

/-! ## The channel instructions -/

/-- A channel instruction issued: its reserved fields, then its channel under R178, R213 and R214. -/
def Dev.chIssue (d : Dev) (t : Nat) (f : FQ) (ind illegal : Bool) (k : Nat → Nat → Dev → Dev) : Dev :=
  d.issue t false (illegal || (ind && getBits f.ch 5 3 != 0)) fun d =>
    let x := d.str t
    let s := sorusOf t
    let c := if ind then (x.g (getBits f.ch 0 5)).toNat else f.ch.toNat
    if c > 255 || !d.fb (SORUS.CHCFG.EN s c) || (!x.priv && d.f (SORUS.CHCFG.SLICE s c) != x.slice) then
      d.strandFault t cCHAN 0
    else k s c d

/-- CHSKIP's effect, or none where it faults (R177). -/
def Dev.chSkip (d : Dev) (s c n : Nat) : Option Dev :=
  let x := d.ch s c
  if d.chSpill s c || n == 0 || x.r - x.f < n then none
  else
    let l := getBits (d.chWord s c (x.r - n)) 0 16
    if l < n then none
    else
      let target := x.r - n + l
      let r := min target x.w
      some (d.setCh s c { x with r := r, f := r, m := r, skip := x.skip + (target - r) })

/-- CHCFG_WRITE (R178). -/
def execChcfgWrite (n : Fin 32) (c : BitVec 8) (v : Word) (s : State) : Result :=
  s.act fun _ d => d.when d.cspOn fun d => d.chcfgWrite n c.toNat v

/-- CHPUT (R174). -/
def execChput (t : StrandIx) (f : FQ) (ind : Bool) (s : State) : Result :=
  s.act fun _ d => d.chIssue t f ind (f.rd != 0) fun n c d =>
    let v := (d.str t).g f.ra.toNat
    if d.chFull n c then d.waitOn t (.chput c v) else (d.chWrite n c v).next t

/-- CHPUT_CREDIT_RESUME (R174). -/
def execChputCreditResume (t : StrandIx) (s : State) : Result :=
  s.act fun _ d => match (d.str t).wait with
    | .chput c v => if d.chFull (sorusOf t) c then d else (d.chWrite (sorusOf t) c v).next t
    | _ => d

/-- CHTRY (R213). -/
def execChtry (t : StrandIx) (f : FQ) (ind : Bool) (s : State) : Result :=
  s.act fun _ d => d.chIssue t f ind (f.rd != 0) fun n c d =>
    if d.chFull n c then (d.updStr t fun y => y.withV false).next t
    else ((d.chWrite n c ((d.str t).g f.ra.toNat)).updStr t fun y => y.withV true).next t

/-- CHGET (R175). -/
def execChget (t : StrandIx) (f : FQ) (ind : Bool) (s : State) : Result :=
  s.act fun _ d => d.chIssue t f ind (f.ra != 0) fun n c d => d.chTake t f.rd.toNat n c

/-- CHGET_W (R175, R215): a limit of 0 is none. -/
def execChgetW (t : StrandIx) (f : FQ) (ind : Bool) (s : State) : Result :=
  s.act fun _ d => d.chIssue t f ind false fun n c d =>
    let lim := ((d.str t).g f.ra.toNat).toNat
    if d.chUnread n c then d.chTake t f.rd.toNat n c
    else d.waitOn t (.chget f.rd.toNat c (if lim == 0 then 0 else d.time + lim))

/-- CHGET_W_TIMEOUT (R215): only a wait with a limit ends so. -/
def execChgetWTimeout (t : StrandIx) (s : State) : Result :=
  s.act fun _ d => match (d.str t).wait with
    | .chget rd c lim => if lim == 0 then d else d.chTake t rd (sorusOf t) c
    | _ => d

/-- CHMARK (R174). -/
def execChmark (t : StrandIx) (f : FQ) (ind : Bool) (s : State) : Result :=
  s.act fun _ d => d.chIssue t f ind (f.rd != 0 || f.ra != 0) fun n c d =>
    (d.setCh n c { d.ch n c with m := (d.ch n c).r }).next t

/-- CHREWIND (R174). -/
def execChrewind (t : StrandIx) (f : FQ) (ind : Bool) (s : State) : Result :=
  s.act fun _ d => d.chIssue t f ind (f.rd != 0 || f.ra != 0) fun n c d =>
    ((d.setCh n c { d.ch n c with r := (d.ch n c).m }).chArrived n c).next t

/-- CHRELEASE (R174). -/
def execChrelease (t : StrandIx) (f : FQ) (ind : Bool) (s : State) : Result :=
  s.act fun _ d => d.chIssue t f ind (f.rd != 0 || f.ra != 0) fun n c d =>
    (d.setCh n c { d.ch n c with f := (d.ch n c).r, m := (d.ch n c).r }).next t

/-- CHSKIP (R177). -/
def execChskip (t : StrandIx) (f : FQ) (ind : Bool) (s : State) : Result :=
  s.act fun _ d => d.chIssue t f ind (f.rd != 0) fun n c d =>
    match d.chSkip n c ((d.str t).g f.ra.toNat).toNat with
    | some d => d.next t
    | none => d.strandFault t cCHAN 0

/-- CHCNT (R213). -/
def execChcnt (t : StrandIx) (f : FQ) (ind : Bool) (s : State) : Result :=
  s.act fun _ d => d.chIssue t f ind (f.ra != 0) fun n c d =>
    d.give t f.rd.toNat (w64 ((d.ch n c).w - (d.ch n c).r))

end Sys2Proof.Machine
end

