-- ==== Sys2Proof/Machine/WorkQ.lean ====
section
/-! DEFINITION. Submission queues, their doorbells and control words, completion queues as software drives them (R257–R271,
R279), invocation windows (R272–R276), and the dispatcher (R164–R166, R179, R266–R268, R278). -/

namespace Sys2Proof.Machine

/-! ## Doorbells (R263–R267) -/

def Dev.sqEn (d : Dev) (n q : Nat) : Bool := n == mgrN && q == 0 || n != mgrN && d.fb (SLICE.SQA.EN n q)

/-- STATE of a queue: the manager queue runs from reset on. -/
def Dev.sqState (d : Dev) (n q : Nat) : Nat :=
  if n == mgrN && d.f (SLICE.SQB.STATE n q) == 0 then 1 else d.f (SLICE.SQB.STATE n q)

/-- The queue stops in ERROR; a queue in ERROR keeps its first reason (R266). -/
def Dev.sqStop (d : Dev) (n q reason idx : Nat) : Dev :=
  if d.sqState n q == 2 then d
  else
    let d := ((d.setF (SLICE.SQB.STATE n q) 2).setF (SLICE.SQB.REASON n q) reason).setF (SLICE.SQB.ERRIDX n q) idx
    if n != mgrN && d.fb (SLICE.SQA.ERRIE n q) then d.raiseVec n (d.f (SLICE.SQA.ERRVEC n q)) else d

/-- An SQ tail doorbell (R263, R264). -/
def Dev.sqDoorbell (d : Dev) (p n q v : Nat) : Dev :=
  if v / 65536 != 0 || !d.sqEn n q then d.accErr p
  else
    let h := d.f (SLICE.SQB.HEAD n q)
    if ringUsed h (d.f (SLICE.SQB.TAIL n q)) ≤ ringUsed h v && ringUsed h v ≤ 2 ^ d.sqLog n q then d.setF (SLICE.SQB.TAIL n q) v
    else d.sqStop n q 6 v

/-- A CQ head doorbell (R265). -/
def Dev.cqDoorbell (d : Dev) (p n q v : Nat) : Dev :=
  if !d.cqEn n q then d.accErr p
  else
    let h := d.f (SLICE.CQB.HEAD n q)
    let hn := v % 65536
    if ringUsed h hn ≤ ringUsed h (d.f (SLICE.CQB.TAIL n q)) then
      let d := (d.setF (SLICE.CQB.HEAD n q) hn).cqRetry n q
      if !bitN v 31 then d
      else if d.cqUsed n q != 0 then d.cqVec n q
      else d.setF (SLICE.CQB.ARMED n q) 1
    else
      let d := d.setF (SLICE.CQB.HERR n q) 1
      (if n != mgrN && d.fb (SLICE.CQA.IE n q) then d.cqVec n q else d).cqRetry n q

/-- The SQ control word (R267). -/
def Dev.sqControl (d : Dev) (p n q v : Nat) : Dev :=
  if !d.sqEn n q || d.sqState n q != 2 || !(v == 1 || v == 2) then d.accErr p
  else
    let d := if v == 2 && d.f (SLICE.SQB.REASON n q) != 6 then
        d.setF (SLICE.SQB.HEAD n q) ((d.f (SLICE.SQB.ERRIDX n q) + 1) % 65536) else d
    d.setF (SLICE.SQB.STATE n q) 1

/-! ## SQA and CQA (R279) -/

/-- Queues enabled on the device, of the kind whose EN bits lie at `off` in the SLICE blocks. -/
def Dev.queuesOn (d : Dev) (off : Nat) : Nat :=
  (d.csr.filter fun e => 0x1000000 ≤ e.1 && e.1 < 0x2000000 && off ≤ e.1 % 0x1000 && e.1 % 0x1000 < off + 0x80 &&
    e.1 % 16 == 0 && getBits e.2 0 1 == 1).length

/-- The fields that may change while EN is clear; a reserved LOGSZ keeps the old one (R7). -/
def ringFields (old v : Word) (baseLo w : Nat) : Word :=
  let v := putBits (putBits v 5 (baseLo - 5) 0) w (64 - w) 0
  let v := putBits v 0 1 0
  if 4 ≤ getBits v 1 4 then v else putBits v 1 4 (getBits old 1 4)

/-- A write of SLICE[n].SQA[q]. -/
def Dev.sqaWrite (d : Dev) (n q : Nat) (v : Word) : Dev :=
  let en := getBits v 0 1 == 1
  if d.fb (SLICE.SQA.EN n q) then
    if en then d else (d.setF (SLICE.SQA.EN n q) 0).setF (SLICE.SQB.STATE n q) 0
  else
    let d := d.setReg (SLICE.SQA.EN n q) (ringFields (d.reg (SLICE.SQA.EN n q)) v 10 53)
    if !en then d
    else if d.queuesOn 0x100 ≥ 16384 then d.setF (SLICE.SQB.POOL n q) 1
    else
      let d : Dev := { d.forget (· == .sq n q) with wq := { d.wq with sqOwn := Tbl.put 0 d.wq.sqOwn (n * 8 + q) 0 } }
      let d := ((d.setF (SLICE.SQA.EN n q) 1).setF (SLICE.SQB.POOL n q) 0).setF (SLICE.SQB.STATE n q) 1
      (d.setF (SLICE.SQB.HEAD n q) 0).setF (SLICE.SQB.TAIL n q) 0

/-- A write of SLICE[n].CQA[q]. -/
def Dev.cqaWrite (d : Dev) (n q : Nat) (v : Word) : Dev :=
  let en := getBits v 0 1 == 1
  if d.fb (SLICE.CQA.EN n q) then
    if en || d.f (SLICE.CQB.RSV n q) + (d.cqHeld n q).length > 0 then d else d.setF (SLICE.CQA.EN n q) 0
  else
    let d := d.setReg (SLICE.CQA.EN n q) (ringFields (d.reg (SLICE.CQA.EN n q)) v 9 54)
    if !en then d
    else if d.queuesOn 0x180 ≥ 16384 then d.setF (SLICE.CQB.POOL n q) 1
    else
      let d := ((d.setF (SLICE.CQA.EN n q) 1).setF (SLICE.CQB.POOL n q) 0).setHeld n q []
      ((d.setF (SLICE.CQB.HEAD n q) 0).setF (SLICE.CQB.TAIL n q) 0).setF (SLICE.CQB.RSV n q) 0

/-! ## Window commands and result reads (R272–R276) -/

/-- The sixty-fourth byte of a command has arrived (R272, R273). -/
def Dev.winArrive (d : Dev) (p n w : Nat) : Dev :=
  let x := d.win n w
  let cmd := x.buf
  let x := { x with buf := 0, got := 0 }
  if !d.fb (SLICE.WIN.EN n w) then (d.setWin n w x).accErr p
  else if x.state == 1 then d.setWin n w { x with ovr := true }
  else
    let d := d.countSlice n 2 1
    let x := { x with seq := (x.seq + 1) % 2 ^ 32, nr := false, ovr := false }
    let st := d.f (SLICE.STATE.STATE n)
    if st == 2 || st == 3 then (d.setWin n w x).winDone n w 0x85 0 (winRecord 0x85 [])
    else if d.safe then (d.setWin n w x).winDone n w 0x84 0 (winRecord 0x84 [])
    else d.setWin n w { x with state := 1, cmd := some cmd, cfg := d.reg (SLICE.WIN.EN n w) }

/-- Bytes written into a command slot (R272). -/
def Dev.winBytes (d : Dev) (p n w off : Nat) (bs : List Byte) : Dev :=
  let x := d.win n w
  let bs := bs.take (64 - off)
  let x := { x with buf := linePatch x.buf off bs, got := x.got ||| BitVec.ofNat 64 ((2 ^ bs.length - 1) * 2 ^ off) }
  let d := d.setWin n w x
  if x.got == BitVec.allOnes 64 then d.winArrive p n w else d

/-- A read of a result slot (R272, R275). -/
def Dev.winRead (d : Dev) (p n w len : Nat) (frameOff : Nat) : Dev :=
  let r : HeldRd := ⟨p, frameOff, len, n, w, d.f (BIND.HGEN.CUR (d.hostOf p))⟩
  if d.readHolds r then { d with wq := { d.wq with reads := d.wq.reads ++ [r] } } else d.slotAnswer r

/-- HOLD passes for the oldest held read of an offset at a port (R275). -/
def Dev.notReady (d : Dev) (p off : Nat) : Dev :=
  match (holdSplit d.wq.reads).1.find? fun r => r.port == p && r.off == off with
  | none => d
  | some r =>
    let d : Dev := { d with wq := { d.wq with reads := d.wq.reads.erase r } }
    Dev.readsGo d.wq.reads.length (d.slotAnswer r)

/-- The status word of a window (R274). -/
def Dev.winWord (d : Dev) (n w : Nat) : Word :=
  let x := d.win n w
  w64 (x.status % 256 + x.detail % 256 * 2 ^ 8 + x.state % 4 * 2 ^ 16 + b2n x.nr * 2 ^ 18 + b2n x.ovr * 2 ^ 19 + x.seq % 2 ^ 32 * 2 ^ 32)

/-! ## The choice of a strand (R164, R165, R268) -/

/-- The sorus serves the slice. -/
def Dev.serves (d : Dev) (s n : Nat) : Bool := bitN (d.f (SORUS.SLSERVE.SLICES s (n / 64))) (n % 64)

/-- The strands of a sorus that take slice work: those of its logical Fronds that are not DOWN. -/
def Dev.poolSize (d : Dev) (s : Nat) : Nat :=
  4 * ((List.range 8).filter fun l => !(s == 0 && l == 0) && !bitN (d.f (SORUS.STAT.DOWN s)) l).length

/-- Strands of the pool that run anything but window work. -/
def Dev.nonWindow (d : Dev) (s : Nat) : Nat :=
  ((d.running s).filter fun e => !(s == 0 && lfOf e.1 == 0) && e.2.work.kind != 1).length

/-- A sorus has a strand free for work of a kind: 1 window, otherwise SQ or channel work, which may not take the WINRSV
strands kept for window work (R165). -/
def Dev.hasStrand (d : Dev) (s kind : Nat) : Bool :=
  Tbl.get 0 d.sor.halt s == 0 && !(d.freeStrands s).isEmpty &&
  (kind == 1 || d.nonWindow s + 1 + d.f (SORUS.CTL.WINRSV s) ≤ d.poolSize s)

/-- The sorus that takes slice work: the first of the slice's set after the last that took, with a strand free (R268). -/
def Dev.chooseSorus (d : Dev) (n last kind : Nat) : Option Nat :=
  ((List.range 32).map fun i => (last + i) % 32).find? fun s => d.serves s n && d.hasStrand s kind

def Dev.winSorus (d : Dev) (n : Nat) : Option Nat := d.chooseSorus n (Tbl.get 0 d.wq.winRot n) 1
def Dev.sqSorus (d : Dev) (n q : Nat) : Option Nat := d.chooseSorus n (Tbl.get 0 d.wq.sqRot (n * 8 + q)) 0

/-- The rotation of a sorus's dispatcher over the queues, windows or channels of one source (R164): `k` is the first of those
that wait, `ks`, after the one considered last. -/
def Dev.turnOf (d : Dev) (s src k : Nat) (ks : List Nat) : Bool :=
  let hi := ks.filter (Tbl.get 0 d.sor.turn (s * 4 + src) ≤ ·)
  (if hi.isEmpty then ks else hi).min? == some k
def Dev.turned (d : Dev) (s src k : Nat) : Dev :=
  { d with sor := { d.sor with turn := Tbl.put 0 d.sor.turn (s * 4 + src) (k + 1) } }

/-- The window commands that wait and that the sorus would take now: the second of the dispatcher's sources (R164). -/
def Dev.winsFor (d : Dev) (s : Nat) : List Nat :=
  (d.wq.win.filter fun e => e.2.cmd.isSome && d.winSorus (e.1 / 64) == some s &&
    !d.sporeFull s (d.winF (e.1 / 64) (e.1 % 64) (SLICE.WIN.SPORE (e.1 / 64) (e.1 % 64)))).map (·.1)
def Dev.windowWaits (d : Dev) (s : Nat) : Bool := !(d.winsFor s).isEmpty

/-- A START channel holds an unread word and has no strand (R179), its slice admits work (R41). -/
def Dev.chDue (d : Dev) (s c : Nat) : Bool :=
  d.fb (SORUS.CHCFG.START s c) && d.chUnread s c &&
  !((d.running s).any fun e => e.2.work.kind == 2 && e.2.work.src == c) &&
  (let st := d.f (SLICE.STATE.STATE (d.f (SORUS.CHCFG.SLICE s c)))
   st == 1 || (st == 0 && d.fb (SORUS.CHCFG.PRIV s c)))

/-- The spore that a START channel names may run (R166, R179). -/
def Dev.chSporeOk (d : Dev) (s c : Nat) : Bool :=
  d.sporeOk s (d.f (SORUS.CHCFG.SPORE s c)) (d.f (SORUS.CHCFG.ENTRY s c)) (d.f (SORUS.CHCFG.SLICE s c)) (d.fb (SORUS.CHCFG.PRIV s c))

/-- The START channels that the sorus would start now: the third source. -/
def Dev.chansFor (d : Dev) (s : Nat) : List Nat :=
  (d.chansOn s).filter fun c => d.chDue s c && d.chSporeOk s c && !d.sporeFull s (d.f (SORUS.CHCFG.SPORE s c)) && d.hasStrand s 2
def Dev.channelWaits (d : Dev) (s : Nat) : Bool := !(d.chansFor s).isEmpty

/-- The queue has an entry that can be taken: it runs, its slice admits work, and OWN of the entry before is clear (R266). -/
def Dev.sqReady (d : Dev) (n q : Nat) : Bool :=
  d.sqEn n q && d.sqState n q == 1 && d.f (SLICE.SQB.HEAD n q) != d.f (SLICE.SQB.TAIL n q) &&
  (n == mgrN || d.f (SLICE.STATE.STATE n) == 1) && Tbl.get 0 d.wq.sqOwn (n * 8 + q) == 0

/-- The submission queues that the sorus would take from now: the fourth source. -/
def Dev.sqsFor (d : Dev) (s : Nat) : List Nat :=
  ((d.csr.filter fun e => 0x1000000 ≤ e.1 && e.1 < 0x2000000 && 0x100 ≤ e.1 % 0x1000 && e.1 % 0x1000 < 0x180 && e.1 % 16 == 0).map
    fun e => (e.1 - 0x1000000) / 0x1000 * 8 + (e.1 % 0x1000 - 0x100) / 16).filter fun k =>
      d.sqReady (k / 8) (k % 8) && d.sqSorus (k / 8) (k % 8) == some s

/-! ## Taking work -/

/-- The eight words of a 64-byte block. -/
def cmdWords (x : Line) : List Word := (List.range 8).map fun i => w64 (bitsN x.toNat (64 * i) 64)

/-- The dispatcher takes the command of a window (R164, R166, R273). In safelight it completes without a strand. -/
def Dev.takeWindow (d : Dev) (n w t : Nat) : Dev :=
  match (d.win n w).cmd with
  | none => d
  | some cmd =>
    let spore := d.winF n w (SLICE.WIN.SPORE n w)
    let entry := d.winF n w (SLICE.WIN.ENTRY n w)
    let taken := fun (d : Dev) => d.setWin n w { d.win n w with cmd := none }
    if d.safe then (taken d).winDone n w 0x84 0 (winRecord 0x84 [])
    else if !(d.freeStrands (sorusOf t)).contains t || !d.turnOf (sorusOf t) 1 (n * 64 + w) (d.winsFor (sorusOf t)) then d
    else
      let d : Dev := { d.turned (sorusOf t) 1 (n * 64 + w) with wq := { d.wq with winRot := Tbl.put 0 d.wq.winRot n ((sorusOf t + 1) % 32) } }
      if !d.sporeOk (sorusOf t) spore entry n false then (taken d).winDone n w 0x86 5 (winRecord 0x86 [])
      else
        let k : Work := { Work.none with
          kind := 1, src := w, slice := n, spore := spore, entry := entry, idem := d.winF n w (SLICE.WIN.IDEM n w) == 1
          slot := .win n w, body := cmdWords cmd }
        (taken d).startWork t k false

/-- The dispatcher starts the spore of a START channel (R179), or reports once that it cannot (R166). -/
def Dev.startChannel (d : Dev) (s c t : Nat) : Dev :=
  let key := s * 256 + c
  if d.safe || sorusOf t != s || !d.chDue s c then d
  else if !d.chSporeOk s c then
    if Tbl.get 0 d.sor.chanErr key != 0 then d
    else ({ d with sor := { d.sor with chanErr := Tbl.put 0 d.sor.chanErr key 1 } } : Dev).raise (384 + 6 * s + 5) (c + 256)
  else if !(d.freeStrands s).contains t || d.windowWaits s || !d.turnOf s 2 c (d.chansFor s) then d
  else
    let d := d.turned s 2 c
    let d : Dev := { d with sor := { d.sor with chanErr := Tbl.put 0 d.sor.chanErr key 0 } }
    let k : Work := { Work.none with
      kind := 2, src := c, slice := d.f (SORUS.CHCFG.SLICE s c), spore := d.f (SORUS.CHCFG.SPORE s c)
      entry := d.f (SORUS.CHCFG.ENTRY s c), idem := d.fb (SORUS.CHCFG.IDEM s c) }
    d.startWork t k (d.fb (SORUS.CHCFG.PRIV s c))

/-- A reserved bit of an SQ entry is set (R259). -/
def sqReserved (mgr : Bool) (e : Nat) : Bool :=
  let cqreq := bitsN e 9 1 == 1
  bitsN e 10 6 != 0 || bitsN e 26 6 != 0 || bitsN e 48 16 != 0 || bitsN e 35 13 != 0 ||
  ((!cqreq || mgr) && bitsN e 32 3 != 0)

/-- The reason to stop a queue at an entry that was read, 0 for none: the checks of R266 that come before the choice of a
sorus. -/
def Dev.sqCheck (d : Dev) (n : Nat) (e : Nat) : Nat :=
  if bitsN e 0 1 == 0 then 1
  else if sqReserved (n == mgrN) e then 2
  else if bitsN e 1 7 > 7 then 3
  else if bitsN e 9 1 == 1 && !d.cqEn n (bitsN e 32 3) then 4
  else 0

/-- The entry at the head read. -/
def Dev.sqRead (d : Dev) (n q unit : Nat) : Option (List Byte) × Dev :=
  let pos := d.f (SLICE.SQB.HEAD n q) % 2 ^ d.sqLog n q * 64
  if n == mgrN then (some (Tbl.range 0 d.wq.mgr (0x4000 + pos) 64), d)
  else d.sliceRead (.sq n q) unit n (d.f (SLICE.SQA.BASE n q) * 1024 + pos) 64 dispAgent

/-- The strand may take the head entry of the queue: strands of logical Frond 0 of sorus 0 for the manager's, the sorus
that R268 chooses otherwise, after the sources that come first, in its turn (R164). In safelight no channel starts (R411), so
none comes first. -/
def Dev.sqStrand (d : Dev) (n q t : Nat) : Bool :=
  if n == mgrN then sorusOf t == 0 && lfOf t == 0 && d.freeStrand t
  else
    d.turnOf (sorusOf t) 3 (n * 8 + q) (d.sqsFor (sorusOf t)) && (d.freeStrands (sorusOf t)).contains t &&
    !d.windowWaits (sorusOf t) && (d.safe || !d.channelWaits (sorusOf t))

/-- Work of an entry started, or completed SAFELIGHT, and its OWN cleared (R266). -/
def Dev.sqStart (d : Dev) (n q t e : Nat) : Dev :=
  let cqid := bitsN e 32 3
  let k : Work := { Work.none with
    kind := if n == mgrN then 3 else 0, src := q, slice := if n == mgrN then 0 else n, spore := bitsN e 16 10
    entry := bitsN e 1 3, idx := d.f (SLICE.SQB.HEAD n q), cookie := bitsN e 64 32, idem := bitsN e 8 1 == 1
    slot := if bitsN e 9 1 == 0 then .none else if n == mgrN then .mgr else .cq n cqid
    body := cmdWords (BitVec.ofNat 512 e) }
  let d := if d.safe then d.complete (sorusUnit (sorusOf t)) k 0x84 0 [] [] else d.startWork t k (n == mgrN)
  let d : Dev := { d with wq := { d.wq with
    sqRot := Tbl.put 0 d.wq.sqRot (n * 8 + q) ((sorusOf t + 1) % 32), sqOwn := Tbl.put 0 d.wq.sqOwn (n * 8 + q) (1 + e % 256) } }
  (if n == mgrN then d else d.countSlice n 0 1).sqDisown n q

/-- The dispatcher takes the entry at the head of a queue (R266, R278): it is read and checked first, whether or not a strand is
free for it. One that its sorus cannot start yet has had its turn. -/
def Dev.takeSq (d0 : Dev) (n q t : Nat) : Dev :=
  let head := d0.f (SLICE.SQB.HEAD n q)
  if !d0.sqReady n q then d0
  else d0.attempt fun d0 =>
    match d0.sqRead n q (sorusUnit (sorusOf t)) with
    | (none, d) => d.sqStop n q 7 head
    | (some bs, d) =>
      let e := leNat bs
      if d.sqCheck n e != 0 then d.sqStop n q (d.sqCheck n e) head
      else if !d.sqStrand n q t then d
      else
      let d := if n == mgrN then d else d.turned (sorusOf t) 3 (n * 8 + q)
      if !d.sporeOk (sorusOf t) (bitsN e 16 10) (bitsN e 1 3) n (n == mgrN) then d.sqStop n q 5 head
      else if d.sporeFull (sorusOf t) (bitsN e 16 10) then d
      else
        match (if bitsN e 9 1 == 1 then d.cqReserve n (bitsN e 32 3) else (true, d)) with
        | (false, d) => d
        | (true, d) => d.sqStart n q t e

/-- DISPATCH_MANAGER (R278). -/
def execDispatchManager (t : StrandIx) (s : State) : Result :=
  s.act fun _ d => d.when d.fdUp fun d => d.takeSq mgrN 0 t

/-- DISPATCH_WINDOW (R164, R273). -/
def execDispatchWindow (n : BitVec 12) (w : BitVec 6) (t : StrandIx) (s : State) : Result :=
  s.act fun _ d => d.when d.fdUp fun d => d.takeWindow n.toNat w.toNat t

/-- DISPATCH_START_CHANNEL (R179). -/
def execDispatchStartChannel (n : Fin 32) (c : BitVec 8) (t : StrandIx) (s : State) : Result :=
  s.act fun _ d => d.when d.fdUp fun d => d.startChannel n c.toNat t

/-- DISPATCH_SQ (R266). -/
def execDispatchSq (n : BitVec 12) (q : Fin 8) (t : StrandIx) (s : State) : Result :=
  s.act fun _ d => d.when d.fdUp fun d => d.takeSq n.toNat q t

/-- SQA_WRITE (R279). -/
def execSqaWrite (n : BitVec 12) (q : Fin 8) (v : Word) (s : State) : Result :=
  s.act fun _ d => d.when d.cspOn fun d => d.sqaWrite n.toNat q v

/-- CQA_WRITE (R279). -/
def execCqaWrite (n : BitVec 12) (q : Fin 8) (v : Word) (s : State) : Result :=
  s.act fun _ d => d.when d.cspOn fun d => d.cqaWrite n.toNat q v

end Sys2Proof.Machine
end

