-- ==== Sys2Proof/Machine/Sorus.lean ====
section
/-! DEFINITION. The watchdog and fencing (R181–R183), FSWAP and rotation (R184–R186), and HALT (R256). -/

namespace Sys2Proof.Machine

/-! ## The statuses of opcode 0x35 -/

def sOK : Nat := 0x00
def sNOSPARE : Nat := 0x01
def sBUSY : Nat := 0x02
def sBADARG : Nat := 0x03
def sSTARTED : Nat := 0x04

/-! ## A Frond's reset -/

/-- A Frond reset (R404): its cycle counter and programmable counters start from 0 (R385); its requests are nobody's, and its
L1I holds nothing. -/
def Dev.frondReset (d : Dev) (p : Nat) : Dev :=
  { d with
    sor := { d.sor with
      rdu := d.sor.rdu.filter (·.p != p)
      prefs := d.sor.prefs.filter (·.p != p)
      l1i := Tbl.drop (fun k => k / 2 ^ 47 == p) d.sor.l1i }
    ctr := { d.ctr with
      pmc := Tbl.drop (fun k => k / 8 == p) d.ctr.pmc
      clkBase := Tbl.put 0 d.ctr.clkBase p (Tbl.get 0 d.ctr.clk (p / 9) / 10) } }

/-- The live strands of a logical Frond. -/
def Dev.lfStrands (d : Dev) (s l : Nat) : List Nat := ((List.range 4).map fun i => s * 32 + l * 4 + i).filter fun t => (d.str t).live

/-- The logical Frond that a physical one carries. -/
def Dev.lfOn (d : Dev) (s i : Nat) : Option Nat := (List.range 8).find? fun l => d.f (SORUS.LFMAP.PHYS s l) == i

/-- The sorus raises ROT with the last rotation's state (R187). -/
def Dev.rotEvent (d : Dev) (s : Nat) : Dev := d.raise (384 + 6 * s + 3) (d.f (SORUS.STAT.ROT s))

/-- The rotation of a sorus ends in a state of STAT.ROT. -/
def Dev.rotEnd (d : Dev) (s v : Nat) : Dev :=
  let d : Dev := { d with sor := { d.sor with rot := Tbl.put 0 d.sor.rot s 0, test := Tbl.put 0 d.sor.test s 0 } }
  (d.setF (SORUS.STAT.ROT s) v).rotEvent s

/-! ## Fencing -/

/-- The buffered stores of a fenced Frond: those to a line that it holds exclusively are merged, the others discarded
(coincidences for loads and stores), and with them the posted updates that have not gone out. A log bit that the line's home
cannot set at once is sent for, ahead of the line's write-back. -/
def Dev.publish (d : Dev) (p : Nat) : Dev :=
  let mine := d.sor.sb.filter fun e => e.p == p
  let d : Dev := { d with sor := { d.sor with
    sb := d.sor.sb.filter fun e => e.p != p
    posts := d.sor.posts.filter fun e => e.p != p || e.sent } }
  mine.foldl (fun d e =>
    let ln := e.fpa / 64
    let x := d.l1 p ln
    if !((x.st == some .m || x.st == some .e) && !x.psn) || d.inTables ln then d
    else
      let d := if d.logsStore p ln e.slice e.priv then d.attempt fun d => d.dlog .posted e.slice e.sa e.bs.length else d
      d.setL1 p ln { x with st := some .m, data := linePatch x.data (e.fpa % 64) e.bs }) d

/-- The strand is hung (R181): it runs, in no wait, not stopped for migration, and its Frond is not being fenced. -/
def Dev.canHang (d : Dev) (t : Nat) : Bool :=
  let x := d.str t
  d.fdUp && x.live && x.wait == .none && !x.held && !d.safe && Tbl.get 0 d.sor.fencing (d.physOf t) == 0

/-- The physical Frond of a hung strand starts fencing (R182, steps 1 and 2): its core is held, so that no answer which still
comes makes one of its strands go on, and its L1D is flushed. A rotation that tests the spare is abandoned, and the Frond under test is the spare (coincidences at fencing). -/
def Dev.hung (d : Dev) (t : Nat) : Dev :=
  let p := d.physOf t
  let s := sorusOf t
  let ts := d.lfStrands s (lfOf t)
  let d := ts.foldl (fun d u => d.updStr u fun x => { x with held := true, wait := .none }) d
  let d : Dev := { d with
    sor := { d.sor with fencing := Tbl.put 0 d.sor.fencing p (1 + d.time) }
    moves := d.moves.map fun m => if ts.contains m.t && !m.posted then { m with abort := true } else m }
  let d := if Tbl.get 0 d.sor.test s != 0 then (d.frondReset (s * 9 + (Tbl.get 0 d.sor.test s - 1))).rotEnd s 4 else d
  (d.publish p).endsGo.flushFrond p false

/-- A strand of the fenced Frond dealt with by its IDEM (R182, step 4, R169, R217). With no spare, and so safelight at hand,
work that would be dispatched again completes SAFELIGHT. -/
def Dev.fenceWork (d : Dev) (t : Nat) (spare : Bool) : Dev :=
  let x := d.str t
  let k := x.work
  if x.stop != 0 then d.endWork t x.stop 0 [] []
  else if k.kind ≥ 4 then
    match (if spare then (d.freeStr t).restartFm t else (false, d.freeStr t)) with
    | (true, d) => d
    | (false, d) => d.raise (384 + 6 * sorusOf t) (t % 32 * 2 ^ 8)
  else if x.posted then d.freeStr t
  else if k.idem then
    if d.safe || !spare then d.endWork t 0x84 0 [] []
    else (d.freeStr t).startWork t { k with retried := true } x.priv
  else d.endWork t 0x82 0 [] []

/-- Another Frond of the sorus is fenced before Frond `i`: one declared hung earlier, or at the same time with a lower index
(coincidences at fencing). -/
def Dev.fenceBehind (d : Dev) (s i : Nat) : Bool :=
  let at_ := fun k => Tbl.get 0 d.sor.fencing (s * 9 + k)
  (List.range 9).any fun k => at_ k != 0 && (at_ k < at_ i || (at_ k == at_ i && k < i))

/-- The flush is done (R182, steps 3 to 5). With no spare left the logical Frond is DOWN and safelight is entered. A swap
in progress ends first. -/
def Dev.fenceDone (d : Dev) (s i : Nat) : Dev :=
  let p := s * 9 + i
  match (if Tbl.get 0 d.sor.fencing p == 0 || Tbl.get 0 d.sor.swap s != 0 || d.fenceBehind s i then none else d.lfOn s i) with
  | none => d
  | some l =>
    let ts := d.lfStrands s l
    let d := d.flushFrond p true
    let d : Dev := { d with sor := { d.sor with
      spoke := Tbl.put 0 d.sor.spoke p 0, fencing := Tbl.put 0 d.sor.fencing p 0
      posts := d.sor.posts.filter (·.p != p) } }
    let d := d.endsGo
    let spare := d.f (SORUS.STAT.SPARE s)
    let d := d.updF (SORUS.LFMAP.GEN s l) fun g => (g + 1) % 16
    let d := (d.setF (SORUS.LFMAP.PHYS s l) spare).setF (SORUS.STAT.SPARE s) 0xF
    let d := if spare == 0xF then d.updF (SORUS.STAT.DOWN s) fun v => setBitN v l else d
    let d := ts.foldl (fun d t => d.fenceWork t (spare != 0xF)) d
    let d := if spare == 0xF then d.enterSafe 1 s else d
    let d := (d.updF (SORUS.STAT.FENCED s) fun v => setBitN v i).setF (SORUS.FENCE.LAST s) i
    ((d.incF (SORUS.WD.HUNG s)).frondReset p).raise (384 + 6 * s + 1) i

/-- A FENCED Frond tries to send (R183). Bit `i` of the sorus's marks: it has tried since it was fenced. -/
def Dev.fencedSend (d : Dev) (s i : Nat) : Dev :=
  if !bitN (d.f (SORUS.STAT.FENCED s)) i then d
  else
    let k := s * 9 + i
    let d := d.incF (SORUS.FENCE.ATTEMPTS s)
    if Tbl.get 0 d.sor.spoke k != 0 then d
    else ({ d with sor := { d.sor with spoke := Tbl.put 0 d.sor.spoke k 1 } } : Dev).raise (384 + 6 * s + 2) i

/-! ## Swap and rotation -/

/-- The sorus has a spare to give: one that no fencing of the sorus is about to take (R182, step 3; log entry 21). -/
def Dev.spareFree (d : Dev) (s : Nat) : Bool :=
  d.f (SORUS.STAT.SPARE s) != 0xF && (List.range 9).all fun j => Tbl.get 0 d.sor.fencing (s * 9 + j) == 0

/-- A swap of a logical Frond starts: nothing new starts on it and its strands stop (R184, steps 1 and 2). -/
def Dev.swapStart (d : Dev) (s l : Nat) : Dev :=
  let d : Dev := { d with sor := { d.sor with swap := Tbl.put 0 d.sor.swap s (1 + l) } }
  (d.lfStrands s l).foldl (fun d t => d.updStr t fun x => { x with held := true }) d

/-- The spare is under test, and the rotation goes on with the swap of logical Frond `k` once it passes. -/
def Dev.testStart (d : Dev) (s k : Nat) : Dev :=
  { d with sor := { d.sor with rot := Tbl.put 0 d.sor.rot s (1 + k), test := Tbl.put 0 d.sor.test s (1 + d.f (SORUS.STAT.SPARE s)) } }

/-- Every outstanding request of the strands has completed and the store buffer has drained (R184). -/
def Dev.migratable (d : Dev) (s l p : Nat) : Bool :=
  (d.lfStrands s l).all (fun t => !(d.str t).wait.outstanding) && !(d.sor.sb.any (·.p == p)) && !(d.sor.posts.any (·.p == p)) &&
  (d.l1Lines p).all fun ln => match (d.l1 p ln).st with
    | some .is | some .im | some .sm => false
    | _ => true

/-- The swap finishes (R184, step 3): the L1D is flushed, LFMAP updated, and the strands resume on the new Frond. The Frond
released is the spare, UNTESTED; in a rotation its test starts (R185). ROT is raised by the swap of an FSWAP, and by a rotation
once, at its end: R187's 'a rotation or swap completed' does not say whether each swap inside a rotation counts (DESIGN CHOICE,
log entry 145). -/
def Dev.swapDone (d : Dev) (s : Nat) : Dev :=
  match Tbl.get 0 d.sor.swap s with
  | 0 => d
  | l + 1 =>
    let i := d.f (SORUS.LFMAP.PHYS s l)
    let p := s * 9 + i
    if !d.migratable s l p then d
    else
      let ts := d.lfStrands s l
      let d := d.flushFrond p false
      let d : Dev := { d with sor := { d.sor with swap := Tbl.put 0 d.sor.swap s 0 } }
      let d := d.updF (SORUS.LFMAP.GEN s l) fun g => (g + 1) % 16
      let d := (d.setF (SORUS.LFMAP.PHYS s l) (d.f (SORUS.STAT.SPARE s))).setF (SORUS.STAT.SPARE s) i
      let d := (d.updF (SORUS.STAT.UNTESTED s) fun v => setBitN v i).frondReset p
      let d := ts.foldl (fun d t => d.updStr t fun x => { x with held := false }) d
      if Tbl.get 0 d.sor.rot s == 0 then
        let ws := d.sor.strand.filterMap fun e => match e.2.wait with
          | .swap rd k => if k == s then some (e.1, rd) else none
          | _ => none
        (ws.foldl (fun d e => d.give e.1 e.2 (w64 sOK)) d).rotEvent s
      else if (List.range 9).any fun j => Tbl.get 0 d.sor.fencing (s * 9 + j) != 0 then d.rotEnd s 4
      else d.testStart s (l + 1)

/-- The self-test of the spare ends, and it is no longer untested (R185, R188): the next logical Frond is swapped, or the rotation is DONE or FAILED. -/
def Dev.testDone (d : Dev) (s : Nat) (pass : Bool) : Dev :=
  match Tbl.get 0 d.sor.test s, Tbl.get 0 d.sor.rot s with
  | i + 1, k + 1 =>
    let d := (d.frondReset (s * 9 + i)).updF (SORUS.STAT.UNTESTED s) fun v => clrBitN v i
    if !pass then ((d.updF (SORUS.STAT.FAILED s) fun v => setBitN v i).setF (SORUS.STAT.SPARE s) 0xF).rotEnd s 3
    else
      let d : Dev := { d with sor := { d.sor with test := Tbl.put 0 d.sor.test s 0 } }
      if k ≥ 8 then d.rotEnd s 2 else d.swapStart s k
  | _, _ => d

/-- A rotation or swap of the sorus is in progress (R186). -/
def Dev.rotBusy (d : Dev) (s : Nat) : Bool := Tbl.get 0 d.sor.rot s != 0 || Tbl.get 0 d.sor.swap s != 0

/-- A sorus instruction of opcode 0x35 (R256). A field that the text gives no use is held to be 0: another value is ILLEGAL (DESIGN
CHOICE, log entry 145). -/
def Dev.sorusOp (d : Dev) (t : Nat) (f : FX) (illegal : Bool) (k : Nat → Dev → Nat × Dev) : Dev :=
  d.issue t true (illegal || f.rc != 0) fun d =>
    let (v, d) := k ((d.str t).g f.ra.toNat).toNat d
    d.give t f.rd.toNat (w64 v)

/-- The halted state of a sorus set; the previous one is returned in bit 8. -/
def Dev.setHalt (d : Dev) (s v : Nat) : Nat × Dev :=
  (sOK + Tbl.get 0 d.sor.halt s * 256, { d with sor := { d.sor with halt := Tbl.put 0 d.sor.halt s v } })

/-- WATCHDOG_HUNG (R181, R182). -/
def execWatchdogHung (t : StrandIx) (s : State) : Result := s.act fun _ d => d.when (d.canHang t) fun d => d.hung t

/-- FENCE_COMPLETE (R182). -/
def execFenceComplete (n : Fin 32) (i : Fin 9) (s : State) : Result := s.act fun _ d => d.when d.fdUp fun d => d.fenceDone n i

/-- FENCED_SEND_ATTEMPT (R183). -/
def execFencedSendAttempt (n : Fin 32) (i : Fin 9) (s : State) : Result :=
  s.act fun _ d => d.when d.fdUp fun d => d.fencedSend n i

/-- FSWAP (R184, R186): it returns when the swap is complete. A value in rc, which the text gives no use, is ILLEGAL (DESIGN CHOICE, log
entry 145). -/
def execFswap (t : StrandIx) (f : FX) (s : State) : Result :=
  s.act fun _ d => d.issue t true (f.rc != 0) fun d =>
    let n := ((d.str t).g f.ra.toNat).toNat
    let l := ((d.str t).g f.rb.toNat).toNat
    let ret := fun (d : Dev) (v : Nat) => d.give t f.rd.toNat (w64 v)
    if n ≥ 32 || l ≥ 8 then ret d sBADARG
    else if d.rotBusy n then ret d sBUSY
    else if !d.spareFree n then ret d sNOSPARE
    else (d.waitOn t (.swap f.rd.toNat n)).swapStart n l

/-- SWAP_COMPLETE (R184). -/
def execSwapComplete (n : Fin 32) (s : State) : Result := s.act fun _ d => d.when d.fdUp fun d => d.swapDone n

/-- TROTATE (R185, R186): it returns STARTED at once. -/
def execTrotate (t : StrandIx) (f : FX) (s : State) : Result :=
  s.act fun _ d => d.sorusOp t f (f.rb != 0) fun n d =>
    if n ≥ 32 then (sBADARG, d)
    else if d.rotBusy n then (sBUSY, d)
    else if !d.spareFree n then (sNOSPARE, d)
    else (sSTARTED, (d.setF (SORUS.STAT.ROT n) 1).testStart n 0)

/-- SELFTEST_COMPLETE (R185). -/
def execSelftestComplete (n : Fin 32) (pass : Bool) (s : State) : Result :=
  s.act fun _ d => d.when d.fdUp fun d => d.testDone n pass

/-- HALT (R256). -/
def execHalt (t : StrandIx) (f : FX) (s : State) : Result :=
  s.act fun _ d => d.sorusOp t f (f.rb != 0) fun n d => if n ≥ 32 || n == 0 then (sBADARG, d) else d.setHalt n 1

/-- HALT_CLR (R256). -/
def execHaltClr (t : StrandIx) (f : FX) (s : State) : Result :=
  s.act fun _ d => d.sorusOp t f (f.rb != 0) fun n d => if n ≥ 32 then (sBADARG, d) else d.setHalt n 0

end Sys2Proof.Machine
end

