-- ==== Sys2Proof/Machine/Load.lean ====
section
/-! DEFINITION. Spore images (R170), loading and unloading (R171–R173, R348). -/

namespace Sys2Proof.Machine

/-! ## The image header (R170) -/

/-- A little-endian field of an image. -/
def imgF (h : List Byte) (at_ n : Nat) : Nat := leNat ((h.drop at_).take n)

def imgClen (h : List Byte) : Nat := imgF h 8 4
def imgPriv (h : List Byte) : Bool := bitN (imgF h 5 1) 0
def imgSigned (h : List Byte) : Bool := bitN (imgF h 5 1) 1
def imgEntries (h : List Byte) : List Nat := (List.range 8).map fun k => imgF h (16 + 4 * k) 4
def imgMaxstr (h : List Byte) : Nat := imgF h 52 2
def imgDigest (h : List Byte) : List Byte := (h.drop 64).take 48
def imgSig (h : List Byte) : List Byte := (h.drop 112).take 96

/-- What R170 asks of every header, MAGIC and CLEN's bound apart. -/
def imgFormOk (h : List Byte) : Bool :=
  let c := imgClen h
  h.length == 256 && imgF h 4 1 == 1 && imgF h 5 1 < 4 && imgF h 6 2 == 256 && imgF h 12 4 == 0 && imgF h 54 2 == 0 &&
  (h.drop 208).all (· == 0) && imgF h 48 2 < 4096 && imgF h 50 2 < 4096 && imgMaxstr h ≤ 32 && c % 4 == 0 && 4 ≤ c &&
  (imgEntries h).all fun e => e == 0xFFFFFFFF || (e % 4 == 0 && e < c)

/-- A spore header is as R170 gives, for the sorus store or for HBM. -/
def sporeHdrOk (h : List Byte) (loc : Bool) : Bool :=
  h.take 4 == [0x4D, 0x53, 0x50, 0x4F] && imgFormOk h && imgClen h ≤ (if loc then 16777216 else 983040)

/-- The digest of an image: header bytes 0–63 and the code. -/
def imgHash (h code : List Byte) : List Byte := sha384 (h.take 64 ++ code)

/-- The signature policy applies to an image (R348). -/
def policyAsks (fz : Fuse) (priv : Bool) : Bool := bitN fz.policy (if priv then 0 else 1)

/-- A signature of a digest verifies against an unrevoked key (R348). -/
def spkeyOk (fz : Fuse) (digest sig : List Byte) : Bool :=
  (List.range 4).any fun i =>
    !bitN fz.policy (4 + i) && (match uncompress (fz.spkey.getD i []) with
      | some (x, y) => sigOk x y digest sig
      | none => false)

/-! ## The loader's memory accesses (R330, R335) -/

/-- The agent that a sorus's loader is recorded as: its snoop unit. -/
def loadAgent (s : Nat) : Nat := 0x240 + s

/-- The accesses of a sorus's loader, in domain F. -/
def loadOwn (s : Nat) : Own := ⟨.unit 4, loadAgent s, 0, true⟩

/-- The checker of a line of this device refuses the loader; another device's home judges for itself (R331). -/
def Dev.loadVerdict (d : Dev) (ln : Nat) (k : Kind) : Verdict := if d.remote ln then .ok else d.check (ln * 64) .f k 0

/-- Lines read by the loader in domain F; none where one is poisoned, unmapped or refused, with its notice. -/
def Dev.loadRead (s : Nat) : Nat → Nat → Dev → Option (List Byte) × Dev
  | 0, _, d => (some [], d)
  | k + 1, ln, d =>
    let v := d.loadVerdict ln .rd
    if v != .ok then (none, d.notice v (loadAgent s) 0 false)
    else
      let (r, d) := d.cohRead (loadOwn s) ln
      if r.psn then (none, d)
      else match Dev.loadRead s k (ln + 1) d with
        | (some bs, d) => (some (lineBytes r.data ++ bs), d)
        | (none, d) => (none, d)

/-- The log record of an S image (R171, step 6); a refusal leaves it unwritten. -/
def Dev.loadLog (d : Dev) (s : Nat) (h : List Byte) : Dev :=
  if imgPriv h || !d.fb (SORUS.LLOG.EN s) then d
  else
    let ln := d.f (SORUS.LLOG.FPA s)
    let v := d.loadVerdict ln .wr
    if v != .ok then d.notice v (loadAgent s) 0 true
    else
      let bs := leBytes 2 (d.f (SORUS.LCTL.INDEX s)) ++ [BitVec.ofNat 8 s, 1] ++ leBytes 2 (d.f (SORUS.LCTL.SLO s)) ++
        leBytes 2 (d.f (SORUS.LCTL.SHI s)) ++ imgDigest h ++ leBytes 8 d.now
      (d.cohWrite (loadOwn s) ln (BitVec.ofNat 512 (leNat bs)) (BitVec.allOnes 64)).2

/-! ## LOAD (R171) -/

def LoadOp.none : LoadOp := ⟨[], [], 0, 0⟩
def Dev.loadOp (d : Dev) (s : Nat) : LoadOp := Tbl.get LoadOp.none d.sor.load s
def Dev.setLoad (d : Dev) (s : Nat) (x : LoadOp) : Dev := { d with sor := { d.sor with load := Tbl.put LoadOp.none d.sor.load s x } }

/-- The first byte of the code of the load in progress: its place in the store, or in memory. -/
def Dev.loadBase (d : Dev) (s : Nat) : Nat :=
  if d.fb (SORUS.LCTL.LOC s) then d.f (SORUS.LSRC.FPA s) * 64 + 256 else d.f (SORUS.LCTL.DEST s) * 64

/-- A range lies wholly in fabric-reserved memory of this device (R171, step 5). -/
def Dev.allFab (d : Dev) (a n : Nat) : Bool :=
  d.fpaKind a == .fab && d.fpaKind (a + n - 1) == .fab && a / 2 ^ 49 == d.devId && (a + n - 1) / 2 ^ 49 == d.devId

/-- The measurement of an F image, sent to the darkroom (R171, step 6). -/
def Dev.loadMeasure (d : Dev) (s : Nat) (x : LoadOp) : Dev := (d.setLoad s x).feSend 0x20 s ([3, 6] ++ imgDigest x.hdr)

/-- The signature check of an image to which the policy applies (R348): one without a signature is refused. -/
def Dev.loadCheck (d : Dev) (s : Nat) (x : LoadOp) : Dev :=
  let h := x.hdr
  if !imgSigned h then d.setLoad s { LoadOp.none with status := 5 }
  else (d.setLoad s { x with wait := 2 }).feSend 0x21 s ([BitVec.ofNat 8 (b2n (!imgPriv h))] ++ imgDigest h ++ imgSig h)

/-- Steps 5 and 6: the code placed, then measured or logged. An F image whose signature has been checked was measured before the
check (R348). -/
def Dev.loadPlace (fz : Fuse) (d : Dev) (s : Nat) (x : LoadOp) : Dev :=
  let base := d.loadBase s
  let n := imgClen x.hdr
  let loc := d.fb (SORUS.LCTL.LOC s)
  if loc && !d.allFab base n then d.setLoad s { x with wait := 0, status := 7 }
  else if !loc && !d.storeFree s base n then d.setLoad s { x with wait := 0, status := 6 }
  else
    let d := if loc then d else d.putStore s base x.code
    if imgPriv x.hdr then
      (if policyAsks fz true then d.setLoad s { x with wait := 0, code := [] } else d.loadMeasure s { x with wait := 1, code := [] })
    else (d.loadLog s x.hdr).setLoad s { x with wait := 0, code := [] }

/-- Steps 1 to 4 of LOAD, and 5 and 6 where no signature check stands before them; an F image is measured before its signature is
checked (R348, log entry 150). What it comes to stays with the load until
it completes. -/
def Dev.loadGo (fz : Fuse) (d : Dev) (s : Nat) : Dev :=
  let fail := fun (d : Dev) (st : Nat) => d.setLoad s { LoadOp.none with status := st }
  let src := d.f (SORUS.LSRC.FPA s)
  let loc := d.fb (SORUS.LCTL.LOC s)
  if d.fb (SORUS.SPTABA.V s (d.f (SORUS.LCTL.INDEX s))) then fail d 1
  else match Dev.loadRead s 4 src d with
    | (none, d) => fail d 9
    | (some h, d) =>
      let lo := d.f (SORUS.LCTL.SLO s)
      let hi := d.f (SORUS.LCTL.SHI s)
      if !sporeHdrOk h loc then fail d 2
      else if !imgPriv h && !(imgF h 48 2 ≤ lo && lo ≤ hi && hi ≤ imgF h 50 2) then fail d 3
      else match Dev.loadRead s ((imgClen h + 63) / 64) (src + 4) d with
        | (none, d) => fail d 9
        | (some code, d) =>
          let code := code.take (imgClen h)
          let x : LoadOp := ⟨h, if loc then [] else code, 0, 0⟩
          if imgHash h code != imgDigest h then fail d 4
          else if !policyAsks fz (imgPriv h) then Dev.loadPlace fz d s x
          else if imgPriv h then d.loadMeasure s { x with wait := 5 }
          else d.loadCheck s x

/-- The load in progress taken on where it waits for memory alone: a line that its home cannot serve at once is asked for, and
the load goes on once it is there. -/
def Dev.loadOn (fz : Fuse) (d : Dev) (s : Nat) : Dev :=
  let x := d.loadOp s
  if x.wait == 3 then d.attempt fun d => Dev.loadGo fz d s
  else if x.wait == 4 then d.attempt fun d => Dev.loadPlace fz d s { x with wait := 0 }
  else d

/-- The load ends with its status (R171, step 7): SPTAB valid where it is OK, BUSY clear, and the LOAD event. -/
def Dev.loadEnd (d : Dev) (s st : Nat) : Dev :=
  let x := d.loadOp s
  let i := d.f (SORUS.LCTL.INDEX s)
  let h := x.hdr
  let d := if st != 0 || d.f (SORUS.LCTL.OP s) != 1 then d
    else
      let a := 1 + b2n (imgPriv h) * 2 + d.f (SORUS.LCTL.LOC s) * 4 + imgMaxstr h * 8 + d.f (SORUS.LCTL.SLO s) * 2 ^ 15 +
        d.f (SORUS.LCTL.SHI s) * 2 ^ 27 + imgClen h * 2 ^ 39
      let d := (d.setReg (SORUS.SPTABA.V s i) (w64 a)).setReg (SORUS.SPTABB.BASE s i) (w64 (d.loadBase s))
      { d with sor := { d.sor with spore := Tbl.put (⟨[], []⟩ : Spore) d.sor.spore (s * 1024 + i) ⟨imgEntries h, imgDigest h⟩ } }
  let d := ((d.setLoad s LoadOp.none).setF (SORUS.LCTL.STATUS s) st).setF (SORUS.LCTL.BUSY s) 0
  d.raise (384 + 6 * s + 4) (i + st * 2 ^ 10)

/-- Every line of the L1I of a sorus's Fronds invalidated (R163). -/
def Dev.dropL1i (d : Dev) (s : Nat) : Dev :=
  { d with sor := { d.sor with l1i := Tbl.drop (fun k => k / 2 ^ 47 / 9 == s) d.sor.l1i } }

/-- UNLOAD with GO (R172). It completes at once: the V bit clears, the L1I are invalidated, and the store range is free. -/
def Dev.unload (d : Dev) (s : Nat) : Dev :=
  let i := d.f (SORUS.LCTL.INDEX s)
  if !d.fb (SORUS.SPTABA.V s i) then d.loadEnd s 10
  else if d.sporeRun s i != 0 then d.loadEnd s 11
  else
    let d : Dev := (d.setF (SORUS.SPTABA.V s i) 0).dropL1i s
    ({ d with sor := { d.sor with spore := Tbl.put (⟨[], []⟩ : Spore) d.sor.spore (s * 1024 + i) ⟨[], []⟩ } } : Dev).loadEnd s 0

/-- A write of SORUS[n].LCTL (R171–R173): ignored while BUSY is set. -/
def Dev.lctlWrite (fz : Fuse) (d : Dev) (s : Nat) (v : Word) : Dev :=
  if d.fb (SORUS.LCTL.BUSY s) then d
  else
    let op := getBits v 0 2
    let good := op == 1 || op == 2
    let d := d.setReg (SORUS.LCTL.OP s) (putBits (putBits (d.reg (SORUS.LCTL.OP s)) 2 49 (getBits v 2 49)) 0 2
      (if good then op else d.f (SORUS.LCTL.OP s)))
    if getBits v 62 1 == 0 || !good then d
    else if op == 1 then Dev.loadOn fz ((d.setF (SORUS.LCTL.BUSY s) 1).setLoad s { LoadOp.none with wait := 3 }) s
    else d.unload s

/-- The darkroom has answered the measurement of a load (R171, step 6; R348). -/
def Dev.loadMeasured (d : Dev) (s : Nat) (dig : List Byte) (status : Nat) : Dev :=
  let x := d.loadOp s
  if !(x.wait == 1 || x.wait == 5) || imgDigest x.hdr != dig then d
  else if status != 0 then d.setLoad s { x with wait := 0, status := 8 }
  else if x.wait == 1 then d.setLoad s { x with wait := 0, status := 0 }
  else d.loadCheck s x

/-- The darkroom has answered the signature check of a load: 0 verified, 1 refused, 2 not required. -/
def Dev.loadChecked (fz : Fuse) (d : Dev) (s : Nat) (dig : List Byte) (res : Nat) : Dev :=
  let x := d.loadOp s
  if x.wait != 2 || imgDigest x.hdr != dig then d
  else if res == 0 || res == 2 then
    let d := d.setLoad s { x with wait := 4 }
    d.attempt fun d => Dev.loadPlace fz d s { x with wait := 0 }
  else d.setLoad s { x with wait := 0, status := 5 }

/-- A load goes on where it waits for memory, and ends once nothing is left to wait for. -/
def Dev.loadComplete (fz : Fuse) (d : Dev) (s : Nat) : Dev :=
  d.when (d.fb (SORUS.LCTL.BUSY s)) fun d =>
    let d := Dev.loadOn fz d s
    if (d.loadOp s).wait == 0 then d.loadEnd s (d.loadOp s).status else d

/-! ## The commands -/

/-- LOAD (R171): a write of LCTL with OP = LOAD and GO, by its other fields. -/
def execLoad (n : Fin 32) (index : BitVec 10) (dest : BitVec 14) (loc : Bool) (slo shi : BitVec 12) (s : State) : Result :=
  s.act fun fz d => d.when d.cspOn fun d => Dev.lctlWrite fz d n
    (w64 (1 + index.toNat * 4 + dest.toNat * 2 ^ 12 + b2n loc * 2 ^ 26 + slo.toNat * 2 ^ 27 + shi.toNat * 2 ^ 39 + 2 ^ 62))

/-- LOAD_COMPLETE (R171). -/
def execLoadComplete (n : Fin 32) (s : State) : Result := s.act fun fz d => d.when d.fdUp fun d => Dev.loadComplete fz d n

/-- LOAD_MEASURE_TIMEOUT (R171): the load ends with MEASURE. -/
def execLoadMeasureTimeout (n : Fin 32) (s : State) : Result :=
  s.act fun _ d => d.when (d.fdUp && d.fb (SORUS.LCTL.BUSY n) && ((d.loadOp n).wait == 1 || (d.loadOp n).wait == 5)) fun d =>
    d.loadEnd n 8

/-- LOAD_SIGNATURE_TIMEOUT (R348): the load ends with SIGNATURE. -/
def execLoadSignatureTimeout (n : Fin 32) (s : State) : Result :=
  s.act fun _ d => d.when (d.fdUp && d.fb (SORUS.LCTL.BUSY n) && (d.loadOp n).wait == 2) fun d => d.loadEnd n 5

/-- UNLOAD (R172). -/
def execUnload (n : Fin 32) (index : BitVec 10) (s : State) : Result :=
  s.act fun fz d => d.when d.cspOn fun d => Dev.lctlWrite fz d n
    (w64 (2 + index.toNat * 4 + getBits (d.reg (SORUS.LCTL.OP n)) 12 39 * 2 ^ 12 + 2 ^ 62))

end Sys2Proof.Machine
end

