-- ==== Sys2Proof/Machine/CohCmd.lean ====
section
/-! DEFINITION. The coherence messages as commands (R53–R82): each row is one message reaching its receiver. A message
for another device is passed on (R156); a receiver that takes no such message drops it. -/

namespace Sys2Proof.Machine

/-- A message that answers another device's: what was kept of it for a reissue is kept no longer (R157). -/
def Dev.settle (d : Dev) (m : Msg) : Dev :=
  if agDev m.src == d.devId || (m.op == opDataA && m.res == 1) then d
  else
    match d.coh.rem.find? fun e => e.2.tag == m.tag && e.2.addr == m.addr && e.2.dst == m.src && e.2.src == m.dst with
    | some e => { d with coh := { d.coh with rem := d.coh.rem.erase e, late := d.coh.late.filter (·.2 != e.2) } }
    | none => d

/-- The message needs an entry of the duplicate-suppression table (R158). -/
def Dev.needsDup (d : Dev) (m : Msg) : Bool :=
  agDev m.dst == d.devId && agDev m.src != d.devId && msgAnswered m && m.op != opRdU && (d.isDup m).isNone

/-- The duplicate-suppression table is full, counting the messages on their way to it, and the message would need an entry
(R158). -/
def Dev.dupFull (d : Dev) (m : Msg) : Bool :=
  d.needsDup m && d.coh.dup.length + (d.coh.net.filter d.needsDup).length ≥ 32768

/-- A code that R72 reserves came for an agent of this device: the message is discarded, with one coherence event that records
SRC and ADDR (R73). -/
def Dev.badCode (d : Dev) (m : Msg) : Dev :=
  let a := agId m.dst
  (if isHome a then d.setF (HOME.ERR.BADOP (a - 0x200)) 1 else d).raiseFpa 864 m.src.toNat 2 m.addr.toNat

/-- A coherence message that a link brought: put on its way in this device, forwarded once over another link, or discarded
(R73, R156, R157). One that did not come from the device at the link's other end has been forwarded already; one that finds no
path waits for one (R159). -/
def Dev.peerArrive (d : Dev) (p : Nat) (m : Msg) : Dev :=
  let drop := fun (d : Dev) => d.count (8 * p + 7) 1
  if agDev m.dst == d.devId then
    let c := m.op.toNat
    let rsp := (0x10 ≤ c && c ≤ 0x24) || 0x40 ≤ c
    let due := d.coh.rem.any fun e => e.2.tag == m.tag && e.2.dst == m.src && e.2.src == m.dst
    if !msgCodes.contains m.op then d.badCode m
    else if rsp && agDev m.src != d.devId && !due then drop d
    else { d with coh := { d.coh with net := d.coh.net ++ [m] } }
  else if agDev m.src != d.f (PORT.STAT.REMDEV p) then drop d
  else match d.peerPort m p with
    | some q => d.linkSend q (msgVc m) (msgPack m)
    | none => { d with coh := { d.coh with rem := d.coh.rem ++ [(97 + p, m)] } }

/-- A message for another device: this device's own is sent, and one of another device comes over the link that joins the
two, or has been forwarded once already (R156). -/
def Dev.passOn (d : Dev) (m : Msg) : Dev :=
  if agDev m.src == d.devId then d.send m
  else match (d.peerLinks (agDev m.src)).find? fun p => d.f (PORT.STAT.REMDEV p) == agDev m.src with
    | some p => d.peerArrive p m
    | none => d

/-- A message received, the next of its channel (R11): taken from the fabric, passed on where it is for another device, and
given to `k` otherwise. -/
def Dev.receive (d : Dev) (m : Msg) (k : Dev → Dev) : Dev :=
  d.when (d.fdUp && d.inTurn m) fun d =>
    let d := d.take m
    if agDev m.dst != d.devId then d.passOn m else k (d.settle m)

/-- The request is one that a Frond's closed gate discards (R83, R183). -/
def Dev.gateDrops (d : Dev) (m : Msg) : Bool := agDev m.src == d.devId && isFrond (agId m.src) && d.gated (agId m.src)

/-- A request at a home or shadow home. -/
def Dev.recvReq (d : Dev) (m : Msg) (err : BitVec 560) : Dev :=
  d.receive m fun d => d.when (isHome (agId m.dst) && !d.gateDrops m) fun d => d.request m err

/-- What was answered for `w` and not used is dropped, once nothing is awaited for it any longer. -/
def Dev.ownTidy (d : Dev) (w : OwnFor) : Dev :=
  if d.coh.own.any fun r => r.own.who == w && r.ans.isNone then d
  else { d with coh := { d.coh with own := d.coh.own.filter fun r => r.own.who != w } }

/-- The answer to a request of one of the device's own units: whoever waits for it goes on; a command that does is given
again. An answer that is not used then is dropped. -/
def Dev.ownAnswer (d : Dev) (m : Msg) : Dev :=
  match d.coh.own.find? fun r => r.m.src == m.dst && r.m.tag == m.tag && r.m.addr == m.addr && r.ans.isNone with
  | none => d
  | some r =>
    let r' := { r with ans := some m }
    let w := r.own.who
    let d : Dev := { d with coh := { d.coh with own := d.coh.own.map fun u => if u == r then r' else u } }
    match w with
    | .posted => d.dropOwn r'
    | .cq n q => (d.cqRetry n q).ownTidy w
    | .sq n q => if Tbl.get 0 d.wq.sqOwn (n * 8 + q) == 0 then d else (d.sqDisown n q).ownTidy w
    | .log p => (d.wake p).ownTidy w
    | .home ln => (d.advance ln).ownTidy w
    | .port p => (d.walksOn p).ownTidy w
    | .unit 3 => (if r.m.op == opRdU && !d.remote r.m.addr.toNat then d.dropOwn r' else d).dumpsOn
    | .unit k =>
      if r.m.op == opRdU && !d.remote r.m.addr.toNat then (d.dropOwn r').qmGoOn k
      else d.qmGoOn k
    | .strand t => if (d.str t).wait == .hold 2 && (d.str t).stop == 0 then d.unhold t else (d.resume t).ownTidy w
    | _ => d

/-- The remote home's response at the shadow home that forwarded a request (R80). DataA with RES = 1 announces the
DataM that follows it. -/
def Dev.shadowResp (d : Dev) (m : Msg) : Dev :=
  match d.txn m.addr.toNat with
  | none => d
  | some t =>
    if !t.fwd then d
    else if m.op == opDataA && m.res == 1 then d.setTxn { t with ownNew := 7 }
    else (d.setTxn { t with fwd := false, resp := some m }).advance t.ln

/-- A response at its requester: a Frond, a port or a shadow home. -/
def Dev.recvRsp (d : Dev) (m : Msg) (fr : Dev → Dev) : Dev :=
  d.receive m fun d =>
    let a := agId m.dst
    if isFrond a then fr d
    else if isPort a then d.portAnswer m
    else if isHome a then d.shadowResp m
    else if isOwn a then d.ownAnswer m
    else d

/-- A write-back or a clean notice at its home. -/
def Dev.recvWb (d : Dev) (m : Msg) : Dev :=
  d.receive m fun d => d.when (isHome (agId m.dst)) fun d => d.writeBack m

/-- A remote home's snoop at the shadow home (R81), once: a duplicate draws the recorded answer (R158). One that has to wait
goes back unrecorded. -/
def Dev.recvShadow (d : Dev) (m : Msg) : Dev :=
  match d.isDup m with
  | some (some a) => d.resend m a
  | some none => d
  | none =>
    match d.txn m.addr.toNat with
    | some t => if !t.fwd || !t.ready then d.shadowSnoop m else (d.noteDup m).shadowSnoop m
    | none => (d.noteDup m).shadowSnoop m

/-- A snoop at a snoop unit, a Frond, a port or a shadow home. -/
def Dev.recvSnp (d : Dev) (m : Msg) : Dev :=
  d.receive m fun d =>
    let a := agId m.dst
    if isFrond a then d.snoopFrond m
    else if isUnit a then d.snoopUnit m
    else if isPort a then d.snoopPort m
    else if isHome a then d.recvShadow m
    else d

/-- A snoop answer at its home. -/
def Dev.recvAns (d : Dev) (m : Msg) : Dev :=
  d.receive m fun d => d.when (isHome (agId m.dst)) fun d => d.snoopAnswer m

/-! ## Requests -/

/-- RDS (R68). -/
def execRds (m : Msg) (err : BitVec 560) (s : State) : Result :=
  s.act fun _ d => d.recvReq { m with op := opRdS } err

/-- RDX (R74). -/
def execRdx (m : Msg) (err : BitVec 560) (s : State) : Result :=
  s.act fun _ d => d.recvReq { m with op := opRdX } err

/-- UPG (R67, R74). -/
def execUpg (m : Msg) (err : BitVec 560) (s : State) : Result :=
  s.act fun _ d => d.recvReq { m with op := opUpg } err

/-- RDU (R54). -/
def execRdu (m : Msg) (err : BitVec 560) (s : State) : Result :=
  s.act fun _ d => d.recvReq { m with op := opRdU } err

/-- WRU (R74). -/
def execWru (m : Msg) (s : State) : Result :=
  s.act fun _ d => d.recvReq { m with op := opWrU } 0

/-- WRP (R74). -/
def execWrp (m : Msg) (err : BitVec 560) (s : State) : Result :=
  s.act fun _ d => d.recvReq { m with op := opWrP } err

/-- ATOM (R77, R78). -/
def execAtom (m : Msg) (err : BitVec 560) (s : State) : Result :=
  s.act fun _ d => d.recvReq { m with op := opAtom } err

/-- HOME_REQUEST_DEQUEUE (R58): the oldest waiting request of a line with no open transaction opens its own. -/
def execHomeRequestDequeue (ln : BitVec 46) (err : BitVec 560) (s : State) : Result :=
  s.act fun _ d => d.when d.fdUp fun d => d.dequeue ln.toNat err

/-- SF_WAY_FREE (R66): a request that waited for a way or a recall-buffer entry is tried again. -/
def execSfWayFree (ln : BitVec 46) (err : BitVec 560) (s : State) : Result :=
  s.act fun _ d => d.when d.fdUp fun d => d.dequeue ln.toNat err

/-- PREDICTOR_ENTRY_EXPIRE (R79): the entry's valid bit clears, its counter stands. -/
def execPredictorEntryExpire (n : Fin 64) (k : Fin 4096) (s : State) : Result :=
  s.act fun _ d =>
    { d with coh := { d.coh with pred := Tbl.upd PredE.none d.coh.pred (n.val * 4096 + k.val) fun e => ⟨e.ctr, false, 0, 0⟩ } }

/-! ## Responses -/

/-- GNTM (R67). -/
def execGntm (m : Msg) (s : State) : Result :=
  s.act fun _ d => d.recvRsp { m with op := opGntM } fun d => d.gntFrond m

/-- CMP_MESSAGE (R72). -/
def execCmpMessage (m : Msg) (s : State) : Result :=
  s.act fun _ d => d.recvRsp { m with op := opCmp } id

/-- CMPP (R67). -/
def execCmpp (m : Msg) (s : State) : Result :=
  s.act fun _ d => d.recvRsp { m with op := opCmpP } fun d =>
    match d.postOf m with
    | some e => d.postFail e
    | none => d.failFrond { m with op := opCmpP }

/-- WBACK (R67). -/
def execWback (m : Msg) (s : State) : Result :=
  s.act fun _ d => d.recvRsp { m with op := opWbAck } fun d => d.wbAckFrond m

/-- DATAS (R67). -/
def execDatas (m : Msg) (s : State) : Result :=
  s.act fun _ d => d.recvRsp { m with op := opDataS } fun d => d.fillFrond { m with op := opDataS }

/-- DATAE (R67). -/
def execDatae (m : Msg) (s : State) : Result :=
  s.act fun _ d => d.recvRsp { m with op := opDataE } fun d => d.fillFrond { m with op := opDataE }

/-- DATAM (R67). -/
def execDatam (m : Msg) (s : State) : Result :=
  s.act fun _ d => d.recvRsp { m with op := opDataM } fun d => d.fillFrond { m with op := opDataM }

/-- DATAU (R72). -/
def execDatau (m : Msg) (s : State) : Result :=
  s.act fun _ d => d.recvRsp { m with op := opDataU } fun d => d.dataUFrond m

/-- DATAA (R77). -/
def execDataa (m : Msg) (s : State) : Result :=
  s.act fun _ d => d.recvRsp { m with op := opDataA } fun d =>
    match d.postOf m with
    | some e => d.postDone e
    | none => d.dataAFrond m

/-! ## Write-backs and notices -/

/-- WBM (R58, R59). -/
def execWbm (m : Msg) (s : State) : Result := s.act fun _ d => d.recvWb { m with op := opWbM }

/-- WBO (R53). -/
def execWbo (m : Msg) (s : State) : Result := s.act fun _ d => d.recvWb { m with op := opWbO }

/-- EVICTC (R61). -/
def execEvictc (m : Msg) (s : State) : Result := s.act fun _ d => d.recvWb { m with op := opEvictC }

/-! ## Snoops and their answers -/

/-- SNPS (R67). -/
def execSnps (m : Msg) (s : State) : Result := s.act fun _ d => d.recvSnp { m with op := opSnpS }

/-- SNPI (R67). -/
def execSnpi (m : Msg) (s : State) : Result := s.act fun _ d => d.recvSnp { m with op := opSnpI }

/-- SNPC (R67). -/
def execSnpc (m : Msg) (s : State) : Result := s.act fun _ d => d.recvSnp { m with op := opSnpC }

/-- RSPI (R72). -/
def execRspi (m : Msg) (s : State) : Result := s.act fun _ d => d.recvAns { m with op := opRspI }

/-- RSPS (R72). -/
def execRsps (m : Msg) (s : State) : Result := s.act fun _ d => d.recvAns { m with op := opRspS }

/-- RSPO (R72). -/
def execRspo (m : Msg) (s : State) : Result := s.act fun _ d => d.recvAns { m with op := opRspO }

/-- RSPD (R54). -/
def execRspd (m : Msg) (s : State) : Result := s.act fun _ d => d.recvAns { m with op := opRspD }

/-- RSPIWB (R74). -/
def execRspiwb (m : Msg) (s : State) : Result := s.act fun _ d => d.recvAns { m with op := opRspIWb }

/-- SNPCNT (R63). -/
def execSnpcnt (m : Msg) (s : State) : Result := s.act fun _ d => d.recvAns { m with op := opSnpCnt }

/-- COH_RESERVED_CODE (R73): discarded, with one coherence event that records SRC and ADDR. -/
def execCohReservedCode (m : Msg) (s : State) : Result :=
  s.act fun _ d => d.when (d.fdUp && !msgCodes.contains m.op) fun d =>
    (d.take m).badCode m

end Sys2Proof.Machine
end

