-- ==== Sys2Proof/Machine/Pool.lean ====
section
/-! DEFINITION. The memory pool: recalls and host groups of the homes (R91, R92), HBM recalibration, faults and page
retirement (R101–R103), scrubbing (R108, R109), mirroring (R110–R115), expanders (R116–R119) and resilvering
(R120, R121). -/

namespace Sys2Proof.Machine

/-! ## The home registers (R91, R92) -/

/-- The entry names the target of HOME[n].RECALL: a sorus, a host or peer group, or every entry. -/
def Dev.recallNames (d : Dev) (ln : Nat) (e : SfE) (kind index : Nat) : Bool :=
  match kind with
  | 0 => e.sori.getLsbD index || e.own == 1 + index || e.own == 33 + index
  | 1 =>
    if index < 24 then e.grps.getLsbD index || e.own == 65 + index
    else lnDev ln == d.devId && (e.grps.getLsbD index || e.own == 65 + index)
  | _ => true

/-- The target of the RECALL that a home runs: KIND × 32 + INDEX as they stood at its GO. -/
def Dev.recTarget (d : Dev) (n : Nat) : Nat := Tbl.get 0 d.coh.recTgt n - 1

/-- The entries of a home that its RECALL names and that are not yet in the recall buffer. -/
def Dev.recallLeft (d : Dev) (n : Nat) : List Nat :=
  (d.coh.sf.filter fun e => homeOf e.1 == n && d.recallNames e.1 e.2 (d.recTarget n / 32) (d.recTarget n % 32) &&
    !(d.coh.txns.any fun t => t.ln == e.1 && (match t.kind with | .recall => true | _ => false))).map (·.1)

/-- Entries moved to the recall buffer while it has room; a line with an open transaction waits for it (R65). -/
def Dev.recallSome (d : Dev) (n : Nat) : Dev :=
  (d.recallLeft n).foldl (fun d ln => if (d.txn ln).isSome || d.recalls n ≥ 32 then d else d.recall ln) d

/-- A write of HOME[n].RECALL (R92). The fields can be written while a RECALL runs, which goes on with its own target. -/
def Dev.recallGo (d : Dev) (n : Nat) (v : Word) : Dev :=
  let d := d.setF (HOME.RECALL.INDEX n) (getBits v 0 5)
  let d := if getBits v 5 2 == 3 then d else d.setF (HOME.RECALL.KIND n) (getBits v 5 2)
  if getBits v 62 1 == 0 || d.fb (HOME.RECALL.BUSY n) then d
  else
    let d := d.setF (HOME.RECALL.BUSY n) 1
    let g := 1 + d.f (HOME.RECALL.KIND n) * 32 + d.f (HOME.RECALL.INDEX n)
    { d with coh := { d.coh with recTgt := Tbl.put 0 d.coh.recTgt n g } }.recallSome n

/-- An entry of the home names host group `g`: one that has moved to the recall buffer counts until its recall ends (DESIGN
CHOICE, log entry 130). -/
def Dev.groupNamed (d : Dev) (n g : Nat) : Bool :=
  d.coh.sf.any fun e => homeOf e.1 == n && (e.2.grps.getLsbD g || e.2.own == 65 + g)

/-- A write of HOME[n].HGMAP[g] (R92). -/
def Dev.hgmapWrite (d : Dev) (n g : Nat) (v : Word) : Dev :=
  let old := d.f (HOME.HGMAP.HOSTS n g)
  if old &&& v.toNat != old && d.groupNamed n g then d.setF (HOME.ERR.HGMAP n) 1
  else d.setF (HOME.HGMAP.HOSTS n g) v.toNat

/-- HOME[n].CTL.PRED_CLR (R79, R91). -/
def Dev.predClr (d : Dev) (n : Nat) : Dev :=
  { d with coh := { d.coh with pred := Tbl.drop (fun k => k / 4096 == n) d.coh.pred } }

/-! ## The mirror table -/

/-- The mirror table's entries that are not all zero, with their extent indices. -/
def Dev.mirTable (d : Dev) : List (Nat × Nat) :=
  if !d.fb HBM.MIRTBL.EN then [] else (d.tableUsed (d.f HBM.MIRTBL.BASE * 2 ^ 21)).map fun x => (x, d.mirEntry x)

/-- The kind of an extent's range. -/
def Dev.extKind (d : Dev) (x : Nat) : FpaKind := d.fpaKind (x * 2 ^ 30)

/-- The stack of an HBM extent, or 64 plus the window of an expander extent. -/
def Dev.extUnit (d : Dev) (x : Nat) : Nat :=
  match d.extKind x with
  | .exp e => 64 + e
  | _ => (x - 256) / 64

/-! ## HBM channels (R101, R102) -/

/-- The state of a pseudo-channel: 0 serving, 1 recalibrating, 2 retraining, 3 due while its partner pauses. -/
def Dev.pcState (d : Dev) (k p : Nat) : Nat := Tbl.get 0 d.pool.pc (k * 32 + p)
def Dev.setPc (d : Dev) (k p v : Nat) : Dev := { d with pool := { d.pool with pc := Tbl.put 0 d.pool.pc (k * 32 + p) v } }
def pairPc (p : Nat) : Nat := if p % 2 == 0 then p + 1 else p - 1

/-- The unit counter of a channel of a stack, by pseudo-channel (R386). -/
def chanCtr (k p i : Nat) : Nat := 1792 + 8 * (16 * k + p / 2) + i

/-- A pseudo-channel that is due pauses now, or waits for its partner to finish (R101). -/
def Dev.pcRecal (d : Dev) (k p : Nat) : Dev :=
  if d.pcState k p != 0 || bitN (d.f (HBM.STAT.PCFAIL k)) p then d
  else if d.pcState k (pairPc p) == 1 then d.setPc k p 3
  else (d.setPc k p 1).count (chanCtr k p 4) 1

/-- The partner that waits for a pause of `p` to end begins its own (R101). -/
def Dev.pcPartner (d : Dev) (k p : Nat) : Dev :=
  if d.pcState k (pairPc p) == 3 then (d.setPc k (pairPc p) 1).count (chanCtr k (pairPc p) 4) 1 else d

/-- `g`, which lets a pseudo-channel serve again, and then the requests that queued for it (R101, R102). -/
def Dev.pcServe (d : Dev) (g : Dev → Dev) : Dev :=
  let held := (d.coh.txns.map (·.ln)).filter d.pairPaused
  held.foldl (fun d ln => if d.pairPaused ln then d else d.advance ln) (g d)

/-- A pseudo-channel's pause ends, and its waiting partner's begins. -/
def Dev.pcRecalDone (d : Dev) (k p ns : Nat) : Dev :=
  if d.pcState k p != 1 then d
  else d.pcServe fun d => ((d.setPc k p 0).updF (HBM.CAL.PAUSEMAX k) fun x => max x (min 65535 ns)).pcPartner k p

/-- An interface fault: the pseudo-channel retrains, and holds its requests. A calibration that it was in is over (R102). -/
def Dev.pcFault (d : Dev) (k p : Nat) : Dev :=
  if d.pcState k p == 1 then (d.setPc k p 2).pcPartner k p else d.setPc k p 2

/-- What the memory-side cache loses with a failed pseudo-channel: a line that it held clean, owned by a cache or waiting for an
acknowledgement among them, is read again from its expander when it is next asked for, and any other is poisoned (R102). -/
def Dev.mscLoss (d : Dev) (k p : Nat) : Dev :=
  (d.pool.msc.map (·.1)).foldl (fun d ln =>
    let h := d.mscHbm ln
    if hbmStack h != k || hbmPc h != p then d
    else if (d.msc ln).dirty || d.heldO ln then d.poison ln 7
    else d.setMsc ln MscT.none) d

/-- A pair whose secondary is not whole has its primary on stack `k` (R121). -/
def Dev.healthyOn (d : Dev) (k : Nat) : Bool :=
  d.mirTable.any fun e => mirState e.2 != 0 && mirState e.2 != 1 && mirRole e.2 == 0 && d.extKind e.1 == .hbm && d.extUnit e.1 == k

/-- The end of a retrain (R102). A pseudo-channel that fails takes lines whose second copy is not whole: safelight (R121). -/
def Dev.pcRetrained (d : Dev) (k p : Nat) (ok : Bool) : Dev :=
  if d.pcState k p != 2 then d
  else d.pcServe fun d =>
    let d := d.setPc k p 0
    if ok then d.count (chanCtr k p 5) 1
    else
      let d := (d.updF (HBM.STAT.PCFAIL k) fun m => setBitN m p).raise (672 + 2 * (16 * k + p / 2)) p
      let d := d.mscLoss k p
      if d.healthyOn k then d.enterSafe 2 (0x40 + k) else d

/-! ## Page retirement (R103) -/

/-- The event source of a page: the channel of its first line. -/
def retireSrc (k page : Nat) : Nat := 672 + 2 * (16 * k + (bitsN (page * 64) 0 4 ^^^ bitsN (page * 64) 12 4)) + 1

/-- A retirement copy started, or refused with the map full. -/
def Dev.retireStart (d : Dev) (k page : Nat) : Dev :=
  if d.f (HBM.STAT.RET_USED k) ≥ 1024 then d.raise (retireSrc k page) (page + 2 ^ 24)
  else
    let d : Dev := { d with pool := { d.pool with retire := Tbl.put 0 d.pool.retire k (page + 1) } }
    d.setF (HBM.RETCFG.BUSY k) 1

/-- A write of HBM[k].RETCFG (R103, R122). -/
def Dev.retcfgGo (d : Dev) (k : Nat) (v : Word) : Dev :=
  let d := if getBits v 0 8 == 0 then d else d.setF (HBM.RETCFG.THRESH k) (getBits v 0 8)
  let d := (d.setF (HBM.RETCFG.AUTO k) (getBits v 8 1)).setF (HBM.RETCFG.PAGE k) (getBits v 9 24)
  if getBits v 62 1 == 0 || d.fb (HBM.RETCFG.BUSY k) then d
  else d.retireStart k (d.f (HBM.RETCFG.PAGE k))

/-- One line of a page read for its copy: uncorrectable in a failed pseudo-channel and where `bad` says so, it is copied from an
intact partner, or poisoned (R103, R114). -/
def Dev.retireLine (d : Dev) (ln : Nat) (bad : Bool) : Dev :=
  if !bad && !d.pcFailed ln then d
  else
    let d := d.countErr ln true
    match d.partnerOf ln with
    | some q =>
      if mirState (d.mirEntry (extOf ln)) == 1 && !d.pcFailed q && !(d.lmeta q).psn then (d.putLine ln (d.line q)).setMeta ln (d.lmeta q)
      else d.poison ln 7
    | none => d.poison ln 7

/-- A line of a spill slot (R94). -/
def Dev.inSpill (d : Dev) (ln : Nat) : Bool :=
  d.lnKind ln == .slot && d.f HBM.PART.F + d.f HBM.PART.M ≤ bitsN ln 24 6

/-- The lines of a page copied: those of home memory, spill slots among them, or those of the memory-side cache that lie in
it. -/
def Dev.retireCopy (d : Dev) (k page : Nat) (bad : BitVec 64) : Dev :=
  let at_ := fun i => d.devId * 2 ^ 43 + 2 ^ 32 + k * 2 ^ 30 + page * 64 + i
  let d := (List.range 64).foldl (fun d i =>
    if d.inHbm (at_ i) then d.retireLine (at_ i) (bad.getLsbD i)
    else if d.inSpill (at_ i) then d.retireLine (at_ i) (bad.getLsbD i || bitN (d.f (HBM.STAT.PCFAIL k)) (hbmPc (at_ i)))
    else d) d
  (d.pool.msc.map (·.1)).foldl (fun d ln =>
    let h := d.mscHbm ln
    if hbmStack h == k && hbmPage h == page && bad.getLsbD (h % 64) then (d.countErr ln true).poison ln 7 else d) d

/-- The copy of a page is complete, `bad` naming the lines of it that read uncorrectable: its accesses go to the lowest free
spare. -/
def Dev.retireDone (d : Dev) (k : Nat) (bad : BitVec 64) : Dev :=
  match Tbl.get 0 d.pool.retire k with
  | 0 => d
  | page + 1 =>
    let d : Dev := { d with pool := { d.pool with
      retire := Tbl.put 0 d.pool.retire k 0
      cand := Tbl.put (0, 0) d.pool.cand (k * 2 ^ 24 + page) (0, 0) } }
    let d := (d.retireCopy k page bad).setF (HBM.RETCFG.BUSY k) 0
    match (List.range 1024).find? fun i => !d.fb (HBM.RETMAP.V k i) with
    | none => d
    | some i =>
      (((d.setF (HBM.RETMAP.V k i) 1).setF (HBM.RETMAP.PAGE k i) page).updF (HBM.STAT.RET_USED k) (· + 1)).raise
        (retireSrc k page) page

/-! ## Scrubbing (R109) -/

/-- The code of a line's memory in pool MEDIA's detail. -/
def Dev.mediaCode (d : Dev) (ln : Nat) : Nat :=
  match d.lnKind ln with
  | .hbm | .fab | .slot => 1
  | .exp _ => 2
  | _ => 0

/-- The copies of a mirrored expander line are asked for, with their stamps: both of an intact pair, the good one otherwise
(R108). One whose write-back is under way waits. -/
def Dev.scrubExp (d : Dev) (ln : Nat) : Dev :=
  if (d.partnerOf ln).isNone || (d.txn ln).isSome || !(d.msc ln).pin.isEmpty || !d.expHas (d.readCopy ln) then d
  else
    let t := { Txn.new ln .scrub 0 with both := true }
    (d.openTxn t).expAsk t (d.copyLines (d.readCopy ln) ++ ((d.spareExp ln).map d.copyLines).getD [])

/-- An uncorrectable line with no good copy written back poisoned, with one event (R109). -/
def Dev.scrubLost (d : Dev) (ln : Nat) : Dev := (d.poison ln 7).raiseFpa 800 (d.mediaCode ln) 0 ln

/-- A line written over from another copy of it, unless its pseudo-channel has failed. -/
def Dev.copyOver (d : Dev) (src dst : Nat) : Dev :=
  if d.pcFailed dst then d else ((d.putLine dst (d.line src)).setMeta dst (d.lmeta src)).hbmOp dst 1

/-- Both copies of a mirrored HBM line scrubbed: an uncorrectable one is rewritten from the other where that one is good, two
that are intact are compared (R109, R115). -/
def Dev.scrubPair (d : Dev) (c q : Nat) (intact : Bool) (err err2 : BitVec 560) : Dev :=
  let (a, d) := d.readOne c err
  let (b, d) := d.readOne q err2
  match a, b with
  | some x, some y => if intact && !x.psn && !y.psn then d.reconcile c q else d
  | some _, none => d.copyOver c q
  | none, some y => if intact && !y.psn then d.copyOver q c else d.scrubLost c
  | none, none => (d.scrubLost c).poison q 7

/-- A line of the memory-side cache scrubbed: an uncorrectable one of a mirrored extent that its expanders hold is given up
for their copy (R109). -/
def Dev.scrubMsc (d : Dev) (ln : Nat) (err : BitVec 560) : Dev :=
  if d.mscAgain (Txn.new ln .scrub err) then (d.countErr ln true).setMsc ln MscT.none
  else match d.readOne ln err with
    | (some _, d) => d
    | (none, d) => d.scrubLost ln

/-- The numbers that the model gives to lines of SRAM without an FPA: those of the sorus stores, by sorus and line, and the
three of every set of every home's snoop filter, the fourth being none (log entry 131). -/
def storeNo (s i : Nat) : Nat := 2 ^ 42 + s * 2 ^ 14 + i
def sfNo (h j r : Nat) : Nat := 2 ^ 42 + 2 ^ 24 + (h * 2048 + j) * 4 + r

/-- A line of a sorus store or of the snoop filter scrubbed (R108). An uncorrectable one raises the event, which latches no FPA
that the spec names; a store line reads as uncorrectable from then on. -/
def Dev.scrubSram (d : Dev) (no : Nat) (err : BitVec 560) : Dev :=
  let i := no % 2 ^ 42
  if 2 ^ 24 + 2 ^ 19 ≤ i || (2 ^ 19 ≤ i && i < 2 ^ 24) || (2 ^ 24 ≤ i && i % 4 == 3) then d
  else
    let store := i < 2 ^ 19
    let x : Line := if store then BitVec.ofNat 512 (leNat (d.storeBytes (i / 2 ^ 14) (i % 2 ^ 14 * 64) 64)) else 0
    let tally := fun (d : Dev) (ue : Bool) => if store then d else d.count (768 + 16 * (i % 2 ^ 24 / 2 ^ 13) + 8 + b2n ue) 1
    match rsRead false x 0 err with
    | .clean _ _ ce => if ce then tally d false else d
    | .poison .. => d
    | .bad =>
      let (v, d) := (tally d true).draw
      let d := d.raiseFpa 800 0 0 (v.toNat % 2 ^ 46)
      if store && !d.sor.bad.contains i then { d with sor := { d.sor with bad := d.sor.bad ++ [i] } } else d

/-- One line scrubbed: corrected, rewritten from its partner, or poisoned with one event; two intact copies are compared. A
line whose pseudo-channel pauses, or with a transaction open, is not read now. -/
def Dev.scrub (d : Dev) (ln : Nat) (err err2 : BitVec 560) : Dev :=
  if 2 ^ 42 ≤ ln % 2 ^ 43 then (if d.remote ln then d else d.scrubSram (ln % 2 ^ 43) err)
  else if (d.txn ln).isSome || d.remote ln || d.pairPaused ln then d
  else match d.lnKind ln with
    | .none => d
    | .exp _ => (if d.inMsc ln then d.scrubMsc ln err else d).scrubExp ln
    | _ =>
      match d.partnerOf ln with
      | some q =>
        let c := d.readCopy ln
        d.scrubPair c (if c == ln then q else ln) (mirState (d.mirEntry (extOf ln)) == 1) err err2
      | none =>
        match d.readOne ln err with
        | (some _, d) => d
        | (none, d) => d.scrubLost ln

/-! ## Pairs -/

/-- An entry's state changed, in both halves of its pair. -/
def Dev.setPair (d : Dev) (x : Nat) (g : Nat → Nat) : Dev :=
  let w := d.mirEntry x
  let put := fun (d : Dev) (x : Nat) => d.setMir x (g (d.mirEntry x))
  put (put d x) (mirPartner w)

def mirSetState (st w : Nat) : Nat := mirWord (mirPartner w) (mirRole w) st (mirVerify w)
def mirSwapRole (w : Nat) : Nat := mirWord (mirPartner w) (1 - mirRole w) (mirState w) (mirVerify w)
def mirSetVerify (b : Bool) (w : Nat) : Nat := mirWord (mirPartner w) (mirRole w) (mirState w) b

/-- The statuses of MIRCMD. -/
inductive MirOp where
  | pair | unpair | verifyOn | verifyOff
  deriving DecidableEq, Repr

/-- A copy of a pair on an expander holds none of the pair's data, or all of it. -/
def Dev.setGone (d : Dev) (x v : Nat) : Dev :=
  match d.extKind x with
  | .exp _ => { d with pool := { d.pool with gone := Tbl.put (0, []) d.pool.gone x (v, []) } }
  | _ => d

/-- A mirror operation and its status (R111). PAIR of a primary that is RESERVED is BAD_ARG, and UNPAIR frees the extent that the
extent table holds RESERVED, whichever role it has by then (DESIGN CHOICE, log entry 132). Two points that R111 and R121 leave
open are the model's choice (DESIGN CHOICE, log entry 145): PAIR while BIND.EXTTBL.EN is clear, where no extent has a state to
read, answers NOT_FREE; and PAIR naming an extent of a pair that is being resilvered answers PAIRED, before BUSY. -/
def Dev.mirCmd (d : Dev) (o : MirOp) (xp xs : Nat) : Nat × Dev :=
  let w := d.mirEntry xp
  let proper := fun x => (d.extKind x).isExt
  if !d.fb HBM.MIRTBL.EN then (8, d)
  else match o with
    | .pair =>
      let wp := d.extEntry xp
      if d.extKind xp == .none || d.extKind xs == .none || (d.fb BIND.EXTTBL.EN && extState wp == 4 && mirState w == 0) then (1, d)
      else if !proper xp || !proper xs || (d.extKind xp == .hbm) != (d.extKind xs == .hbm) then (4, d)
      else if d.extUnit xp == d.extUnit xs then (2, d)
      else if mirState w != 0 || mirState (d.mirEntry xs) != 0 then (5, d)
      else if !d.fb BIND.EXTTBL.EN || extState (d.extEntry xs) != 0 then (3, d)
      else
        let d := d.setExt xs (extWord 0 4 (extLast (d.extEntry xs)))
        (0, ((d.setMir xp (mirWord xs 0 4 false)).setMir xs (mirWord xp 1 4 false)).setGone xs 1)
    | .unpair =>
      if d.extKind xp == .none then (1, d)
      else if mirState w == 0 then (6, d)
      else if mirState w == 3 then (7, d)
      else
        let xs := mirPartner w
        let sec := if extState (d.extEntry xs) == 4 then xs else xp
        (0, ((d.setMir xp 0).setMir xs 0).setExt sec (extWord 0 0 0xFFF))
    | .verifyOn | .verifyOff =>
      if d.extKind xp == .none then (1, d)
      else if mirState w == 0 then (6, d)
      else if mirState w == 3 then (7, d)
      else (0, d.setPair xp (mirSetVerify (o == .verifyOn)))

/-- An operation by HBM[0].MIRCMD, with the register's fields (R111, R122). -/
def Dev.mirDo (d : Dev) (o : MirOp) (code xp xs : Nat) : Dev :=
  let d := ((d.setF HBM.MIRCMD.EXT_P xp).setF HBM.MIRCMD.EXT_S xs).setF HBM.MIRCMD.OP code
  let (st, d) := d.mirCmd o xp xs
  d.setF HBM.MIRCMD.STATUS st

/-- A write of HBM[0].MIRCMD. -/
def Dev.mirWrite (d : Dev) (v : Word) : Dev :=
  let xp := getBits v 0 19
  let xs := getBits v 19 19
  let op := getBits v 38 3
  let d := (d.setF HBM.MIRCMD.EXT_P xp).setF HBM.MIRCMD.EXT_S xs
  let d := if 1 ≤ op && op ≤ 4 then d.setF HBM.MIRCMD.OP op else d
  if getBits v 62 1 == 0 then d
  else match op with
    | 1 => d.mirDo .pair 1 xp xs
    | 2 => d.mirDo .unpair 2 xp xs
    | 3 => d.mirDo .verifyOn 3 xp xs
    | 4 => d.mirDo .verifyOff 4 xp xs
    | _ => d.setF HBM.MIRCMD.STATUS (if d.fb HBM.MIRTBL.EN then 1 else 8)

/-! ## Resilvering (R120, R121) -/

/-- The target of a resilver: kind × 64 + number, kind 1 for a stack. -/
def Dev.rstate (d : Dev) (g : Nat) : Nat := if g < 64 then d.f (HBM.EXP.RSTATE g) else d.f (HBM.STAT.RSTATE (g - 64))
def Dev.setRstate (d : Dev) (g v : Nat) : Dev :=
  if g < 64 then d.setF (HBM.EXP.RSTATE g) v else d.setF (HBM.STAT.RSTATE (g - 64)) v
def Dev.setRcur (d : Dev) (g cur : Nat) : Dev :=
  if g < 64 then d.setF (HBM.RCURE.CUR g) cur else d.setF (HBM.RCUR.CUR (g - 64)) cur
def Dev.setCkpt (d : Dev) (g k : Nat) : Dev :=
  if g < 64 then d.setF (HBM.RCURE.CKPT g) k else d.setF (HBM.RCUR.CKPT (g - 64)) k

/-- First extent of a target's window, and the number of its extents. -/
def Dev.resWindow (d : Dev) (g : Nat) : Nat × Nat :=
  if g < 64 then (131072 + g * 2048, d.f (HBM.EXP.CAP_GIB g)) else (256 + (g - 64) * 64, 33)

/-- The extents of a target, rising, that hold the copy of a pair which reads are not served from, in a state that `p`
picks. -/
def Dev.resExtents (d : Dev) (g : Nat) (p : Nat → Bool) : List Nat :=
  let (b, n) := d.resWindow g
  ((d.mirTable.filter fun e => b ≤ e.1 && e.1 < b + n && mirRole e.2 == 1 && p (mirState e.2)).map (·.1)).mergeSort (· ≤ ·)

/-- The copy that reads are served from can be read: its expander is live. -/
def Dev.resSource (d : Dev) (x : Nat) : Bool :=
  match d.extKind (mirPartner (d.mirEntry x)) with
  | .exp e => d.expLive e
  | _ => true

/-- A resilver runs: the pairs that it copies, those that are not INTACT, are RESILVERING. -/
def Dev.resRun (d : Dev) (g : Nat) : Dev :=
  ((d.resExtents g fun st => st != 0 && st != 1).filter d.resSource).foldl (fun d x => d.setPair x (mirSetState 3)) (d.setRstate g 2)

/-- Queued resilvers started while fewer than four run. -/
def Dev.resNext (d : Dev) : Dev :=
  d.pool.resQ.foldl (fun d g =>
    if d.rstate g == 1 && (d.pool.resQ.filter fun h => d.rstate h == 2).length < 4 then d.resRun g else d) d

/-- A resilver asked for: it runs, or waits for one of the four engines. R120 gives no outcome for a GO that names a DEAD or ABSENT
expander, or a stack number of 4 or more: the write starts nothing (DESIGN CHOICE, log entry 145). -/
def Dev.resStart (d : Dev) (g : Nat) : Dev :=
  if d.rstate g == 1 || d.rstate g == 2 then d
  else if g < 64 && !d.expLive g then d
  else
    let d : Dev := { d with pool := { d.pool with
      resQ := d.pool.resQ ++ [g], resCur := Tbl.put 0 d.pool.resCur g 0, ckpt := Tbl.put 0 d.pool.ckpt g 0 } }
    ((d.setRcur g 0).setRstate g 1).resNext

/-- A resilver leaves the queue in state `v`, with its event. -/
def Dev.resEnd (d : Dev) (g v : Nat) : Dev :=
  let d : Dev := { d with pool := { d.pool with
    resQ := d.pool.resQ.filter (· != g), resCur := Tbl.put 0 d.pool.resCur g 0, ckpt := Tbl.put 0 d.pool.ckpt g 0 } }
  ((d.setRstate g v).raise 802 (g + v * 128)).resNext

/-- A write of HBM[0].RESIL (R120, R122). -/
def Dev.resilGo (d : Dev) (v : Word) : Dev :=
  let d := d.setF HBM.RESIL.TARGET (getBits v 0 6)
  let d := if getBits v 6 2 ≥ 2 then d else d.setF HBM.RESIL.KIND (getBits v 6 2)
  let d := if getBits v 8 12 == 0 then d else d.setF HBM.RESIL.RATE (getBits v 8 12)
  let g := d.f HBM.RESIL.KIND * 64 + d.f HBM.RESIL.TARGET
  if getBits v 62 1 == 0 || g ≥ 68 then d else d.resStart g

/-- The first line at or above the cursor that a running resilver has to copy. -/
def Dev.resLine (d : Dev) (g : Nat) : Option Nat :=
  let (b, _) := d.resWindow g
  let cur := Tbl.get 0 d.pool.resCur g
  ((d.resExtents g (· == 3)).find? fun x => cur < (x - b + 1) * 2 ^ 24).map fun x =>
    d.devId * 2 ^ 43 + x * 2 ^ 24 + (max cur ((x - b) * 2 ^ 24) - (x - b) * 2 ^ 24)

/-- The cursor of a resilver past a line of its target (R120). -/
def Dev.resPast (d : Dev) (g ln : Nat) : Dev :=
  let at_ := (extOf ln - (d.resWindow g).1) * 2 ^ 24 + ln % 2 ^ 24 + 1
  { d with pool := { d.pool with resCur := Tbl.put 0 d.pool.resCur g at_ } }.setRcur g (at_ / 1024)

/-- A line of an HBM target copied from its partner: with no good copy both are poisoned, with one event (R120, R121). -/
def Dev.resHbm (d : Dev) (src dst : Nat) (err : BitVec 560) : Dev :=
  match d.readOne src err with
  | (some r, d) => ((d.putLine dst r.data).setMeta dst (d.lmeta src)).hbmOp dst 1
  | (none, d) => ((d.poison src 7).poison dst 7).raiseFpa 800 (d.mediaCode dst) 0 src

/-- A line of an expander target written with what its healthy copy was read to hold. `lost`: that copy was uncorrectable, and both
are written poisoned, with one event (R120, R121); a line that was stored poisoned is copied so. -/
def Dev.resPut (d : Dev) (g src dst : Nat) (x : Line) (stamp : Nat) (psn lost : Bool) : Dev :=
  let d := d.expWrite dst noHome x stamp psn
  (if lost then (d.expWrite src noHome x stamp true).raiseFpa 800 2 0 src else d).resPast g dst

/-- A line of the memory-side cache copied for a resilver. An uncorrectable one that its expander holds is given up, and read from
there at the next step (R98, R121). -/
def Dev.resMsc (d : Dev) (g src dst : Nat) (err : BitVec 560) : Dev :=
  if d.mscAgain (Txn.new src .scrub err) then (d.countErr src true).setMsc src MscT.none
  else
    let st := (d.lmeta src).stamp
    match d.readOne src err with
    | (some r, d) => d.resPut g src dst r.data st r.psn false
    | (none, d) => (d.poison src 7).resPut g src dst (d.line src) st true true

/-- The place in its window, counted in lines, that a resilver's walk comes to next: the line that it copies next, or the
window's end. -/
def Dev.resNextAt (d : Dev) (g : Nat) : Nat :=
  let (b, n) := d.resWindow g
  match d.resLine g with
  | some dst => (extOf dst - b) * 2 ^ 24 + dst % 2 ^ 24
  | none => n * 2 ^ 24

/-- The walk stands at a boundary of 64 MiB that it may not pass: the darkroom has not answered the checkpoint of the boundary
before (R371). -/
def Dev.resHeld (d : Dev) (g : Nat) : Bool :=
  let cur := Tbl.get 0 d.pool.resCur g
  cur % 2 ^ 20 == 0 && 2 ^ 21 ≤ cur && Tbl.get 0 d.pool.ckpt g < cur / 2 ^ 20

/-- One step of a running resilver: the next line is read from its healthy copy, inside a home transaction, and written to the
target. A line of the memory-side cache is copied from there. What the walk has no line to copy in it passes over, from one
boundary of 64 MiB to the next, each with its checkpoint (R120, R371). -/
def Dev.resStep (d : Dev) (g : Nat) (err : BitVec 560) : Dev :=
  let cur := Tbl.get 0 d.pool.resCur g
  let upTo := min (d.resNextAt g) ((cur / 2 ^ 20 + 1) * 2 ^ 20)
  if d.rstate g != 2 || d.pool.await || d.resHeld g then d
  else if cur < d.resNextAt g then
    ({ d with pool := { d.pool with resCur := Tbl.put 0 d.pool.resCur g upTo } } : Dev).setRcur g (upTo / 1024)
  else match d.resLine g with
    | none => d
    | some dst =>
      let src := lineIn dst (mirPartner (d.mirEntry (extOf dst)))
      if (d.txn src).isSome || d.pcPaused src || d.pcPaused dst || !(d.msc src).pin.isEmpty then d
      else match d.lnKind dst with
        | .exp _ =>
          if d.inMsc src then d.resMsc g src dst err
          else if !d.expHas src then
            let (st, d) := d.draw
            d.resPut g src dst 0 (st.toNat % 65536) true false
          else
            let t := Txn.new src (.resil g) 0
            (d.openTxn t).expAsk t (d.copyLines src)
        | _ => (d.resHbm src dst err).resPast g dst

/-- The walk of a running resilver has reached the end of its window: every pair copied is INTACT (R120). -/
def Dev.resDone (d : Dev) (g : Nat) : Dev :=
  if d.rstate g != 2 || d.pool.await || (d.resLine g).isSome || Tbl.get 0 d.pool.resCur g < d.resNextAt g ||
      d.coh.txns.any (fun t => t.kind == .resil g) then d
  else
    let d := (d.resExtents g (· == 3)).foldl (fun d x => (d.setPair x (mirSetState 1)).setGone x 0) d
    let d := if g < 64 then d.setF (HBM.EXP.STATE g) 1 else d
    d.resEnd g 3

/-! ## Expanders (R116–R119) -/

/-- A window has a pair with a copy on it. -/
def Dev.windowPairs (d : Dev) (e : Nat) : List Nat :=
  (d.mirTable.filter fun x => d.extKind x.1 == .exp e && mirState x.2 != 0).map (·.1)

/-- CMD = ADMIT (R116, R107). -/
def Dev.admitExtent (d : Dev) (e : Nat) : Dev :=
  let cap := d.f (HBM.EXP.CAP_GIB e)
  let sum := ((List.range 64).map fun i => if i != e && d.f (HBM.EXP.STATE i) != 0 then d.f (HBM.EXP.CAP_GIB i) else 0).sum
  let p := d.f (HBM.EXP.PORT e)
  let err := if sum + cap > 32768 then 1
    else if d.f HBM.PART.M == 0 then 2
    else if d.f (HBM.EXP.STATE e) != 0 then 3
    else if cap == 0 || cap > 2048 || p ≥ 96 || d.f (PORT.CFG.MODE p) != 3 then 5
    else 0
  if err != 0 then d.setF (HBM.EXP.ERR e) err
  else
    let st := if (d.windowPairs e).isEmpty then 1 else 3
    ((d.setF (HBM.EXP.STATE e) st).setF (HBM.EXP.RSTATE e) 0).setF (HBM.EXP.ERR e) 0

/-- CMD = RELEASE (R119). -/
def Dev.expRelease (d : Dev) (e : Nat) : Dev :=
  let b := 131072 + e * 2048
  let held := d.extTable.any fun x => b ≤ x.1 && x.1 < b + d.f (HBM.EXP.CAP_GIB e) && 1 ≤ extState x.2 && extState x.2 ≤ 3
  if held || !(d.windowPairs e).isEmpty then d.setF (HBM.EXP.ERR e) 4
  else
    let lines := (d.pool.msc.map (·.1)).filter fun ln => d.lnKind ln == .exp e
    let d := lines.foldl (fun d ln => d.setMsc ln MscT.none) d
    let d : Dev := { d with pool := { d.pool with gone := Tbl.drop (fun x => b ≤ x && x < b + 2048) d.pool.gone } }
    (d.setF (HBM.EXP.STATE e) 0).setF (HBM.EXP.ERR e) 0

/-- A pin of a memory-side cache line released; a line that waits for nothing more leaves its set (R106). -/
def Dev.unpin (d : Dev) (ln e : Nat) : Dev :=
  let t := d.msc ln
  if !t.pin.contains e then d
  else
    let t := { t with pin := t.pin.erase e }
    if t.pin.isEmpty && !t.dirty then d.setMsc ln MscT.none else d.setMsc ln t

/-- Every pin that waits for a dead expander released (R117). -/
def Dev.unpinAll (d : Dev) (e : Nat) : Dev :=
  (d.pool.msc.map (·.1)).foldl (fun d ln => ((d.msc ln).pin.filter (· == e)).foldl (fun d _ => d.unpin ln e) d) d

/-! ### The answers of a transaction's reads (R109, R113–R115, R121) -/

/-- What the expanders answered for a line. -/
def Txn.rdOf (t : Txn) (ln : Nat) : Option (Line × Bool) := (t.rd.find? (·.1 == ln)).map (·.2)

/-- The answer to a copy's read, once its stamp is known too. -/
def Dev.gotCopy (d : Dev) (t : Txn) (c : Nat) : Option (Line × Bool) :=
  if (d.partnerOf c).isNone || d.inMsc (d.stampLn c).1 || (t.rdOf (d.stampLn c).1).isSome then t.rdOf c else none

/-- The good answer to a copy's read. -/
def Dev.goodCopy (d : Dev) (t : Txn) (c : Nat) : Option Line :=
  match d.gotCopy t c with
  | some (x, false) => some x
  | _ => none

/-- The stamp of a copy: a stamp that cannot be read is a free value (log entry 133). -/
def Dev.stampOf (d : Dev) (t : Txn) (c : Nat) : Nat × Dev :=
  let (sl, off) := d.stampLn c
  if (d.partnerOf c).isNone then (0, d)
  else if d.inMsc sl && !(d.lmeta sl).psn then (leNat (lineSlice (d.line sl) off 2), d)
  else match t.rdOf sl with
    | some (x, false) => (leNat (lineSlice x off 2), d)
    | _ => let (v, d) := d.draw; (v.toNat % 65536, d)

/-- The reads of a transaction come to an end: those still outstanding are nobody's, and it goes on. -/
def Dev.expClose (d : Dev) (t : Txn) : Dev :=
  let left := fun (r : ExpReq) => r.home == t.ln && !r.wr && r.stamp.isNone
  let d : Dev := { d with pool := { d.pool with exps := d.pool.exps.map fun r => if left r then { r with home := noHome } else r } }
  (d.setTxn { t with exps := [], both := false, rd := [] }).advance t.ln

/-- A line read for a request entered in the memory-side cache; one read for the scrubber is not. -/
def Dev.expKeep (d : Dev) (t : Txn) (x : Line) (stamp : Nat) (psn : Bool) : Dev :=
  (if t.kind == .scrub then d else d.mscFill t.ln x psn (if psn then 7 else 0) stamp false).expClose t

/-- A copy used, and the other one rewritten from it where that read uncorrectable (R109, R114). -/
def Dev.expUse (d : Dev) (t : Txn) (c : Nat) (x : Line) (other : Option Nat) : Dev :=
  let (st, d) := d.stampOf t c
  let d := match other with
    | some q => if (d.gotCopy t q).any Prod.snd && d.expLive (winOf q) then d.expWrite q noHome x st false else d
    | none => d
  d.expKeep t x st false

/-- Two good copies compared: of two that differ the one written last is kept, the other overwritten with it and its stamp, with
one event; where the stamps alone differ, the secondary's is rewritten (R115). -/
def Dev.expCompare (d : Dev) (t : Txn) (c q : Nat) (x y : Line) : Dev :=
  let (a, d) := d.stampOf t c
  let (b, d) := d.stampOf t q
  if x == y then (if a == b then d else d.stampPut q noHome a).expKeep t x a false
  else
    let d := d.raiseFpa 801 (a + b * 65536) 1 c
    if (a + 65536 - b) % 65536 ≥ 32769 then (d.expWrite c noHome y b false).expKeep t y b false
    else (d.expWrite q noHome x a false).expKeep t x a false

/-- No good copy is left: the line is poisoned; the scrubber writes it back poisoned, with its event (R98, R109). -/
def Dev.expLost (d : Dev) (t : Txn) (cs : List Nat) : Dev :=
  let x := (((t.rdOf (d.readCopy t.ln)).map (·.1)).getD 0 : Line)
  let (st, d) := d.stampOf t (d.readCopy t.ln)
  let d := if t.kind == .scrub then
      ((cs.filter fun c => d.expLive (winOf c)).foldl (fun d c => d.expWrite c noHome x st true) d).raiseFpa 800 2 0 t.ln
    else d
  d.expKeep t x st true

/-- The answers that a transaction has, acted on as far as they go. Both copies are awaited where they are compared; otherwise the
first good one is used, and the secondary read where the primary is uncorrectable. -/
def Dev.expSettle (d : Dev) (t : Txn) : Dev :=
  let c := d.readCopy t.ln
  let q := (d.partnerOf t.ln).map fun q => if c == t.ln then q else t.ln
  let wait := d.setTxn t
  match t.kind with
  | .resil g =>
    if !t.exps.isEmpty then wait
    else match t.rdOf t.ln, q with
      | some (x, psn), some q =>
        let (st, d) := d.stampOf t t.ln
        (d.resPut g t.ln (if q == t.ln then c else q) x st psn psn).expClose t
      | _, _ => d.expClose t
  | _ =>
    if t.both && !t.exps.isEmpty then wait
    else match d.goodCopy t c, q.bind fun q => (d.goodCopy t q).map fun y => (q, y) with
      | some x, some (q, y) => if t.both then d.expCompare t c q x y else d.expUse t c x (some q)
      | some x, none => d.expUse t c x q
      | none, some (q, y) => d.expUse t q y (some c)
      | none, none =>
        let ask := match d.spareExp t.ln with
          | some q => if (t.rdOf q).isNone && !t.exps.contains q && (t.rdOf c).any Prod.snd then d.copyLines q else []
          | none => []
        if !ask.isEmpty then d.expAsk t ask
        else if !t.exps.isEmpty then wait
        else d.expLost t (c :: q.toList)

/-- A stamp line that an expander answered enters the memory-side cache where its set has room, as any other line does (R113). -/
def Dev.stampFill (d : Dev) (sl : Nat) (x : Line) (psn : Bool) : Dev :=
  let (room, d) := if d.inMsc sl then (true, d) else Dev.mscRoom 64 d sl
  if room then d.mscFill sl x psn (if psn then 7 else 0) 0 false else d

/-- The stamps that wait for a stamp line entered in it: it is cached, and written back for each (R113). A line that was answered
poisoned stays poisoned under writes of a part of it (R56). -/
def Dev.stampDone (d : Dev) (sl : Nat) (x : Line) (psn : Bool) : Dev :=
  let mine := fun (r : ExpReq) => r.ln == sl && r.stamp.isSome
  let rs := d.pool.exps.filter mine
  let d : Dev := { d with pool := { d.pool with exps := d.pool.exps.filter fun r => !mine r } }
  let psn := if d.inMsc sl then (d.lmeta sl).psn else psn
  let x := rs.foldl (fun x r => match r.stamp with | some (off, v) => linePatch x off (leBytes 2 v) | none => x)
    (if d.inMsc sl then d.line sl else x)
  rs.foldl (fun d r => d.expPut sl r.home x psn) (d.stampFill sl x psn)

/-- The reads of a transaction that a dead expander had: the other copy is used, or read, where it is good; otherwise the line is
lost (R117, R121). -/
def Dev.reread (d : Dev) (e : Nat) (t : Txn) : Dev :=
  let t := { t with exps := t.exps.filter fun l => winOf l != e }
  let c := d.readCopy t.ln
  let q := (d.partnerOf t.ln).map fun q => if c == t.ln then q else t.ln
  let good := (d.goodCopy t c).isSome || (q.bind (d.goodCopy t)).isSome
  let due := t.exps.any fun l => l == c || some l == q
  match t.kind with
  | .resil _ => d.expClose t
  | _ => if good then d.expSettle { t with both := false } else if due then d.setTxn { t with both := false } else d.expClose t

/-- One copy of a pair on a dead expander: the pair is DEGRADED and its other copy primary; the dead copy misses every write from
now on, and a primary takes with it what the other copy lacks (R117, R121). -/
def Dev.loseCopy (d : Dev) (x : Nat) : Dev :=
  let d := if mirRole (d.mirEntry x) == 0 then d.setPair x mirSwapRole else d
  (d.setPair x (mirSetState 2)).setGone x 1

/-- An expander is declared dead (R117). Where a pair's other copy is not whole, its lines with no good copy read as lost, and
the loss is a second fault (R121). -/
def Dev.declareDead (d : Dev) (e why : Nat) : Dev :=
  if !d.expLive e then d
  else
    let d := d.updF (HBM.EXP.EPOCH e) fun x => (x + 1) % 256
    let d := (d.setF (HBM.EXP.STATE e) 2).setF (HBM.EXP.DWHY e) why
    let pairs := d.windowPairs e
    let second := pairs.any fun x => mirState (d.mirEntry x) != 1 && mirRole (d.mirEntry x) == 0
    let d := pairs.foldl (fun (d : Dev) x => d.loseCopy x) d
    let d : Dev := { d with pool := { d.pool with
      exps := d.pool.exps.filter (·.e != e), staleSeen := Tbl.put 0 d.pool.staleSeen e 0 } }
    let d := (d.coh.txns.filter fun t => t.exps.any fun l => winOf l == e).foldl (fun d t => d.reread e t) d
    let d := d.unpinAll e
    let d := (d.pool.msc.filter fun x => d.lnKind x.1 == .exp e && x.2.dirty && (d.partnerOf x.1).isNone).foldl
      (fun d x => d.poison x.1 8) d
    let d := d.raise 803 (e + why * 64)
    let d := if d.rstate e == 1 || d.rstate e == 2 then d.resEnd e 4 else d
    if second then d.enterSafe 2 e else d

/-- A response of an expander (R114, R117, R118): stale, an acknowledgement, or the data of a read, of a stamp line to be
written or of a transaction. -/
def Dev.expResponse (d : Dev) (e epoch ln : Nat) (data : Line) (psn wr : Bool) : Dev :=
  if epoch != d.f (HBM.EXP.EPOCH e) then
    let d := d.incF (HBM.EXP.STALE e)
    if Tbl.get 0 d.pool.staleSeen e == 1 then d
    else { d with pool := { d.pool with staleSeen := Tbl.put 0 d.pool.staleSeen e 1 } }.raise 804 (e + d.f (HBM.EXP.EPOCH e) * 64)
  else match d.pool.exps.find? fun r => r.e == e && r.ln == ln && r.wr == wr with
    | none => d
    | some r =>
      if r.stamp.isSome then d.stampDone ln data psn
      else
        let d : Dev := { d with pool := { d.pool with exps := d.pool.exps.erase r } }
        if wr then d.unpin r.home e
        else match d.txn r.home with
          | none => d
          | some t =>
            if !t.exps.contains ln then d
            else
              let waits := d.pool.exps.any fun u => u.ln == ln && u.stamp.isSome
              let d := if d.isStamp ln && !d.inMsc ln && !waits then d.stampFill ln data psn else d
              d.expSettle { t with exps := t.exps.erase ln, rd := t.rd ++ [(ln, data, psn)] }

/-- T_hedge has passed for a read of a mirrored line (R114): the secondary is read too, and neither read counts toward a
declaration. R114 does not say what the timeout does to a read with VERIFY set, whose copies are both being read: nothing, and both
answers are awaited (DESIGN CHOICE, log entry 145). -/
def Dev.hedge (d : Dev) (ln : Nat) : Dev :=
  match d.pool.exps.find? fun r => r.ln == ln && !r.wr && !r.hedged with
  | none => d
  | some r =>
    match d.spareExp r.home, d.txn r.home with
    | some q, some t =>
      if t.both || q == ln || !t.exps.contains ln then d
      else
        let ls := d.copyLines q
        let d := d.expAsk t ls
        { d with pool := { d.pool with exps := d.pool.exps.map fun u =>
            if u.home == r.home && !u.wr && (u.ln == ln || ls.contains u.ln) then { u with hedged := true } else u } }
    | _, _ => d

/-! ## HBM[0].PART (R94) -/

/-- A write of HBM[0].PART: F, M and Q until they are locked; LOCK holds them where they are valid. -/
def Dev.partWrite (d : Dev) (v : Word) : Dev :=
  if d.fb HBM.PART.LOCK then d
  else
    let d := ((d.setF HBM.PART.F (getBits v 0 6)).setF HBM.PART.M (getBits v 6 5)).setF HBM.PART.Q (getBits v 11 5)
    if getBits v 63 1 == 0 then d
    else if getBits v 0 6 + getBits v 6 5 + getBits v 11 5 > 33 || getBits v 6 5 > 24 || getBits v 11 5 > 24 then
      d.setF HBM.PART.ERR 1
    else (d.setF HBM.PART.LOCK 1).setF HBM.PART.ERR 0

/-! ## The commands -/

/-- HOME_RECALL_GO (R92). -/
def execHomeRecallGo (n : Fin 64) (v : Word) (s : State) : Result :=
  s.act fun _ d => d.when d.cspOn fun d => d.recallGo n v

/-- HOME_RECALL_DONE (R92): BUSY clears once no entry names the target and no recall-buffer entry of the home is in use,
recalls of victims included (DESIGN CHOICE, log entry 130); while some entry names it, the buffer is filled again. -/
def execHomeRecallDone (n : Fin 64) (s : State) : Result :=
  s.act fun _ d => d.when (d.fdUp && d.fb (HOME.RECALL.BUSY n)) fun d =>
    if !(d.recallLeft n).isEmpty then d.recallSome n
    else if d.recalls n != 0 then d
    else d.setF (HOME.RECALL.BUSY n) 0

/-- HGMAP_WRITE (R92). -/
def execHgmapWrite (n : Fin 64) (g : Fin 24) (v : Word) (s : State) : Result :=
  s.act fun _ d => d.when d.cspOn fun d => d.hgmapWrite n g v

/-- PRED_CLR (R91). -/
def execPredClr (n : Fin 64) (s : State) : Result := s.act fun _ d => d.when d.cspOn fun d => d.predClr n

/-- HBM_RECAL (R101). -/
def execHbmRecal (k : Fin 4) (pc : Fin 32) (s : State) : Result :=
  s.act fun _ d => d.when d.fdUp fun d => d.pcRecal k pc

/-- HBM_CAL_NOW (R101): every pseudo-channel of the stack is due at once. -/
def execHbmCalNow (k : Fin 4) (s : State) : Result :=
  s.act fun _ d => d.when d.cspOn fun d => (List.range 32).foldl (fun d p => d.pcRecal k p) d

/-- HBM_RECAL_DONE (R101). -/
def execHbmRecalDone (k : Fin 4) (pc : Fin 32) (ns : Nat) (s : State) : Result :=
  s.act fun _ d => d.pcRecalDone k pc ns

/-- HBM_INTERFACE_FAULT (R102). -/
def execHbmInterfaceFault (k : Fin 4) (pc : Fin 32) (s : State) : Result :=
  s.act fun _ d => d.when (d.fdUp && !bitN (d.f (HBM.STAT.PCFAIL k)) pc) fun d => d.pcFault k pc

/-- RETIRE_AUTO (R103). -/
def execRetireAuto (k : Fin 4) (page : BitVec 24) (s : State) : Result :=
  s.act fun _ d =>
    let n := (Tbl.get (0, 0) d.pool.cand (k.val * 2 ^ 24 + page.toNat)).1
    d.when (d.fdUp && d.fb (HBM.RETCFG.AUTO k) && d.f (HBM.RETCFG.THRESH k) ≤ n && !d.fb (HBM.RETCFG.BUSY k)) fun d =>
      d.retireStart k page.toNat

/-- HBM_RETRAIN_DONE (R102). -/
def execHbmRetrainDone (k : Fin 4) (pc : Fin 32) (ok : Bool) (s : State) : Result :=
  s.act fun _ d => d.when d.fdUp fun d => d.pcRetrained k pc ok

/-- RETCFG_GO (R103). -/
def execRetcfgGo (k : Fin 4) (v : Word) (s : State) : Result :=
  s.act fun _ d => d.when d.cspOn fun d => d.retcfgGo k v

/-- RETIRE_DONE (R103). -/
def execRetireDone (r : PageRead) (s : State) : Result := s.act fun _ d => d.when d.fdUp fun d => d.retireDone r.stack r.bad

/-- SCRUB_READ (R109). -/
def execScrubRead (ln : BitVec 46) (err err2 : BitVec 560) (s : State) : Result :=
  s.act fun _ d => d.when d.fdUp fun d => d.scrub ln.toNat err err2

/-- EXPANDER_RESPONSE (R118). -/
def execExpanderResponse (e : Fin 64) (epoch : BitVec 8) (ln : BitVec 46) (data : Line) (psn wr : Bool) (s : State) : Result :=
  s.act fun _ d => d.when d.fdUp fun d => d.expResponse e epoch.toNat ln.toNat data psn wr

/-- HEDGE_TIMEOUT (R114). -/
def execHedgeTimeout (ln : BitVec 46) (s : State) : Result :=
  s.act fun _ d => d.when d.fdUp fun d => d.hedge ln.toNat

/-- EXPANDER_NO_RESPONSE (R117). -/
def execExpanderNoResponse (e : Fin 64) (s : State) : Result :=
  s.act fun _ d => d.when (d.fdUp && d.pool.exps.any fun r => r.e == e && !r.hedged) fun d => d.declareDead e 1

/-- PAIR (R111). -/
def execPair (xp xs : Fin 524288) (s : State) : Result :=
  s.act fun _ d => d.when d.cspOn fun d => d.mirDo .pair 1 xp xs

/-- UNPAIR (R111). -/
def execUnpair (xp : Fin 524288) (s : State) : Result :=
  s.act fun _ d => d.when d.cspOn fun d => d.mirDo .unpair 2 xp (d.f HBM.MIRCMD.EXT_S)

/-- VERIFY_ON (R111). -/
def execVerifyOn (xp : Fin 524288) (s : State) : Result :=
  s.act fun _ d => d.when d.cspOn fun d => d.mirDo .verifyOn 3 xp (d.f HBM.MIRCMD.EXT_S)

/-- VERIFY_OFF (R111). -/
def execVerifyOff (xp : Fin 524288) (s : State) : Result :=
  s.act fun _ d => d.when d.cspOn fun d => d.mirDo .verifyOff 4 xp (d.f HBM.MIRCMD.EXT_S)

/-- ADMIT (R116). -/
def execAdmitExtent (e : Fin 64) (s : State) : Result := s.act fun _ d => d.when d.cspOn fun d => d.admitExtent e

/-- RELEASE (R119). -/
def execRelease (e : Fin 64) (s : State) : Result := s.act fun _ d => d.when d.cspOn fun d => d.expRelease e

/-- PART_LOCK (R94). -/
def execPartLock (v : Word) (s : State) : Result := s.act fun _ d => d.when d.cspOn fun d => d.partWrite v

/-- RESIL_GO (R120). -/
def execResilGo (v : Word) (s : State) : Result := s.act fun _ d => d.when d.cspOn fun d => d.resilGo v

/-- RESIL_LINE_COPY (R120). -/
def execResilLineCopy (kind : Bool) (k : Fin 64) (err : BitVec 560) (s : State) : Result :=
  s.act fun _ d => d.when d.fdUp fun d => d.resStep (b2n kind * 64 + k) err

/-- RESIL_DONE (R120). -/
def execResilDone (kind : Bool) (k : Fin 64) (s : State) : Result :=
  s.act fun _ d => d.when d.fdUp fun d => d.resDone (b2n kind * 64 + k)

end Sys2Proof.Machine
end

