-- ==== Sys2Proof/Machine/Links.lean ====
section
/-! DEFINITION. Ports and links: PORT[n].CFG, training, link down and what it entails, lane failure, retraining, replay,
credits, width actions, calibration and rerouting (R123–R127, R136–R160, R46, R76, R117, R133). -/

namespace Sys2Proof.Machine

/-! ## Widths and gangs (R124) -/

def mPCIE : Nat := 2
def mMEM : Nat := 3
def mPEER : Nat := 4

/-- The code of a width of `n` lanes. -/
def widthCode (n : Nat) : Nat := if n ≥ 16 then 4 else if n ≥ 8 then 3 else if n ≥ 4 then 2 else if n ≥ 2 then 1 else 0
def maskWidth (m : Nat) : Nat := widthCode (popN 16 m)

/-- The members of the gang that port `p` leads at its WIDTH. -/
def Dev.gangOf (d : Dev) (p : Nat) : List Nat :=
  match d.f (PORT.CFG.WIDTH p) with
  | 3 => [p + 1]
  | 4 => [p + 1, p + 2, p + 3]
  | _ => []

/-- The gang cannot be formed: the lead stands wrong, the mode has no such width, or a member is in use. R123 gives a MEM port x1,
x2 and x4 alone and does not say what x8 or x16 does there: it is refused as a gang that cannot be formed (DESIGN CHOICE, log
entry 145). -/
def Dev.gangBad (d : Dev) (p : Nat) : Bool :=
  let w := d.f (PORT.CFG.WIDTH p)
  (w == 3 && p % 2 != 0) || (w == 4 && p % 4 != 0) || (w ≥ 3 && d.f (PORT.CFG.MODE p) == mMEM) ||
    (d.gangOf p).any fun q => d.f (PORT.CFG.MODE q) != 0 || d.fb (PORT.CFG.EN q)

/-! ## Training and link down -/

/-- The members of a gang follow their lead: LINK = MEMBER while it is trained or training. -/
def Dev.setMembers (d : Dev) (p v : Nat) : Dev := (d.gangOf p).foldl (fun d q => d.setF (PORT.STAT.LINK q) v) d

/-- The ordered sets that this end sends, one on each lane of a mask; TS1 goes at 64 GT/s (R137, R138). -/
def Dev.tosSend (d : Dev) (p mask : Nat) (t : Tos) : Dev :=
  let t := { t with
    rate := if t.kind == 0x1E then 0 else d.f (PORT.STAT.CRATE p) % 3
    width := maskWidth t.lmask
    rev := d.fb (PORT.STAT.REV p)
    devid := d.devId
    port := p }
  (onesN 16 mask).foldl (fun d l => d.emit (.tos p (tosMake { t with lane := l }))) d

/-- The lanes that CFG.WIDTH allows (R125). -/
def Dev.lanesMax (d : Dev) (p : Nat) : Nat := 2 ^ 2 ^ min 4 (d.f (PORT.CFG.WIDTH p)) - 1

/-- Training from DOWN (R124, R137): a PEER port trains only while DEVLOCK is set, and sends TS1. Which lanes receiver detect
finds is not known before LINK_UP tells: TS1 goes on every lane allowed (DESIGN CHOICE, log entry 146). -/
def Dev.trainStart (d : Dev) (p : Nat) : Dev :=
  let m := d.f (PORT.CFG.MODE p)
  if m == 0 || (m == mPEER && !d.fb PORT.GLINK.DEVLOCK) then d
  else if d.gangBad p then d.setF (PORT.STAT.ERR p) 2
  else
    let d := ((d.setF (PORT.LANE.LFAIL p) 0).setF (PORT.STAT.LINK p) 1).setMembers p 5
    if m == mPEER then d.tosSend p (d.lanesMax p) { kind := 0x1E, lmask := d.lanesMax p } else d

/-- Slices that were open on this host alone are quiesced (R46). -/
def Dev.autoQuiesce (d : Dev) (h : Nat) : Dev :=
  (((d.bind.frA.filter fun e => e.1 / 512 == h).map fun e => e.2 - 1).eraseDups).foldl (fun d n =>
    if d.sliceState n == 1 && d.f (SLICE.HOSTS.MASK n) == 2 ^ h then (d.quiesce n).setF (SLICE.STATE.AUTOQ n) 1 else d) d

/-- The functions of a port at their reset values (R133): MSI-X, notification and back-invalidate commits. -/
def Dev.convReset (d : Dev) (p : Nat) : Dev :=
  { d with host := { d.host with
    msix := Tbl.drop (fun k => k / 256 == p) d.host.msix
    pend := Tbl.drop (fun k => k / 256 == p) d.host.pend
    ctl := Tbl.drop (fun k => k / 16 == p) d.host.ctl
    notify := Tbl.put 0 d.host.notify p 0
    commit := Tbl.drop (fun k => k / 16 == p) d.host.commit } }

/-- A held request after its port's link has gone down: the writes and clean notices that had reached the port are handled
normally, and answered to nobody (R76). -/
def heldAfter (p : Nat) (r : HostReq) : Option HostReq :=
  if heldPort r != p then some r
  else match r with
    | .memWr p r => some (.lateWr p r false)
    | .memWrPtl p r => some (.lateWr p r true)
    | .memClnEvct p r => some (.lateCln p r)
    | .lateWr p r part => some (.lateWr p r part)
    | .lateCln p r => some (.lateCln p r)
    | .memRd _ _ | .memRdData _ _ | .pcieRd _ _ | .pcieWr _ _ _ | .pcieAt _ _ _ _ _ _ _ | .bar0Rd _ _ _ | .bar0Wr _ _ _ => none

/-- The requests of a port whose answers go to nobody any longer: those that a home has, and none else (R76). -/
def Dev.orphan (d : Dev) (p : Nat) : Dev :=
  { d with host := { d.host with
    reqs := (d.host.reqs.filter fun r => !(r.port == p && (r.ptag == 4096 || r.kind == 6))).map fun r =>
      if r.port == p then { r with kind := 7 } else r } }

/-- A host's link is down: it has departed, and nothing of it is answered (R76, R46, R133). -/
def Dev.hostGone (d : Dev) (p : Nat) : Dev :=
  let h := d.f (PORT.CFG.HOSTID p)
  let d := d.orphan p
  let d : Dev := { d with
    wq := { d.wq with reads := d.wq.reads.filter (·.port != p) }
    host := { d.host with walks := d.host.walks.filterMap (heldAfter p) }
    bind := { d.bind with held := d.bind.held.filterMap (heldAfter p) } }
  ((d.depart p h).convReset p).autoQuiesce h

/-- What a link carried without an answer goes on another path, or waits for one (R157); when it was lost is kept (R159). -/
def Dev.reissue (d : Dev) (p : Nat) : Dev :=
  let mine := d.coh.rem.filter (·.1 == p)
  let d : Dev := { d with coh := { d.coh with rem := d.coh.rem.filter (·.1 != p) } }
  mine.foldl (fun d e =>
    let put := fun (d : Dev) (q : Nat) => { d with coh := { d.coh with rem := d.coh.rem ++ [(q, e.2)] } }
    match d.peerPort e.2 p with
    | some q =>
      let d : Dev := { put d q with coh := { (put d q).coh with again := d.coh.again ++ [(q, e.2)] } }
      d.linkSend q (msgVc e.2) (msgPack e.2)
    | none => put { d with coh := { d.coh with late := d.coh.late.filter (·.2 != e.2) ++ [(d.now, e.2)] } } 96) d

/-- The link goes down for a reason of PORT[n].STAT.DWHY, and trains again while EN is set (R136, R137, R150). -/
def Dev.linkDown (d : Dev) (p why : Nat) : Dev :=
  let l := d.f (PORT.STAT.LINK p)
  if l == 0 || l == 5 then d
  else
    let up := l != 1
    let m := d.f (PORT.CFG.MODE p)
    let d := ((d.setF (PORT.STAT.LINK p) 0).setF (PORT.STAT.DWHY p) why).setMembers p 0
    let d := (d.setF (PORT.LANE.LACT p) 0).setF (PORT.STAT.LWC p) 0
    let d := d.setLnk p Link.none
    let d := if up then d.raise (4 * p) (why * 2) else d
    let d := if m == 1 || m == mPCIE then d.hostGone p
      else if m == mMEM then
        ((List.range 64).filter fun e => d.f (HBM.EXP.PORT e) == p && d.expLive e).foldl (fun d e => d.declareDead e 2) d
      else if m == mPEER then d.reissue p
      else d
    if d.fb (PORT.CFG.EN p) && why != 7 then d.trainStart p else d

/-! ## PORT[n].CFG (R124–R127) -/

/-- A write of PORT[n].CFG. On the manager port R125 goes before R126: with EN set, a forbidden MODE is a change under EN (DESIGN
CHOICE, log entry 56). -/
def Dev.cfgWrite (d : Dev) (p : Nat) (v : Word) : Dev :=
  let cfg := d.reg (PORT.CFG.reg p)
  if d.f (PORT.STAT.LINK p) == 5 then d
  else
    let mode := if getBits v 0 3 > 4 then getBits cfg 0 3 else getBits v 0 3
    let width := if getBits v 3 3 > 4 then getBits cfg 3 3 else getBits v 3 3
    let rate := if getBits v 6 2 > 2 then getBits cfg 6 2 else getBits v 6 2
    let host := getBits v 8 6
    let db := getBits v 14 1
    let en := d.fb (PORT.CFG.EN p)
    let same := mode == getBits cfg 0 3 && width == getBits cfg 3 3 && rate == getBits cfg 6 2 &&
      host == getBits cfg 8 6 && db == getBits cfg 14 1
    if !en && p == d.mgrPort && mode != 1 && mode != mPCIE then d.setF (PORT.STAT.ERR p) 4
    else
      let d := if en then (if same then d else d.setF (PORT.STAT.ERR p) 1)
        else ((((d.setF (PORT.CFG.MODE p) mode).setF (PORT.CFG.WIDTH p) width).setF (PORT.CFG.RATE p) rate).setF
          (PORT.CFG.HOSTID p) host).setF (PORT.CFG.DB p) db
      let d := d.setF (PORT.CFG.CALEN p) (getBits v 16 1)
      let m := d.f (PORT.CFG.MODE p)
      let d :=
        if !en && getBits v 15 1 == 1 then
          if (m == 1 || m == mPCIE) && ((List.range 96).any fun q => q != p && d.fb (PORT.CFG.EN q) &&
              (d.f (PORT.CFG.MODE q) == 1 || d.f (PORT.CFG.MODE q) == mPCIE) && d.f (PORT.CFG.HOSTID q) == d.f (PORT.CFG.HOSTID p)) then
            d.setF (PORT.STAT.ERR p) 3
          else (d.setF (PORT.CFG.EN p) 1).trainStart p
        else if en && getBits v 15 1 == 0 then (d.setF (PORT.CFG.EN p) 0).linkDown p 7
        else d
      if getBits v 17 1 == 0 then d
      else if d.f (PORT.STAT.LINK p) == 0 then (if d.fb (PORT.CFG.EN p) then d.trainStart p else d)
      else d.linkDown p 6

/-- A write of PORT[0].GLINK: DEVID until DEVLOCK holds it; PEER ports that were waiting for DEVLOCK train (R137). -/
def Dev.glinkWrite (d : Dev) (v : Word) : Dev :=
  let was := d.fb PORT.GLINK.DEVLOCK
  let d := if was then d else (d.setF PORT.GLINK.DEVID (getBits v 0 3)).setF PORT.GLINK.DEVLOCK (getBits v 3 1)
  let t := getBits v 4 14
  let d := if 500 ≤ t && t ≤ 10000 then d.setF PORT.GLINK.TREQ t else d
  let d := if getBits v 32 16 == 0 then d.setF PORT.GLINK.DUPMAX 0 else d
  if was || !d.fb PORT.GLINK.DEVLOCK then d
  else (List.range 96).foldl (fun d p =>
    if d.f (PORT.CFG.MODE p) == mPEER && d.fb (PORT.CFG.EN p) && d.f (PORT.STAT.LINK p) == 0 then d.trainStart p else d) d

/-- Action codes of the TOS. -/
def aNONE : Nat := 0
def aNARROW : Nat := 1
def aWIDEN : Nat := 2
def aFOLLOW : Nat := 4
def aSWAP : Nat := 5

/-! ## Training ordered sets and LINK_UP (R137, R138) -/

/-- Sets of lanes that a link may run on, the widest first (R153). -/
def laneSets : List Nat :=
  [0xFFFF, 0x00FF, 0xFF00, 0x000F, 0x00F0, 0x0F00, 0xF000, 0x0003, 0x000C] ++ (List.range 16).map fun i => 2 ^ i

/-- The lanes that a link trains to: the widest set of the lanes found, no wider than 2 ^ `w`; none where there is none. -/
def trainSet (found w : Nat) : Nat := (laneSets.find? fun m => m &&& found == m && popN 16 m ≤ 2 ^ w).getD 0

/-- The highest Cestralink rate up to `most` that the partner lists (R137). -/
def rateSet (most rates : Nat) : Option Nat := ([2, 1, 0].filter (· ≤ most)).find? fun r => bitN rates r

/-- TS1 and TS2: what they tell of the partner; equal device IDs clash. The first of them brings the link to the highest rate that
both ends have, at which the own TS2 goes out with the credits of R144, on the widest set of lanes that both allow (R137, steps 4
and 5); which lanes and rate training then settles on LINK_UP tells (log entry 146). -/
def Dev.tsRecv (d : Dev) (p : Nat) (t : Tos) (final : Bool) : Dev :=
  if d.f (PORT.STAT.LINK p) != 1 || d.f (PORT.CFG.MODE p) != mPEER then d
  else if t.devid == d.devId then d.setF (PORT.STAT.ERR p) 6
  else
    let d := if (d.lnk p).peer.isSome then d
      else
        let mask := trainSet (d.lanesMax p) t.width
        let d := match rateSet (d.f (PORT.CFG.RATE p)) t.rates with | some r => d.setF (PORT.STAT.CRATE p) r | none => d
        d.tosSend p mask { kind := 0x2D, lmask := mask, cred := advCredits }
    d.updLnk p fun x =>
      let q : LinkPeer := {
        rates := t.rates, rate := t.rate, width := t.width, dev := t.devid, port := t.port, rev := t.rev
        cred := if final then t.cred else (x.peer.map (·.cred)).getD [] }
      { x with peer := some q }

/-- The link is up with the lanes and the rate that it trained to. -/
def Dev.linkSet (d : Dev) (p mask rate : Nat) (rev lwc : Bool) (pol : Nat) : Dev :=
  let d := ((d.setF (PORT.STAT.LINK p) 2).setF (PORT.STAT.CWIDTH p) (maskWidth mask)).setF (PORT.STAT.CRATE p) rate
  let d := (d.setF (PORT.STAT.REV p) (b2n rev)).setF (PORT.STAT.LWC p) (b2n lwc)
  (d.setF (PORT.LANE.POLINV p) pol).setF (PORT.LANE.LACT p) mask

/-- A PEER link is UP (R137): the sequences start at 0. -/
def Dev.peerUp (d : Dev) (p mask rate : Nat) (rev : Bool) (pol : Nat) (q : LinkPeer) : Dev :=
  let d := ((d.linkSet p mask rate rev false pol).setF (PORT.STAT.REMDEV p) q.dev).setF (PORT.STAT.REMPORT p) q.port
  let cred := q.cred.zipIdx.foldl (fun t e => Tbl.put 0 t e.2 e.1) []
  let d := d.setLnk p { Link.none with cred := cred, txMask := mask, rxMask := mask, peer := some q }
  d.raise (4 * p) (1 + d.f (PORT.STAT.DWHY p) * 2)

/-- The link is UP after training from DOWN: the lanes found, no more than CFG.WIDTH allows (R125), at the rate that both ends
have; or back after a retrain of a HOST, PCIE or MEM link. No lane is NO_LANES (R153), and a partner without flits, or of a kind
that the profiles do not list, does not link (R134, R135). -/
def Dev.linkUpNow (d : Dev) (p w rate : Nat) (rev : Bool) (pol lact : Nat) (lwc : Bool) (partner : LinkPartner) : Dev :=
  let m := d.f (PORT.CFG.MODE p)
  let l := d.f (PORT.STAT.LINK p)
  let most := min w (d.f (PORT.CFG.WIDTH p))
  if l == 3 && m != mPEER then d.setF (PORT.STAT.LINK p) 2
  else if l != 1 then d
  else if m == mPEER then
    match (d.lnk p).peer with
    | none => d
    | some q =>
      if q.cred.isEmpty || q.dev == d.devId then d
      else match trainSet (lact &&& d.lanesMax p) (min most q.width), rateSet (min rate (d.f (PORT.CFG.RATE p))) q.rates with
        | 0, _ => d.linkDown p 8
        | _, none => d
        | mask, some r => d.peerUp p mask r rev pol q
  else if partner == .noFlit then d.setF (PORT.STAT.ERR p) 5
  else if partner == .unlisted then d
  else match trainSet (lact &&& d.lanesMax p) most with
    | 0 => d.linkDown p 8
    | mask => (d.linkSet p mask (if rate == 0 then 0 else 3) rev lwc pol).raise (4 * p) (1 + d.f (PORT.STAT.DWHY p) * 2)

/-! ## Retrain and replay (R147–R149, R153) -/

/-- A retrain starts, on the lanes of `mask`. -/
def Dev.retrain (d : Dev) (p mask action aseq : Nat) (own : Bool) : Dev :=
  let d := ((d.setF (PORT.STAT.LINK p) 3).count (8 * p + 4) 1).raise (4 * p + 2) 1
  let x := d.lnk p
  if d.f (PORT.CFG.MODE p) != mPEER then d.setLnk p { x with cal := 0 }
  else
    let d := d.setLnk p { x with
      act := some ⟨3, aseq, mask, own, false, true, false, none⟩
      cal := 0
      adds := 0
      aseq := if own then aseq else x.aseq
      txq := x.txq.filter (·.1 != 7) }
    d.tosSend p mask { kind := 0x4B, action := action, aseq := aseq, lmask := mask, nextrx := x.rxSeq % 4096 }

/-- One more replay of each flit, while the watch runs. -/
def Link.watched (x : Link) : Link :=
  if x.watch then { x with wrep := x.replay.foldl (fun t e => Tbl.upd 0 t e.1 (· + 1)) x.wrep } else x

/-- A replay, or a retrain once N_replay replays have brought no progress; N_replay replays of one flit during the watch take
the link down. -/
def Dev.replayOrRetrain (d : Dev) (p : Nat) : Dev :=
  let x := d.lnk p
  let n := d.f (PORT.TMR.NREPLAY p)
  if x.rep < n then
    let d := ((d.setLnk p { x with rep := x.rep + 1 }.watched).count (8 * p + 3) 1).flitReplay p
    if (d.lnk p).wrep.any fun e => n ≤ e.2 then d.linkDown p 2 else d
  else d.retrain p (d.f (PORT.LANE.LACT p)) 3 ((x.aseq + 1) % 256) true

/-- A response that its requester's ACK covers on a direct link: the duplicate-suppression entry that recorded it is
freed (R158), that of an Atom done near by the DataM that ends it. -/
def Dev.freeDup (d : Dev) (p : Nat) (e : Nat × Nat × Nat × List Byte) : Dev :=
  let m := msgUnpack (e.2.2.2.drop 1)
  if e.2.1 != 1 || !(e.2.2.1 == 1 || e.2.2.1 == 2 || e.2.2.1 == 4) || agDev m.dst != d.f (PORT.STAT.REMDEV p) ||
      (m.op == opDataA && m.res == 1) then d
  else { d with coh := { d.coh with dup := d.coh.dup.filter fun u => !(u.1.src == m.dst && u.1.tag == m.tag && u.2.isSome) } }

/-- The flits that ACK covers leave the replay buffer (R147). -/
def Dev.ackFlits (d : Dev) (p ack : Nat) : Dev :=
  let x := d.lnk p
  match x.replay.findIdx? fun e => e.1 % 4096 == ack with
  | some i =>
    let d := (x.replay.take (i + 1)).foldl (fun d e => d.freeDup p e) d
    let gone := (x.replay.take (i + 1)).map (·.1)
    d.setLnk p { x with replay := x.replay.drop (i + 1), rep := 0, wrep := Tbl.drop gone.contains x.wrep }
  | none => d

/-- A width taken by the link: LACT, CWIDTH and the WIDTH event. -/
def Dev.setWidth (d : Dev) (p mask : Nat) : Dev :=
  let was := d.f (PORT.LANE.LACT p)
  let d := (d.setF (PORT.LANE.LACT p) mask).setF (PORT.STAT.CWIDTH p) (maskWidth mask)
  if was == mask then d else d.raise (4 * p + 1) (maskWidth mask + d.f (PORT.LANE.LFAIL p) * 8)

/-- The first half of some lanes, counted upward, and the second (R154). -/
def lowerHalf (m : Nat) : Nat := ((onesN 16 m).take ((onesN 16 m).length / 2)).foldl (fun m l => m + 2 ^ l) 0
def upperHalf (m : Nat) : Nat := ((onesN 16 m).drop ((onesN 16 m).length / 2)).foldl (fun m l => m + 2 ^ l) 0

/-- This end starts a width action. -/
def Dev.actStart (d : Dev) (p code mask : Nat) : Dev :=
  let x := d.lnk p
  let s := (x.aseq + 1) % 256
  let d := d.setLnk p { x with aseq := s, act := some ⟨code, s, mask, true, false, false, false, none⟩, adds := 0 }
  let d := d.ctrlSend p 2 (maskWidth mask) code s mask
  if code == aNARROW then d else d.tosSend p (mask &&& (65535 ^^^ x.txMask)) { kind := 0x78, action := code, aseq := s, lmask := mask }

/-- A calibration cycle is skipped (R154, R155). -/
def Dev.calSkip (d : Dev) (p : Nat) : Dev := (d.incF (PORT.CAL.SKIPS p)).raise (4 * p + 3) 1

/-- A calibration cycle starts, or is skipped (R154); one that comes while another action runs waits for its end. Outside PEER
ports it needs the partner's consent to L0p, which a free value gives (R155). -/
def Dev.calStart (d : Dev) (p : Nat) : Dev :=
  let s := d.f (PORT.STAT.LINK p)
  let peer := d.f (PORT.CFG.MODE p) == mPEER
  let mask := d.f (PORT.LANE.LACT p)
  if s == 3 || (s == 2 && (d.lnk p).act.isSome) then d.updLnk p fun x => { x with due := true }
  else if s != 2 then d
  else if (onesN 16 mask).length < 2 || d.f (PORT.LANE.LFAIL p) != 0 then d.calSkip p
  else if peer then
    ((d.setF (PORT.STAT.LINK p) 4).updLnk p fun x => { x with cal := 1, full := mask }).actStart p aNARROW (lowerHalf mask)
  else if !d.fb (PORT.STAT.LWC p) then d.calSkip p
  else
    let (agrees, d) := d.draw
    if agrees == 0 then d.calSkip p
    else ((d.setF (PORT.STAT.LINK p) 4).updLnk p fun x => { x with cal := 2, full := mask }).setWidth p (lowerHalf mask)

/-- A calibration cycle that waited for the end of an action starts. -/
def Dev.calDue (d : Dev) (p : Nat) : Dev :=
  if (d.lnk p).due && (d.lnk p).act.isNone then (d.updLnk p fun x => { x with due := false }).calStart p else d

/-- The retrain completes: sending resumes from the partner's NEXTRX, and the watch starts (R149). -/
def Dev.retrained (d : Dev) (p mask nextrx : Nat) : Dev :=
  let d := (d.setF (PORT.STAT.LINK p) 2).ackFlits p ((nextrx + 4095) % 4096)
  let d := d.updLnk p fun x => { x with
    rep := 0
    watch := true
    wrep := []
    nak := false
    disc := false
    act := none
    txMask := mask
    rxMask := mask }
  (((d.setWidth p mask).flitReplay p).linkFlush p).calDue p

/-- An RTS received (R149, R152): where both ends started, the higher key's end follows, and the lower one's LMASK is
used. -/
def Dev.rtsRecv (d : Dev) (p : Nat) (t : Tos) : Dev :=
  let l := d.f (PORT.STAT.LINK p)
  if d.f (PORT.CFG.MODE p) != mPEER then d
  else if l == 2 || l == 4 then d.retrain p t.lmask 4 t.aseq false
  else if l == 3 then
    match (d.lnk p).act with
    | some a =>
      let mine := d.devId * 128 + p
      let theirs := t.devid * 128 + t.port
      let d := if a.own && theirs < mine && t.action != aFOLLOW then
          d.tosSend p t.lmask { kind := 0x4B, action := aFOLLOW, aseq := t.aseq, lmask := t.lmask, nextrx := (d.lnk p).rxSeq % 4096 }
        else d
      d.retrained p (if a.own && mine < theirs then a.mask else t.lmask) t.nextrx
    | none => d
  else d

/-- The widest working set of lanes among those R153 lists. -/
def laneSet (act fail : Nat) : Nat :=
  let ok := fun m => m &&& act == m && m &&& fail == 0
  (laneSets.find? ok).getD 0

/-- The lanes of the link: all of them, while a calibration cycle has it on half (R153). -/
def Dev.lanesAll (d : Dev) (p : Nat) : Nat := if (d.lnk p).cal == 0 then d.f (PORT.LANE.LACT p) else (d.lnk p).full

/-- A lane fails (R136, R153). -/
def Dev.laneFail (d : Dev) (p l : Nat) : Dev :=
  let s := d.f (PORT.STAT.LINK p)
  let act := d.lanesAll p
  if !(2 ≤ s && s ≤ 4) || !bitN act l then d
  else
    let fail := setBitN (d.f (PORT.LANE.LFAIL p)) l
    let d := d.setF (PORT.LANE.LFAIL p) fail
    let set := laneSet act fail
    if set == 0 then d.linkDown p 8
    else if d.f (PORT.CFG.MODE p) == mPEER then
      let d := d.raise (4 * p + 1) (maskWidth set + fail * 8)
      if s == 3 then d.updLnk p fun x => { x with act := x.act.map fun a => { a with mask := set } }
      else d.retrain p set 3 (((d.lnk p).aseq + 1) % 256) true
    else
      let d := ((d.setF (PORT.LANE.LACT p) set).setF (PORT.STAT.CWIDTH p) (maskWidth set)).raise (4 * p + 1) (maskWidth set + fail * 8)
      d.retrain p set 3 0 true

/-! ## Width actions and calibration (R151, R152, R154, R155) -/

/-- The calibration cycle ends (R154). -/
def Dev.calEnd (d : Dev) (p : Nat) : Dev :=
  let d := (d.setF (PORT.STAT.LINK p) 2).updLnk p fun x => { x with cal := 0 }
  let d := d.incF (PORT.CAL.CYCLES p)
  let d := (List.range 16).foldl (fun d l => d.setF (PORT.EYE.HMCAL p l) (d.f (PORT.EYE.HM p l))) d
  d.raise (4 * p + 3) 0

/-- A calibration cycle that is not carried to its end. -/
def Dev.calStop (d : Dev) (p : Nat) : Dev :=
  let d := d.updLnk p fun x => { x with cal := 0 }
  if d.f (PORT.STAT.LINK p) == 4 then d.setF (PORT.STAT.LINK p) 2 else d

/-- The partner's action is done at the end that follows: a narrowing to the lower half, the swap to the upper and the widening
to all lanes are the partner's calibration cycle (R154). -/
def Dev.calFollow (d : Dev) (p was : Nat) (a : LinkAct) : Dev :=
  let x := d.lnk p
  if x.cal == 0 && a.code == aNARROW && a.mask == lowerHalf was && d.f (PORT.LANE.LFAIL p) == 0 then
    (d.setF (PORT.STAT.LINK p) 4).setLnk p { x with cal := 11, full := was }
  else if x.cal == 11 && a.code == aSWAP && a.mask == upperHalf x.full then d.setLnk p { x with cal := 12 }
  else if x.cal == 12 && a.code == aWIDEN && a.mask == x.full then d.calEnd p
  else if 11 ≤ x.cal then d.calStop p
  else d

/-- A width action is complete in both directions. -/
def Dev.actDone (d : Dev) (p : Nat) (a : LinkAct) : Dev :=
  let was := d.f (PORT.LANE.LACT p)
  let d := (d.updLnk p fun x => { x with act := none, adds := 0, txMask := a.mask }).setWidth p a.mask
  let d := if !a.own then d.calFollow p was a
    else match (d.lnk p).cal with
      | 1 => d.updLnk p fun x => { x with cal := 2 }
      | 3 => d.updLnk p fun x => { x with cal := 4 }
      | 5 => d.calEnd p
      | _ => d
  d.calDue p

/-- The action is complete once the partner's LSWITCH has come and the ACK that covers the own one has arrived (R151, step
5). -/
def Dev.actCheck (d : Dev) (p : Nat) : Dev :=
  match (d.lnk p).act with
  | some a =>
    match a.lsw with
    | some (s, _) => if a.code != 3 && a.got && !((d.lnk p).replay.any (·.1 == s)) then d.actDone p a else d
    | none => d
  | none => d

/-- This end's LSWITCH goes out: later flits are sent on the new lanes (R151, step 4). -/
def Dev.lswitchSend (d : Dev) (p : Nat) (a : LinkAct) : Dev :=
  let d := d.updLnk p fun x => { x with act := some { a with sent := true } }
  d.ctrlSend p 4 (maskWidth a.mask) a.code a.aseq a.mask

/-- The responder has every lane it needs: LACK with FOLLOW, then its LSWITCH. -/
def Dev.respond (d : Dev) (p : Nat) (a : LinkAct) : Dev :=
  (d.ctrlSend p 3 (maskWidth a.mask) aFOLLOW a.aseq a.mask).lswitchSend p { a with lack := true }

/-- LREQ (R151, R152). -/
def Dev.lreq (d : Dev) (p : Nat) (c : LinkCtl) : Dev :=
  let x := d.lnk p
  let code := c.action.toNat
  if !d.linkRuns p || !(code == aNARROW || code == aWIDEN || code == aSWAP) then d
  else
    let a : LinkAct := ⟨code, c.aseq.toNat, c.lmask.toNat, false, false, false, false, none⟩
    let take := fun (d : Dev) =>
      let d := d.updLnk p fun x => { x with act := some a, adds := 0 }
      if code == aNARROW then d.respond p a
      else d.tosSend p (a.mask &&& (65535 ^^^ x.txMask)) { kind := 0x78, action := aFOLLOW, aseq := a.aseq, lmask := a.mask }
    match x.act with
    | none => take d
    | some b =>
      if b.own && !b.lack then
        if d.devId * 128 + p < c.dev.toNat * 128 + c.port.toNat then d
        else take (if x.cal == 0 then d else d.calStop p)
      else d.ctrlSend p 3 (maskWidth x.txMask) aNONE c.aseq.toNat x.txMask

/-- Every lane that an action adds has locked to the partner's ADD (R151, step 2). -/
def Link.locked (x : Link) (a : LinkAct) : Bool :=
  let need := a.mask &&& (65535 ^^^ x.txMask)
  need &&& x.adds == need

/-- LACK (R151): the initiator's LSWITCH follows once its own lanes have locked. -/
def Dev.lack (d : Dev) (p : Nat) (c : LinkCtl) : Dev :=
  match (d.lnk p).act with
  | some a =>
    if !a.own || a.lack || a.aseq != c.aseq.toNat || a.code == 3 then d
    else if c.action.toNat == aFOLLOW then
      if (d.lnk p).locked a then d.lswitchSend p { a with lack := true }
      else d.updLnk p fun x => { x with act := some { a with lack := true } }
    else
      ((d.updLnk p fun x => { x with act := none }).calStop p).calDue p
  | none => d

/-- LSWITCH (R151): the receiver uses LMASK from the next flit on. -/
def Dev.lswitch (d : Dev) (p : Nat) (c : LinkCtl) : Dev :=
  match (d.lnk p).act with
  | some a =>
    if a.code == 3 || a.got then d
    else
      (d.updLnk p fun x => { x with rxMask := c.lmask.toNat, act := some { a with got := true } }).actCheck p
  | none => d

/-- ADD (R151): a lane locked; once every lane is, the responder answers, and the initiator that has its LACK switches. -/
def Dev.addRecv (d : Dev) (p : Nat) (t : Tos) : Dev :=
  let x := d.lnk p
  match x.act with
  | some a =>
    if a.code == 3 || a.aseq != t.aseq then d
    else
      let x := { x with adds := setBitN x.adds t.lane }
      let d := d.setLnk p x
      if !x.locked a then d
      else if !a.own && !a.lack then d.respond p a
      else if a.own && a.lack && !a.sent then d.lswitchSend p a
      else d
  | none => d

/-- A half of the lanes has recalibrated. -/
def Dev.halfDone (d : Dev) (p : Nat) : Dev :=
  let x := d.lnk p
  let peer := d.f (PORT.CFG.MODE p) == mPEER
  match x.cal with
  | 2 =>
    if peer then (d.setLnk p { x with cal := 3 }).actStart p aSWAP (upperHalf x.full)
    else (d.setLnk p { x with cal := 4 }).setWidth p (upperHalf x.full)
  | 4 => if peer then (d.setLnk p { x with cal := 5 }).actStart p aWIDEN x.full else (d.setWidth p x.full).calEnd p
  | _ => d

/-! ## Flits received (R143–R147, R156, R369) -/

/-- A message of FM_PEER whose fragments have all arrived (R369): delivered to FM here, or, for another device, sent on over this
device's links, once, if it comes from the device at the link's other end (R156), its fragments consecutive on one link. They have no
ADDR for the hash of R156: of several links that serve, each message takes the first (DESIGN CHOICE, log entry 145). -/
def Dev.fragWhole (d : Dev) (p : Nat) (parts : List (List Byte)) : Dev :=
  let h := parts.headD []
  let dev := (h.getD 5 0).toNat % 8
  let lost := d.count (8 * p + 7) 1
  if dev != d.devId then
    if (h.getD 4 0).toNat % 8 != d.f (PORT.STAT.REMDEV p) then lost
    else match (d.peerLinks dev).filter (· != p) with
    | q :: _ => parts.foldl (fun d bs => d.linkSend q 6 bs) d
    | [] => lost
  else
    let body := parts.flatMap (·.drop 8)
    let first := (h.headD 0).toNat
    if 4088 < body.length then lost
    else match d.fmDeliver ((h.take 6).set 0 (BitVec.ofNat 8 (first % 16 + 0x60)) ++ leBytes 2 body.length ++ body) with
    | (true, d) => d
    | (false, d) => d.count (8 * p + 7) 1

/-- A fragment of an FM_PEER message (R369): an 8-byte header and at most 101 bytes. One that goes on the message on its way keeps its
TAG, SRC and DST; a message that another fragment breaks off has not all arrived, and is discarded and counted. EOM completes it. -/
def Dev.fragArrive (d : Dev) (p : Nat) (bs : List Byte) : Dev :=
  let b0 := (bs.headD 0).toNat
  let old := (d.lnk p).frag
  let goesOn := !bitN b0 5 && old.head?.any fun h => (h.drop 3).take 3 == (bs.drop 3).take 3
  let put := fun (d : Dev) (l : List (List Byte)) => d.updLnk p fun x => { x with frag := l }
  if bs.length < 8 || 109 < bs.length || b0 % 16 != 1 || (bs.getD 1 0).toNat != 0x41 || leNat ((bs.drop 6).take 2) != bs.length - 8 then
    d.count (8 * p + 7) 1
  else
    let d := if old.isEmpty || goesOn then d else (put d []).count (8 * p + 7) 1
    if !goesOn && !bitN b0 5 then d.count (8 * p + 7) 1
    else
      let parts := (if goesOn then old else []) ++ [bs]
      if bitN b0 6 then (put d []).fragWhole p parts else put d parts

/-- The messages of a MSG payload: length bytes and contents, ended by a length of 0. -/
def payloadMsgs : Nat → List Byte → List (List Byte)
  | 0, _ => []
  | k + 1, bs =>
    match bs with
    | [] => []
    | l :: r => if l == 0 then [] else r.take l.toNat :: payloadMsgs k (r.drop l.toNat)

/-- A message leaves its receive buffer; nothing that this device takes comes on VC 5. -/
def Dev.msgTake (d : Dev) (p vc : Nat) (bs : List Byte) : Dev :=
  if vc ≤ 4 then d.peerArrive p (msgUnpack bs)
  else if vc == 6 then d.fragArrive p bs
  else d.count (8 * p + 7) 1

/-- The messages of a flit that leave their buffer, up to one that has to wait for the duplicate-suppression table (R158). -/
def Dev.flitDrain (p vc : Nat) : List (List Byte) → Dev → List (List Byte) × Dev
  | [], d => ([], d)
  | bs :: r, d =>
    if vc ≤ 4 && d.dupFull (msgUnpack bs) then (bs :: r, d) else Dev.flitDrain p vc r (d.msgTake p vc bs)

/-- The receive buffers emptied as far as they go, in order within each VC; a flit that has left owes one credit of its VC
(R144, R145). -/
def Dev.rxDrain (d : Dev) (p : Nat) : Dev :=
  let r := (d.lnk p).rxb.foldl (fun (acc : List (Nat × List (List Byte)) × Dev) e =>
    let (keep, d) := acc
    if keep.any (·.1 == e.1) then (keep ++ [e], d)
    else match Dev.flitDrain p e.1 e.2 d with
      | ([], d) => (keep, if e.1 == 7 then d else d.updLnk p fun x => { x with owed := Tbl.upd 0 x.owed e.1 (· + 1) })
      | (left, d) => (keep ++ [(e.1, left)], d)) ([], d)
  r.2.updLnk p fun x => { x with rxb := r.1 }

/-- One accepted MSG or CTRL flit: its messages into the receive buffer of their VC and out of it, or its CTRL code. A VC that
begins to wait raises the port's retry event (R158). -/
def Dev.flitBody (d : Dev) (p vc type : Nat) (payload : List Byte) : Dev :=
  if type == 1 then
    let waited := (d.lnk p).rxb.any (·.1 == vc)
    let d := (d.updLnk p fun x => { x with rxb := x.rxb ++ [(vc, payloadMsgs 110 payload)] }).rxDrain p
    if !waited && (d.lnk p).rxb.any (·.1 == vc) then d.raise (4 * p + 2) 2 else d
  else
    let g := fun i => payload.getD i 0
    let c : LinkCtl := ⟨g 1, g 2, g 3, g 4, g 5, BitVec.ofNat 16 ((g 6).toNat + 256 * (g 7).toNat)⟩
    match (g 0).toNat with
    | 2 => d.lreq p c
    | 3 => d.lack p c
    | 4 => d.lswitch p c
    | _ => d

/-- A flit received (R140, R141, R147). -/
def Dev.flitRecv (d : Dev) (p : Nat) (x : BitVec 1024) : Dev :=
  if !d.linkRuns p || d.f (PORT.CFG.MODE p) != mPEER then d
  else
    let (b, fixed) := flitFix (flitMerge (popN 16 (d.lnk p).rxMask) x)
    let d := (d.count (8 * p + 2) 1).count (8 * p + 6) fixed
    let l := d.lnk p
    let hdr := leNat (b.take 4)
    let ok := crc64 (leBytes 4 l.rxSeq ++ b.take 114) == leNat ((b.drop 114).take 8)
    if !ok then
      let again := l.disc && d.now - l.nakAt < d.f (PORT.TMR.TNAK p) * 50
      let d := (d.setLnk p { l with disc := true, nak := l.nak || !again }).count (8 * p + 5) 1
      if again then d else d.flitTx p (d.lnk p).txMask (d.lnk p).txSeq 0 0 []
    else
      let type := bitsN hdr 3 3
      let d := d.setLnk p { l with disc := false, rxSeq := if type == 0 then l.rxSeq else (l.rxSeq + 1) % 2 ^ 32 }
      let d := if bitN hdr 18 then ((d.ackFlits p (bitsN hdr 19 12)).actCheck p).rxDrain p else d
      let d := if type == 0 then d else d.updLnk p fun x => { x with cred := Tbl.upd 0 x.cred (bitsN hdr 8 3) (· + bitsN hdr 11 6) }
      let d := if type == 1 || type == 2 then d.flitBody p (bitsN hdr 0 3) type ((b.drop 4).take 110) else d
      let d := if bitN hdr 17 && d.linkRuns p then d.replayOrRetrain p else d
      d.linkFlush p

/-! ## Lost paths (R157–R159) -/

/-- A path to device `v` appears: what waits for it is sent, in order, but for the requests that are too late for it. -/
def Dev.pathBack (d : Dev) (v : Nat) : Dev :=
  let mine := d.coh.rem.filter fun e => 96 ≤ e.1 && agDev e.2.dst == v && !d.tooLate e.2
  if d.reissuing v then d else
  mine.foldl (fun d e =>
    match d.peerPort e.2 (if e.1 == 96 then 96 else e.1 - 97) with
    | some q =>
      let own := agDev e.2.src == d.devId && msgAnswered e.2
      ({ d with coh := { d.coh with
          rem := if own then d.coh.rem.map fun u => if u == e then (q, e.2) else u else d.coh.rem.erase e
          late := d.coh.late.filter (·.2 != e.2) } } : Dev).linkSend q (msgVc e.2) (msgPack e.2)
    | none => d) d

/-- Reissues that had to wait for credits and have gone out let the new messages of their devices follow (R157). -/
def Dev.againGo (d : Dev) : Dev :=
  if d.coh.again.isEmpty then d
  else
    let vs := (d.coh.again.map fun e => agDev e.2.dst).eraseDups
    let left := d.coh.again.filter fun e => (d.lnk e.1).txq.contains (msgVc e.2, msgPack e.2)
    let d : Dev := { d with coh := { d.coh with again := left } }
    (vs.filter fun v => !d.reissuing v).foldl (fun d v => d.pathBack v) d

/-- The answer of a request that PATH_LOST ends: data with PSN, or CmpP with its reason (R159). -/
def lostAnswer (m : Msg) : Msg :=
  let a : Msg :=
    if m.op == opRdS then { op := opDataS, psn := true }
    else if m.op == opRdU then { op := opDataU, psn := true }
    else if m.op == opRdX then { op := opDataM, psn := true }
    else { op := opCmpP, why := 6 }
  { a with addr := m.addr, tag := m.tag, src := m.dst, dst := m.src }

/-- A request that found no path within T_req completes with PATH_LOST (R159): at its shadow home, or at the unit whose own it
is. -/
def Dev.pathLost (d : Dev) (m : Msg) : Dev :=
  if !d.coh.rem.contains (96, m) || 0x10 ≤ m.op.toNat then d
  else
    let d : Dev := { d with coh := { d.coh with rem := d.coh.rem.erase (96, m), late := d.coh.late.filter (·.2 != m) } }
    if isOwn (agId m.src) then d.ownAnswer (lostAnswer m) else d.shadowResp (lostAnswer m)

/-- Snoops to a device that no path reaches within T_req: the device has departed (R82). -/
def Dev.peerLost (d : Dev) (v : Nat) : Dev :=
  let waits := d.coh.rem.any fun e => e.1 == 96 && agDev e.2.dst == v && 0x30 ≤ e.2.op.toNat
  if !waits then d
  else
    let d : Dev := { d with coh := { d.coh with rem := d.coh.rem.filter fun e => !(e.1 == 96 && agDev e.2.dst == v && 0x30 ≤ e.2.op.toNat) } }
    d.departPeer v

/-! ## The commands -/

/-- PORT_ENABLE (R125). -/
def execPortEnable (p : Fin 96) (v : Word) (s : State) : Result :=
  s.act fun _ d => d.when d.cspOn fun d => d.cfgWrite p (putBits v 15 1 1)

/-- PORT_DISABLE (R125). -/
def execPortDisable (p : Fin 96) (v : Word) (s : State) : Result :=
  s.act fun _ d => d.when d.cspOn fun d => d.cfgWrite p (putBits v 15 1 0)

/-- PORT_RESET (R160). -/
def execPortReset (p : Fin 96) (v : Word) (s : State) : Result :=
  s.act fun _ d => d.when d.cspOn fun d => d.cfgWrite p (putBits v 17 1 1)

/-- LINK_UP (R137): a link back from a retrain takes up a calibration cycle that waited. -/
def execLinkUp (p : Fin 96) (w : BitVec 3) (rate : BitVec 2) (rev : Bool) (pol lact : BitVec 16) (lwc : Bool)
    (partner : LinkPartner) (s : State) : Result :=
  s.act fun _ d => d.when d.fdUp fun d => (d.linkUpNow p w.toNat rate.toNat rev pol.toNat lact.toNat lwc partner).calDue p

/-- LINK_DOWN (R136): DL_Down, or no working lane. -/
def execLinkDown (p : Fin 96) (noLanes : Bool) (s : State) : Result :=
  s.act fun _ d => d.linkDown p (if noLanes then 8 else 9)

/-- L0_TIMEOUT (R136). -/
def execL0Timeout (p : Fin 96) (s : State) : Result := s.act fun _ d => d.linkDown p 10

/-- LANE_FAIL (R153). -/
def execLaneFail (p : Fin 96) (l : Fin 16) (s : State) : Result := s.act fun _ d => d.laneFail p l

/-- SIGNAL_LOSS (R150). -/
def execSignalLoss (p : Fin 96) (s : State) : Result := s.act fun _ d => d.linkDown p 4

/-- The effect of an ordered set of one kind; any other set, and one that R138 ignores, has none. -/
def Dev.tosRecv (d : Dev) (x : BitVec 256) (kind : Nat) (k : Tos → Dev → Dev) : Dev :=
  match tosRead x with
  | some t => if t.kind == kind then k t d else d
  | none => d

/-- TS1 (R138). -/
def execTs1 (p : Fin 96) (x : BitVec 256) (s : State) : Result :=
  s.act fun _ d => d.tosRecv x 0x1E fun t d => d.tsRecv p t false

/-- TS2 (R138). -/
def execTs2 (p : Fin 96) (x : BitVec 256) (s : State) : Result :=
  s.act fun _ d => d.tosRecv x 0x2D fun t d => d.tsRecv p t true

/-- RTS (R149). -/
def execRts (p : Fin 96) (x : BitVec 256) (s : State) : Result :=
  s.act fun _ d => d.tosRecv x 0x4B fun t d => (d.rtsRecv p t).againGo

/-- ADD_ORDERED_SET (R151). -/
def execAddOrderedSet (p : Fin 96) (x : BitVec 256) (s : State) : Result :=
  s.act fun _ d => d.tosRecv x 0x78 fun t d => d.addRecv p t

/-- FLIT_RECEIVE (R147). -/
def execFlitReceive (p : Fin 96) (x : BitVec 1024) (s : State) : Result := s.act fun _ d => (d.flitRecv p x).againGo

/-- CREDIT (R145). -/
def execCredit (p : Fin 96) (vc : Fin 7) (n : BitVec 6) (s : State) : Result :=
  s.act fun _ d => d.when (d.linkRuns p) fun d =>
    ((d.updLnk p fun x => { x with cred := Tbl.upd 0 x.cred vc.val (· + n.toNat) }).linkFlush p).againGo

/-- LREQ (R151). -/
def execLreq (p : Fin 96) (c : LinkCtl) (s : State) : Result := s.act fun _ d => d.lreq p c

/-- LACK (R151). -/
def execLack (p : Fin 96) (c : LinkCtl) (s : State) : Result := s.act fun _ d => d.when (d.linkRuns p) fun d => d.lack p c

/-- LSWITCH (R151). -/
def execLswitch (p : Fin 96) (c : LinkCtl) (s : State) : Result :=
  s.act fun _ d => d.when (d.linkRuns p) fun d => d.lswitch p c

/-- CREDIT_CTRL_SEND (R145). -/
def execCreditCtrlSend (p : Fin 96) (s : State) : Result :=
  s.act fun _ d => d.when (!(d.lnk p).owed.isEmpty) fun d => d.ctrlSend p 1 (d.f (PORT.STAT.CWIDTH p)) aNONE 0 (d.lnk p).txMask

/-- ACK_TIMEOUT (R148). -/
def execAckTimeout (p : Fin 96) (s : State) : Result :=
  s.act fun _ d => d.when (d.linkRuns p && !(d.lnk p).replay.isEmpty) fun d => d.replayOrRetrain p

/-- CREDIT_TIMEOUT (R146). -/
def execCreditTimeout (p : Fin 96) (vc : Fin 7) (s : State) : Result :=
  s.act fun _ d => d.when (d.linkRuns p && Tbl.get 0 (d.lnk p).cred vc == 0 && (d.lnk p).txq.any (·.1 == vc.val)) fun d =>
    d.linkDown p 1

/-- RETRAIN_TIMEOUT (R149). -/
def execRetrainTimeout (p : Fin 96) (s : State) : Result :=
  s.act fun _ d => d.when (d.f (PORT.STAT.LINK p) == 3 && d.f (PORT.CFG.MODE p) == mPEER) fun d => d.linkDown p 3

/-- RETRAIN_WATCH_EXPIRE (R149). -/
def execRetrainWatchExpire (p : Fin 96) (s : State) : Result :=
  s.act fun _ d => d.updLnk p fun x => { x with watch := false, wrep := [] }

/-- WIDTH_CHANGE_TIMEOUT (R151): the action is abandoned, and a cycle it belongs to with it. -/
def execWidthChangeTimeout (p : Fin 96) (s : State) : Result :=
  s.act fun _ d => match (d.lnk p).act with
    | some a => if a.code == 3 then d else
        let d := d.updLnk p fun x => { x with
          act := none
          adds := 0
          txMask := d.f (PORT.LANE.LACT p)
          rxMask := d.f (PORT.LANE.LACT p) }
        (d.calStop p).calDue p
    | none => d

/-- LINK_CAL_PERIOD (R154). -/
def execLinkCalPeriod (p : Fin 96) (s : State) : Result :=
  s.act fun _ d => d.when (d.fb (PORT.CFG.CALEN p)) fun d => d.calStart p

/-- LINK_CAL_NOW (R154). -/
def execLinkCalNow (p : Fin 96) (s : State) : Result := s.act fun _ d => d.when d.cspOn fun d => d.calStart p

/-- EYE_SWEEP (R153, R154): a lane without a margin fails; one that has fallen by more than DRIFT starts a cycle. -/
def execEyeSweep (p : Fin 96) (l : Fin 16) (hm : BitVec 6) (vm : BitVec 8) (s : State) : Result :=
  s.act fun _ d =>
    let d := (d.setF (PORT.EYE.HM p l) hm.toNat).setF (PORT.EYE.VM p l) vm.toNat
    let drift := d.f (PORT.CAL.DRIFT p)
    if hm == 0 then d.laneFail p l
    else d.when (d.fb (PORT.CFG.CALEN p) && drift != 0 && hm.toNat + drift < d.f (PORT.EYE.HMCAL p l)) fun d => d.calStart p

/-- HALF_RECAL_DONE (R154). -/
def execHalfRecalDone (p : Fin 96) (s : State) : Result := s.act fun _ d => d.halfDone p

/-- PATH_REISSUE (R157). -/
def execPathReissue (v : Fin 8) (s : State) : Result := s.act fun _ d => d.pathBack v

/-- PATH_LOST (R159). -/
def execPathLost (m : Msg) (s : State) : Result := s.act fun _ d => d.pathLost m

/-- DUP_ENTRY_EXPIRE (R158): a message that waited for a place goes on. -/
def execDupEntryExpire (src : BitVec 13) (tag : BitVec 12) (s : State) : Result :=
  s.act fun _ d =>
    let d : Dev := { d with coh := { d.coh with dup := d.coh.dup.filter fun e => !(e.1.src == src && e.1.tag == tag && e.2.isSome) } }
    (d.link.map (·.1)).foldl Dev.rxDrain d

/-- PEER_LOST (R82). -/
def execPeerLost (v : Fin 8) (s : State) : Result := s.act fun _ d => d.peerLost v

end Sys2Proof.Machine
end

