-- ==== Sys2Proof/Machine/Slot.lean ====
section
/-! DEFINITION. The slot power channels (chapter 11): states, protections, the insertion sequencer and the darkroom's
orderly off. A channel holds nothing but its SLOT registers. -/

namespace Sys2Proof.Machine

/-! ## Channel states (R325) -/

def stOFF : Nat := 0
def stABSENT : Nat := 1
def stQUALIFY : Nat := 2
def stRAMP : Nat := 3
def stPGQUAL : Nat := 4
def stONRESET : Nat := 5
def stON : Nat := 6
def stRETRY : Nat := 7
def stLATCHED : Nat := 8
def stSTOPPING : Nat := 9

/-- The slot die runs: VAUX is valid (R313, R399). -/
def Dev.slotUp (d : Dev) : Bool := d.pwr.rails.getLsbD 10

def Dev.slotSt (d : Dev) (n : Nat) : Nat := d.f (SLOT.STAT.STATE n)

/-- The gate is driven, STOPPING apart: the states in which the protections act (R325). -/
def Dev.slotOn (d : Dev) (n : Nat) : Bool :=
  let s := d.slotSt n
  s == stRAMP || s == stPGQUAL || s == stONRESET || s == stON

/-- SEQ written to a driven channel waits for its next sample (R319). -/
def Dev.setSeqNew (d : Dev) (n : Nat) (b : Bool) : Dev :=
  let m := BitVec.ofNat 24 (2 ^ n)
  { d with pwr := { d.pwr with seqNew := if b then d.pwr.seqNew ||| m else d.pwr.seqNew &&& ~~~m } }

/-- The sequencer runs the channel: MODE is SEQ, and was before the latest sample or while the gate was undriven (R319). -/
def Dev.slotSeq (d : Dev) (n : Nat) : Bool := d.f (SLOT.CTL.MODE n) == 2 && !d.pwr.seqNew.getLsbD n

/-- The latest sample of VIN lies inside the window (R321), in the 50 mV units of VTH. -/
def Dev.vinOk (d : Dev) (n : Nat) : Bool :=
  d.f (SLOT.VTH.UV n) * 50 < d.f (SLOT.MEAS.VIN n) && d.f (SLOT.MEAS.VIN n) < d.f (SLOT.VTH.OV n) * 50

/-! ## Events (R328, R376, R382) -/

/-- Source `k` of channel `n`: 0 PRESENCE, 1 POWER, 2 TRIP, 3 LATCH; in EVT and in the darkroom's queue. -/
def Dev.slotEv (d : Dev) (n k : Nat) : Dev :=
  let det := d.slotSt n + d.f (SLOT.STAT.REASON n) * 16
  (d.raise (576 + 4 * n + k) det).drkRecord (576 + 4 * n + k) det

/-! ## Switching -/

/-- The gate switched on: RAMP, with T_ramp from zero. -/
def Dev.slotRamp (d : Dev) (n : Nat) : Dev := d.setF (SLOT.STAT.STATE n) stRAMP

/-- PWRGD deasserted and PERST_N asserted, REASON and TTRIP recorded, and the next state (R318). -/
def Dev.slotOff (d : Dev) (n reason next : Nat) : Dev :=
  let d := (d.setF (SLOT.STAT.PWRGD n) 0).setF (SLOT.STAT.PERST n) 1
  let d := (d.setF (SLOT.STAT.REASON n) reason).setReg (SLOT.TTRIP.TIME n) (w64 d.now)
  d.setF (SLOT.STAT.STATE n) next

/-- ABSENT or QUALIFY, as presence and VIN give (R325). -/
def Dev.slotSeek (d : Dev) (n : Nat) : Dev :=
  d.setF (SLOT.STAT.STATE n) (if d.fb (SLOT.STAT.PRSNT n) && d.vinOk n then stQUALIFY else stABSENT)

/-- The state that SEQ enters from OFF: LATCHED, with its event (R328), QUALIFY or ABSENT (R325). -/
def Dev.slotEnter (d : Dev) (n : Nat) : Dev :=
  if d.fb (SLOT.STAT.LATCH n) then (d.setF (SLOT.STAT.STATE n) stLATCHED).slotEv n 3 else d.slotSeek n

/-- A trip (R316, R319, R323). -/
def Dev.slotTrip (d : Dev) (n reason : Nat) : Dev :=
  let d := d.incF (SLOT.STAT.TRIPS n)
  if d.slotSeq n then
    let c := min 16 (d.f (SLOT.STAT.COUNT n) + 1)
    let d := d.setF (SLOT.STAT.COUNT n) c
    if c ≤ d.f (SLOT.TMR.NRETRY n) then (d.slotOff n reason stRETRY).slotEv n 2
    else (((d.slotOff n reason stLATCHED).setF (SLOT.STAT.LATCH n) 1).slotEv n 2).slotEv n 3
  else (((d.setF (SLOT.CTL.MODE n) 0).setSeqNew n false).slotOff n reason stOFF).slotEv n 2

/-- A trip where the protections act. -/
def Dev.slotTripOn (d : Dev) (n reason : Nat) : Dev :=
  d.when (d.slotUp && d.slotOn n) fun d => d.slotTrip n reason

/-! ## MODE (R319, R320) -/

/-- MODE := OFF, by software (COMMAND) or by the darkroom (FORCED). -/
def Dev.slotModeOff (d : Dev) (n reason : Nat) : Dev :=
  let on := d.slotOn n
  let st := d.slotSt n
  let d := (d.setF (SLOT.CTL.MODE n) 0).setSeqNew n false
  if on then d.slotOff n reason stSTOPPING
  else if st == stSTOPPING || st == stOFF then d
  else d.setF (SLOT.STAT.STATE n) stOFF

/-- MODE := DIRECT: the gate on at once, but from STOPPING when the stop completes. -/
def Dev.slotModeDirect (d : Dev) (n : Nat) : Dev :=
  let stay := d.slotOn n || d.slotSt n == stSTOPPING
  let d := (d.setF (SLOT.CTL.MODE n) 1).setSeqNew n false
  if stay then d else d.slotRamp n

/-- MODE := SEQ. -/
def Dev.slotModeSeq (d : Dev) (n : Nat) : Dev :=
  let off := d.slotSt n == stOFF
  let d := if d.slotOn n && d.f (SLOT.CTL.MODE n) != 2 then d.setSeqNew n true else d
  let d := d.setF (SLOT.CTL.MODE n) 2
  if off then d.slotEnter n else d

/-- A write of SLOT[n].CTL: PORT is recorded, MODE acts, and MODE 3 is reserved (R7, R329). -/
def Dev.slotCtlWrite (d : Dev) (n : Nat) (v : Word) : Dev :=
  d.when d.slotUp fun d =>
    let d := d.setF (SLOT.CTL.PORT n) (getBits v 2 7)
    match getBits v 0 2 with
    | 0 => d.slotModeOff n 8
    | 1 => d.slotModeDirect n
    | 2 => d.slotModeSeq n
    | _ => d

/-- The orderly off that the darkroom orders (R327). -/
def Dev.slotForce (d : Dev) (n : Nat) : Dev := d.when d.slotUp fun d => d.slotModeOff n 11

/-! ## LIM and VTH (R329) -/

def limOk (v : Word) : Bool :=
  let il := getBits v 0 8
  let rl := getBits v 8 8
  let tf := getBits v 16 8
  let tr := getBits v 24 7
  10 ≤ il && il ≤ 250 && 10 ≤ rl && rl ≤ il && 1 ≤ tf && tf ≤ 200 && 1 ≤ tr && tr ≤ 100

def vthOk (v : Word) : Bool :=
  let uv := getBits v 0 9
  let ov := getBits v 9 9
  uv ≤ 320 && uv < ov && ov ≤ 320 && getBits v 18 9 ≤ 320

def Dev.limWrite (d : Dev) (n : Nat) (v : Word) : Dev :=
  if !d.slotUp then d
  else if limOk v && !d.fb SLOT.GCTL.LOCK then d.setReg (SLOT.LIM.reg n) (putBits 0 0 31 v.toNat)
  else d.setF SLOT.GCTL.CFGERR 1

def Dev.vthWrite (d : Dev) (n : Nat) (v : Word) : Dev :=
  if !d.slotUp then d
  else if vthOk v && !d.fb SLOT.GCTL.LOCK then d.setReg (SLOT.VTH.reg n) (putBits 0 0 27 v.toNat)
  else d.setF SLOT.GCTL.CFGERR 1

/-! ## Presence (R315, R321, R324) -/

/-- A removal in SEQ mode. -/
def Dev.slotRemoved (d : Dev) (n : Nat) : Dev :=
  if d.slotOn n then (d.slotOff n 9 stABSENT).slotEv n 1
  else if d.slotSt n == stRETRY || d.slotSt n == stQUALIFY then d.setF (SLOT.STAT.STATE n) stABSENT
  else d

/-- The filtered PRSNT_N changes. -/
def Dev.slotPresence (d : Dev) (n : Nat) : Dev :=
  d.when d.slotUp fun d =>
    let here := !d.fb (SLOT.STAT.PRSNT n)
    let d := d.setF (SLOT.STAT.PRSNT n) (b2n here)
    let d := if !d.slotSeq n then d
      else if !here then d.slotRemoved n
      else if d.slotSt n == stABSENT then d.slotSeek n else d
    d.slotEv n 0

/-- An absence reaches T_absent_min. -/
def Dev.slotAbsence (d : Dev) (n : Nat) : Dev :=
  d.when (d.slotUp && !d.fb (SLOT.STAT.PRSNT n)) fun d =>
    let d := (d.setF (SLOT.STAT.COUNT n) 0).setF (SLOT.STAT.LATCH n) 0
    if d.slotSt n == stLATCHED then d.setF (SLOT.STAT.STATE n) stABSENT else d

/-! ## Samples (R314, R316, R317, R322) -/

/-- VOUT of the latest sample is below PGTH. -/
def Dev.slotLow (d : Dev) (n : Nat) : Bool := d.f (SLOT.MEAS.VOUT n) < d.f (SLOT.VTH.PGTH n) * 50

/-- What a sample decides: VIN and removal first (SEQ), then power good and its loss in two samples, `low` telling of the
sample before. `vgate` is in mV. -/
def Dev.slotJudge (d : Dev) (n vgate : Nat) (low : Bool) : Dev :=
  if d.slotSeq n && d.slotOn n && !d.fb (SLOT.STAT.PRSNT n) then d.slotRemoved n
  else if d.slotSeq n && d.slotOn n && !d.vinOk n then (d.slotOff n 10 stQUALIFY).slotEv n 1
  else
    let good := d.f (SLOT.MEAS.VOUT n) + 8000 ≤ vgate && !d.slotLow n
    let st := d.slotSt n
    if st == stRAMP then (if good then d.setF (SLOT.STAT.STATE n) stPGQUAL else d)
    else if st == stPGQUAL then (if good then d else d.setF (SLOT.STAT.STATE n) stRAMP)
    else if st == stONRESET || st == stON then (if low && d.slotLow n then d.slotTrip n 4 else d)
    else if st == stABSENT && d.slotSeq n then d.slotSeek n
    else d

/-- A sample: MEAS and PEAK, then what it decides. Voltages are in mV, the sense voltage in 0.05 mV, at most 2,000. -/
def Dev.slotSample (d : Dev) (n i vin vout vgate : Nat) : Dev :=
  d.when d.slotUp fun d =>
    let low := d.slotLow n
    let i := min 2000 i
    let d := ((d.setF (SLOT.MEAS.ISENSE n) i).setF (SLOT.MEAS.VIN n) vin).setF (SLOT.MEAS.VOUT n) vout
    let d := (d.updF (SLOT.PEAK.IPEAK n) (max i)).setSeqNew n false
    d.slotJudge n vgate low

/-! ## Timers -/

/-- The power-good conditions have held for 1 ms (R317). -/
def Dev.slotPgDone (d : Dev) (n : Nat) : Dev :=
  d.when (d.slotUp && d.slotSt n == stPGQUAL) fun d =>
    ((d.setF (SLOT.STAT.PWRGD n) 1).setF (SLOT.STAT.STATE n) stONRESET).slotEv n 1

/-- T_perst passes (R317). -/
def Dev.slotPerst (d : Dev) (n : Nat) : Dev :=
  d.when (d.slotUp && d.slotSt n == stONRESET) fun d =>
    ((d.setF (SLOT.STAT.PERST n) 0).setF (SLOT.STAT.STATE n) stON).slotEv n 1

/-- T_insert passes in QUALIFY; a removal or VIN outside at the same sample wins (R321, R326). -/
def Dev.slotInsert (d : Dev) (n : Nat) : Dev :=
  d.when (d.slotUp && d.slotSt n == stQUALIFY && d.slotSeq n && d.fb (SLOT.STAT.PRSNT n) && d.vinOk n) fun d => d.slotRamp n

/-- T_retry passes (R323). -/
def Dev.slotRetry (d : Dev) (n : Nat) : Dev :=
  d.when (d.slotUp && d.slotSt n == stRETRY) fun d =>
    if d.fb (SLOT.STAT.PRSNT n) && d.vinOk n then d.slotRamp n else d.setF (SLOT.STAT.STATE n) stQUALIFY

/-- An orderly off ends: the gate is discharged, and what MODE now holds decides what follows (R319, R326). -/
def Dev.slotStopped (d : Dev) (n : Nat) : Dev :=
  d.when (d.slotUp && d.slotSt n == stSTOPPING) fun d =>
    let d := (d.setF (SLOT.STAT.STATE n) stOFF).slotEv n 1
    match d.f (SLOT.CTL.MODE n) with
    | 1 => d.slotRamp n
    | 2 => d.slotEnter n
    | _ => d

/-! ## Resets of the slot die (R325, R329) -/

/-- The addresses of the SLOT block. -/
def inSlotBlock (a : Nat) : Bool := 0xBB0000 ≤ a && a < 0xBC0000

/-- One channel at PWROK deassertion: off with RESET; TRIPS, REASON and TTRIP as R329's exceptions give. -/
def Dev.slotColdOne (d : Dev) (n : Nat) : Dev :=
  let on := d.slotOn n || d.slotSt n == stSTOPPING
  let trips := d.f (SLOT.STAT.TRIPS n)
  let d : Dev := { d with csr := Tbl.drop (fun a => 0xBB1000 + n * 64 ≤ a && a < 0xBB1040 + n * 64) d.csr }
  let d := ((d.setF (SLOT.STAT.TRIPS n) trips).setSeqNew n false).slotOff n 12 stOFF
  if on then d.slotEv n 1 else d

/-- Every channel off by PWROK (R325). -/
def Dev.slotCold (d : Dev) : Dev :=
  d.when d.slotUp fun d =>
    let d := (List.range 24).foldl Dev.slotColdOne d
    { d with csr := Tbl.drop (fun a => a == 0xBB0000) d.csr }

/-- VAUX lost or newly valid: every SLOT register cold, REASON, TTRIP and TRIPS 0 (R326, R329). -/
def Dev.slotClear (d : Dev) : Dev :=
  { d with csr := Tbl.drop inSlotBlock d.csr, pwr := { d.pwr with seqNew := 0 } }

/-! ## The commands -/

def execSlotModeOff (n : Fin 24) (port : BitVec 7) (s : State) : Result :=
  s.act fun _ d => d.when d.cspOn fun d => d.slotCtlWrite n.val (w64 (port.toNat * 4))

def execSlotModeDirect (n : Fin 24) (port : BitVec 7) (s : State) : Result :=
  s.act fun _ d => d.when d.cspOn fun d => d.slotCtlWrite n.val (w64 (port.toNat * 4 + 1))

def execSlotModeSeq (n : Fin 24) (port : BitVec 7) (s : State) : Result :=
  s.act fun _ d => d.when d.cspOn fun d => d.slotCtlWrite n.val (w64 (port.toNat * 4 + 2))

/-- A write of LIM, or of VTH where `vth` holds. -/
def execSlotLimWrite (n : Fin 24) (vth : Bool) (v : Word) (s : State) : Result :=
  s.act fun _ d => d.when d.cspOn fun d => if vth then d.vthWrite n.val v else d.limWrite n.val v

def execSlotPresenceChange (n : Fin 24) (s : State) : Result := s.act fun _ d => d.slotPresence n.val

def execSlotSample (n : Fin 24) (i : BitVec 11) (vin vout : BitVec 14) (vgate : BitVec 15) (s : State) : Result :=
  s.act fun _ d => d.slotSample n.val i.toNat vin.toNat vout.toNat vgate.toNat

def execFastTrip (n : Fin 24) (s : State) : Result := s.act fun _ d => d.slotTripOn n.val 1

def execFaultTmr (n : Fin 24) (s : State) : Result := s.act fun _ d => d.slotTripOn n.val 2

def execRampTmr (n : Fin 24) (s : State) : Result :=
  s.act fun _ d => d.when (d.slotSt n.val == stRAMP) fun d => d.slotTripOn n.val 3

def execPgqualDone (n : Fin 24) (s : State) : Result := s.act fun _ d => d.slotPgDone n.val

def execPerstRelease (n : Fin 24) (s : State) : Result := s.act fun _ d => d.slotPerst n.val

def execInsertDone (n : Fin 24) (s : State) : Result := s.act fun _ d => d.slotInsert n.val

def execRetryDone (n : Fin 24) (s : State) : Result := s.act fun _ d => d.slotRetry n.val

def execAbsenceDone (n : Fin 24) (s : State) : Result := s.act fun _ d => d.slotAbsence n.val

def execStoppingDone (n : Fin 24) (s : State) : Result := s.act fun _ d => d.slotStopped n.val

/-- The darkroom's all-channel off (R327). -/
def execDarkroomAllChannelOff (s : State) : Result :=
  s.act fun _ d => d.when d.pwr.dark fun d => (List.range 24).foldl Dev.slotForce d

end Sys2Proof.Machine
end

