-- ==== Sys2Proof/Machine/Reset.lean ====
section
/-! DEFINITION. What the resets leave (R24, R84, R308, R399–R405): the control-space registers by their maps, and the state of
the fabric die and the port dies. -/

namespace Sys2Proof.Machine

/-! ## The register maps (R19) -/

/-- The maps that may hold a control-space address, by its block. -/
def mapsAt (a : Nat) : List RegDesc :=
  if a < 0x10000 then mapDRK
  else if a < 0x20000 then mapSYS
  else if a < 0x100000 then []
  else if a < 0x700000 then mapPORT
  else if a < 0x800000 then []
  else if a < 0x900000 then mapHOME
  else if a < 0xB00000 then mapSORUS
  else if a < 0xB40000 then mapHBM
  else if a < 0xB80000 then mapQM
  else if a < 0xB90000 then mapFPC
  else if a < 0xBA0000 then mapEVT
  else if a < 0xBB0000 then mapCTR
  else if a < 0xBC0000 then mapSLOT
  else if a < 0xC00000 then mapBIND
  else if a < 0x1000000 then []
  else if a < 0x2000000 then mapSLICE
  else []

/-- The index of the register of a map at an address, where there is one. -/
def RegDesc.index (r : RegDesc) (a : Nat) : Option (Nat × Nat) :=
  if a < r.base then none
  else
    let o := a - r.base
    let n := if r.s1 == 0 then 0 else o / r.s1
    let rest := o - n * r.s1
    let i := if r.s2 == 0 then 0 else rest / r.s2
    if n < r.n1 && i < r.n2 && rest == i * r.s2 then some (n, i) else none

/-- The map of the register at an address, with its indices. -/
def regAt (a : Nat) : Option (RegDesc × Nat × Nat) :=
  (mapsAt a).findSome? fun r => (r.index a).map fun x => (r, x)

/-- The cold value of a register of a map: HGMAP[g]'s goes by its index (R91). -/
def RegDesc.coldAt (r : RegDesc) (i : Nat) : Nat := if r.base == 0x800100 then hgmapCold i else r.cold

/-! ## Registers at warm reset (R403) -/

/-- The bits of a register that warm reset keeps. -/
def RegDesc.keepMask (r : RegDesc) : Nat := (r.flds.map fun x => if x.keep then (2 ^ x.w - 1) * 2 ^ x.lo else 0).sum

/-- The region of an address among the words of FPC.REGION, and which of its four words. -/
def regionWord (a : Nat) : Option (Nat × Nat) :=
  if 0xB81000 ≤ a && a < 0xB83000 then some ((a - 0xB81000) / 32, (a - 0xB81000) % 32 / 8) else none

/-- One register after warm reset, none where it is cold: the SLOT block and locked regions are kept whole, other regions are
0, and of every other register the fields that its map keeps. -/
def Dev.warmReg (d : Dev) (e : Nat × Word) : Option (Nat × Word) :=
  if inSlotBlock e.1 then some e
  else match regionWord e.1 with
    | some (i, k) => if !d.regionLocked i then none else some (e.1, if k == 3 then 1 else e.2)
    | none =>
      match regAt e.1 with
      | none => none
      | some (r, _, i) =>
        let m := r.keepMask
        let cold := r.coldAt i
        let v := w64 ((e.2.toNat &&& m) + (cold - (cold &&& m)))
        if v == w64 cold then none else some (e.1, v)

/-- The Fronds of a sorus assigned anew over those neither FENCED nor FAILED (R182's table, R405): a Frond that was under
self-test becomes the spare, UNTESTED; a logical Frond that none is left for is DOWN. -/
def Dev.rebuild (d : Dev) (s test : Nat) : Dev :=
  let bad := d.f (SORUS.STAT.FENCED s) ||| d.f (SORUS.STAT.FAILED s)
  let good := (List.range 9).filter fun i => !bitN bad i
  let spare := if good.length < 9 then 0xF else if test == 0 then 8 else test - 1
  let use := good.filter (· != spare)
  let d := if test == 0 then d else d.updF (SORUS.STAT.UNTESTED s) fun v => setBitN v (test - 1)
  let d := (List.range 8).foldl (fun d l =>
    let d := d.setF (SORUS.LFMAP.PHYS s l) (use.getD l 0xF)
    if l < use.length then d else d.updF (SORUS.STAT.DOWN s) fun v => setBitN v l) d
  d.setF (SORUS.STAT.SPARE s) spare

/-- The manager port's CFG (R126). -/
def Dev.mgrPortCfg (d : Dev) : Dev := d.setReg (PORT.CFG.reg d.mgrPort) (w64 mgrCfg)

/-! ## The dies -/

/-- A line or byte of the on-chip packet buffer. -/
def Dev.isOpb (d : Dev) (a : Nat) : Bool := d.fpaKind a == .opb

/-- Home memory after warm reset (R403): HBM and the NTS with the memory-side cache are kept, as is what each expander holds, a write-back that no expander
has acknowledged is still to be made, and resilvers wait for their checkpoints. -/
def Dev.warmPool (d : Dev) : Pool :=
  { Pool.cold with
    mem := d.pool.mem.filter fun c => !d.isOpb c.1
    lmeta := d.pool.lmeta.filter fun c => !d.isOpb (c.1 * 64)
    msc := d.pool.msc.map fun c => (c.1, { c.2 with dirty := c.2.dirty || !c.2.pin.isEmpty, pin := [] })
    mscWay := d.pool.mscWay
    mscLru := d.pool.mscLru
    gone := d.pool.gone
    refr2 := d.pool.refr2
    resQ := d.pool.resQ
    ckpt := d.pool.ckpt
    await := true }

/-- Everything that the fabric die and the port dies hold besides registers and memory is lost (R84, R308, R403, R405). -/
def Dev.diesLost (d : Dev) : Dev :=
  { d with
    ctr := Ctr.cold
    coh := Coh.cold
    bind := Bind.cold
    sor := Sori.cold
    wq := Wq.cold
    host := HostIf.cold
    moves := []
    link := []
    fpc := Fpc.cold
    qm := Qm.cold
    drk := { d.drk with fe := [], ide := [], fmq := [], reload := false, xfer := false, armed := false, auth := 0, lockEv := false }
    pwr := { d.pwr with fdReset := true, booted := false } }

/-- The gauges of R386 as the lines of the memory-side cache give them: a warm reset zeroes the counts, and a gauge holds the level
of what it measures, which survives. -/
def Dev.mscGauges (d : Dev) : Dev :=
  { d with ctr := { d.ctr with unit := d.pool.msc.foldl (fun u c =>
      if c.2.gran == 0 then u else Tbl.upd 0 u (mscGauge c.1 c.2.gran) (· + 1)) [] } }

/-- Steps 1 to 3 of a warm reset (R401): the dies enter reset with every stack in self-refresh, and SAFE_N is released (R357). RSTSTAT holds the count of
warm resets until the release (R415). -/
def Dev.fdWarm (d : Dev) : Dev :=
  let tests := d.sor.test
  let warms := d.reg SYS.RSTSTAT.reg
  let regs := d.csr.filterMap d.warmReg
  let d : Dev := { d with csr := regs, pool := d.warmPool }
  let d := d.diesLost
  let d : Dev := { d with pwr := { d.pwr with safeDrv := false } }
  let d := d.mscGauges
  let d := (List.range 4).foldl (fun d k => d.setF (HBM.STAT.SREF k) 1) d
  let d := (List.range 32).foldl (fun d s => d.rebuild s (Tbl.get 0 tests s)) d
  d.mgrPortCfg.setReg SYS.RSTSTAT.reg warms

/-- The dies held in reset with nothing retained: cold reset, a rail lost, a thermal trip (R398, R399, R413). The SLOT block
is the slot die's. -/
def Dev.fdCold (d : Dev) : Dev :=
  ({ d with csr := d.csr.filter (fun e => inSlotBlock e.1), pool := Pool.cold } : Dev).diesLost

end Sys2Proof.Machine
end

