-- ==== Sys2Proof/Machine/EmpDr.lean ====
section
/-! DEFINITION. The darkroom: its start sequence (R346–R350), the EMP messages that it answers itself (R366–R371), debug
authorisation (R342), and what it sends. Messages that reach the control space are in Emp.lean. -/

namespace Sys2Proof.Machine

/-! ## The start sequence (R346–R348) -/

/-- The configuration record (R349). -/
def Dev.configRecord (fz : Fuse) (d : Dev) (warm : Bool) : List Byte :=
  leBytes 8 (d.reg DRK.IDENT.reg).toNat ++ leBytes 8 fz.policy ++ [BitVec.ofNat 8 d.pwr.strap.toNat, BitVec.ofNat 8 (b2n warm)] ++
    List.replicate 14 0

/-- A failure at start, by its row in the table of R348: ALERT_N, source START, and the image that is awaited. -/
def Dev.startFails (d : Dev) (row want : Nat) : Dev :=
  let d : Dev := { d with pwr := { d.pwr with startFail := true }, drk := { d.drk with want := want, img := [] } }
  (d.drkRaise 20 row).alertUpd

/-- A failure at start is over. -/
def Dev.startGood (d : Dev) : Dev :=
  ({ d with pwr := { d.pwr with startFail := false }, drk := { d.drk with want := 0, img := [] } } : Dev).alertUpd

/-- An image that the policy admits: it needs no signature, or carries one that verifies (R348). -/
def signOk (fz : Fuse) (h : List Byte) : Bool := !policyAsks fz true || (imgSigned h && spkeyOk fz (imgDigest h) (imgSig h))

/-- The darkroom firmware's header is as R347 gives. -/
def fwHdrOk (h : List Byte) : Bool :=
  h.take 4 == [0x4D, 0x44, 0x52, 0x4B] && imgFormOk h && imgClen h ≤ 393216 && (h.drop 48).take 8 == List.replicate 8 0 &&
    (imgEntries h).getD 0 0xFFFFFFFF != 0xFFFFFFFF

/-- Steps 2 and 3 of R346 with a darkroom firmware image: checked against its DIGEST, measured, then checked against the
policy. True where the firmware starts. -/
def Dev.bootFw (fz : Fuse) (d : Dev) (img : List Byte) : Bool × Dev :=
  let h := img.take 256
  let code := (img.drop 256).take (imgClen h)
  if !fwHdrOk h || code.length != imgClen h || imgHash h code != imgDigest h then (false, d.startFails 1 1)
  else
    let d := d.extend 0 1 (imgDigest h)
    let d := d.extend 1 2 (sha384 (d.configRecord fz false))
    if !signOk fz h then (false, d.startFails 1 1)
    else (true, ({ d with drk := { d.drk with fwOk := true, fwDig := imgDigest h } } : Dev).startGood)

/-- Step 5 of R346 with a fabric manager spore image, `warm` for the reload of R350. True where its transfer begins. -/
def Dev.bootFm (fz : Fuse) (d : Dev) (img : List Byte) (warm : Bool) : Bool × Dev :=
  let h := img.take 256
  let code := (img.drop 256).take (imgClen h)
  if !sporeHdrOk h false || !imgPriv h || (imgEntries h).getD 0 0xFFFFFFFF == 0xFFFFFFFF || code.length != imgClen h ||
      imgHash h code != imgDigest h then (false, d.startFails 2 2)
  else
    let d := d.extend 2 (if warm then 5 else 4) (imgDigest h)
    if !signOk fz h then (false, d.startFails 2 2)
    else (true, ({ d with drk := { d.drk with fm := h ++ code, xfer := true } } : Dev).startGood)

/-- Step 1 of R346, and step 2 where the image is in the OTP. -/
def Dev.bootRom (fz : Fuse) (d : Dev) : Dev :=
  if fz.otpBad then d.startFails 4 0
  else
    let d : Dev := { d with drk := { d.drk with udsOff := true, idKey := true } }
    if d.pwr.strap.getLsbD 2 then { d with drk := { d.drk with want := 1, img := [] } }
    else (d.bootFw fz fz.image).2

/-- The fabric manager spore's image in the OTP: it follows the darkroom firmware's. -/
def otpSpore (fz : Fuse) : List Byte := fz.image.drop (256 + imgClen (fz.image.take 256))

/-- Steps 4 and 5: the fabric die is released, the manager port trains, SAFE_N held low enters safelight (R357), and the spore is
taken or awaited. -/
def Dev.fdRelease (fz : Fuse) (d : Dev) : Dev :=
  let d : Dev := { d with pwr := { d.pwr with fdReset := false } }
  let d := d.trainStart d.mgrPort
  let d := if d.pwr.safeLow then d.enterSafe 5 0 else d
  if d.pwr.strap.getLsbD 2 then { d with drk := { d.drk with want := 2, img := [] } }
  else (d.bootFm fz (otpSpore fz) false).2

/-- The darkroom may release its reset line (R396): PWROK, every rail valid, its firmware running, and nothing that holds it. -/
def Dev.lineFree (d : Dev) : Bool :=
  d.pwr.dark && d.pwr.pwrok && d.pwr.rails == 0x7FF && d.pwr.fdReset && d.drk.fwOk && !d.pwr.locked && !d.pwr.hbmOrder

/-- The fabric die may be released at the end of cold reset. -/
def Dev.mayRelease (d : Dev) : Bool := d.lineFree && d.pwr.warm.isNone

/-- The code of the image being transferred. -/
def Dev.fmCode (d : Dev) : List Byte := d.drk.fm.drop 256

/-- BOOT_COMMIT takes effect at the fabric engine (R370): SPTAB[0] is valid with PRIV, and BOOT work is armed. -/
def Dev.bootCommit (d : Dev) : Dev :=
  let h := d.drk.fm.take 256
  let a := 1 + 2 + imgMaxstr h * 8 + imgF h 48 2 * 2 ^ 15 + imgF h 50 2 * 2 ^ 27 + imgClen h * 2 ^ 39
  let d := (d.setReg (SORUS.SPTABA.V 0 0) (w64 a)).setReg (SORUS.SPTABB.BASE 0 0) (w64 0x10000)
  { d with
    sor := { d.sor with spore := Tbl.put (⟨[], []⟩ : Spore) d.sor.spore 0 ⟨imgEntries h, imgDigest h⟩ }
    drk := { d.drk with xfer := false, armed := true } }

/-- BOOT work starts once every stack is READY (R169, R346); not in safelight. -/
def Dev.bootStart (d : Dev) : Dev :=
  if d.drk.armed && !d.safe && !d.pwr.booted && (List.range 4).all fun k => d.fb (HBM.STAT.READY k) then
    let d := d.startWork 0 { Work.none with kind := 5, spore := 0, entry := 0 } true
    { d with pwr := { d.pwr with booted := true }, drk := { d.drk with armed := false } }
  else d

/-! ## MCTP packets (R364) -/

/-- Packet payloads of at most `n` bytes. -/
def chunks (n : Nat) : Nat → List Byte → List (List Byte)
  | 0, _ => []
  | k + 1, bs => if bs.length ≤ n then [bs] else bs.take n :: chunks n k (bs.drop n)

/-- The packets of a message from the darkroom: `dst` their destination, `mt` the message tag with its TO bit. -/
def mctpPackets (eid dst mt : Nat) (parts : List (List Byte)) : List (List Byte) :=
  parts.mapIdx fun i p =>
    [1, BitVec.ofNat 8 dst, BitVec.ofNat 8 eid,
      BitVec.ofNat 8 (b2n (i == 0) * 128 + b2n (i + 1 == parts.length) * 64 + i % 4 * 16 + mt)] ++ p

/-- The static address (R360). -/
def Dev.i3cStatic (d : Dev) : Nat := 0x3A + getBits d.pwr.strap 0 2

/-- The packet error code of a packet on the bus: the CRC-8 of SMBus over the address byte and the packet. The device answers I3C
transfers at its dynamic address, and until it has one I²C transfers at its static address (R362). -/
def Dev.pec (d : Dev) (rd : Bool) (bs : List Byte) : Byte :=
  BitVec.ofNat 8 (crcMsb 8 0x07 0 (BitVec.ofNat 8 (d.drk.i3c.addr.getD d.i3cStatic * 2 + b2n rd) :: bs))

/-- An in-band interrupt requested where IBIs are enabled and a packet waits (R363). -/
def Dev.askIbi (d : Dev) : Dev :=
  if d.drk.i3c.ibi && d.drk.i3c.addr.isSome && !d.drk.tx.isEmpty then d.emit (.ibi 0xAE) else d

/-- An MCTP message sent: on the I3C bus (path 0) its packets wait for the controller's reads; at a port's DOE mailbox (1 +
port) they go at once. -/
def Dev.mctpOut (d : Dev) (path dst mt : Nat) (msg : List Byte) : Dev :=
  let n := if path == 0 then d.drk.i3c.mrl else 64
  let ps := mctpPackets d.drk.eid dst mt (chunks n (msg.length + 1) msg)
  if path == 0 then
    let first := d.drk.tx.isEmpty
    let d : Dev := { d with drk := { d.drk with tx := d.drk.tx ++ ps } }
    if first then d.askIbi else d
  else if !d.fdUp then d
  else ps.foldl (fun d p => d.emit (.doe (path - 1) p)) d

/-! ## EMP messages out (R366–R368) -/

/-- A message counted, as denied (0), as a late response (1), or as a response for FM without room (2). -/
def Dev.empCount (d : Dev) (k : Nat) : Dev := { d with drk := { d.drk with cnt := Tbl.upd 0 d.drk.cnt k (· + 1) } }

/-- A response for FM: it is delivered or held like a request, and one that finds 16 messages held is dropped and counted (R374;
log entry 151). -/
def Dev.fmHold (d : Dev) (bs : List Byte) : Dev :=
  match d.fmDeliver bs with
  | (true, d) => d
  | (false, d) => d.empCount 2

/-- A message sent by the darkroom to an endpoint; to the controller as MCTP type 0x7E with the vendor ID (R365). -/
def Dev.empSend (d : Dev) (ep mt : Nat) (bs : List Byte) : Dev :=
  let d := d.emit (.emp ep bs)
  if ep == eOOB then d.mctpOut 0 (mt / 16) (mt % 16) ([0x7E, 0x15, 0xC7] ++ bs)
  else if ep == eFM then (if d.fdUp then d.fmHold bs else d)
  else d

/-- A header and payload as they arrive: RSP, OP, STATUS, TAG, SRC and DST as device + 8 × endpoint, LEN, and whether a
reserved bit is set. -/
structure EmpH where
  rsp : Bool
  op : Nat
  status : Nat
  tag : Nat
  src : Nat
  dst : Nat
  len : Nat
  rsv : Bool
  pl : List Byte
  deriving DecidableEq, Repr

/-- A message parsed; none where VER is not 1, the header is not whole, or SOM and EOM are not both set (R366, R369). -/
def empParse (bs : List Byte) : Option EmpH :=
  let b := fun i => (bs.getD i 0).toNat
  if bs.length < 8 || b 0 % 16 != 1 || bitsN (b 0) 5 2 != 3 then none
  else some {
    rsp := bitN (b 0) 4, op := b 1, status := b 2, tag := b 3, src := b 4 % 64, dst := b 5 % 64, len := b 6 + 256 * b 7
    rsv := bitN (b 0) 7 || b 4 ≥ 64 || b 5 ≥ 64, pl := bs.drop 8 }

/-- The response to a request: RSP set, the same OP and TAG, SRC and DST exchanged (R368). -/
def Dev.empAnswer (d : Dev) (ep mt : Nat) (h : EmpH) (status : Nat) (pl : List Byte) : Dev :=
  d.empSend ep mt (empBytes true h.op status h.tag h.dst h.src pl)

/-! ## Statuses (R371) and the catalogue (R370) -/

def xOK : Nat := 0
def xBADOP : Nat := 1
def xBADLEN : Nat := 2
def xDENIED : Nat := 3
def xBUSY : Nat := 4
def xNOTSAFE : Nat := 5
def xACCESS : Nat := 6
def xTIMEOUT : Nat := 7
def xNOFM : Nat := 8
def xFAILED : Nat := 9
def xBADARG : Nat := 10

/-- An operation: its senders with their receivers, and the least and greatest length of its request payload. -/
structure EmpOp where
  op : Nat
  ends : List (Nat × Nat)
  lo : Nat
  hi : Nat

def oobDr : List (Nat × Nat) := [(3, 0)]
def bothDr : List (Nat × Nat) := [(3, 0), (2, 0)]
def drFe : List (Nat × Nat) := [(0, 1)]

/-- The catalogue of R370. -/
def empOps : List EmpOp := [
  ⟨0x01, oobDr, 0, 0⟩, ⟨0x02, [(3, 1)], 9, 9⟩, ⟨0x03, bothDr, 1, 1⟩, ⟨0x04, bothDr, 1, 1⟩, ⟨0x05, [(3, 1)], 3, 3⟩,
  ⟨0x06, bothDr, 1, 1⟩, ⟨0x07, bothDr, 0, 0⟩, ⟨0x08, [(0, 3)], 0, 4080⟩, ⟨0x09, oobDr, 1, 1⟩, ⟨0x0A, oobDr, 6, 4085⟩,
  ⟨0x0B, oobDr, 5, 5⟩, ⟨0x10, oobDr, 4, 4⟩, ⟨0x11, oobDr, 4, 4⟩, ⟨0x20, [(1, 0), (2, 0)], 50, 50⟩, ⟨0x21, [(1, 0)], 145, 145⟩,
  ⟨0x22, bothDr, 3, 3⟩, ⟨0x23, [(3, 0), (1, 0)], 0, 0⟩, ⟨0x24, [(3, 0), (1, 0)], 195, 195⟩, ⟨0x25, bothDr, 0, 0⟩,
  ⟨0x26, [(3, 1)], 17, 17⟩, ⟨0x30, drFe, 10, 10⟩, ⟨0x31, drFe, 16, 4088⟩, ⟨0x32, drFe, 5, 4084⟩, ⟨0x33, drFe, 86, 86⟩,
  ⟨0x34, [(1, 0)], 4, 4⟩, ⟨0x35, drFe, 1, 4085⟩, ⟨0x36, drFe, 48, 48⟩, ⟨0x37, [(0, 1), (1, 0)], 2, 4081⟩,
  ⟨0x40, [(3, 2), (2, 3)], 0, 4088⟩, ⟨0x41, [(2, 2)], 0, 4088⟩]

/-- The operations of the standby service (R400). -/
def standbyOps : List Nat := [0x01, 0x09, 0x10, 0x11]

/-! ## What the operations do (R370, R371) -/

/-- What a message's handling answers at once, if anything: a status and a payload. -/
abbrev EmpAns := Option (Nat × List Byte) × Dev

def sayOk (d : Dev) (pl : List Byte) : EmpAns := (some (xOK, pl), d)
def say (d : Dev) (st : Nat) : EmpAns := (some (st, []), d)

/-- The payload's field of `n` bytes at `i`. -/
def EmpH.f (h : EmpH) (i n : Nat) : Nat := leNat ((h.pl.drop i).take n)

/-- The state byte of GET_INFO. -/
def Dev.infoState (d : Dev) : Nat :=
  if !d.pwr.pwrok then 4
  else if d.pwr.hbmOrder || d.pwr.startFail then 3
  else if d.safe then 2
  else if d.pwr.booted then 1
  else 0

def Dev.getInfo (d : Dev) : EmpAns :=
  sayOk d (leBytes 8 (d.reg DRK.IDENT.reg).toNat ++ leBytes 8 (d.reg DRK.FAMPARAM0.reg).toNat ++
    leBytes 8 (d.reg DRK.FAMPARAM1.reg).toNat ++ (if d.drk.fwOk then d.drk.fwDig else mslotZero) ++ [BitVec.ofNat 8 d.infoState])

/-- SYS_RESET: the reset itself follows the response. Answered OK while a warm reset is in progress. -/
def Dev.sysReset (d : Dev) (h : EmpH) : EmpAns :=
  if h.f 0 1 != 1 then say d xBADARG
  else if !d.fdUp && d.pwr.warm.isNone then say d xNOFM
  else say d xOK

/-- SAFELIGHT with reason 6 from the controller, 7 from FM (R409). -/
def Dev.empSafe (d : Dev) (ep : Nat) (h : EmpH) : EmpAns :=
  if !d.fdUp then say d xNOFM else say (d.enterSafe (if ep == eOOB then 6 else 7) (h.f 0 1)) xOK

/-- TIME_CFG (R359). -/
def Dev.timeCfg (d : Dev) (h : EmpH) : EmpAns :=
  let v := h.f 0 1
  if v > 1 then say d xBADARG
  else
    let p := d.drk.pps
    let p := if v == 0 then { p with en := false, last := none, free := false, slew := 0 }
      else if p.en then p else { Pps.cold with en := true }
    say { d with drk := { d.drk with pps := p } } xOK

/-- The PPS state of TIME_GET: off, aligning, aligned, free running. -/
def Pps.state (p : Pps) : Nat :=
  if !p.en then 0 else if p.free then 3 else if p.last.isNone || p.slew != 0 then 1 else 2

def Dev.timeGet (d : Dev) : EmpAns :=
  let p := d.drk.pps
  sayOk d (leBytes 8 d.now ++ [BitVec.ofNat 8 p.state] ++ leBytes 4 (BitVec.ofInt 32 p.off).toNat ++ leBytes 4 p.ignored)

/-- EVENT_ACK (R356): only records that EVENT has carried can be acknowledged. -/
def Dev.eventAck (d : Dev) (h : EmpH) : EmpAns :=
  let n := h.f 0 1
  let k := d.drk
  if n > k.evSent then say d xBADLEN
  else say ({ d with drk := { k with evq := k.evq.drop n, evSent := k.evSent - n } } : Dev).alertUpd xOK

/-- The longest image of a kind: header and code (R170, R347). -/
def imgMax (kind : Nat) : Nat := if kind == 0 then 256 + 393216 else 256 + 983040

/-- IMG_DATA (R371). -/
def Dev.imgData (d : Dev) (h : EmpH) : EmpAns :=
  let kind := h.f 0 1
  if kind > 1 then say d xBADARG
  else if d.drk.want != kind + 1 then say d xDENIED
  else if h.f 1 4 + (h.pl.length - 5) > imgMax kind then say d xBADLEN
  else say { d with drk := { d.drk with img := Tbl.putRange 0 d.drk.img (h.f 1 4) (h.pl.drop 5) } } xOK

/-- IMG_END (R371): the start sequence goes on with the image; FAILED where it is refused. -/
def Dev.imgEnd (fz : Fuse) (d : Dev) (h : EmpH) : EmpAns :=
  let kind := h.f 0 1
  if kind > 1 then say d xBADARG
  else if d.drk.want != kind + 1 then say d xDENIED
  else if h.f 1 4 > imgMax kind then say d xBADLEN
  else
    let img := Tbl.range 0 d.drk.img 0 (h.f 1 4)
    let (ok, d) := if kind == 0 then d.bootFw fz img else d.bootFm fz img false
    say d (if ok then xOK else xFAILED)

/-- The channels of a mask; none where a bit above 23 is set. -/
def slotMask (h : EmpH) : Option (List Nat) := if h.f 0 4 ≥ 2 ^ 24 then none else some (onesN 24 (h.f 0 4))

/-- SLOT_READ (R327). -/
def Dev.slotRead (d : Dev) (h : EmpH) : EmpAns :=
  match slotMask h with
  | none => say d xBADARG
  | some l => sayOk d (l.flatMap fun n =>
      leBytes 8 (d.reg (SLOT.STAT.reg n)).toNat ++ leBytes 8 (d.reg (SLOT.MEAS.reg n)).toNat ++ leBytes 8 (d.reg (SLOT.TTRIP.reg n)).toNat)

/-- SLOT_OFF (R327). -/
def Dev.slotOffAll (d : Dev) (h : EmpH) : EmpAns :=
  match slotMask h with
  | none => say d xBADARG
  | some l => say (l.foldl Dev.slotForce d) xOK

/-- EXTEND (R371): the slots and kinds of each sender. -/
def Dev.empExtend (d : Dev) (ep : Nat) (h : EmpH) : EmpAns :=
  let slot := h.f 0 1
  let kind := h.f 1 1
  let mine := if ep == eFE then slot == 3 || slot == 5 else 8 ≤ slot && slot ≤ 15
  let fits := if ep == eFE then kind == (if slot == 3 then 6 else 8) else 0x80 ≤ kind
  if slot > 15 then say d xBADARG
  else if !mine then say d xDENIED
  else if !fits then say d xBADARG
  else say (d.extend slot kind (h.pl.drop 2)) xOK

/-- SIGCHK (R348): 0 verified, 1 refused, 2 not required. -/
def Dev.sigChk (fz : Fuse) (d : Dev) (h : EmpH) : EmpAns :=
  let cls := h.f 0 1
  if cls > 1 then say d xBADARG
  else
    let r := if !policyAsks fz (cls == 0) then 2
      else if spkeyOk fz ((h.pl.drop 1).take 48) (h.pl.drop 49) then 0 else 1
    sayOk d [BitVec.ofNat 8 r]

/-- LOG_READ (R370): the entries from the first one on that the log holds. -/
def Dev.logRead (d : Dev) (h : EmpH) : EmpAns :=
  let n := h.f 2 1
  if n == 0 || n > 63 then say d xBADLEN
  else sayOk d (BitVec.ofNat 8 (b2n d.drk.mlogOvf) :: ((d.drk.mlog.drop (h.f 0 2)).take n).flatMap fun e =>
    [BitVec.ofNat 8 e.1, BitVec.ofNat 8 e.2.1] ++ List.replicate 6 0 ++ leBytes 8 e.2.2.1 ++ e.2.2.2)

/-! ## Debug authorisation (R342) -/

/-- Free bytes: `8 n` of them. -/
def Dev.drawBytes : Nat → Dev → List Byte × Dev
  | 0, d => ([], d)
  | n + 1, d =>
    let (v, d) := d.draw
    let (bs, d) := Dev.drawBytes n d
    (leBytes 8 v.toNat ++ bs, d)

/-- DBG_CHAL: a 48-byte random nonce; refused under POLICY.DBG_OFF. -/
def Dev.dbgChal (fz : Fuse) (d : Dev) : EmpAns :=
  if bitN fz.policy 2 then say d xDENIED
  else
    let (n, d) := d.drawBytes 6
    sayOk { d with drk := { d.drk with nonces := d.drk.nonces ++ [(d.time, n)] } } n

/-- The digest that a debug answer signs: nonce, IDENT, the digest of the identity public key, SCOPE and KEYSEL. -/
def Dev.dbgDigest (fz : Fuse) (d : Dev) (nonce : List Byte) (scope keysel : Nat) : List Byte :=
  sha384 (nonce ++ leBytes 8 (d.reg DRK.IDENT.reg).toNat ++ sha384 (publicKey (identityKey fz.uds)) ++
    [BitVec.ofNat 8 scope, BitVec.ofNat 8 keysel])

/-- DBG_AUTH names no nonce: it answers the one that its signature covers. Where it covers none, it is judged against the latest,
and one that covers a nonce already answered is DENIED; each nonce admits one answer, within 60 s (log entry 151). -/
def Dev.dbgAuth (fz : Fuse) (d : Dev) (ep : Nat) (h : EmpH) : EmpAns :=
  let scope := h.f 0 1
  let keysel := h.f 1 1
  let key := (h.pl.drop 2).take 97
  let covers := fun (n : List Byte) =>
    sigOk (beNat ((key.drop 1).take 48)) (beNat (key.drop 49)) (d.dbgDigest fz n scope keysel) (h.pl.drop 99)
  if scope ≥ 8 || keysel > 1 then say d xBADARG
  else match (d.drk.nonces.find? fun e => covers e.2).or (if d.drk.used.any covers then none else d.drk.nonces.getLast?) with
    | none => say d xDENIED
    | some (t, nonce) =>
      let d : Dev := { d with drk := { d.drk with nonces := d.drk.nonces.erase (t, nonce), used := d.drk.used ++ [nonce] } }
      if bitN fz.policy 2 || d.time - t > 60000000000 then say d xDENIED
      else if fz.dbgkey.getD keysel [] != sha384 key || bitN fz.policy (8 + keysel) || !d.drk.idKey || key.headD 0 != 4 ||
          !covers nonce then say d xFAILED
      else
        let d := ((d.setF FPC.DBG.AUTH 1).setF FPC.DBG.SCOPE scope).setF FPC.DBG.KEYSEL keysel
        let d := (d.raiseSys 2 scope).extend 4 7 (d.dbgDigest fz nonce scope keysel)
        sayOk { d with drk := { d.drk with auth := (if ep == eFE then 1 else 2), lockEv := true } } [BitVec.ofNat 8 scope]

/-- An authorisation ends. -/
def Dev.dbgEnd (d : Dev) : Dev :=
  let d := (d.setF FPC.DBG.AUTH 0).setF FPC.DBG.SCOPE 0
  { d with drk := { d.drk with auth := 0 } }

/-! ## Messages between OOB and FM, and between fabric managers -/

/-- A fabric manager spore runs (R371, NO_FM). -/
def Dev.fmRuns (d : Dev) : Bool := d.fdUp && !d.safe && 0 < d.sporeRun 0 0

/-- FM_MSG: relayed, its response awaited (R368, R374). -/
def Dev.fmMsg (d : Dev) (ep mt : Nat) (h : EmpH) : EmpAns :=
  let bs := empBytes false 0x40 h.status h.tag h.src h.dst h.pl
  let relay := fun (d : Dev) => ({ d with drk := { d.drk with relays := d.drk.relays ++ [⟨ep, 0x40, h.tag, h.src, h.dst, mt⟩] } } : Dev)
  if ep == eFM then (none, relay (d.empSend eOOB (d.drk.oob / 8 * 16 + 8) bs))
  else if !d.fmRuns then say d xNOFM
  else match d.fmDeliver bs with
    | (true, d) => (none, relay d)
    | (false, d) => say d xBUSY

/-- A response that reaches the darkroom from `ep`: one whose SRC does not match its path is denied and counted (R367), another is
passed to the relay that awaits it, or counted (R368). -/
def Dev.empResponse (d : Dev) (ep mt : Nat) (h : EmpH) : Dev :=
  if h.src != d.ep ep then (d.empCount 0).empAnswer ep mt h xDENIED []
  else match d.drk.relays.find? fun r => r.from_ != ep && r.op == h.op && r.tag == h.tag && r.src == h.dst && r.dst == h.src with
  | none => d.empCount 1
  | some r =>
    let d : Dev := { d with drk := { d.drk with relays := d.drk.relays.erase r } }
    d.empSend r.from_ r.mt (empBytes true h.op h.status h.tag h.src h.dst h.pl)

/-- A relayed request without its response in 10 ms (R368). -/
def Dev.relayTimeout (d : Dev) (r : Relay) : Dev :=
  let d : Dev := { d with drk := { d.drk with relays := d.drk.relays.erase r } }
  d.empSend r.from_ r.mt (empBytes true r.op xTIMEOUT r.tag r.dst r.src [])

/-- Requests that FM will not answer any more are answered TIMEOUT; FM's own are dropped with it (R374's table). -/
def Dev.relaysEnd (d : Dev) : Dev :=
  let rs := d.drk.relays
  let d : Dev := { d with drk := { d.drk with relays := [] } }
  (rs.filter fun r => r.from_ == eOOB).foldl (fun d r => d.relayTimeout r) d

/-- FM_PEER sent in fragments of at most 101 payload bytes on one link of VC6; lost where none is up (R369). -/
def Dev.fmPeer (d : Dev) (h : EmpH) : Dev :=
  match d.peerLinks (h.dst % 8) with
  | [] => d
  | p :: _ =>
    let parts := chunks 101 (h.pl.length + 1) h.pl
    (parts.mapIdx fun i bs => (i, bs)).foldl (fun d e =>
      let b0 := 1 + b2n (e.1 == 0) * 32 + b2n (e.1 + 1 == parts.length) * 64
      d.linkSend p 6 ([BitVec.ofNat 8 b0, 0x41, 0, BitVec.ofNat 8 h.tag, BitVec.ofNat 8 h.src, BitVec.ofNat 8 h.dst] ++
        leBytes 2 e.2.length ++ e.2)) d

/-! ## The messages that the darkroom answers (R367) -/

/-- The receiver that a header names is one that its sender may send the OP to: the sender is this device's, and so is the
receiver of everything but FM_PEER. -/
def Dev.mayAsk (d : Dev) (ep : Nat) (o : EmpOp) (h : EmpH) : Bool :=
  h.src == d.ep ep && o.ends.contains (ep, h.dst / 8) && ((h.dst % 8 == d.devId) != (o.op == 0x41))

/-- A checked request handled: `k` for the operations on the control space and the Fronds. -/
def Dev.empOp (fz : Fuse) (d : Dev) (ep mt : Nat) (h : EmpH) (k : Dev → EmpH → EmpAns) : EmpAns :=
  match h.op with
  | 0x01 => d.getInfo
  | 0x03 => d.sysReset h
  | 0x04 => d.empSafe ep h
  | 0x06 => d.timeCfg h
  | 0x07 => d.timeGet
  | 0x09 => d.eventAck h
  | 0x0A => d.imgData h
  | 0x0B => Dev.imgEnd fz d h
  | 0x10 => d.slotRead h
  | 0x11 => d.slotOffAll h
  | 0x20 => d.empExtend ep h
  | 0x21 => Dev.sigChk fz d h
  | 0x22 => d.logRead h
  | 0x23 => Dev.dbgChal fz d
  | 0x24 => Dev.dbgAuth fz d ep h
  | 0x25 => say d.dbgEnd xOK
  | 0x40 => d.fmMsg ep mt h
  | 0x41 => (none, d.fmPeer h)
  | _ => k d h

/-- A warm reset begins (R401): relayed requests are answered TIMEOUT, and the dies enter reset. `cause` as RSTSTAT codes
it. -/
def Dev.warmStart (d : Dev) (cause : Nat) : Dev :=
  if !d.fdUp then d
  else
    let d := d.relaysEnd.fdWarm
    { d with pwr := { d.pwr with warm := some cause } }

/-- A message from `ep` received by the darkroom: responses go to their relay; a request passes the checks of R366, R367, R370
and R400 in that order, is handled, and answered. SYS_RESET's reset follows its response. -/
def Dev.empIn (fz : Fuse) (d : Dev) (ep mt : Nat) (bs : List Byte) (k : Dev → EmpH → EmpAns) : Dev :=
  match empParse bs with
  | none => d
  | some h =>
    if h.rsp then d.empResponse ep mt h
    else match empOps.find? fun o => o.op == h.op with
      | none => d.empAnswer ep mt h xBADOP []
      | some o =>
        if !d.mayAsk ep o h then
          (d.empCount 0).empAnswer ep mt h xDENIED []
        else if !d.pwr.pwrok && !standbyOps.contains h.op then d.empAnswer ep mt h xNOFM []
        else if h.len != h.pl.length || h.len < o.lo || o.hi < h.len then d.empAnswer ep mt h xBADLEN []
        else if h.rsv || h.status != 0 then d.empAnswer ep mt h xBADARG []
        else match Dev.empOp fz d ep mt h k with
          | (none, d) => d
          | (some (st, pl), d) =>
            let d := d.empAnswer ep mt h st pl
            if h.op == 3 && st == xOK then d.warmStart (if ep == eOOB then 2 else 3) else d

/-- A message from FM's mailbox; FM sends none of the operations on the control space (R370). -/
def Dev.empFm (fz : Fuse) (d : Dev) (bs : List Byte) : Dev :=
  Dev.empIn fz d eFM 0 bs fun d _ => say d xDENIED

end Sys2Proof.Machine
end

