-- ==== Sys2Proof/Machine/HostCmd.lean ====
section
/-! DEFINITION. What hosts send to their ports: MSI-X structures, back-invalidate commits, CXL.mem requests and responses,
and PCIe requests on BAR2 (R70, R75, R130–R133, R380, R381, R439). -/

namespace Sys2Proof.Machine

/-- The port of a host in HOST mode, and in PCIE mode, with its link up. -/
def Dev.cxlPort (d : Dev) (p : Nat) : Bool := d.hostPort p && d.f (PORT.CFG.MODE p) == 1
def Dev.pciePort (d : Dev) (p : Nat) : Bool := d.hostPort p && d.f (PORT.CFG.MODE p) == mPCIE

/-- The MSI-X structures of function `k` stand on the port (R381): frame 0's always, logical device k's on a HOST port. -/
def Dev.hasMsix (d : Dev) (p k : Nat) : Bool := d.hostPort p && (k == 0 || d.f (PORT.CFG.MODE p) == 1)

/-- A write into the MSI-X structures of a function. A table of a frame with no slice discards it (R381, R23); messages
that waited are sent as soon as they may be (R380). -/
def Dev.msixWrite (d : Dev) (p k : Nat) (x : MsixWrite) : Dev :=
  match x with
  | .entry i addr data mask =>
    if k != 0 && (d.frameSlice (d.hostOf p) k).isNone then d.accErr p
    else
      let e : MsixE := ⟨addr, data, mask⟩
      ({ d with host := { d.host with msix := Tbl.put MsixE.reset d.host.msix (msixKey p k i) e } } : Dev).msixFlush p k
  | .ctrl en fm =>
    ({ d with host := { d.host with ctl := Tbl.put 0 d.host.ctl (p * 16 + k) (b2n en + 2 * b2n fm) } } : Dev).msixFlush p k
  | .notify v en =>
    if k != 0 then d else { d with host := { d.host with notify := Tbl.put 0 d.host.notify p (v.val + 16 * b2n en) } }

/-- A request of a host: handled, or held in its port while a generation change pauses decoding (R36). -/
def Dev.hold (d : Dev) (p : Nat) (r : HostReq) (k : Dev → Dev) : Dev :=
  if d.paused p then { d with bind := { d.bind with held := d.bind.held ++ [r] } } else k d

/-- A memory request of a host at its port. -/
def Dev.hostMem (d : Dev) (p : Nat) (r : HostReq) : Dev := d.hold p r fun d => d.memReq r

/-- The back-invalidate decoder of a logical device committed, or not (R131). -/
def Dev.setCommit (d : Dev) (p k v : Nat) : Dev :=
  { d with host := { d.host with commit := Tbl.put 0 d.host.commit (p * 16 + k) v } }

/-- MSIX_TABLE_WRITE (R380, R381). -/
def execMsixTableWrite (p : Fin 96) (k : Fin 16) (x : MsixWrite) (s : State) : Result :=
  s.act fun _ d => d.when (d.hasMsix p k) fun d => d.msixWrite p k x

/-- BI_DECODER_COMMIT (R131). -/
def execBiDecoderCommit (p : Fin 96) (k : Fin 16) (s : State) : Result :=
  s.act fun _ d => d.when (d.cxlPort p) fun d => d.setCommit p k 1

/-- BI_DECODER_UNCOMMIT (R131). -/
def execBiDecoderUncommit (p : Fin 96) (k : Fin 16) (s : State) : Result :=
  s.act fun _ d => d.when (d.cxlPort p) fun d => d.setCommit p k 0

/-- MEMRD (R70). -/
def execMemrd (p : Fin 96) (r : CxlReq) (s : State) : Result :=
  s.act fun _ d => d.when (d.cxlPort p) fun d => d.hostMem p (.memRd p r)

/-- MEMRDDATA (R70). -/
def execMemrddata (p : Fin 96) (r : CxlReq) (s : State) : Result :=
  s.act fun _ d => d.when (d.cxlPort p) fun d => d.hostMem p (.memRdData p r)

/-- MEMWR (R70). -/
def execMemwr (p : Fin 96) (r : CxlReq) (s : State) : Result :=
  s.act fun _ d => d.when (d.cxlPort p) fun d => d.hostMem p (.memWr p r)

/-- MEMWRPTL (R70). -/
def execMemwrptl (p : Fin 96) (r : CxlReq) (s : State) : Result :=
  s.act fun _ d => d.when (d.cxlPort p) fun d => d.hostMem p (.memWrPtl p r)

/-- MEMCLNEVCT (R70). -/
def execMemclnevct (p : Fin 96) (r : CxlReq) (s : State) : Result :=
  s.act fun _ d => d.when (d.cxlPort p) fun d => d.hostMem p (.memClnEvct p r)

/-- BIRSPI (R70). -/
def execBirspi (p : Fin 96) (ln : BitVec 46) (s : State) : Result :=
  s.act fun _ d => d.when (d.cxlPort p) fun d => d.biAnswer p ln.toNat 0 false

/-- BIRSPS (R70). -/
def execBirsps (p : Fin 96) (ln : BitVec 46) (s : State) : Result :=
  s.act fun _ d => d.when (d.cxlPort p) fun d => d.biAnswer p ln.toNat 1 false

/-- BIRSPE (R70). -/
def execBirspe (p : Fin 96) (ln : BitVec 46) (s : State) : Result :=
  s.act fun _ d => d.when (d.cxlPort p) fun d => d.biAnswer p ln.toNat 0 true

/-- PCIE_MEMORY_READ (R130, R439), of at most the maximum read request (R135). -/
def execPcieMemoryRead (p : Fin 96) (r : PcieReq) (s : State) : Result :=
  s.act fun _ d => d.when (d.pciePort p && r.len.toNat ≤ 4096) fun d => d.hostMem p (.pcieRd p r)

/-- PCIE_MEMORY_WRITE (R130, R439), of at most the maximum payload (R135). -/
def execPcieMemoryWrite (p : Fin 96) (off : BitVec 46) (bs : List Byte) (s : State) : Result :=
  s.act fun _ d => d.when (d.pciePort p && bs.length ≤ 512) fun d =>
    d.hostMem p (.pcieWr p off.toNat bs)

/-- PCIE_ATOMICOP (R130, R439). -/
def execPcieAtomicop (p : Fin 96) (tag : BitVec 10) (o : PcieAop) (sz : Bool) (off : BitVec 46) (a b : Word) (s : State) : Result :=
  s.act fun _ d => d.when (d.pciePort p) fun d =>
    d.hostMem p (.pcieAt p tag.toNat o sz off.toNat a b)

/-- BISNP_TIMEOUT (R75): the home notes it, and the port takes its link down; T_bi stands still while the link retrains. -/
def execBisnpTimeout (p : Fin 96) (ln : BitVec 46) (s : State) : Result :=
  s.act fun _ d => d.when ((d.biOf p ln.toNat).isSome && d.f (PORT.STAT.LINK p) != 3) fun d =>
    let n := homeOf ln.toNat
    ((d.setF (HOME.ERR.TBI_EXP n) 1).raise 866 (n + d.hostOf p * 64)).linkDown p 5

end Sys2Proof.Machine
end

