-- ==== Sys2Proof/Machine/Flags.lean ====
section
/-! DEFINITION. The condition flags of R193: CF bits 0 Z, 1 N, 2 C, 3 OV; bit 4, V, is no arithmetic flag. -/

namespace Sys2Proof.Machine

/-- The four arithmetic flags in place, with CF.V kept. -/
def mkCf (old : BitVec 5) (z n c ov : Bool) : BitVec 5 :=
  putBits old 0 4 (b2n z + 2 * b2n n + 4 * b2n c + 8 * b2n ov)

/-- The flags of `a + b`: carry out of bit 63, signed overflow. -/
def cfAdd (old : BitVec 5) (a b : Word) : BitVec 5 :=
  let r := a + b
  mkCf old (r == 0) r.msb (decide (2 ^ 64 ≤ a.toNat + b.toNat)) (a.msb == b.msb && r.msb != a.msb)

/-- The flags of `a − b`: C is 1 when no borrow, Z when the operands are equal. -/
def cfSub (old : BitVec 5) (a b : Word) : BitVec 5 :=
  let r := a - b
  mkCf old (r == 0) r.msb (decide (b.toNat ≤ a.toNat)) (a.msb != b.msb && r.msb != a.msb)

end Sys2Proof.Machine
end

