-- ==== Sys2Proof/Machine/Isa.lean ====
section
/-! DEFINITION. The integer, shift and bit-field, multiply and divide, load and store, branch and atomic instructions of a
strand (R196–R211). -/

namespace Sys2Proof.Machine

/-! ## Integer (R196–R198) -/

/-- A format A instruction that computes `g` of its two sources and leaves CF as it is. -/
def Dev.alu (d : Dev) (t : Nat) (f : FA) (g : Word → Word → Word) : Dev :=
  d.issue t false false fun d => d.give t f.rd.toNat (g ((d.str t).g f.ra.toNat) ((d.str t).g f.rb.toNat))

/-- A format A instruction that sets the flags too. -/
def Dev.aluCf (d : Dev) (t : Nat) (f : FA) (g : Word → Word → Word) (h : BitVec 5 → Word → Word → BitVec 5) : Dev :=
  d.issue t false false fun d =>
    let a := (d.str t).g f.ra.toNat
    let b := (d.str t).g f.rb.toNat
    (d.updStr t fun x => { x with cf := h x.cf a b }).give t f.rd.toNat (g a b)

/-- −1, 0 or 1 as `a` is below, equal to or above `b`. -/
def cmpWord (lt eq : Bool) : Word := if eq then 0 else if lt then BitVec.allOnes 64 else 1

/-- A format A instruction with no sources that gives a value of the device. -/
def Dev.readOp (d : Dev) (t : Nat) (f : FA) (illegal : Bool) (g : Dev → Word × Dev) : Dev :=
  d.issue t false illegal fun d =>
    let (v, d) := g d
    d.give t f.rd.toNat v

/-- A format I instruction that leaves CF as it is. -/
def Dev.aluI (d : Dev) (t : Nat) (f : FI) (g : Word → BitVec 16 → Word) : Dev :=
  d.issue t false false fun d => d.give t f.rd.toNat (g ((d.str t).g f.ra.toNat) f.imm)

/-- ADD (R196). -/
def execAdd (t : StrandIx) (f : FA) (s : State) : Result :=
  s.act fun _ d => d.aluCf t f (fun a b => a + b) cfAdd

/-- SUB (R196). -/
def execSub (t : StrandIx) (f : FA) (s : State) : Result :=
  s.act fun _ d => d.aluCf t f (fun a b => a - b) cfSub

/-- AND (R196). -/
def execAnd (t : StrandIx) (f : FA) (s : State) : Result :=
  s.act fun _ d => d.alu t f fun a b => a &&& b

/-- OR (R196). -/
def execOr (t : StrandIx) (f : FA) (s : State) : Result :=
  s.act fun _ d => d.alu t f fun a b => a ||| b

/-- XOR (R196). -/
def execXor (t : StrandIx) (f : FA) (s : State) : Result :=
  s.act fun _ d => d.alu t f fun a b => a ^^^ b

/-- ANDN (R196). -/
def execAndn (t : StrandIx) (f : FA) (s : State) : Result :=
  s.act fun _ d => d.alu t f fun a b => a &&& ~~~ b

/-- SLT (R196). -/
def execSlt (t : StrandIx) (f : FA) (s : State) : Result :=
  s.act fun _ d => d.alu t f fun a b => w64 (b2n (a.slt b))

/-- SLTU (R196). -/
def execSltu (t : StrandIx) (f : FA) (s : State) : Result :=
  s.act fun _ d => d.alu t f fun a b => w64 (b2n (a.ult b))

/-- MIN (R196). -/
def execMin (t : StrandIx) (f : FA) (s : State) : Result :=
  s.act fun _ d => d.alu t f fun a b => if a.slt b then a else b

/-- MAX (R196). -/
def execMax (t : StrandIx) (f : FA) (s : State) : Result :=
  s.act fun _ d => d.alu t f fun a b => if a.slt b then b else a

/-- MINU (R196). -/
def execMinu (t : StrandIx) (f : FA) (s : State) : Result :=
  s.act fun _ d => d.alu t f fun a b => if a.ult b then a else b

/-- MAXU (R196). -/
def execMaxu (t : StrandIx) (f : FA) (s : State) : Result :=
  s.act fun _ d => d.alu t f fun a b => if a.ult b then b else a

/-- CMP (R196). -/
def execCmp (t : StrandIx) (f : FA) (s : State) : Result :=
  s.act fun _ d => d.aluCf t f (fun a b => cmpWord (a.slt b) (a == b)) cfSub

/-- CMPU (R196). -/
def execCmpu (t : StrandIx) (f : FA) (s : State) : Result :=
  s.act fun _ d => d.aluCf t f (fun a b => cmpWord (a.ult b) (a == b)) cfSub

/-- SELV (R196). -/
def execSelv (t : StrandIx) (f : FA) (s : State) : Result :=
  s.act fun _ d => d.alu t f fun a b => if (d.str t).cf.getLsbD 4 then a else b

/-- GETCF (R196). -/
def execGetcf (t : StrandIx) (f : FA) (s : State) : Result :=
  s.act fun _ d => d.readOp t f (f.ra != 0 || f.rb != 0) fun d => ((d.str t).cf.setWidth 64, d)

/-- SETCF (R196). -/
def execSetcf (t : StrandIx) (f : FA) (s : State) : Result :=
  s.act fun _ d => d.issue t false (f.rd != 0 || f.rb != 0) fun d =>
    (d.updStr t fun x => { x with cf := (x.g f.ra.toNat).setWidth 5 }).next t

/-- RDTIME (R196). -/
def execRdtime (t : StrandIx) (f : FA) (s : State) : Result :=
  s.act fun _ d => d.readOp t f (f.ra != 0 || f.rb != 0) fun d => (w64 d.now, d)

/-- RDCYC (R196): sorus clock cycles since the physical Frond last left reset (R385). -/
def execRdcyc (t : StrandIx) (f : FA) (s : State) : Result :=
  s.act fun _ d => d.readOp t f (f.ra != 0 || f.rb != 0) fun d =>
    (w64 (Tbl.get 0 d.ctr.clk (sorusOf t) / 10) - w64 (Tbl.get 0 d.ctr.clkBase (d.physOf t)), d)

/-- RDPMC (R196): the counter is named by the rb field. -/
def execRdpmc (t : StrandIx) (f : FA) (s : State) : Result :=
  s.act fun _ d => d.readOp t f (f.ra != 0 || f.rb.toNat ≥ 8) fun d =>
    (Tbl.get 0 d.ctr.pmc (d.physOf t * 8 + f.rb.toNat), d)

/-- RDRAND (R196): the value is free. -/
def execRdrand (t : StrandIx) (f : FA) (s : State) : Result :=
  s.act fun _ d => d.readOp t f (f.ra != 0 || f.rb != 0) fun d => d.draw

/-- RDID (R196). -/
def execRdid (t : StrandIx) (f : FA) (s : State) : Result :=
  s.act fun _ d => d.readOp t f (f.ra != 0 || f.rb != 0) fun d => (w64 (t.val + d.devId * 1024), d)

/-- ADDI (R197). -/
def execAddi (t : StrandIx) (f : FI) (s : State) : Result := s.act fun _ d => d.aluI t f fun a i => a + i.signExtend 64

/-- ANDI (R197). -/
def execAndi (t : StrandIx) (f : FI) (s : State) : Result := s.act fun _ d => d.aluI t f fun a i => a &&& i.setWidth 64

/-- ORI (R197). -/
def execOri (t : StrandIx) (f : FI) (s : State) : Result := s.act fun _ d => d.aluI t f fun a i => a ||| i.setWidth 64

/-- XORI (R197). -/
def execXori (t : StrandIx) (f : FI) (s : State) : Result := s.act fun _ d => d.aluI t f fun a i => a ^^^ i.setWidth 64

/-- CMPI (R197). -/
def execCmpi (t : StrandIx) (f : FI) (s : State) : Result :=
  s.act fun _ d => d.issue t false false fun d =>
    let a := (d.str t).g f.ra.toNat
    let b := f.imm.signExtend 64
    (d.updStr t fun x => { x with cf := cfSub x.cf a b }).give t f.rd.toNat (cmpWord (a.slt b) (a == b))

/-- LUI (R198): the ra field is Q in its low two bits, K in bit 2, and 0 above. -/
def execLui (t : StrandIx) (f : FI) (s : State) : Result :=
  s.act fun _ d => d.issue t false (getBits f.ra 3 2 != 0) fun d =>
    let sh := 16 * getBits f.ra 0 2
    let v := f.imm.setWidth 64 <<< sh
    d.give t f.rd.toNat (if f.ra.getLsbD 2 then ((d.str t).g f.rd.toNat &&& ~~~ ((0xFFFF : Word) <<< sh)) ||| v else v)

/-! ## Shift and bit-field (R199) -/

/-- A shift by the low six bits of rb: the AMT field is 0. -/
def Dev.shiftR (d : Dev) (t : Nat) (f : FS) (g : Word → Nat → Word) : Dev :=
  d.issue t false (f.amt != 0) fun d =>
    d.give t f.rd.toNat (g ((d.str t).g f.ra.toNat) (getBits ((d.str t).g f.rb.toNat) 0 6))

/-- A shift by AMT: the rb field is 0. -/
def Dev.shiftI (d : Dev) (t : Nat) (f : FS) (g : Word → Nat → Word) : Dev :=
  d.issue t false (f.rb != 0) fun d => d.give t f.rd.toNat (g ((d.str t).g f.ra.toNat) f.amt.toNat)

/-- A bit-field instruction: position AMT, width the rb field plus 1; a field that runs past bit 63 is reserved. -/
def Dev.fieldOp (d : Dev) (t : Nat) (f : FS) (g : Word → Word → Nat → Nat → Word) : Dev :=
  d.issue t false (decide (64 < f.amt.toNat + (f.rb.toNat + 1))) fun d =>
    d.give t f.rd.toNat (g ((d.str t).g f.rd.toNat) ((d.str t).g f.ra.toNat) f.amt.toNat (f.rb.toNat + 1))

/-- A one-source instruction: rb and AMT are 0. -/
def Dev.unary (d : Dev) (t : Nat) (f : FS) (g : Word → Word) : Dev :=
  d.issue t false (f.rb != 0 || f.amt != 0) fun d => d.give t f.rd.toNat (g ((d.str t).g f.ra.toNat))

def sll64 (a : Word) (n : Nat) : Word := a <<< n
def srl64 (a : Word) (n : Nat) : Word := a >>> n
def sra64 (a : Word) (n : Nat) : Word := a.sshiftRight n
def ror64 (a : Word) (n : Nat) : Word := a.rotateRight n

/-- Leading and trailing zeros of a word, 64 for 0. -/
def clz64 (a : Word) : Nat := ((List.range 64).find? fun i => a.getLsbD (63 - i)).getD 64
def ctz64 (a : Word) : Nat := ((List.range 64).find? fun i => a.getLsbD i).getD 64

/-- SLL (R199). -/
def execSll (t : StrandIx) (f : FS) (s : State) : Result := s.act fun _ d => d.shiftR t f sll64

/-- SRL (R199). -/
def execSrl (t : StrandIx) (f : FS) (s : State) : Result := s.act fun _ d => d.shiftR t f srl64

/-- SRA (R199). -/
def execSra (t : StrandIx) (f : FS) (s : State) : Result := s.act fun _ d => d.shiftR t f sra64

/-- ROR (R199). -/
def execRor (t : StrandIx) (f : FS) (s : State) : Result := s.act fun _ d => d.shiftR t f ror64

/-- SLLI (R199). -/
def execSlli (t : StrandIx) (f : FS) (s : State) : Result := s.act fun _ d => d.shiftI t f sll64

/-- SRLI (R199). -/
def execSrli (t : StrandIx) (f : FS) (s : State) : Result := s.act fun _ d => d.shiftI t f srl64

/-- SRAI (R199). -/
def execSrai (t : StrandIx) (f : FS) (s : State) : Result := s.act fun _ d => d.shiftI t f sra64

/-- RORI (R199). -/
def execRori (t : StrandIx) (f : FS) (s : State) : Result := s.act fun _ d => d.shiftI t f ror64

/-- EXTU (R199). -/
def execExtu (t : StrandIx) (f : FS) (s : State) : Result :=
  s.act fun _ d => d.fieldOp t f fun _ a p w => w64 (getBits a p w)

/-- EXTS (R199). -/
def execExts (t : StrandIx) (f : FS) (s : State) : Result :=
  s.act fun _ d => d.fieldOp t f fun _ a p w => ofI (sext w (getBits a p w))

/-- INS (R199). -/
def execIns (t : StrandIx) (f : FS) (s : State) : Result :=
  s.act fun _ d => d.fieldOp t f fun r a p w => putBits r p w a.toNat

/-- CLZ (R199). -/
def execClz (t : StrandIx) (f : FS) (s : State) : Result := s.act fun _ d => d.unary t f fun a => w64 (clz64 a)

/-- CTZ (R199). -/
def execCtz (t : StrandIx) (f : FS) (s : State) : Result := s.act fun _ d => d.unary t f fun a => w64 (ctz64 a)

/-- POPC (R199). -/
def execPopc (t : StrandIx) (f : FS) (s : State) : Result := s.act fun _ d => d.unary t f fun a => w64 (popN 64 a.toNat)

/-- BSWAP (R199). -/
def execBswap (t : StrandIx) (f : FS) (s : State) : Result :=
  s.act fun _ d => d.unary t f fun a => w64 (beNat (leBytes 8 a.toNat))

/-! ## Multiply and divide (R200) -/

/-- A division: DIVZERO on a divisor of 0. -/
def Dev.divide (d : Dev) (t : Nat) (f : FA) (g : Word → Word → Word) : Dev :=
  d.issue t false false fun d =>
    let b := (d.str t).g f.rb.toNat
    if b == 0 then d.strandFault t cDIVZERO 0 else d.give t f.rd.toNat (g ((d.str t).g f.ra.toNat) b)

/-- MUL (R200). -/
def execMul (t : StrandIx) (f : FA) (s : State) : Result := s.act fun _ d => d.alu t f fun a b => a * b

/-- MULH (R200). -/
def execMulh (t : StrandIx) (f : FA) (s : State) : Result :=
  s.act fun _ d => d.alu t f fun a b => ofI (a.toInt * b.toInt / 2 ^ 64)

/-- MULHU (R200). -/
def execMulhu (t : StrandIx) (f : FA) (s : State) : Result :=
  s.act fun _ d => d.alu t f fun a b => w64 (a.toNat * b.toNat / 2 ^ 64)

/-- DIV (R200): −2⁶³ by −1 is −2⁶³. -/
def execDiv (t : StrandIx) (f : FA) (s : State) : Result :=
  s.act fun _ d => d.divide t f fun a b => ofI (a.toInt.tdiv b.toInt)

/-- DIVU (R200). -/
def execDivu (t : StrandIx) (f : FA) (s : State) : Result :=
  s.act fun _ d => d.divide t f fun a b => w64 (a.toNat / b.toNat)

/-- REM (R200): the sign follows ra. -/
def execRem (t : StrandIx) (f : FA) (s : State) : Result :=
  s.act fun _ d => d.divide t f fun a b => ofI (a.toInt.tmod b.toInt)

/-- REMU (R200). -/
def execRemu (t : StrandIx) (f : FA) (s : State) : Result :=
  s.act fun _ d => d.divide t f fun a b => w64 (a.toNat % b.toNat)

/-! ## Loads and stores (R201–R205) -/

/-- The effective address of a format M instruction. -/
def Dev.eaM (d : Dev) (t : Nat) (f : FM) : Nat := ((d.str t).g f.ra.toNat + f.disp.signExtend 64).toNat

/-- LD (R201, R202). -/
def execLd (t : StrandIx) (f : FM) (s : State) : Result :=
  s.act fun _ d => d.issue t false false fun d =>
    let n := 2 ^ f.sz.toNat
    d.access t (d.eaM t f) n .r fun fpa d => d.ldGo t f.rd.toNat n fpa (d.eaM t f) true

/-- ST (R201–R203). -/
def execSt (t : StrandIx) (f : FM) (s : State) : Result :=
  s.act fun _ d => d.issue t false false fun d =>
    let n := 2 ^ f.sz.toNat
    d.access t (d.eaM t f) n .w fun fpa d => d.stGo t fpa (d.eaM t f) (leBytes n ((d.str t).g f.rd.toNat).toNat)

/-- The registers that a block of eight may start at (R204, R220). -/
def blockReg (r : BitVec 5) : Bool := r == 8 || r == 16 || r == 24

/-- LDL (R204). -/
def execLdl (t : StrandIx) (f : FM) (s : State) : Result :=
  s.act fun _ d => d.issue t false (!blockReg f.rd || f.sz == 3) fun d =>
    d.access t (d.eaM t f) 64 .r fun fpa d => d.ldlGo t f.rd.toNat fpa (d.eaM t f) f.sz.toNat 0

/-- PREF (R205): it never faults on its address. -/
def execPref (t : StrandIx) (f : FM) (s : State) : Result :=
  s.act fun _ d => d.issue t false (f.rd != 0 || 2 ≤ f.sz.toNat) fun d =>
    match d.tryOwn fun d => d.eaOf t (d.eaM t f) (if f.sz == 1 then .w else .r) with
    | (some (.ok fpa), d) =>
      let x := d.str t
      let e : PrefE := ⟨d.physOf t, fpa, x.slice, x.priv, f.sz == 1⟩
      match d.prefGo e with
      | (true, d) => d.next t
      | (false, d) => ({ d with sor := { d.sor with prefs := d.sor.prefs ++ [e] } } : Dev).next t
    | (some (.fault _), d) => (d.prefDrop (d.physOf t)).next t
    | (none, d) => d.waitOn t (.hold 2)

/-! ## Branches and calls (R206) -/

/-- The target of a branch: the strand's own offset plus four times the displacement. -/
def Dev.target (d : Dev) (t : Nat) (f : FB) : Nat :=
  (BitVec.ofNat 64 (d.str t).pc + f.disp.signExtend 64 * 4).toNat

/-- A branch taken, or not. -/
def Dev.branch (d : Dev) (t : Nat) (f : FB) (cond : Bool) : Dev :=
  if cond then (d.frEvent (d.physOf t) 9 1).retire t (d.target t f) else d.next t

/-- BR (R206). -/
def execBr (t : StrandIx) (f : FB) (s : State) : Result :=
  s.act fun _ d => d.issue t false (f.ra != 0) fun d => d.branch t f true

/-- BZ (R206). -/
def execBz (t : StrandIx) (f : FB) (s : State) : Result :=
  s.act fun _ d => d.issue t false false fun d =>
    d.branch t f (if f.ra == 0 then !(d.str t).cf.getLsbD 4 else (d.str t).g f.ra.toNat == 0)

/-- BNZ (R206). -/
def execBnz (t : StrandIx) (f : FB) (s : State) : Result :=
  s.act fun _ d => d.issue t false false fun d =>
    d.branch t f (if f.ra == 0 then (d.str t).cf.getLsbD 4 else (d.str t).g f.ra.toNat != 0)

/-- BNEG (R206). -/
def execBneg (t : StrandIx) (f : FB) (s : State) : Result :=
  s.act fun _ d => d.issue t false (f.ra == 0) fun d => d.branch t f ((d.str t).g f.ra.toNat).msb

/-- CALL (R206). -/
def execCall (t : StrandIx) (f : FB) (s : State) : Result :=
  s.act fun _ d => d.issue t false false fun d =>
    let npc := d.target t f
    ((d.updStr t fun x => x.setG f.ra.toNat (w64 (x.pc + 4))).frEvent (d.physOf t) 9 1).retire t npc

/-- JR (R206). -/
def execJr (t : StrandIx) (f : FA) (s : State) : Result :=
  s.act fun _ d => d.issue t false (f.rb != 0) fun d =>
    let npc := ((d.str t).g f.ra.toNat).toNat
    ((d.updStr t fun x => x.setG f.rd.toNat (w64 (x.pc + 4))).frEvent (d.physOf t) 9 1).retire t npc

/-! ## Atomics (R208–R210) -/

/-- An atomic of operation code `op`. For CAS the first operand is what rd expects and the second the new value. -/
def Dev.amo (d : Dev) (t op : Nat) (f : FAt) : Dev :=
  d.issue t false (f.place == 0 || f.z6 || f.z0) fun d =>
    let x := d.str t
    let n := if f.sz then 8 else 4
    let ea := (x.g f.ra.toNat).toNat
    let a := if op == 1 then x.g f.rd.toNat else x.g f.rb.toNat
    let b := if op == 1 then x.g f.rb.toNat else 0
    d.access t ea n .a fun fpa d => d.amoGo t f.rd.toNat op n fpa ea a b f.place.toNat f.acq f.rel 0

/-- AMO_ADD (R209). -/
def execAmoAdd (t : StrandIx) (f : FAt) (s : State) : Result := s.act fun _ d => d.amo t 0 f

/-- AMO_CAS (R209). -/
def execAmoCas (t : StrandIx) (f : FAt) (s : State) : Result := s.act fun _ d => d.amo t 1 f

/-- AMO_SWAP (R209). -/
def execAmoSwap (t : StrandIx) (f : FAt) (s : State) : Result := s.act fun _ d => d.amo t 2 f

/-- AMO_MIN (R209). -/
def execAmoMin (t : StrandIx) (f : FAt) (s : State) : Result := s.act fun _ d => d.amo t 3 f

/-- AMO_MAX (R209). -/
def execAmoMax (t : StrandIx) (f : FAt) (s : State) : Result := s.act fun _ d => d.amo t 4 f

/-- AMO_MINU (R209). -/
def execAmoMinu (t : StrandIx) (f : FAt) (s : State) : Result := s.act fun _ d => d.amo t 5 f

/-- AMO_MAXU (R209). -/
def execAmoMaxu (t : StrandIx) (f : FAt) (s : State) : Result := s.act fun _ d => d.amo t 6 f

/-- AMO_AND (R209). -/
def execAmoAnd (t : StrandIx) (f : FAt) (s : State) : Result := s.act fun _ d => d.amo t 7 f

/-- AMO_OR (R209). -/
def execAmoOr (t : StrandIx) (f : FAt) (s : State) : Result := s.act fun _ d => d.amo t 8 f

/-- AMO_XOR (R209). -/
def execAmoXor (t : StrandIx) (f : FAt) (s : State) : Result := s.act fun _ d => d.amo t 9 f

/-! ## Fences (R211) -/

/-- FENCE (R211). -/
def execFence (t : StrandIx) (f : FA) (s : State) : Result :=
  s.act fun _ d => d.issue t false (f.rd != 0 || f.ra != 0 || f.rb != 0) fun d => d.fenceGo t

/-- RULESYNC (R212, R340): it raises PRIV at S privilege. -/
def execRulesync (t : StrandIx) (f : FA) (s : State) : Result :=
  s.act fun _ d => d.issue t false (f.rd != 0 || f.ra != 0 || f.rb != 0) fun d =>
    if !(d.str t).priv then d.strandFault t cPRIV 0
    else d.rsyncGo t (d.fpc.chg.map (·.id)) d.admitted none

/-- RULESYNC_COMPLETE (R340). -/
def execRulesyncComplete (t : StrandIx) (s : State) : Result := s.act fun _ d => d.when d.fdUp fun d => d.rsyncEnd t

/-- FENCE_R (R211): a strand that issues has no load or atomic outstanding (R194). -/
def execFenceR (t : StrandIx) (f : FA) (s : State) : Result :=
  s.act fun _ d => d.issue t false (f.rd != 0 || f.ra != 0 || f.rb != 0) fun d => d.next t

/-- FENCE_W (R211). -/
def execFenceW (t : StrandIx) (f : FA) (s : State) : Result :=
  s.act fun _ d => d.issue t false (f.rd != 0 || f.ra != 0 || f.rb != 0) fun d =>
    (d.updStr t fun x => { x with fw := x.fw + 1 }).next t

end Sys2Proof.Machine
end

