-- ==== Sys2Proof/Machine/Prims.lean ====
section
/-! DEFINITION. The table, counting, metering and movement primitives (R220–R250), completions, event raises and waits
(R216–R219), and the region instructions (R253, R334–R339). -/

namespace Sys2Proof.Machine

/-- A primitive's result given and its retirement counted. -/
def Dev.primGive (d : Dev) (t rd : Nat) (v : Word) : Dev := (d.updStr t fun x => x.setG rd v).primNext t false

/-- A general register of a strand. -/
def Dev.gr (d : Dev) (t : Nat) (r : BitVec 5) : Word := (d.str t).g r.toNat

/-- The low 1, 2, 4 or 8 bytes of a register, by a size code. -/
def regBytes (v : Word) (sz : Nat) : List Byte := leBytes (2 ^ sz) v.toNat

/-! ## Hashing (R224) -/

/-- HASH_CRC32C (R224). -/
def execHashCrc32c (t : StrandIx) (f : FX) (sz : BitVec 2) (s : State) : Result :=
  s.act fun _ d => d.issue t false (f.rc != 0) fun d =>
    d.primGive t f.rd.toNat (w64 (crc32c (getBits (d.gr t f.ra) 0 32) (regBytes (d.gr t f.rb) sz.toNat)))

/-- HASH_CRC64 (R224). -/
def execHashCrc64 (t : StrandIx) (f : FX) (sz : BitVec 2) (s : State) : Result :=
  s.act fun _ d => d.issue t false (f.rc != 0) fun d =>
    d.primGive t f.rd.toNat (w64 (hashCrc64 (d.gr t f.ra).toNat (regBytes (d.gr t f.rb) sz.toNat)))

/-- The register after a register. -/
def Dev.gr1 (d : Dev) (t : Nat) (r : BitVec 5) (i : Nat) : Word := (d.str t).g (r.toNat + i)

/-- HASH_TOEP (R224): over 4 bytes, or 8. -/
def execHashToep (t : StrandIx) (f : FX) (wide : Bool) (s : State) : Result :=
  s.act fun _ d => d.issue t false (f.rc == 31) fun d =>
    d.primGive t f.rd.toNat (w64 (getBits (d.gr t f.ra) 0 32 ^^^
      toeplitz (toepKey (d.gr t f.rc) (d.gr1 t f.rc 1)) (regBytes (d.gr t f.rb) (if wide then 3 else 2))))

/-- SipHash of `n` words from register rb on under the key pair rc. -/
def Dev.sip (d : Dev) (t : Nat) (f : FX) (n : Nat) (illegal : Bool) : Dev :=
  d.issue t false (f.ra != 0 || f.rc == 31 || illegal) fun d =>
    d.primGive t f.rd.toNat (sipHash (d.gr t f.rc) (d.gr1 t f.rc 1) ((List.range n).map fun i => d.gr1 t f.rb i))

/-- HASH_SIP_8 (R224). -/
def execHashSip8 (t : StrandIx) (f : FX) (s : State) : Result := s.act fun _ d => d.sip t f 1 false

/-- HASH_SIP_16 (R224). -/
def execHashSip16 (t : StrandIx) (f : FX) (s : State) : Result := s.act fun _ d => d.sip t f 2 (f.rb == 31)

/-- HASH_SIP_64 (R224). -/
def execHashSip64 (t : StrandIx) (f : FX) (s : State) : Result := s.act fun _ d => d.sip t f 8 (!blockReg f.rb)

/-! ## Lookups (R225–R230) -/

/-- A primitive that reads the 64-byte-aligned line at g[ra]. -/
def Dev.lineOp (d : Dev) (t : Nat) (f : FX) (illegal : Bool) (k : Dev → Prim) : Dev :=
  d.issue t false illegal fun d =>
    let ea := (d.gr t f.ra).toNat
    d.access t ea 64 .r fun fpa d => Dev.primGo t (k d) [(fpa, ea)] 0 [] d

/-- TRIE_STEP (R226). -/
def execTrieStep (t : StrandIx) (f : FX) (s : State) : Result :=
  s.act fun _ d => d.lineOp t f (f.rd == 0 || f.rd == 31 || f.rb == 31) fun d =>
    .trie f.rd.toNat (d.gr t f.rb) (d.gr1 t f.rb 1) (d.gr t f.rc)

/-- EXM_PROBE (R228). -/
def execExmProbe (t : StrandIx) (f : FX) (s : State) : Result :=
  s.act fun _ d => d.lineOp t f (f.rc != 0 || f.rb == 31) fun d => .exm f.rd.toNat (d.gr t f.rb) (d.gr1 t f.rb 1)

/-- RANGE_CMP (R230). -/
def execRangeCmp (t : StrandIx) (f : FX) (s : State) : Result :=
  s.act fun _ d => d.lineOp t f (f.rc != 0) fun d => .range f.rd.toNat false (d.gr t f.rb)

/-- RANGE_CMP_S (R230). -/
def execRangeCmpS (t : StrandIx) (f : FX) (s : State) : Result :=
  s.act fun _ d => d.lineOp t f (f.rc != 0) fun d => .range f.rd.toNat true (d.gr t f.rb)

/-! ## Counting (R231–R235) -/

/-- A posted update: ALIGN and XLAT are precise, and so is PROT in a table in use (R29, R110); it then retires like a
store (R223). -/
def Dev.postOp (d : Dev) (t : Nat) (f : FX) (n op : Nat) (illegal : Bool) : Dev :=
  d.issue t false (illegal || f.rd != 0 || f.rc != 0) fun d =>
    let ea := (d.gr t f.ra).toNat
    d.access t ea n .a fun fpa d =>
      if d.inTables (fpa / 64) then d.strandFault t cPROT (ea % 2 ^ 52)
      else ((d.post t fpa n ea op (d.gr t f.rb)).primNext t false).postsGo (d.physOf t)

/-- CINC (R231). -/
def execCinc (t : StrandIx) (f : FX) (k : BitVec 4) (s : State) : Result := s.act fun _ d => d.postOp t f 16 upCINC (k != 0)

/-- CINC_A (R232). -/
def execCincA (t : StrandIx) (f : FX) (k : BitVec 4) (s : State) : Result := s.act fun _ d => d.postOp t f 2 upCINCA (k != 0)

/-- The cells of a sketch operation, each with its FPA; or the address of the first that does not translate. -/
def Dev.cells (d : Dev) (t : Nat) (q : Want) : List Nat → (List (Nat × Nat) ⊕ (Nat × Nat)) × Dev
  | [] => (.inl [], d)
  | a :: as =>
    match d.eaOf t a q with
    | (.fault c, d) => (.inr (c, a), d)
    | (.ok fpa, d) =>
      match Dev.cells d t q as with
      | (.inl l, d) => (.inl ((fpa, a) :: l), d)
      | (.inr e, d) => (.inr e, d)

/-- A sketch operation: its alignment, then the four cells of hash g[rb]; it waits where a translation walks the tables (R33,
R234). -/
def Dev.sketchOp (d : Dev) (t : Nat) (f : FX) (k : Nat) (q : Want) (illegal : Bool) (g : List (Nat × Nat) → Dev → Dev) : Dev :=
  d.issue t false (illegal || k > 10) fun d =>
    let a := (d.gr t f.ra).toNat
    if a % 64 != 0 then d.strandFault t cALIGN (a % 2 ^ 52)
    else match d.tryOwn fun d => d.cells t q ([0, 1, 2, 3].map fun j => sketchCell a (d.gr t f.rb).toNat (10 + k) j % 2 ^ 64) with
      | (some (.inl l), d) => g l d
      | (some (.inr e), d) => d.strandFault t e.1 (e.2 % 2 ^ 52)
      | (none, d) => d.waitOn t (.hold 2)

/-- SKETCH_ADD (R235); a cell in a table in use faults it (R29). -/
def execSketchAdd (t : StrandIx) (f : FX) (k : BitVec 4) (s : State) : Result :=
  s.act fun _ d => d.sketchOp t f k.toNat .a (f.rd != 0) fun l d =>
    match l.find? fun c => d.inTables (c.1 / 64) with
    | some c => d.strandFault t cPROT (c.2 % 2 ^ 52)
    | none => ((l.foldl (fun d c => d.post t c.1 4 c.2 upSKETCH (d.gr t f.rc)) d).primNext t false).postsGo (d.physOf t)

/-- SKETCH_EST (R235). -/
def execSketchEst (t : StrandIx) (f : FX) (k : BitVec 4) (s : State) : Result :=
  s.act fun _ d => d.sketchOp t f k.toNat .r (f.rc != 0) fun l d => Dev.primGo t (.est f.rd.toNat) l 0 [] d

/-- METER (R239). -/
def execMeter (t : StrandIx) (f : FX) (s : State) : Result :=
  s.act fun _ d => d.issue t false false fun d =>
    let ea := (d.gr t f.ra).toNat
    d.access t ea 32 .a fun fpa d =>
      d.amoGo t f.rd.toNat upMETER 32 fpa ea (d.gr t f.rb) (d.gr t f.rc) 2 false false 0

/-! ## Line compression (R248) -/

/-- LCOMP (R248). -/
def execLcomp (t : StrandIx) (f : FX) (s : State) : Result :=
  s.act fun _ d => d.lineOp t f (!blockReg f.rd || f.rb != 0) fun _ => .lcomp f.rd.toNat f.rc.toNat

/-- The 64 bytes of a block of eight registers (R5). -/
def Dev.grLine (d : Dev) (t : Nat) (r : BitVec 5) : List Byte :=
  ((List.range 8).map fun i => leBytes 8 (d.gr1 t r i).toNat).flatten

/-- LDECOMP (R248, R249). The address is checked before the slot is looked at: one that is not aligned or does not translate faults
though the slot is invalid (DESIGN CHOICE, log entry 145). -/
def execLdecomp (t : StrandIx) (f : FX) (s : State) : Result :=
  s.act fun _ d => d.issue t false (f.rd != 0 || !blockReg f.rb) fun d =>
    let ea := (d.gr t f.ra).toNat
    d.access t ea 64 .w fun fpa d =>
      match ldecomp (d.grLine t f.rb) (d.gr t f.rc).toNat with
      | none => (d.updStr t fun x => x.withV false).primNext t false
      | some y => ((d.updStr t fun x => x.withV true).frEvent (d.physOf t) 12 1).stGo t fpa ea (lineBytes y)

/-! ## The move engine (R245–R247) -/

/-- An address of an engine operation translated as its strand's, on behalf of `w`. -/
def Dev.mvAddr (d : Dev) (w : OwnFor) (m : MoveOp) (a : Nat) (q : Want) : Ea × Dev :=
  if m.priv then (if a ≥ 2 ^ 52 then .fault cPROT else .ok a, d)
  else match d.translate w (sorusUnit m.sorus) m.slice a q with
    | (some fpa, d) => (.ok fpa, d)
    | (none, d) => (.fault cXLAT, d)

/-- The agent that an engine's requests come from, for an operation (R330). -/
def MoveOp.own (m : MoveOp) (w : OwnFor) : Own := ⟨w, 0x240 + m.sorus, m.slice, m.priv⟩

/-- One request of an engine operation judged by the egress checker, with its notice (R331, R335). -/
def Dev.mvAdmit (d : Dev) (m : MoveOp) (fpa : Nat) (k : Kind) : Bool × Dev :=
  let v := d.check fpa (strDom m.priv) k m.slice
  if v != .ok then (false, d.notice v (d.physOf m.t) m.slice true)
  else (true, d.countReq m.slice m.priv (if k == .rd then 6 else 7))

/-- The source line of line `i` of an operation, or the fault it draws. -/
def Dev.mvSource (d : Dev) (m : MoveOp) (i : Nat) : (Line ⊕ (Nat × Nat)) × Dev :=
  if m.fill then (.inl (BitVec.ofNat 512 (leNat ((List.range 64).map fun j => byteOf m.val.toNat (j % 8)))), d)
  else
    let a := m.src + 64 * i
    match d.mvAddr (.move m.sorus m.id) m a .r with
    | (.fault c, d) => (.inr (c, a), d)
    | (.ok fpa, d) =>
      match d.mvAdmit m fpa .rd with
      | (false, d) => (.inr (cPROT, a), d)
      | (true, d) =>
        let (r, d) := d.cohRead (m.own (.move m.sorus m.id)) (fpa / 64)
        (if r.fail != 0 then .inr (whyCause r.fail, a) else if r.psn then .inr (cPOISON, a) else .inl r.data, d)

/-- Line `i` of an operation moved, its write logged (R47); the cause and address of its fault otherwise. -/
def Dev.mvLine (d : Dev) (m : MoveOp) (i : Nat) : Option (Nat × Nat) × Dev :=
  match d.mvSource m i with
  | (.inr e, d) => (some e, d)
  | (.inl y, d) =>
    let a := m.dst + 64 * i
    match d.mvAddr (.move m.sorus m.id) m a .w with
    | (.fault c, d) => (some (c, a), d)
    | (.ok fpa, d) =>
      match d.mvAdmit m fpa .wr with
      | (false, d) => (some (cPROT, a), d)
      | (true, d) =>
        let d := if m.priv then d else d.dlog (.move m.sorus m.id) m.slice a 64
        match d.cohWrite (m.own (.move m.sorus m.id)) (fpa / 64) y (BitVec.allOnes 64) with
        | (0, d) => (none, if m.priv then d else d.countSlice m.slice 8 64)
        | (w, d) => (some (whyCause w, a), d)

/-- The completion word (R246). -/
def mvWord (done status cause : Nat) : Word :=
  w64 (done % 2 ^ 48 + status * 2 ^ 48 + cause % 128 * 2 ^ 56 + 2 ^ 63)

/-- A posted form's completion word written through the strand's translation, on behalf of `w`; the notice where it fails
(R246). -/
def Dev.mvPost (d : Dev) (w : OwnFor) (m : MoveOp) (v : Word) : Dev :=
  match d.mvAddr w m m.cw .w with
  | (.fault _, d) => d.notice .noreg (d.physOf m.t) m.slice true
  | (.ok fpa, d) =>
    let x := d.check fpa (strDom m.priv) .wr m.slice
    if x != .ok then d.notice x (d.physOf m.t) m.slice true
    else
      match Dev.cohPut 1 (d.countReq m.slice m.priv 7) (m.own w) fpa (leBytes 8 v.toNat) with
      | (0, d) => d
      | (_, d) => d.notice (d.regionVerdict fpa) (d.physOf m.t) m.slice true

/-- An operation leaves its engine, and the strands that waited for a place go on (R247). -/
def Dev.mvFree (d : Dev) (m : MoveOp) : Dev :=
  let d : Dev := { d with moves := d.moves.filter fun u => !(u.sorus == m.sorus && u.id == m.id) }
  let held := (d.running m.sorus).filter fun e => e.2.wait == .hold 1
  held.foldl (fun d e => d.unhold e.1) d

/-- The operation as it stands in its engine. -/
def Dev.setMove (d : Dev) (m : MoveOp) : Dev :=
  { d with moves := d.moves.map fun u => if u.sorus == m.sorus && u.id == m.id then m else u }

/-- An operation ends: its completion word goes where its form says, and its place frees (R246). -/
def Dev.mvEnd (d : Dev) (m : MoveOp) (done status : Nat) (e : Nat × Nat) : Dev :=
  let v := m.res.getD (mvWord (64 * done) status e.1)
  if m.posted then
    match d.tryOwn fun d => ((), d.mvPost (.move m.sorus m.id) m v) with
    | (some _, d) => d.mvFree m
    | (none, d) => d.setMove { m with res := some v }
  else
    let d := d.mvFree m
    match (d.str m.t).wait with
    | .move rd id =>
      if id != m.id then d
      else d.finishAccess m.t fun d => if status == 2 then d.strandFault m.t e.1 (e.2 % 2 ^ 52)
        else (d.updStr m.t fun x => x.setG rd v).primNext m.t false
    | _ => d

/-- The destination overlaps the source from above (R245). -/
def MoveOp.down (m : MoveOp) : Bool := !m.fill && m.src < m.dst && m.dst < m.src + m.len

/-- The engine operations of a sorus, in issue order. -/
def Dev.movesOf (d : Dev) (s : Nat) : List MoveOp := d.moves.filter (·.sorus == s)

/-- A line of the operation is with its home, and its answer awaited. -/
def Dev.mvPending (d : Dev) (m : MoveOp) : Bool := d.coh.own.any fun r => r.own.who == .move m.sorus m.id

/-- An operation taken on by up to `n` lines, downward where the destination overlaps the source from above: it ends with its
last line, at a line's fault, and at the next line boundary once it is aborted (R245–R247, R43). -/
def Dev.mvRun : Nat → Dev → MoveOp → Dev
  | n, d, m =>
    let total := m.len / 64
    if m.res.isSome then d.mvEnd m m.lines 0 (0, 0)
    else if total ≤ m.lines then d.mvEnd m m.lines 0 (0, 0)
    else if m.abort && !d.mvPending m then d.mvEnd m m.lines 1 (0, 0)
    else match n with
    | 0 => d
    | n + 1 =>
      match d.tryOwn fun d => d.mvLine m (if m.down then total - 1 - m.lines else m.lines) with
      | (none, d) => d
      | (some (some e), d) => d.mvEnd m m.lines 2 e
      | (some none, d) =>
        let m := { m with lines := m.lines + 1 }
        Dev.mvRun n (d.setMove m) m

/-- An operation carried on until `lines` of its lines are done; lines of different operations interleave so (R247). -/
def Dev.mvComplete (d : Dev) (m : MoveOp) (lines : Nat) : Dev := Dev.mvRun (lines - m.lines) d m

/-- MOVE or FILL issued (R245–R247): its alignment, then the strand's earlier stores and posted updates, which its lines must
follow (R85), then a place in the engine, for which the strand waits. -/
def Dev.moveIssue (d : Dev) (t : Nat) (f : FX) (fill posted : Bool) : Dev :=
  d.issue t false false fun d =>
    let x := d.str t
    let s := sorusOf t
    let dst := (d.gr t f.ra).toNat
    let src := if fill then 0 else (d.gr t f.rb).toNat
    let len := (d.gr t f.rc).toNat
    let cw := (d.gr t f.rd).toNat
    let id := ((List.range 17).find? fun i => !((d.movesOf s).any (·.id == i))).getD 0
    let m : MoveOp := ⟨id, t, s, x.slice, x.priv, fill, posted, src, dst, len, d.gr t f.rb, if posted then cw else 0,
      f.rd.toNat, false, 0, none⟩
    if dst % 64 != 0 then d.strandFault t cALIGN (dst % 2 ^ 52)
    else if src % 64 != 0 then d.strandFault t cALIGN (src % 2 ^ 52)
    else if len % 64 != 0 || len > 2 ^ 36 then d.strandFault t cALIGN (dst % 2 ^ 52)
    else if posted && cw % 8 != 0 then d.strandFault t cALIGN (cw % 2 ^ 52)
    else if d.sbOwn t then d.waitOn t (.hold 0)
    else if len == 0 then
      if posted then d.tryHold t fun d => (d.primNext t false).mvPost (.strand t) m (mvWord 0 0 0)
      else d.primGive t f.rd.toNat (mvWord 0 0 0)
    else if (d.movesOf s).length ≥ 16 then d.waitOn t (.hold 1)
    else
      let d : Dev := { d with moves := d.moves ++ [m] }
      if posted then d.primNext t false else d.waitOn t (.move f.rd.toNat id)

/-- MOVE (R245). -/
def execMove (t : StrandIx) (f : FX) (s : State) : Result := s.act fun _ d => d.moveIssue t f false false

/-- MOVE_P (R245, R246). -/
def execMoveP (t : StrandIx) (f : FX) (s : State) : Result := s.act fun _ d => d.moveIssue t f false true

/-- FILL (R245). -/
def execFill (t : StrandIx) (f : FX) (s : State) : Result := s.act fun _ d => d.moveIssue t f true false

/-- FILL_P (R245, R246). -/
def execFillP (t : StrandIx) (f : FX) (s : State) : Result := s.act fun _ d => d.moveIssue t f true true

/-- MOVE_ENGINE_COMPLETE (R246, R247): operation `k` of the sorus, in issue order, is carried on until `lines` of its lines are
done, or to its end before. -/
def execMoveEngineComplete (n : Fin 32) (k : Fin 16) (lines : BitVec 31) (s : State) : Result :=
  s.act fun _ d => d.when d.fdUp fun d =>
    match (d.movesOf n)[k.val]? with
    | some m => d.mvComplete m lines.toNat
    | none => d

/-! ## Completions (R216, R217) -/

/-- The completion of a strand's work written with the spore's own status and result; work dispatched again after fencing
posts RETRIED, with the spore's status as DETAIL (R182). -/
def Dev.sporePost (d : Dev) (t : Nat) (own : Nat) (res : List Byte) : Dev :=
  let k := (d.str t).work
  let u := sorusUnit (sorusOf t)
  let status := if k.retried then 0x81 else own
  let det := if k.retried then own else 0
  match k.slot with
  | .none => d
  | .cq n q => d.cqPost u n q (cqEntry status k.src k.idx det k.cookie (res.take 20))
  | .mgr => d.cqPost u mgrN 0 (cqEntry status 0 k.idx det k.cookie (res.take 20))
  | .win n w => d.winDone n w status det (BitVec.ofNat 512 (leNat res))

/-- CQPOST with END or without. -/
def Dev.cqpost (d : Dev) (t : Nat) (f : FX) (fin : Bool) : Dev :=
  let x := d.str t
  let has := x.work.slot != .none
  d.issue t false (f.rd != 0 || f.rc != 0 || !(f.ra == 0 || blockReg f.ra) || (has && x.posted && !fin)) fun d =>
    d.released t fun d =>
      let res := if f.ra == 0 then List.replicate 64 0 else d.grLine t f.ra
      let d := if has && !x.posted then
          (d.sporePost t (getBits (d.gr t f.rb) 0 7) res).updStr t fun x => { x with posted := true }
        else d
      let d := d.next t
      if fin then d.freeStr t else d

/-- CQPOST (R216, R217). -/
def execCqpost (t : StrandIx) (f : FX) (s : State) : Result := s.act fun _ d => d.cqpost t f false

/-- CQPOST_END (R216, R168). -/
def execCqpostEnd (t : StrandIx) (f : FX) (s : State) : Result := s.act fun _ d => d.cqpost t f true

/-! ## Event raises (R218) -/

/-- EVRAISE: a number in range is raised, and CF.V says whether it was. -/
def Dev.evraise (d : Dev) (t : Nat) (n lim : Nat) (k : Dev → Dev) : Dev :=
  d.released t fun d =>
    ((if n < lim then k d else d).updStr t fun x => x.withV (n < lim)).next t

/-- EVRAISE_SRC (R218). -/
def execEvraiseSrc (t : StrandIx) (f : FX) (s : State) : Result :=
  s.act fun _ d => d.issue t false (f.rd != 0 || f.rc != 0) fun d =>
    if !(d.str t).priv then d.strandFault t cPRIV 0
    else
      let n := (d.gr t f.ra).toNat
      d.evraise t n 32 fun d => d.raise (992 + n) (getBits (d.gr t f.rb) 0 32)

/-- EVRAISE_VEC (R218). -/
def execEvraiseVec (t : StrandIx) (f : FX) (s : State) : Result :=
  s.act fun _ d => d.issue t false (f.rd != 0 || f.rb != 0 || f.rc != 0) fun d =>
    let n := (d.gr t f.ra).toNat
    d.evraise t n 16 fun d => d.raiseVec (d.str t).slice n

/-! ## Waits (R219) -/

/-- WAIT_T (R219). -/
def execWaitT (t : StrandIx) (f : FX) (s : State) : Result :=
  s.act fun _ d => d.issue t false (f.rd != 0 || f.rb != 0 || f.rc != 0) fun d =>
    let n := (d.gr t f.ra).toNat
    if n == 0 then d.next t else d.waitOn t (.until (d.time + n))

/-- WAIT_UNTIL (R219). -/
def execWaitUntil (t : StrandIx) (f : FX) (s : State) : Result :=
  s.act fun _ d => d.issue t false (f.rd != 0 || f.rb != 0 || f.rc != 0) fun d =>
    let n := (d.gr t f.ra).toNat
    if n ≤ d.time then d.next t else d.waitOn t (.until n)

/-- WAIT_CH (R219): its channels are checked under R214 when it issues, those with EN clear passed over. -/
def execWaitCh (t : StrandIx) (f : FX) (s : State) : Result :=
  s.act fun _ d => d.issue t false (f.rc.toNat > 3) fun d =>
    let x := d.str t
    let n := sorusOf t
    let cs := ((onesN 64 (d.gr t f.ra).toNat).map (64 * f.rc.toNat + ·)).filter fun c => d.fb (SORUS.CHCFG.EN n c)
    let lim := (d.gr t f.rb).toNat
    if !x.priv && cs.any (fun c => d.f (SORUS.CHCFG.SLICE n c) != x.slice) then d.strandFault t cCHAN 0
    else if d.gr t f.ra == 0 || cs.any (d.chUnread n) then d.waitChEnd t f.rd.toNat cs
    else d.waitOn t (.waitCh f.rd.toNat cs (if lim == 0 then 0 else d.time + lim))

/-- WAIT_EXPIRE (R219): the time of WAIT.T or WAIT.UNTIL, or the limit of WAIT.CH, is reached. -/
def execWaitExpire (t : StrandIx) (s : State) : Result :=
  s.act fun _ d => d.when d.fdUp fun d => match (d.str t).wait with
    | .until _ => d.next t
    | .waitCh rd cs lim => if lim == 0 then d else d.waitChEnd t rd cs
    | _ => d

/-! ## Regions (R253, R332–R339) -/

/-- Protection statuses. -/
def pOK : Nat := 0
def pOVERLAP : Nat := 1
def pLOCKED : Nat := 2
def pBADARG : Nat := 3

/-- The pages of a region entry. -/
def regLo (w0 : Word) : Nat := getBits w0 12 40
def regHi (w1 : Word) : Nat := getBits w1 12 40

/-- The FPAs from page `lo` to page `hi` lie wholly in fabric-reserved memory (R334). -/
def Dev.fabRange (d : Dev) (lo hi : Nat) : Bool :=
  let a := lo * 4096
  let b := hi * 4096 + 4095
  let off := fun x => (x % 2 ^ 49 - 0x4000000000) % 0x1000000000
  let part := d.f HBM.PART.F * 0x40000000
  d.fpaKind a == .fab && d.fpaKind b == .fab && a / 0x1000000000 == b / 0x1000000000 &&
    (off b < part || 33 * 0x40000000 ≤ off a || part == 33 * 0x40000000)

/-- What MPUSET turns away as BAD_ARG (R334). -/
def Dev.regBad (d : Dev) (w0 w1 w2 : Word) : Bool :=
  getBits w0 5 7 != 0 || getBits w0 52 12 != 0 || getBits w1 0 12 != 0 || getBits w1 52 12 != 0 ||
  getBits w2 4 12 != 0 || getBits w2 28 4 != 0 || getBits w2 44 20 != 0 ||
  regHi w1 < regLo w0 ||
  (w2.getLsbD 2 && getBits w2 32 12 < getBits w2 16 12) ||
  (w2.getLsbD 0 && (!d.fb HBM.PART.LOCK || !d.fabRange (regLo w0) (regHi w1)))

/-- The lowest other enabled region that the pages meet (R338). -/
def Dev.regMeets (d : Dev) (i lo hi : Nat) : Option Nat :=
  (List.range 256).find? fun j => j != i &&
    (let w0 := d.reg (FPC.REGION0.WORD0 j)
     w0.getLsbD 0 && lo ≤ regHi (d.reg (FPC.REGION1.WORD1 j)) && regLo w0 ≤ hi)

/-- A change of a region entry marked (R340): the pages that it held before, and those that it holds after, whether or not it was
enabled. -/
def Dev.regMark (d : Dev) (i : Nat) (w0 w1 : Word) : Dev :=
  { d with fpc := ⟨d.fpc.chg ++ [⟨d.fpc.next, i, regLo w0, regHi w1⟩], d.fpc.next + 1⟩ }

/-- MPUSET's effect and its status word. -/
def Dev.mpuset (d : Dev) (i : Nat) (w0 w1 w2 : Word) : Nat × Dev :=
  if i > 255 || d.regBad w0 w1 w2 then (pBADARG, d)
  else if d.regionLocked i then (pLOCKED, d)
  else match (if w0.getLsbD 0 then d.regMeets i (regLo w0) (regHi w1) else none) with
    | some j =>
      let d := ((d.setF FPC.OVL.NEW i).setF FPC.OVL.OTHER j).setF FPC.OVL.V 1
      (pOVERLAP + j * 256, d.raiseSys 1 (i + j * 256))
    | none =>
      let d := d.regMark i (d.reg (FPC.REGION0.WORD0 i)) (d.reg (FPC.REGION1.WORD1 i))
      let d := ((d.setReg (FPC.REGION0.WORD0 i) w0).setReg (FPC.REGION1.WORD1 i) w1).setReg (FPC.REGION2.WORD2 i) w2
      (pOK, (d.regMark i w0 w1).setF (FPC.REGIONL.CHG i) 1)

/-- MPULOCK's effect and its status (R339): the lock extends slot 5 through the darkroom. -/
def Dev.mpulock (d : Dev) (i : Nat) : Nat × Dev :=
  if i > 255 then (pBADARG, d)
  else if d.regionLocked i then (pOK, d)
  else
    let ws := [d.reg (FPC.REGION0.WORD0 i), d.reg (FPC.REGION1.WORD1 i), d.reg (FPC.REGION2.WORD2 i)]
    let dig := sha384 (BitVec.ofNat 8 i :: (ws.map fun w => leBytes 8 w.toNat).flatten)
    (pOK, (d.setF (FPC.REGIONL.LOCK i) 1).feSend 0x20 i ([5, 8] ++ dig))

/-- A privileged instruction that returns a status (R191). -/
def Dev.privOp (d : Dev) (t : Nat) (rd : BitVec 5) (illegal : Bool) (k : Dev → Nat × Dev) : Dev :=
  d.issue t true illegal fun d =>
    let (v, d) := k d
    d.give t rd.toNat (w64 v)

/-- MPUSET (R253, R334, R338). -/
def execMpuset (t : StrandIx) (f : FX) (s : State) : Result :=
  s.act fun _ d => d.privOp t f.rd (f.rb.toNat > 29 || f.rc != 0) fun d =>
    d.mpuset (d.gr t f.ra).toNat (d.gr t f.rb) (d.gr1 t f.rb 1) (d.gr1 t f.rb 2)

/-- MPULOCK (R339). -/
def execMpulock (t : StrandIx) (f : FX) (s : State) : Result :=
  s.act fun _ d => d.privOp t f.rd (f.rb != 0 || f.rc != 0) fun d => d.mpulock (d.gr t f.ra).toNat

end Sys2Proof.Machine
end

