-- ==== Sys2Proof/Machine/QmCmd.lean ====
section
/-! DEFINITION. The commands of the queue manager: its instructions (R242–R244), its own steps (R285, R295–R302), its table
commands (R307, R311) and registers (R291, R310); and SLRESET, which reaches into every unit (R45, R306). -/

namespace Sys2Proof.Machine

/-- The slice that the checks of a strand's command use; none at fabric privilege (R287). -/
def Strand.owner (x : Strand) : Option Nat := if x.priv then none else some x.slice

/-- A queue that the strand may name (R243). -/
def Dev.mayName (d : Dev) (t q : Nat) : Bool := (d.str t).priv || d.qSlice q == (d.str t).slice

/-- ENQ or QREL: a 64-byte command from a block of eight registers, with release; the strand waits for its result (R242). -/
def Dev.qmSubmit (d : Dev) (t : Nat) (f : FX) (rel : Bool) : Dev :=
  d.issue t false (!blockReg f.rb || f.ra != 0 || f.rc != 0) fun d =>
    d.released t fun d =>
      (d.waitOn t (.enq f.rd.toNat)).qmTake ⟨rel, (d.str t).owner, leNat (d.grLine t f.rb), 0, some t⟩

/-- ENQ (R242). -/
def execEnq (t : StrandIx) (f : FX) (s : State) : Result := s.act fun _ d => d.qmSubmit t f false

/-- QREL (R242). -/
def execQrel (t : StrandIx) (f : FX) (s : State) : Result := s.act fun _ d => d.qmSubmit t f true

/-- The reason that DEQ takes nothing (R244), none where it may. -/
def Dev.deqReason (d : Dev) (t q : Nat) : Option Nat :=
  if q ≥ 131072 then some 3
  else if !d.mayName t q then some 2
  else if d.qSched q then some 1
  else if (d.pkts q).isEmpty then some 0
  else none

/-- DEQ (R244): a head that is spilled is waited for. A value in rb or rc, which the text gives no use, is ILLEGAL (DESIGN CHOICE, log
entry 145). -/
def execDeq (t : StrandIx) (f : FX) (s : State) : Result :=
  s.act fun _ d => d.issue t false (f.rd.toNat % 4 != 0 || f.rd == 0 || f.rb != 0 || f.rc != 0) fun d =>
    let q := (d.gr t f.ra).toNat
    let rd := f.rd.toNat
    match d.deqReason t q with
    | some r => (d.updStr t fun x =>
        ((((x.setG rd (w64 r)).setG (rd + 1) 0).setG (rd + 2) 0).setG (rd + 3) 0).withV false).primNext t false
    | none =>
      match d.readyHead q with
      | none => d.waitOn t (.hold 3)
      | some p =>
        let x := leNat (d.descriptor q p)
        let d := d.qmOp fun d => d.departPkt q (d.qSlice q) p
        (d.updStr t fun y => ((List.range 4).foldl (fun (y : Strand) i => y.setG (rd + i) (w64 (bitsN x (64 * i) 64))) y).withV true).primNext t false

/-- QSTAT (R242, R243). A value in rb or rc, which the text gives no use, is ILLEGAL (DESIGN CHOICE, log entry 145). -/
def execQstat (t : StrandIx) (f : FX) (s : State) : Result :=
  s.act fun _ d => d.issue t false (f.rb != 0 || f.rc != 0) fun d =>
    let q := (d.gr t f.ra).toNat
    if q ≥ 131072 || !d.mayName t q then d.primGiveV t f.rd.toNat 0 false
    else
      let ps := d.pkts q
      d.primGiveV t f.rd.toNat (w64 (min ps.length (2 ^ 32 - 1) + min (cellsOf ps) (2 ^ 32 - 1) * 2 ^ 32)) true

/-- FRING_REFILL (R285): ring `r` of slice `n` receives the run that begins at cell `c`. -/
def execFringRefill (n : Fin 4096) (r : Fin 8) (c : Fin 196608) (s : State) : Result :=
  s.act fun _ d => d.when d.fdUp fun d => d.qmOp fun d => d.fringRefill (8 * n.val + r.val) c

/-- SCHEDULED_DEQUEUE (R298, R299). -/
def execScheduledDequeue (s : State) : Result :=
  s.act fun _ d => d.when d.fdUp fun d => d.qmOp fun d => d.schedDequeue

/-- SHAPER_CREDIT (R302). -/
def execShaperCredit (s : State) : Result := s.act fun _ d => d.when d.fdUp fun d => d.shaperStep

/-- SPILL_STEP (R295): the packet's spill cells are the free ones from `start` on. -/
def execSpillStep (start : BitVec 29) (s : State) : Result :=
  s.act fun _ d => d.when d.fdUp fun d => d.spillStep start.toNat

/-- REFILL (R296, R297). -/
def execRefill (q : BitVec 17) (ue : BitVec 256) (s : State) : Result :=
  s.act fun _ d => d.when d.fdUp fun d => d.refill q.toNat ue

/-- A write of QM.TCMD with GO set. -/
def tcmdWord (t i op : Nat) : Word := w64 (t + i * 2 ^ 3 + op * 2 ^ 20 + 2 ^ 62)

/-- QM_TABLE_READ (R311). -/
def execQmTableRead (tbl : BitVec 3) (i : BitVec 17) (s : State) : Result :=
  s.act fun _ d => d.when d.cspOn fun d => d.tcmdWrite (tcmdWord tbl.toNat i.toNat 1)

/-- QM_TABLE_WRITE (R311). -/
def execQmTableWrite (tbl : BitVec 3) (i : BitVec 17) (s : State) : Result :=
  s.act fun _ d => d.when d.cspOn fun d => d.tcmdWrite (tcmdWord tbl.toNat i.toNat 2)

/-- FLUSH (R307). -/
def execFlush (tbl : BitVec 3) (i : BitVec 17) (s : State) : Result :=
  s.act fun _ d => d.when d.cspOn fun d => d.tcmdWrite (tcmdWord tbl.toNat i.toNat 3)

/-- QM_SPILL_WRITE (R310). -/
def execQmSpillWrite (v : Word) (s : State) : Result := s.act fun _ d => d.when d.cspOn fun d => d.spillWrite v

/-- QM_GTH_WRITE (R291). -/
def execQmGthWrite (v : Word) (s : State) : Result := s.act fun _ d => d.when d.cspOn fun d => d.gthWrite v

/-! ## SLRESET (R45) -/

/-- The queues of a slice at index 0 and idle, reservations and held completions gone. -/
def Dev.resetQueues (d : Dev) (n : Nat) : Dev :=
  (List.range 8).foldl (fun d q =>
    let d := (d.setHeld n q []).setReg (SLICE.CQB.HEAD n q) 0
    (d.setReg (SLICE.SQB.HEAD n q) 0).setF (SLICE.SQB.STATE n q) (b2n (d.fb (SLICE.SQA.EN n q))))
    ({ d.forget (OwnFor.ofSlice n) with wq := { d.wq with sqOwn := Tbl.drop (fun k => k / 8 == n) d.wq.sqOwn } })

/-- The windows of a slice idle. -/
def Dev.resetWindows (d : Dev) (n : Nat) : Dev :=
  ((d.wq.win.map (·.1)).filter fun k => k / 64 == n).foldl (fun d k =>
    d.setWin n (k % 64) { d.win n (k % 64) with state := 0, nr := false, ovr := false, cmd := none }) d

/-- The slice's channels emptied. -/
def Dev.resetChannels (d : Dev) (n : Nat) : Dev :=
  let mine := (d.sor.chan.map (·.1)).filter fun k =>
    d.f (SORUS.CHCFG.SLICE (k / 256) (k % 256)) == n && !d.fb (SORUS.CHCFG.PRIV (k / 256) (k % 256))
  mine.foldl (fun d k =>
    let x := d.ch (k / 256) (k % 256)
    d.setCh (k / 256) (k % 256) ⟨x.w, x.w, x.w, x.w, 0⟩) d

/-- The route of a source targets the slice. -/
def Dev.routeTo (d : Dev) (i n : Nat) : Bool :=
  match d.f (EVT.ROUTE.DEST i) with
  | 1 => d.f (EVT.ROUTE.SLICE i) == n
  | 2 =>
    let s := d.f (EVT.ROUTE.SORUS i)
    let c := d.f (EVT.ROUTE.CHAN i)
    d.f (SORUS.CHCFG.SLICE s c) == n && !d.fb (SORUS.CHCFG.PRIV s c)
  | _ => false

/-- The records held for the slice discarded. -/
def Dev.resetEvents (d : Dev) (n : Nat) : Dev :=
  ((d.csr.filter fun e => 0xB90000 ≤ e.1 && e.1 < 0xB92000 && e.2.getLsbD 3).map fun e => (e.1 - 0xB90000) / 8).foldl
    (fun d i => if d.routeTo i n then d.setF (EVT.ROUTE.PEND i) 0 else d) d

/-- SLRESET and its status (R45). -/
def Dev.slReset (d : Dev) (n : Nat) : Nat × Dev :=
  if n ≥ 4096 then (bBAD_ARG, d)
  else match d.sliceState n with
    | 0 => (bSLICE_FREE, d)
    | 3 => (bOK, ((((d.resetQueues n).resetWindows n).resetChannels n).resetEvents n).qmReset n)
    | _ => (bNOT_QUIESCED, d)

/-- SLRESET (R45, R306). -/
def execSlreset (t : StrandIx) (f : FX) (s : State) : Result :=
  s.act fun _ d => d.bindOp t f (f.rc != 0 || f.ra != 0) fun d _ n => d.slReset n

end Sys2Proof.Machine
end

