-- ==== Sys2Proof/Machine/Bar0.lean ====
section
/-! DEFINITION. Host accesses to BAR0 (R21–R24, R437): the doorbell, counter, window and queue-manager pages of slice frames
(R263, R272–R275, R289, R293, R384), the manager queue's frame (R277), the MSI-X structures (R381), and the requests that a
generation change held (R36). -/

namespace Sys2Proof.Machine

/-! ## Doorbell pages (R263, R277) -/

/-- The status words of SQ `q` and CQ `q`. -/
def Dev.sqWord (d : Dev) (n q : Nat) : Word := putBits (d.reg (SLICE.SQB.HEAD n q)) 32 2 (d.sqState n q)
def Dev.cqWord (d : Dev) (n q : Nat) : Word := d.reg (SLICE.CQB.HEAD n q)

/-- Byte `o` of the doorbell page of slice `n`; the manager's page has queue 0 alone, and no windows. Write-only and
unlisted locations read 0. -/
def Dev.dbByte (d : Dev) (n o : Nat) : Byte :=
  let qs := if n == mgrN then 1 else 8
  if 0x100 ≤ o && o < 0x100 + 8 * qs then byteOf (d.sqWord n ((o - 0x100) / 8)).toNat (o % 8)
  else if 0x140 ≤ o && o < 0x140 + 8 * qs then byteOf (d.cqWord n ((o - 0x140) / 8)).toNat (o % 8)
  else if n != mgrN && 0x800 ≤ o && o < 0xA00 then byteOf (d.winWord n ((o - 0x800) / 8)).toNat (o % 8)
  else 0

/-- A write into a doorbell page: one aligned write of 4 bytes to a listed location, or it is discarded and counted. -/
def Dev.dbWrite (d : Dev) (p n o : Nat) (bs : List Byte) : Dev :=
  let v := leNat bs
  let q := o % 32 / 4
  if bs.length != 4 || o % 4 != 0 || o ≥ 0x60 || (n == mgrN && q != 0) then d.accErr p
  else if o < 0x20 then d.sqDoorbell p n q v
  else if o < 0x40 then d.cqDoorbell p n q v
  else d.sqControl p n q v

/-! ## MSI-X structures (R381) -/

/-- The sixteen bytes of a table entry, as the PCIe specification lays them out. -/
def msixBytes (e : MsixE) : List Byte := leBytes 8 e.addr.toNat ++ leBytes 4 e.data.toNat ++ leBytes 4 (b2n e.mask)

/-- Byte `o` of the structures of function `k`: the table, and at 0x400 the pending bits. -/
def Dev.msixByte (d : Dev) (p k o : Nat) : Byte :=
  if o < 0x100 then (msixBytes (Tbl.get MsixE.reset d.host.msix (msixKey p k (o / 16)))).getD (o % 16) 0
  else if o == 0x400 || o == 0x401 then
    BitVec.ofNat 8 (((List.range 8).map fun i => b2n (Tbl.get 0 d.host.pend (msixKey p k ((o - 0x400) * 8 + i)) != 0) * 2 ^ i).sum)
  else 0

/-- Bytes written into the table of function `k`; the pending bits are read-only. -/
def Dev.msixPatch (d : Dev) (p k o : Nat) (bs : List Byte) : Dev :=
  (List.range 16).foldl (fun d i =>
    if o + bs.length ≤ 16 * i || 16 * (i + 1) ≤ o then d
    else
      let old := msixBytes (Tbl.get MsixE.reset d.host.msix (msixKey p k i))
      let new := (List.range 16).map fun j =>
        if o ≤ 16 * i + j && 16 * i + j < o + bs.length then bs.getD (16 * i + j - o) 0 else old.getD j 0
      d.msixWrite p k (.entry (Fin.ofNat 16 i) (w64 (leNat (new.take 8))) (BitVec.ofNat 32 (leNat ((new.drop 8).take 4)))
        (bitN (leNat (new.drop 12)) 0))) d

/-! ## Counter pages (R23, R384) -/

/-- The 8-byte word of a counter page, where it holds one. -/
def Dev.ctrWord (d : Dev) (n o : Nat) : Option Word :=
  if o < 0x80 then some (Tbl.get 0 d.ctr.slice (n * 16 + o / 8))
  else if o < 0x100 then some (Tbl.get 0 d.ctr.sliceSh (n * 16 + (o - 0x80) / 8))
  else if o == 0x100 then some (d.reg CTR.SHTIME.T)
  else if o == 0x108 then some (w64 (d.f CTR.SHSTAT.SEQ))
  else none

/-- All bits set. -/
def ones (n : Nat) : List Byte := List.replicate n 0xFF

/-- A read of the counter page of frame `f`. -/
def Dev.ctrRead (d : Dev) (p f n o len : Nat) : List Byte :=
  if !d.fb (SLICE.CTL.CTR_USER n) then ones len
  else if 0x800 ≤ o then (if d.hasMsix p f && f < 16 then (List.range len).map fun i => d.msixByte p f (o - 0x800 + i) else ones len)
  else if len != 8 || o % 8 != 0 then ones len
  else match d.ctrWord n o with
    | some v => leBytes 8 v.toNat
    | none => ones len

/-! ## Reads -/

/-- A read of the result page, window by window (R275). -/
def Dev.resultRead (p n base : Nat) : Nat → Dev → Nat → Nat → Dev
  | 0, d, _, _ => d
  | k + 1, d, o, len =>
    if len == 0 then d
    else
      let m := min len (64 - o % 64)
      Dev.resultRead p n base k (d.winRead p n (o / 64) m (base + o)) (o + m) (len - m)

/-- A read of a frame that carries slice `n`: `o` within the frame. Command slots give the bytes that the spec leaves open. -/
def Dev.sliceFrameRead (d : Dev) (p f n off o len : Nat) : Dev :=
  match o / 0x1000 with
  | 0 => d.emit (.bar0 p off ((List.range len).map fun i => d.dbByte n (o + i)))
  | 1 => d.emit (.bar0 p off (d.ctrRead p f n (o - 0x1000) len))
  | 2 =>
    let (bs, d) := Dev.drawBytes ((len + 7) / 8) d
    d.emit (.bar0 p off (bs.take len))
  | 3 => Dev.resultRead p n (off - (o - 0x3000)) 65 d (o - 0x3000) len
  | 4 => d.emit (.bar0 p off ((List.range len).map fun i => d.enqByte n (o - 0x4000 + i)))
  | 5 => d.emit (.bar0 p off ((List.range len).map fun i => d.relByte n (o - 0x5000 + i)))
  | _ => d.emit (.bar0 p off (ones len))

/-- A read of frame 0 (R21, R277). -/
def Dev.frame0Read (d : Dev) (p o len : Nat) : Dev :=
  let mgr := p == d.mgrPort
  d.emit (.bar0 p o (
    if 0x1800 ≤ o && o < 0x2000 then (List.range len).map fun i => d.msixByte p 0 (o - 0x1800 + i)
    else if !mgr || o / 0x1000 == 1 then ones len
    else if o < 0x1000 then (List.range len).map fun i => d.dbByte mgrN (o + i)
    else Tbl.range 0 d.wq.mgr o len))

/-- A host read of BAR0, its frame decoded. -/
def Dev.bar0Read (d : Dev) (p off len : Nat) : Dev :=
  let f := off / 0x8000
  let o := off % 0x8000
  if f == 0 then d.frame0Read p o len
  else match d.frameSlice (d.hostOf p) f with
    | none => d.emit (.bar0 p off (ones len))
    | some n => d.sliceFrameRead p f n off o len

/-! ## Writes -/

/-- Bytes written into command slots, slot by slot. -/
def Dev.slotWrites (g : Dev → Nat → Nat → List Byte → Dev) : Nat → Dev → Nat → List Byte → Dev
  | 0, d, _, _ => d
  | k + 1, d, o, bs =>
    if bs.isEmpty then d
    else
      let m := 64 - o % 64
      Dev.slotWrites g k (g d (o / 64) (o % 64) (bs.take m)) (o + m) (bs.drop m)

/-- A write into the release page (R293). -/
def Dev.relWrite (d : Dev) (p n o : Nat) (bs : List Byte) : Dev :=
  let v := leNat bs
  if o + bs.length ≤ 0x400 then Dev.slotWrites (fun d s i bs => d.qmBytes n (64 + s) i bs) 65 d o bs
  else if bs.length != 4 || o % 4 != 0 || o < 0x400 || 0x4C0 ≤ o || (0x420 ≤ o && o < 0x440) then d.accErr p
  else if o < 0x420 then d.fringDoorbell p n ((o - 0x400) / 4) v
  else d.egressDoorbell p n ((o - 0x440) / 4) v

/-- A write to a frame that carries slice `n`. What no rule takes is discarded and counted (R23). -/
def Dev.sliceFrameWrite (d : Dev) (p f n o : Nat) (bs : List Byte) : Dev :=
  match o / 0x1000 with
  | 0 => d.dbWrite p n o bs
  | 1 => if 0x1800 ≤ o && d.hasMsix p f && f < 16 then d.msixPatch p f (o - 0x1800) bs else d.accErr p
  | 2 => Dev.slotWrites (fun d s i bs => d.winBytes p n s i bs) 65 d (o - 0x2000) bs
  | 4 => Dev.slotWrites (fun d s i bs => d.qmBytes n s i bs) 65 d (o - 0x4000) bs
  | 5 => d.relWrite p n (o - 0x5000) bs
  | _ => d.accErr p

/-- A write to frame 0. -/
def Dev.frame0Write (d : Dev) (p o : Nat) (bs : List Byte) : Dev :=
  if 0x1800 ≤ o && o < 0x2000 then d.msixPatch p 0 (o - 0x1800) bs
  else if p != d.mgrPort || o / 0x1000 == 1 then d.accErr p
  else if o < 0x1000 then d.dbWrite p mgrN o bs
  else { d with wq := { d.wq with mgr := Tbl.putRange 0 d.wq.mgr o bs } }

/-- A host write to BAR0, its frame decoded. -/
def Dev.bar0Write (d : Dev) (p off : Nat) (bs : List Byte) : Dev :=
  let f := off / 0x8000
  let o := off % 0x8000
  if f == 0 then d.frame0Write p o bs
  else match d.frameSlice (d.hostOf p) f with
    | none => d.accErr p
    | some n => d.sliceFrameWrite p f n o bs

/-! ## Accesses as hosts make them -/

/-- An access that PCIe lets a host make: of at least one byte, within a 4 KiB page. -/
def bar0Fits (off len : Nat) : Bool := 0 < len && off % 4096 + len ≤ 4096

/-- A read at a port: held with its frame's decoding during a generation change, frame 0 apart (R36). -/
def Dev.hostBar0Read (d : Dev) (p : Fin 96) (off len : Nat) : Dev :=
  d.when (d.hostPort p && bar0Fits off len) fun d =>
    if off < 0x8000 then d.bar0Read p off len else d.hold p (.bar0Rd p off len) fun d => d.bar0Read p off len

/-- A write at a port. -/
def Dev.hostBar0Write (d : Dev) (p : Fin 96) (off : Nat) (bs : List Byte) : Dev :=
  d.when (d.hostPort p && bar0Fits off bs.length) fun d =>
    if off < 0x8000 then d.bar0Write p off bs else d.hold p (.bar0Wr p off bs) fun d => d.bar0Write p off bs

/-- The offset in BAR0 of offset `o` of frame `f`. -/
def frameOff (f : BitVec 9) (o : Nat) : Nat := f.toNat * 0x8000 + o

/-- A held request taken up. -/
def Dev.takeUp (d : Dev) (r : HostReq) : Dev :=
  match r with
  | .bar0Rd p off len => d.bar0Read p off len
  | .bar0Wr p off bs => d.bar0Write p off bs
  | .memRd _ _ | .memRdData _ _ | .memWr _ _ | .memWrPtl _ _ | .memClnEvct _ _ | .pcieRd _ _ | .pcieWr _ _ _
  | .pcieAt _ _ _ _ _ _ _ | .lateWr _ _ _ | .lateCln _ _ => d.memReq r

/-- The banks of a host swap, and decoding resumes with the requests that its port held, in their order (R36). -/
def Dev.swapBanks (d : Dev) (h : Nat) : Dev :=
  let mine := d.bind.held.filter fun r => d.hostOf (heldPort r) == h
  let d : Dev := { d with bind := { d.bind with held := d.bind.held.filter fun r => d.hostOf (heldPort r) != h } }
  let d := d.genSwap h
  mine.foldl Dev.takeUp (match d.portOfHost h with | some p => d.walksOn p | none => d)

/-! ## The commands -/

/-- GEN_SWAP (R36). -/
def execGenSwap (h : Fin 64) (s : State) : Result :=
  s.act fun _ d => d.when (d.fdUp && d.fb (BIND.HGEN.PEND h) && Tbl.get 0 d.bind.swapped h == 0) fun d => d.swapBanks h

/-- BAR0_READ (R437): `n` bytes at `off`. -/
def execBar0Read (p : Fin 96) (off : BitVec 24) (n : Nat) (s : State) : Result :=
  s.act fun _ d => d.hostBar0Read p off.toNat n

/-- BAR0_WRITE (R23). -/
def execBar0Write (p : Fin 96) (off : BitVec 24) (bs : List Byte) (s : State) : Result :=
  s.act fun _ d => d.hostBar0Write p off.toNat bs

/-- SQ_TAIL_DOORBELL (R264): of the slice in frame `f`, or of the manager queue in frame 0. -/
def execSqTailDoorbell (p : Fin 96) (f : BitVec 9) (q : Fin 8) (v : BitVec 32) (s : State) : Result :=
  s.act fun _ d => d.hostBar0Write p (frameOff f (4 * q)) (leBytes 4 v.toNat)

/-- CQ_HEAD_DOORBELL (R265). -/
def execCqHeadDoorbell (p : Fin 96) (f : BitVec 9) (q : Fin 8) (v : BitVec 32) (s : State) : Result :=
  s.act fun _ d => d.hostBar0Write p (frameOff f (0x20 + 4 * q)) (leBytes 4 v.toNat)

/-- SQ_RESTART (R267): 1 in the control word. -/
def execSqRestart (p : Fin 96) (f : BitVec 9) (q : Fin 8) (s : State) : Result :=
  s.act fun _ d => d.hostBar0Write p (frameOff f (0x40 + 4 * q)) (leBytes 4 1)

/-- SQ_SKIP (R267): 2 in the control word. -/
def execSqSkip (p : Fin 96) (f : BitVec 9) (q : Fin 8) (s : State) : Result :=
  s.act fun _ d => d.hostBar0Write p (frameOff f (0x40 + 4 * q)) (leBytes 4 2)

/-- WINDOW_COMMAND (R273): the 64 bytes of window `w`'s command slot written. -/
def execWindowCommand (p : Fin 96) (f : BitVec 9) (w : Fin 64) (x : Line) (s : State) : Result :=
  s.act fun _ d => d.hostBar0Write p (frameOff f (0x2000 + 64 * w)) (lineBytes x)

/-- RESULT_SLOT_READ (R275): `n` bytes at `off` of window `w`'s result slot. -/
def execResultSlotRead (p : Fin 96) (f : BitVec 9) (w : Fin 64) (off : BitVec 6) (n : BitVec 7) (s : State) : Result :=
  s.act fun _ d => d.hostBar0Read p (frameOff f (0x3000 + 64 * w + off.toNat)) n.toNat

/-- NOT_READY (R275): HOLD passes for the read held at offset `off` of BAR0. -/
def execNotReady (p : Fin 96) (off : BitVec 24) (s : State) : Result :=
  s.act fun _ d => d.when (d.hostPort p) fun d => d.notReady p off.toNat

/-- ENQUEUE_COMMAND (R288): the 64 bytes of an enqueue slot written. -/
def execEnqueueCommand (p : Fin 96) (f : BitVec 9) (w : Fin 64) (x : Line) (s : State) : Result :=
  s.act fun _ d => d.hostBar0Write p (frameOff f (0x4000 + 64 * w)) (lineBytes x)

/-- RELEASE_COMMAND (R294): the 64 bytes of a release slot written. -/
def execReleaseCommand (p : Fin 96) (f : BitVec 9) (w : Fin 16) (x : Line) (s : State) : Result :=
  s.act fun _ d => d.hostBar0Write p (frameOff f (0x5000 + 64 * w)) (lineBytes x)

/-- FRING_HEAD_DOORBELL (R286). -/
def execFringHeadDoorbell (p : Fin 96) (f : BitVec 9) (r : Fin 8) (v : BitVec 32) (s : State) : Result :=
  s.act fun _ d => d.hostBar0Write p (frameOff f (0x5400 + 4 * r)) (leBytes 4 v.toNat)

/-- EGRESS_HEAD_DOORBELL (R305). -/
def execEgressHeadDoorbell (p : Fin 96) (f : BitVec 9) (e : Fin 32) (v : BitVec 32) (s : State) : Result :=
  s.act fun _ d => d.hostBar0Write p (frameOff f (0x5440 + 4 * e)) (leBytes 4 v.toNat)

end Sys2Proof.Machine
end

