-- ==== Sys2Proof/Machine/Events.lean ====
section
/-! DEFINITION. Event routes and delivery (R378–R382), counter reads (R384, R393), shutter snapshots (R387, R255, R358), and
the commands of these and of the contact sheets. -/

namespace Sys2Proof.Machine

/-! ## Routes and delivery -/

/-- The sources of darkroom origin, system sources 16 to 20 (R376): their routes ignore writes (R382). -/
def darkSource (i : Nat) : Bool := 976 ≤ i && i < 981

/-- A write of EVT.ROUTE[i] (R378, R392): DEST 3 is reserved, and 1 in PEND discards the held record. -/
def Dev.routeWrite (d : Dev) (i : Nat) (v : Word) : Dev :=
  if darkSource i then d
  else
    let old := d.reg (EVT.ROUTE.DEST i)
    let keep := getBits old 0 2
    let pend := getBits old 3 1 * (1 - getBits v 3 1)
    let v := putBits (putBits (putBits v 33 31 0) 3 1 pend) 0 2 (if getBits v 0 2 == 3 then keep else getBits v 0 2)
    d.setReg (EVT.ROUTE.DEST i) v

/-- The channel can take a record (R378): it is enabled, no Frond of its sorus is being fenced, and in credit mode two words
have room. -/
def Dev.recordRoom (d : Dev) (s c : Nat) : Bool :=
  d.fb (SORUS.CHCFG.EN s c) && !((List.range 9).any fun i => Tbl.get 0 d.sor.fencing (s * 9 + i) != 0) &&
    (d.chSpill s c || (d.ch s c).w - (d.ch s c).f + 2 ≤ d.chDepth s c)

/-- The held record of source `i` delivered where its route allows (R378). -/
def Dev.deliver (d : Dev) (i : Nat) : Dev :=
  if !d.fb (EVT.ROUTE.PEND i) || d.fb (EVT.ROUTE.MASK i) then d
  else
    let n := d.f (EVT.ROUTE.SLICE i)
    match d.f (EVT.ROUTE.DEST i) with
    | 1 =>
      if d.f (SLICE.HOSTS.MASK n) == 0 then d
      else (d.raiseVec n (d.f (EVT.ROUTE.VEC i))).setF (EVT.ROUTE.PEND i) 0
    | 2 =>
      let s := d.f (EVT.ROUTE.SORUS i)
      let c := d.f (EVT.ROUTE.CHAN i)
      if !d.recordRoom s c then d
      else
        let d := (d.chWrite s c (d.reg (EVT.RECA.HEAD i))).chWrite s c (d.reg (EVT.RECB.TIME i))
        (d.countSlice (d.f (SORUS.CHCFG.SLICE s c)) 15 1).setF (EVT.ROUTE.PEND i) 0
    | _ => d

/-! ## Counter reads (R384–R386, R393) -/

/-- What CTR.RVAL reads. -/
def Dev.rval (d : Dev) : Word :=
  let i := d.f CTR.RSEL.INDEX
  match d.fb CTR.RSEL.SPACE, d.fb CTR.RSEL.SHADOW with
  | false, false => if i < 2612 then Tbl.get 0 d.ctr.unit i else 0
  | false, true => if i < 2612 then Tbl.get 0 d.ctr.unitSh i else 0
  | true, false => Tbl.get 0 d.ctr.slice i
  | true, true => Tbl.get 0 d.ctr.sliceSh i

/-- A write of CTR.FSEL[p]: reserved event codes keep the field, and CLR zeroes the counters (R385, R393). -/
def Dev.fselWrite (d : Dev) (p : Nat) (v : Word) : Dev :=
  let d := (List.range 8).foldl (fun d j =>
    let c := getBits v (7 * j) 7
    if c < 20 then d.setReg (CTR.FSEL.CLR p) (putBits (d.reg (CTR.FSEL.CLR p)) (7 * j) 7 c) else d) d
  if getBits v 56 1 == 0 then d
  else { d with ctr := { d.ctr with pmc := Tbl.drop (fun k => k / 8 == p) d.ctr.pmc } }

/-! ## Snapshots -/

/-- Every shadow takes its counter's value. -/
def Dev.shadows (d : Dev) : Dev :=
  { d with ctr := { d.ctr with
      sliceSh := d.ctr.slice
      unitSh := d.ctr.unit
      snap := d.ctr.snap.map fun x => (x.1, true) } }

/-- A snapshot with instant `t` starts, and takes the shadows at once where that has come; a trigger during one joins it. -/
def Dev.snapStart (d : Dev) (t : Nat) : Dev :=
  match d.ctr.snap with
  | some _ => d
  | none =>
    let d := { d with ctr := { d.ctr with snap := some (t, false) } }.setF CTR.SHSTAT.BUSY 1
    if t ≤ d.time then d.shadows else d

/-- The strands that wait for the snapshot, with their destinations. -/
def Dev.shutWaits (d : Dev) : List (Nat × Nat) :=
  d.sor.strand.filterMap fun e => match e.2.wait with
    | .shut rd => some (e.1, rd)
    | _ => none

/-- The snapshot completes (R387). -/
def Dev.snapDone (d : Dev) : Dev :=
  match d.ctr.snap with
  | none => d
  | some (t, held) =>
    let d := if held then d else d.shadows
    let d : Dev := { d with ctr := { d.ctr with snap := none } }
    let d := (d.updF CTR.SHSTAT.SEQ fun n => (n + 1) % 2 ^ 32).setF CTR.SHSTAT.BUSY 0
    let d := (d.setReg CTR.SHTIME.T (w64 t)).count 2609 1
    let d := d.raiseSys 8 (d.f CTR.SHSTAT.SEQ)
    d.shutWaits.foldl (fun d e => d.give e.1 e.2 (w64 t)) d

/-! ## The commands -/

/-- SHUTTER_IN_EDGE (R358, R387): T lies 40 to 200 ns after the edge; an edge during a snapshot joins it and is counted. -/
def execShutterInEdge (delay : Nat) (s : State) : Result :=
  s.act fun _ d => d.when d.fdUp fun d =>
    if d.ctr.snap.isSome then d.count 2608 1 else d.snapStart (d.now + max 40 (min 200 delay))

/-- SHUTTER_TIMER (R387): T is the multiple of PERIOD that fabric time has reached. -/
def execShutterTimer (s : State) : Result :=
  s.act fun _ d =>
    let p := d.f CTR.SHCTL.PERIOD * 1000000
    d.when (d.fdUp && p != 0) fun d => d.snapStart (d.now - d.now % p)

/-- SNAPSHOT_COMPLETE (R387). -/
def execSnapshotComplete (s : State) : Result := s.act fun _ d => d.when d.fdUp fun d => d.snapDone

/-- SHEET_DUMP (R390, R391). -/
def execSheetDump (k : Fin 16) (s : State) : Result := s.act fun _ d => d.when d.fdUp fun d => d.sheetDump k

/-- EVENT_DELIVERY (R378). -/
def execEventDelivery (k : Fin 1024) (s : State) : Result := s.act fun _ d => d.when d.fdUp fun d => d.deliver k

/-- SHUTTER (R255): it returns when the snapshot is complete. -/
def execShutter (t : StrandIx) (f : FX) (s : State) : Result :=
  s.act fun _ d => d.issue t true (f.ra != 0 || f.rb != 0 || f.rc != 0) fun d =>
    (d.waitOn t (.shut f.rd.toNat)).snapStart (d.now + 200)

/-- SHEETCFG (R255, R389). A value in rc, which the text gives no use, is ILLEGAL (DESIGN CHOICE, log entry 145). -/
def execSheetcfg (t : StrandIx) (f : FX) (s : State) : Result :=
  s.act fun _ d => d.privOp t f.rd (f.rb.toNat > 28 || f.rc != 0) fun d =>
    d.sheetcfg (d.gr t f.ra).toNat (d.gr t f.rb) (d.gr1 t f.rb 1) (d.gr1 t f.rb 2) (d.gr1 t f.rb 3)

/-- EVT_ROUTE_WRITE (R378). -/
def execEvtRouteWrite (k : Fin 1024) (v : Word) (s : State) : Result :=
  s.act fun _ d => d.when d.cspOn fun d => d.routeWrite k v

/-- FSEL_CLR (R393): a write of CTR.FSEL[p] that carries CLR. -/
def execFselClr (p : Fin 288) (v : Word) (s : State) : Result :=
  s.act fun _ d => d.when d.cspOn fun d => d.fselWrite p (putBits v 56 1 1)

end Sys2Proof.Machine
end

