-- ==== Sys2Proof/Machine/Csr.lean ====
section
/-! DEFINITION. The control space as its requesters see it (R18–R20, R251): reads and writes of a register by its map and its
access codes, the mailbox registers (R373, R374), and the commands that are made of them. -/

namespace Sys2Proof.Machine

/-! ## Reads -/

/-- The bits of a register that a read gives: its fields but those write only; reserved bits read 0 (R6). -/
def RegDesc.readMask (r : RegDesc) : Nat :=
  (r.flds.map fun x => if x.acc == .wo then 0 else (2 ^ x.w - 1) * 2 ^ x.lo).sum

/-- A field in place. -/
def fieldAt (x : FRef) (v : Nat) : Nat := v % 2 ^ x.w * 2 ^ x.lo

/-- A START strand runs for a channel (R188). -/
def Dev.chRuns (d : Dev) (s c : Nat) : Bool := (d.running s).any fun e => e.2.work.kind == 2 && e.2.work.src == c

/-- SORUS[n].CHSTAT[c]: what follows the channel's counts, with LOST as held. -/
def Dev.chStat (d : Dev) (s c : Nat) : Nat :=
  fieldAt (SORUS.CHSTAT.OCC s c) ((d.ch s c).w - (d.ch s c).f) + fieldAt (SORUS.CHSTAT.SPILL s c) (b2n (d.chSpill s c)) +
    fieldAt (SORUS.CHSTAT.RUNNING s c) (b2n (d.chRuns s c)) + fieldAt (SORUS.CHSTAT.LOST s c) (d.f (SORUS.CHSTAT.LOST s c))

/-- SLICE[n].QSTAT: what the quiesce of R41 waits for. -/
def Dev.qStat (d : Dev) (n : Nat) : Nat :=
  fieldAt (SLICE.QSTAT.STRANDS n) (d.sliceStrands n).length + fieldAt (SLICE.QSTAT.CSLOTS n) (d.cslots n) +
    fieldAt (SLICE.QSTAT.QMCMD n) (d.qm.todo.filter fun c => !c.rel && c.own == some n).length +
    fieldAt (SLICE.QSTAT.MOVES n) (d.moveCount n) + fieldAt (SLICE.QSTAT.DUMP n) (b2n (d.dumping n))

/-- FPC.STAT. -/
def Dev.fpcStat (d : Dev) : Nat :=
  let marked := ((List.range 256).filter fun i => d.fb (FPC.REGIONL.CHG i)).length
  let locks := ((List.range 256).filter fun i => d.regionLocked i).length
  let busy := d.sor.strand.any fun e => match e.2.wait with | .rsync .. => true | _ => false
  fieldAt FPC.STAT.NCHG marked + fieldAt FPC.STAT.RSBUSY (b2n busy) + fieldAt FPC.STAT.NLOCK (min locks 255)

/-- HOME[n].SFSTAT: valid entries, those in the recall buffer apart, recall-buffer entries in use, and WAITMAX as held. -/
def Dev.sfStat (d : Dev) (n : Nat) : Nat :=
  fieldAt (HOME.SFSTAT.OCC n) (d.coh.sfWay.filter fun e => homeOf e.1 == n).length + fieldAt (HOME.SFSTAT.RECALLS n) (d.recalls n) +
    fieldAt (HOME.SFSTAT.WAITMAX n) (d.f (HOME.SFSTAT.WAITMAX n))

/-- BIND.HGEN[h].PORT and LINK: the port that presents host `h`, 127 for none, and whether its link is up. -/
def Dev.hgenPort (d : Dev) (h : Nat) : Nat :=
  match d.portOfHost h with
  | none => fieldAt (BIND.HGEN.PORT h) 127
  | some p => fieldAt (BIND.HGEN.PORT h) p + fieldAt (BIND.HGEN.LINK h) (b2n (d.linkUp p))

/-- The fields of a register that are not held but follow from the rest of the state: their mask and value. -/
def Dev.computed (fz : Fuse) (d : Dev) (base n i : Nat) : Nat × Nat :=
  let all := 2 ^ 64 - 1
  let at_ := fun (x : FRef) => (2 ^ x.w - 1) * 2 ^ x.lo
  if base == 0x18 then (all, fz.vt)
  else if base == 0xBC0018 then (all, (d.wdRead false).toNat)
  else if base == 0xBC0020 then (all, (d.wdRead true).toNat)
  else if base == 0xBC1000 then (at_ (BIND.HGEN.PORT i) + at_ (BIND.HGEN.LINK i), d.hgenPort i)
  else if base == 0x1000008 then (at_ (SLICE.STATE.EXTENTS n), fieldAt (SLICE.STATE.EXTENTS n) (d.extents n))
  else if base == 0x1000020 then (all, d.qStat n)
  else if base == 0x800220 then (all, d.sfStat n)
  else if base == 0x901000 then (at_ (SORUS.SPTABA.RUN n i), fieldAt (SORUS.SPTABA.RUN n i) (d.sporeRun n i))
  else if base == 0x905800 then (all, d.chStat n i)
  else if base == 0xB40028 then (at_ QM.STAT.OPBFREE, fieldAt QM.STAT.OPBFREE d.opbFree)
  else if base == 0xB40030 then (all, fieldAt QM.SPSTAT.SPUSED d.spCells.length + fieldAt QM.SPSTAT.SPCAP d.spCap)
  else if base == 0xB80000 then (all, d.fpcStat)
  else if base == 0xB80028 then (at_ FPC.DBG.OFF, fieldAt FPC.DBG.OFF (bitsN fz.policy 2 1))
  else if base == 0xBA0020 then (all, d.rval.toNat)
  else (0, 0)

/-- A read of the control space at an aligned address: 0 where no register is. -/
def Dev.cspRead (fz : Fuse) (d : Dev) (a : Nat) : Word :=
  match regAt a with
  | none => 0
  | some (r, n, i) =>
    let c := Dev.computed fz d r.base n i
    let v := (d.word a (r.coldAt i)).toNat &&& r.readMask
    w64 (v - (v &&& c.1) + c.2)

/-! ## The mailbox of the fabric manager (R373, R374) -/

/-- The message in MBXTXD. -/
def Dev.mbxBytes (d : Dev) (n : Nat) : List Byte :=
  ((List.range ((n + 7) / 8)).flatMap fun i => leBytes 8 (d.reg (SYS.MBXTXD.DATA i)).toNat).take n

/-- A write of SYS.MBXTX; `taken` where the darkroom takes the message, which it does not while it holds 16 messages for FM and has
no room for the answer (R374; log entry 151). -/
def Dev.mbxGo (fz : Fuse) (d : Dev) (v : Word) (taken : Bool) : Dev :=
  let n := getBits v 0 13
  let d := d.setF SYS.MBXTX.LEN n
  if getBits v 13 1 == 0 || d.fb SYS.MBXTX.BUSY then d
  else if n < 8 || 4096 < n then d.setF SYS.MBXTX.RES 1
  else if taken && d.drk.fmq.length < 16 then Dev.empFm fz (d.setF SYS.MBXTX.RES 0) (d.mbxBytes n)
  else d.setF SYS.MBXTX.BUSY 1

/-- A write of SYS.MBXRX: DONE releases MBXRXD, and the next message that the darkroom holds follows. -/
def Dev.mbxDone (d : Dev) (v : Word) : Dev :=
  if getBits v 14 1 == 0 || !d.fb SYS.MBXRX.V then d
  else
    let d := (d.setF SYS.MBXRX.V 0).setF SYS.MBXRX.LEN 0
    match d.drk.fmq with
    | [] => d
    | m :: ms =>
      let d : Dev := { d with drk := { d.drk with fmq := ms } }
      (d.mbxPlace m).setF SYS.MBXRX.PEND (min ms.length 16)

/-! ## Writes -/

/-- One field written under its access code (R6–R8, R436). A field under a lock is written by its own register's rule. -/
def fieldWrite (old v : Word) (x : FieldDesc) : Word :=
  let n := getBits v x.lo x.w
  let legal := match x.legal with
    | none => true
    | some (lo, hi) => lo ≤ n && n ≤ hi
  match x.acc with
  | .rw => if legal then putBits old x.lo x.w n else old
  | .rwl => if legal then putBits old x.lo x.w n else old
  | .w1c => if n == 1 then putBits old x.lo x.w 0 else old
  | .clr => if n == 0 then putBits old x.lo x.w 0 else old
  | .set => if n == 1 then putBits old x.lo x.w 1 else old
  | .ro => old
  | .wo => old

/-- A register written by its map. -/
def Dev.mapWrite (d : Dev) (r : RegDesc) (i a : Nat) (v : Word) : Dev :=
  let cold := r.coldAt i
  { d with csr := Tbl.put (w64 cold) d.csr a (r.flds.foldl (fun w x => fieldWrite w v x) (d.word a cold)) }

/-- A write of HBM[0].MIRTBL (R110, R122): BASE only while EN is clear. -/
def Dev.mirtblWrite (d : Dev) (v : Word) : Dev :=
  let d := if d.fb HBM.MIRTBL.EN then d else d.setF HBM.MIRTBL.BASE (getBits v 21 31)
  let d := if 1 ≤ getBits v 1 3 && getBits v 1 3 ≤ 6 then d.setF HBM.MIRTBL.HEDGE (getBits v 1 3) else d
  d.setF HBM.MIRTBL.EN (getBits v 0 1)

/-- A write of HBM[0].EXP[e] (R122): PORT and CAP_GIB only in ABSENT, then CMD. -/
def Dev.expCfgWrite (d : Dev) (e : Nat) (v : Word) : Dev :=
  let d := if d.f (HBM.EXP.STATE e) != 0 then d
    else (d.setF (HBM.EXP.PORT e) (getBits v 0 7)).setF (HBM.EXP.CAP_GIB e) (getBits v 7 12)
  match getBits v 30 2 with
  | 1 => d.admitExtent e
  | 2 => d.expRelease e
  | _ => d

/-- A write of PORT[n].PCIE (R125): while EN is set a change is refused. -/
def Dev.pcieCfgWrite (d : Dev) (p : Nat) (v : Word) : Dev :=
  let b := getBits v 0 6
  if b < 30 || 46 < b || b == d.f (PORT.PCIE.B2LOG p) then d
  else if d.fb (PORT.CFG.EN p) then d.setF (PORT.STAT.ERR p) 1
  else d.setF (PORT.PCIE.B2LOG p) b

/-- A write of QM.MREG (R310): ignored while the queue manager is enabled; a region that passes the end of the near table
store is reserved, and so are its two fields together. -/
def Dev.mregWrite (d : Dev) (v : Word) : Dev :=
  let sz := if getBits v 0 6 ≤ 32 then getBits v 0 6 else d.f QM.MREG.SIZE
  let base := if getBits v 6 7 ≤ 95 then getBits v 6 7 else d.f QM.MREG.BASE
  if d.fb QM.CTL.EN || base + sz > 96 then d else (d.setF QM.MREG.SIZE sz).setF QM.MREG.BASE base

/-- A write of QM.CTRBASE (R310): BASE only while EN is clear. -/
def Dev.ctrbaseWrite (d : Dev) (v : Word) : Dev :=
  let d := if d.fb QM.CTRBASE.EN then d else d.setF QM.CTRBASE.BASE (getBits v 21 31)
  d.setF QM.CTRBASE.EN (getBits v 0 1)

/-- A write of SYS.SCLK[n].CAP (R414, R415): a clock that throttling or safelight holds low stays low. -/
def Dev.sclkWrite (d : Dev) (n : Nat) (v : Word) : Dev :=
  let cap := getBits v 0 5
  if cap < 10 || 30 < cap then d
  else
    let cur := if d.safe || d.fb (SYS.SCLK.THR n) then min (d.f (SYS.SCLK.CUR n)) cap else cap
    ((d.setF (SYS.SCLK.CAP n) cap).setF (SYS.SCLK.CUR n) cur).setF (SYS.SCLK.THR n) (b2n (cur < cap))

/-- A write of word A of SORUS[n].FREC: OVF is cleared with V. -/
def Dev.frecWrite (d : Dev) (s i : Nat) (v : Word) : Dev :=
  if getBits v 0 1 == 1 then (d.setF (SORUS.FRECA.V s i) 0).setF (SORUS.FRECA.OVF s i) 0 else d

/-- A register of the SLOT block (R329), which answers while VAUX is valid. -/
def Dev.slotWrite (d : Dev) (r : RegDesc) (n i a : Nat) (v : Word) : Dev :=
  if r.base == 0xBB1000 then d.slotCtlWrite n v
  else if r.base == 0xBB1008 then d.limWrite n v
  else if r.base == 0xBB1010 then d.vthWrite n v
  else d.when d.slotUp fun d => d.mapWrite r i a v

/-- A register of the HOME or HBM blocks. -/
def Dev.memWriteReg (d : Dev) (r : RegDesc) (n i a : Nat) (v : Word) : Dev :=
  let b := r.base
  if b == 0x800000 then
    let d := d.mapWrite r i a v
    if getBits v 2 1 == 1 then d.predClr n else d
  else if b == 0x800100 then d.hgmapWrite n i v
  else if b == 0x800200 then d.recallGo n v
  else if b == 0xB00008 then
    let d := d.mapWrite r i a v
    if getBits v 22 1 == 1 then (List.range 32).foldl (fun d p => d.pcRecal n p) d else d
  else if b == 0xB00010 then d.retcfgGo n v
  else if b == 0xB08000 then d.partWrite v
  else if b == 0xB08008 then d.mirtblWrite v
  else if b == 0xB08010 then d.mirWrite v
  else if b == 0xB08020 then d.resilGo v
  else if b == 0xB09000 then d.expCfgWrite i v
  else d.mapWrite r i a v

/-- A register of the BIND or SLICE blocks. -/
def Dev.bindWrite (d : Dev) (r : RegDesc) (n i a : Nat) (v : Word) : Dev :=
  let b := r.base
  if b == 0xBC0000 then d.exttblWrite v
  else if b == 0xBC0008 then d.xinvGo v
  else if b == 0xBC0018 then d.wdWrite (decHpa v.toNat)
  else if b == 0xBC0020 then d.wdWrite (decSa v.toNat)
  else if b == 0xBC1000 then
    let d := d.mapWrite r i a v
    if getBits v 10 1 == 1 then d.hgenReq i else d
  else if b == 0x1000038 then (if getBits v 8 1 == 1 then d.dlogBump n else d)
  else if b == 0x1000100 then d.sqaWrite n i v
  else if b == 0x1000180 then d.cqaWrite n i v
  else d.mapWrite r i a v

/-- A register of the PORT blocks. -/
def Dev.portWrite (d : Dev) (r : RegDesc) (n i a : Nat) (v : Word) : Dev :=
  let b := r.base
  if b == 0x100000 then d.cfgWrite n v
  else if b == 0x100200 then d.glinkWrite v
  else if b == 0x100030 then d.pcieCfgWrite n v
  else if b == 0x100020 then
    let d := d.mapWrite r i a v
    if getBits v 23 1 == 1 then d.calStart n else d
  else d.mapWrite r i a v

/-- A register of the SORUS, QM, FPC, EVT, CTR and SYS blocks. -/
def Dev.coreWrite (fz : Fuse) (d : Dev) (r : RegDesc) (n i a : Nat) (v : Word) : Dev :=
  let b := r.base
  if b == 0x900038 then Dev.lctlWrite fz d n v
  else if b == 0x900028 || b == 0x900030 then (if d.fb (SORUS.LCTL.BUSY n) then d else d.mapWrite r i a v)
  else if b == 0x905000 then d.chcfgWrite n i v
  else if b == 0x907000 then d.frecWrite n i v
  else if b == 0xB40008 then d.mregWrite v
  else if b == 0xB40010 then d.spillWrite v
  else if b == 0xB40018 then d.gthWrite v
  else if b == 0xB40020 then d.ctrbaseWrite v
  else if b == 0xB40040 then d.tcmdWrite v
  else if b == 0xB90000 then d.routeWrite i v
  else if b == 0xBA1000 then d.fselWrite i v
  else if b == 0x18000 then Dev.mbxGo fz d v true
  else if b == 0x18008 then d.mbxDone v
  else if b == 0x10200 then d.sclkWrite i v
  else d.mapWrite r i a v

/-- A write of the control space at an aligned address; ignored where no register is. -/
def Dev.cspWrite (fz : Fuse) (d : Dev) (a : Nat) (v : Word) : Dev :=
  match regAt a with
  | none => d
  | some (r, n, i) =>
    if 0xBB0000 ≤ a && a < 0xBC0000 then d.slotWrite r n i a v
    else if (0x800000 ≤ a && a < 0x900000) || (0xB00000 ≤ a && a < 0xB40000) then d.memWriteReg r n i a v
    else if 0xBC0000 ≤ a then d.bindWrite r n i a v
    else if 0x100000 ≤ a && a < 0x700000 then d.portWrite r n i a v
    else Dev.coreWrite fz d r n i a v

/-! ## CSPRD and CSPWR (R20, R251) -/

/-- The address is inside a block. -/
def cspMapped (a : Nat) : Bool :=
  a < 0x20000 || (0x100000 ≤ a && a < 0x700000) || (0x800000 ≤ a && a < 0xC00000) || (0x1000000 ≤ a && a < 0x2000000)

/-- The outcomes of R20, for a strand whose earlier stores are done. -/
def Dev.cspAccess (d : Dev) (t : Nat) (f : FX) (illegal : Bool) (k : Nat → Dev → Dev) : Dev :=
  d.issue t true illegal fun d =>
    let a := (d.gr t f.ra).toNat
    if a % 8 != 0 then d.strandFault t cCSPALIGN 0
    else if !cspMapped a then d.strandFault t cCSPUNMAPPED 0
    else d.released t fun d => k a d

/-- CSPRD (R251, R20). -/
def execCsprd (t : StrandIx) (f : FX) (s : State) : Result :=
  s.act fun fz d => d.cspAccess t f (f.rb != 0 || f.rc != 0) fun a d => d.give t f.rd.toNat (Dev.cspRead fz d a)

/-- CSPWR (R251, R20): a write that ends the strand leaves it nothing to go on with. -/
def execCspwr (t : StrandIx) (f : FX) (s : State) : Result :=
  s.act fun fz d => d.cspAccess t f (f.rd != 0 || f.rc != 0) fun a d =>
    let d := Dev.cspWrite fz d a (d.gr t f.rb)
    d.when (d.str t).live fun d => d.next t

/-- CSP_REGISTER_WRITE (R19, R20): the write itself, whichever requester makes it. -/
def execCspRegisterWrite (a v : Word) (s : State) : Result :=
  s.act fun fz d => d.when (d.cspOn && a.toNat % 8 == 0) fun d => Dev.cspWrite fz d a.toNat v

/-- MIRTBL_WRITE (R110, R371). -/
def execMirtblWrite (v : Word) (s : State) : Result := s.act fun _ d => d.when d.cspOn fun d => d.mirtblWrite v

/-- MBXTX_GO (R373). -/
def execMbxtxGo (v : Word) (taken : Bool) (s : State) : Result :=
  s.act fun fz d => d.when d.cspOn fun d => Dev.mbxGo fz d v taken

/-- MBXTX_TIMEOUT (R373): RES is NO_DR. -/
def execMbxtxTimeout (s : State) : Result :=
  s.act fun _ d => d.when (d.fdUp && d.fb SYS.MBXTX.BUSY) fun d => (d.setF SYS.MBXTX.BUSY 0).setF SYS.MBXTX.RES 2

/-- MBXRX_DONE (R374). -/
def execMbxrxDone (v : Word) (s : State) : Result := s.act fun _ d => d.when d.cspOn fun d => d.mbxDone v

end Sys2Proof.Machine
end

