-- ==== Sys2Proof/Machine/Emp.lean ====
section
/-! DEFINITION. The EMP operations that reach the fabric die (R370–R372): control-space reads, the debug window, self-test,
memory access in domain DRK, the boot image, resilver checkpoints, IDE keys; and what the fabric engine sends. -/

namespace Sys2Proof.Machine

/-! ## Requests of the controller that the darkroom relays to the fabric engine -/

/-- `n` words from `a` on lie inside one of the ranges of R372. -/
def cspReadable (a n : Nat) : Bool :=
  let e := a + 8 * n
  let inside := fun (lo hi : Nat) => lo ≤ a && e ≤ hi
  let p := 0x100000 + (a - 0x100000) / 0x10000 * 0x10000
  let h := 0x800000 + (a - 0x800000) / 0x4000 * 0x4000
  let s := 0x900000 + (a - 0x900000) / 0x10000 * 0x10000
  let b := 0xB00000 + (a - 0xB00000) / 0x10000 * 0x10000
  inside 0 0x10000 || inside 0xBB0000 0xBC0000 || inside 0xB80000 0xB80038 || inside 0xB09000 0xB09200 ||
    (0x100000 ≤ a && a < 0x700000 && (inside p (p + 0x18) || inside (p + 0x100) (p + 0x180))) ||
    (0x800000 ≤ a && a < 0x900000 && inside (h + 0x210) (h + 0x228)) ||
    (0x900000 ≤ a && a < 0xB00000 && (inside (s + 8) (s + 0x10) || inside (s + 0x20) (s + 0x28))) ||
    (0xB00000 ≤ a && a < 0xB40000 && inside b (b + 8))

/-- CSP_READ (R372). -/
def Dev.empCspRead (fz : Fuse) (d : Dev) (h : EmpH) : EmpAns :=
  let a := h.f 0 8
  let n := h.f 8 1
  if n == 0 || 64 < n then say d xBADLEN
  else if a % 8 != 0 || !cspReadable a n then say d xDENIED
  else if !d.fdUp then say d xNOFM
  else sayOk d ((List.range n).flatMap fun i => leBytes 8 (Dev.cspRead fz d (a + 8 * i)).toNat)

/-- DBG_CSP (R344): under CSP scope every offset, with the outcomes of R20; in safelight a write is ignored (R411). -/
def Dev.empDbgCsp (fz : Fuse) (d : Dev) (h : EmpH) : EmpAns :=
  let rw_ := h.f 0 1
  let a := h.f 1 8
  if rw_ > 1 || a % 8 != 0 then say d xBADARG
  else if !d.fdUp then say d xNOFM
  else if !d.fb FPC.DBG.AUTH || !bitN (d.f FPC.DBG.SCOPE) 1 || !cspMapped a then say d xDENIED
  else if rw_ == 0 then sayOk d (leBytes 8 (Dev.cspRead fz d a).toNat)
  else sayOk (if d.safe then d else Dev.cspWrite fz d a (w64 (h.f 9 8))) (leBytes 8 0)

/-- The self-test of one physical Frond in safelight (R186): one that passes becomes available again, and is the spare of a
sorus without one. -/
def Dev.frondTest (d : Dev) (s i : Nat) (pass : Bool) : Dev :=
  let d := (d.flushFrond (s * 9 + i) false).frondReset (s * 9 + i)
  let d := d.updF (SORUS.STAT.UNTESTED s) fun v => clrBitN v i
  if pass then
    let d := (d.updF (SORUS.STAT.FENCED s) fun v => clrBitN v i).updF (SORUS.STAT.FAILED s) fun v => clrBitN v i
    if d.f (SORUS.STAT.SPARE s) == 0xF && (d.lfOn s i).isNone then d.setF (SORUS.STAT.SPARE s) i else d
  else
    let d := d.updF (SORUS.STAT.FAILED s) fun v => setBitN v i
    if d.f (SORUS.STAT.SPARE s) == i then d.setF (SORUS.STAT.SPARE s) 0xF else d

/-- SELFTEST (R371, R407): `pass` says of each Frond whether its test succeeds; one whose fencing has not ended is not
tested. -/
def Dev.empSelftest (d : Dev) (h : EmpH) (pass : Nat) : EmpAns :=
  let s := h.f 0 1
  let m := h.f 1 2
  if s ≥ 32 || m ≥ 512 then say d xBADARG
  else if !d.fdUp then say d xNOFM
  else if !d.safe then say d xNOTSAFE
  else
    let on := (onesN 9 m).filter fun i => Tbl.get 0 d.sor.fencing (s * 9 + i) == 0
    let code := fun i => if !on.contains i then 2 else if bitN pass i then 0 else 1
    sayOk (on.foldl (fun d i => d.frondTest s i (bitN pass i)) d) (leBytes 3 ((List.range 9).map fun i => code i * 4 ^ i).sum)

/-- The operations that the darkroom relays from the controller. -/
def Dev.empFromOob (fz : Fuse) (pass : Nat) (d : Dev) (h : EmpH) : EmpAns :=
  match h.op with
  | 0x02 => Dev.empCspRead fz d h
  | 0x05 => d.empSelftest h pass
  | 0x26 => Dev.empDbgCsp fz d h
  | _ => say d xDENIED

/-! ## Requests of the fabric engine -/

/-- CKPT (R371): the checkpoint of a running resilver is kept, and answered. -/
def Dev.empCkpt (d : Dev) (h : EmpH) : EmpAns :=
  let g := h.f 0 1 * 64 + h.f 1 1
  if h.f 0 1 > 1 || h.f 1 1 ≥ (if h.f 0 1 == 0 then 64 else 4) then say d xBADARG
  else say ({ d with pool := { d.pool with ckpt := Tbl.put 0 d.pool.ckpt g (h.f 2 2 + 1) } }.setCkpt g (h.f 2 2)) xOK

/-- The resilver engine sends this checkpoint now: its target runs, and has reached the boundary. -/
def Dev.ckptDue (d : Dev) (h : EmpH) : Bool :=
  let g := h.f 0 1 * 64 + h.f 1 1
  g ≥ 68 || (d.rstate g == 2 && !d.pool.await && 0 < h.f 2 2 && h.f 2 2 == Tbl.get 0 d.pool.resCur g / 2 ^ 20)

/-- What the loader makes of the darkroom's answer to its EXTEND or SIGCHK (R171). -/
def Dev.feAnswered (fz : Fuse) (d : Dev) (h : EmpH) : Dev :=
  if h.op == 0x20 && h.f 0 1 == 3 then d.loadMeasured h.tag (h.pl.drop 2) 0
  else if h.op == 0x21 then
    Dev.loadChecked fz d h.tag ((h.pl.drop 1).take 48) ((Dev.sigChk fz d h).1.elim 1 fun x => (x.2.headD 1).toNat)
  else d

/-- A message of the fabric engine. EXTEND and SIGCHK are the oldest that its loaders and its lock instruction have sent
(R368); a checkpoint is one that its resilver engine has reached. -/
def Dev.feIn (fz : Fuse) (d : Dev) (bs : List Byte) (k : Dev → EmpH → EmpAns) : Dev :=
  match empParse bs with
  | none => d
  | some h =>
    if h.rsp then Dev.empIn fz d eFE 0 bs k
    else if h.op == 0x20 || h.op == 0x21 then
      match d.drk.fe with
      | [] => d
      | m :: ms =>
        if m != bs then d
        else
          let d : Dev := { d with drk := { d.drk with fe := ms } }
          Dev.feAnswered fz (Dev.empIn fz d eFE 0 bs k) h
    else if h.op == 0x34 && !d.ckptDue h then d
    else Dev.empIn fz d eFE 0 bs k

/-- The messages of the fabric engine that wait are handled ahead of a message of the controller (R368). -/
def Dev.feFirst (fz : Fuse) (d : Dev) : Dev :=
  d.drk.fe.foldl (fun d bs => Dev.feIn fz d bs fun d _ => say d xDENIED) d

/-- A message of the controller (R365): the results of a self-test that no command gives are free. -/
def Dev.oobIn (fz : Fuse) (d : Dev) (mt : Nat) (bs : List Byte) : Dev :=
  let (v, d) := (Dev.feFirst fz d).draw
  Dev.empIn fz d eOOB mt bs (Dev.empFromOob fz (getBits v 0 9))

/-! ## Requests of the darkroom to the fabric engine -/

/-- The agent and the SLICE field of requests in domain DRK (R330). -/
def drkAgent : Nat := 0x300
def drkSlice : Nat := 0xFFF
def drkOwn : Own := ⟨.unit 2, drkAgent, drkSlice, true⟩

/-- The lines of a range of bytes. -/
def linesOf (a n : Nat) : List Nat := (List.range ((a + n + 63) / 64 - a / 64)).map (a / 64 + ·)

/-- Lines judged in domain DRK: the first refusal, if any. A line of another device is judged at its home (R331). -/
def Dev.drkJudge (d : Dev) (a n : Nat) (k : Kind) : Option Verdict :=
  (((linesOf a n).filter fun ln => !d.remote ln).map fun ln => d.check (ln * 64) .drk k drkSlice).find? (· != .ok)

/-- MEM_READ and MEM_WRITE judged (R330, R334, R335): the request goes on where every line admits it. -/
def Dev.drkAccess (d : Dev) (a n : Nat) (k : Kind) (go : Dev → EmpAns) : EmpAns :=
  if a + n > 2 ^ 52 then say d xBADARG
  else match d.drkJudge a n k with
    | some v => say (d.notice v drkAgent drkSlice false) xACCESS
    | none =>
      if (linesOf a n).any fun ln => !d.remote ln && d.homeRefuses ln drkAgent true drkSlice (k == .wr) then say d xACCESS else go d

/-- MEM_READ (R371). -/
def Dev.empMemRead (d : Dev) (h : EmpH) : EmpAns :=
  let n := h.f 8 2
  if n % 8 != 0 || n < 8 || 4080 < n then say d xBADLEN
  else d.drkAccess (h.f 0 8) n .rd fun d =>
    match Dev.cohBytes 66 d drkOwn (h.f 0 8) n with
    | ((bs, false, 0), d) => sayOk d bs
    | (_, d) => say d xACCESS

/-- MEM_WRITE (R371). -/
def Dev.empMemWrite (d : Dev) (h : EmpH) : EmpAns :=
  let bs := h.pl.drop 8
  d.drkAccess (h.f 0 8) bs.length .wr fun d =>
    match Dev.cohPut 66 d drkOwn (h.f 0 8) bs with
    | (0, d) => say d xOK
    | (_, d) => say d xACCESS

/-- IMG_WRITE (R371): only while the fabric manager spore is being transferred. -/
def Dev.empImgWrite (d : Dev) (h : EmpH) : EmpAns :=
  if !d.drk.xfer then say d xDENIED
  else if h.f 0 4 + (h.pl.length - 4) > 2 ^ 20 then say d xBADARG
  else say (d.putStore 0 (h.f 0 4) (h.pl.drop 4)) xOK

/-- The payload of BOOT_COMMIT for the spore being transferred. -/
def Dev.commitPayload (d : Dev) : List Byte :=
  let hd := d.drk.fm.take 256
  leBytes 4 (imgClen hd) ++ leBytes 2 (imgMaxstr hd) ++ ((imgEntries hd).flatMap (leBytes 4)) ++ imgDigest hd

/-- BOOT_COMMIT (R370). -/
def Dev.empBootCommit (d : Dev) : EmpAns := if !d.drk.xfer then say d xDENIED else say d.bootCommit xOK

/-- The payload of CKPT_RESTORE: every checkpoint that the darkroom holds. -/
def Dev.ckptPayload (d : Dev) : List Byte :=
  BitVec.ofNat 8 d.pool.ckpt.length :: d.pool.ckpt.flatMap fun e =>
    [BitVec.ofNat 8 (e.1 / 64), BitVec.ofNat 8 (e.1 % 64)] ++ leBytes 2 (e.2 - 1)

/-- CKPT_RESTORE (R371): each resilver goes on from its checkpoint, one without any from the start of its window. -/
def Dev.empCkptRestore (d : Dev) : EmpAns :=
  let d := d.pool.ckpt.foldl (fun d e =>
    let c := e.2 - 1
    let d := (d.setCkpt e.1 c).setRcur e.1 (c * 1024)
    ({ d with pool := { d.pool with resCur := Tbl.put 0 d.pool.resCur e.1 (c * 2 ^ 20) } } : Dev)) d
  say ({ d with pool := { d.pool with await := false } } : Dev).resNext xOK

/-- IDE_KEY (R370): the key and its IV go to the port's engine. -/
def Dev.empIdeKey (d : Dev) (h : EmpH) : EmpAns :=
  if h.f 0 1 ≥ 96 || h.f 2 1 > 1 then say d xBADARG
  else
    let k := ((h.f 0 1 * 256 + h.f 1 1) * 2 + h.f 2 1) * 256 + h.f 3 1
    say { d with drk := { d.drk with ide := Tbl.put [] d.drk.ide k (h.pl.drop 4) } } xOK

/-- DOE_PKT to a port: the packet leaves by its DOE mailbox. -/
def Dev.empDoe (d : Dev) (h : EmpH) : EmpAns :=
  if h.f 0 1 ≥ 96 then say d xBADARG else say (d.emit (.doe (h.f 0 1) (h.pl.drop 1))) xOK

/-- What the fabric engine does with a request of the darkroom. -/
def Dev.feDo (d : Dev) (h : EmpH) : EmpAns :=
  match h.op with
  | 0x30 => d.empMemRead h
  | 0x31 => d.empMemWrite h
  | 0x32 => d.empImgWrite h
  | 0x33 => d.empBootCommit
  | 0x35 => d.empCkptRestore
  | 0x36 => d.empIdeKey h
  | 0x37 => d.empDoe h
  | _ => say d xBADOP

/-- The darkroom sends this message: what it transfers, commits and restores is what it holds, at the time that R346 and R371
give. -/
def Dev.drkSends (d : Dev) (h : EmpH) : Bool :=
  match h.op with
  | 0x32 => !d.drk.xfer || (0x10000 ≤ h.f 0 4 && h.pl.drop 4 == (d.fmCode.drop (h.f 0 4 - 0x10000)).take (h.pl.length - 4))
  | 0x33 => !d.drk.xfer || (h.pl == d.commitPayload && d.storeBytes 0 0x10000 d.fmCode.length == d.fmCode)
  | 0x35 => d.fb HBM.MIRTBL.EN && d.pool.await && h.pl == d.ckptPayload
  | _ => true

/-- A request of the darkroom to the fabric engine, checked as R370 gives, and answered; one that has to wait for a line is taken
up when it comes again. -/
def Dev.drkOut (d : Dev) (bs : List Byte) : Dev :=
  match empParse bs with
  | none => d
  | some h =>
    let answer := fun (d : Dev) (st : Nat) (pl : List Byte) => d.emit (.emp eDR (empBytes true h.op st h.tag h.dst h.src pl))
    match empOps.find? fun o => o.op == h.op with
    | none => d
    | some o =>
      if h.rsp || !d.fdUp || !d.mayAsk eDR o h then d
      else if h.len != h.pl.length || h.len < o.lo || o.hi < h.len ||
          (h.op == 0x35 && h.len != 1 + 4 * h.f 0 1) then answer d xBADLEN []
      else if h.rsv || h.status != 0 then answer d xBADARG []
      else if !d.drkSends h then d
      else d.attempt fun d => match d.feDo h with
        | (none, d) => d
        | (some (st, pl), d) => answer d st pl

/-! ## EVENT (R356, R382) -/

/-- The records that no EVENT has carried yet, at most 255, oldest first, sent to the controller. -/
def Dev.eventSend (d : Dev) (tag : Nat) : Dev :=
  let rs := (d.drk.evq.drop d.drk.evSent).take 255
  if rs.isEmpty then d
  else
    let d : Dev := { d with drk := { d.drk with evSent := d.drk.evSent + rs.length } }
    d.empSend eOOB (d.drk.oob / 8 * 16 + 8) (empBytes false 0x08 0 tag (d.ep eDR) (d.ep eOOB) rs.flatten)

end Sys2Proof.Machine
end

