-- ==== Sys2Proof/Machine/Mctp.lean ====
section
/-! DEFINITION. MCTP and what it carries to the darkroom (R364, R365): control commands, SPDM (R352, R353), secured messages
and EMP. The profile is the spec's; codes and layouts that it leaves to the DMTF standards are PRESUMED from them. -/

namespace Sys2Proof.Machine

/-- `n` bytes of a function that the spec leaves to another standard: what it is for, and its input. -/
def cryptBytes (use : Nat) (x : List Byte) (n : Nat) : List Byte := (List.range n).map (Config.crypt use x)

/-- What the uninterpreted functions are for. -/
def uUUID : Nat := 0
def uCAPS : Nat := 1
def uROOT : Nat := 2
def uTCB : Nat := 4
def uVERIFY : Nat := 5
def uSEAL : Nat := 6
def uOPEN : Nat := 7
def uVENDOR : Nat := 8
def uVERSION : Nat := 9

/-! ## MCTP control (R364) -/

def cSET_EID : Nat := 1
def cGET_EID : Nat := 2
def cGET_UUID : Nat := 3
def cGET_VER : Nat := 4
def cGET_TYPES : Nat := 5
def cGET_VENDOR : Nat := 6

/-- The completion code and data of a control command. -/
def Dev.ctlDo (fz : Fuse) (d : Dev) (cmd : Nat) (data : List Byte) : (Nat × List Byte) × Dev :=
  let b := fun i => (data.getD i 0).toNat
  let bad : (Nat × List Byte) × Dev := ((2, []), d)
  let badLen : (Nat × List Byte) × Dev := ((3, []), d)
  match cmd with
  | 1 =>
    if data.length != 2 then badLen
    else if b 0 > 1 || b 1 == 0 || b 1 == 255 then bad
    else ((0, [0, BitVec.ofNat 8 (b 1), 0]), { d with drk := { d.drk with eid := b 1 } })
  | 2 => if data.length != 0 then badLen else ((0, [BitVec.ofNat 8 d.drk.eid, 0, 0]), d)
  | 3 => if data.length != 0 then badLen else ((0, cryptBytes uUUID fz.cert 16), d)
  | 4 =>
    if data.length != 1 then badLen
    else if b 0 == 0xFF || b 0 == 0 then ((0, [1, 0xF1, 0xF3, 0xF1, 0]), d)
    else if b 0 == 5 || b 0 == 6 || b 0 == 0x7E then ((0, 1 :: cryptBytes uVERSION data 4), d)
    else ((0x80, []), d)
  | 5 => if data.length != 0 then badLen else ((0, [3, 5, 6, 0x7E]), d)
  | 6 =>
    if data.length != 1 then badLen
    else if b 0 != 0 then bad
    else ((0, [0xFF, 0, 0x15, 0xC7] ++ cryptBytes uVENDOR [] 2), d)
  | _ => ((5, []), d)

/-- A control request answered: instance and command come back, with a completion code. `mt` is the answer's address and
tag. -/
def Dev.ctlIn (fz : Fuse) (d : Dev) (path src tag inst cmd : Nat) (data : List Byte) : Dev :=
  let (r, d) := Dev.ctlDo fz d cmd data
  d.mctpOut path src tag ([0, BitVec.ofNat 8 (inst % 32), BitVec.ofNat 8 cmd, BitVec.ofNat 8 r.1] ++ r.2)

/-! ## SPDM (R352, R353) -/

/-- An SPDM response: its code and parameters, and what follows. -/
def spdmMsg (code p1 p2 : Nat) (rest : List Byte) : List Byte :=
  [0x13, BitVec.ofNat 8 code, BitVec.ofNat 8 p1, BitVec.ofNat 8 p2] ++ rest

def spdmError (e : Nat) : List Byte := spdmMsg 0x7F e 0 []
def eInvalid : Nat := 1
def eUnexpected : Nat := 4
def eDecrypt : Nat := 6
def eUnsupported : Nat := 7
def eLimit : Nat := 0x0A
def eSession : Nat := 0x0B
def eVersion : Nat := 0x41

/-- A request as SPDM carries it. -/
structure SpdmIn where
  ver : Nat
  code : Nat
  p1 : Nat
  p2 : Nat
  body : List Byte
  deriving DecidableEq, Repr

def SpdmIn.f (q : SpdmIn) (i n : Nat) : Nat := leNat ((q.body.drop i).take n)
def SpdmIn.bytes (q : SpdmIn) : List Byte :=
  [BitVec.ofNat 8 q.ver, BitVec.ofNat 8 q.code, BitVec.ofNat 8 q.p1, BitVec.ofNat 8 q.p2] ++ q.body

def SpdmC.none : SpdmC := ⟨0, []⟩
def Dev.conn (d : Dev) (c : Nat) : SpdmC := Tbl.get SpdmC.none d.drk.spdm c
def Dev.setConn (d : Dev) (c : Nat) (x : SpdmC) : Dev :=
  { d with drk := { d.drk with spdm := Tbl.put SpdmC.none d.drk.spdm c x } }

/-- The capability flags: CERT, CHAL, MEAS = 2, MEAS_FRESH, ENCRYPT, MAC, KEY_EX, HBEAT and KEY_UPD. -/
def spdmCaps : Nat := 2 + 4 + 2 * 8 + 2 ^ 5 + 2 ^ 6 + 2 ^ 7 + 2 ^ 9 + 2 ^ 13 + 2 ^ 14

/-- The certificate chain of slot 0. -/
def certChain (fz : Fuse) : List Byte :=
  leBytes 2 (52 + fz.cert.length) ++ [0, 0] ++ cryptBytes uROOT [] 48 ++ fz.cert

/-- The SPDM value type of a measurement slot (R349). -/
def slotType (i : Nat) : Nat := if i == 0 || i == 2 || i == 3 then 1 else if i == 1 then 2 else 3

/-- The measurement block of index `i` (R353). -/
def Dev.measBlock (d : Dev) (i : Nat) : List Byte :=
  [BitVec.ofNat 8 i, 1, 0x33, 0, BitVec.ofNat 8 (slotType (i - 1)), 0x30, 0] ++ d.mslot (i - 1)

def Dev.measAll (d : Dev) : List Byte := ((List.range 16).map fun i => d.measBlock (i + 1)).flatten

/-- The measurement summary that a request asks for: none, of the trusted computing base, or of all blocks. -/
def Dev.measSummary (d : Dev) (kind : Nat) : List Byte :=
  if kind == 0 then [] else if kind == 0xFF then sha384 d.measAll else cryptBytes uTCB d.measAll 48

/-- What SPDM 1.3 puts before the digest of a transcript that is signed: its version four times, and the purpose, in 100 bytes. -/
def spdmPrefix (purpose : String) : List Byte :=
  let ascii := fun (x : String) => x.toList.map fun c => BitVec.ofNat 8 c.toNat
  (List.replicate 4 (ascii "dmtf-spdm-v1.3.*")).flatten ++ List.replicate (36 - purpose.length) 0 ++ ascii purpose

/-- A signature with the identity key (R351, R353) over a transcript: ECDSA with a random number of the engine, r and then s,
highest byte first. -/
def Dev.signId (fz : Fuse) (d : Dev) (purpose : String) (x : List Byte) : List Byte × Dev :=
  let (k, d) := d.drawBytes 6
  let (r, s) := ecdsaSign (identityKey fz.uds) (beNat k % (p384n - 1) + 1) (sha384 (spdmPrefix purpose ++ sha384 x))
  (beBytes 48 r ++ beBytes 48 s, d)

/-- GET_VERSION: it starts the connection again. -/
def Dev.spdmVersion (d : Dev) (c : Nat) (q : SpdmIn) : List Byte × Dev :=
  let r : List Byte := [0x10, 0x04, 0, 0, 0, 1, 0x00, 0x13]
  let d := d.setConn c ⟨1, q.bytes ++ r⟩
  (r, { d with drk := { d.drk with sess := d.drk.sess.filter fun s => s.path != c } })

/-- GET_CAPABILITIES. -/
def Dev.spdmCapsDo (d : Dev) (c : Nat) (q : SpdmIn) : List Byte × Dev :=
  let x := d.conn c
  if x.st != 1 then (spdmError eUnexpected, d)
  else if q.body.length != 16 then (spdmError eInvalid, d)
  else
    let own := cryptBytes uCAPS [] 9
    let r := spdmMsg 0x61 0 0 ([0] ++ own.take 1 ++ [0, 0] ++ leBytes 4 spdmCaps ++ own.drop 1)
    (r, d.setConn c ⟨2, x.tr ++ q.bytes ++ r⟩)

/-- The algorithm structures of a request, with what the device selects of each. -/
def algStructs : Nat → List Byte → List Byte
  | 0, _ => []
  | n + 1, bs =>
    let t := (bs.headD 0).toNat
    let k := leNat ((bs.drop 2).take 2)
    let own := match t with
      | 2 => 0x10
      | 3 => 0x02
      | 5 => 0x01
      | _ => 0
    [BitVec.ofNat 8 t, 0x20] ++ leBytes 2 (k &&& own) ++ algStructs n (bs.drop 4)

/-- NEGOTIATE_ALGORITHMS: of what the requester offers, what the profile has. -/
def Dev.spdmAlgs (d : Dev) (c : Nat) (q : SpdmIn) : List Byte × Dev :=
  let x := d.conn c
  let ext := q.f 24 1 + q.f 25 1
  if x.st != 2 then (spdmError eUnexpected, d)
  else if q.body.length != 28 + 4 * ext + 4 * q.p1 || q.f 0 2 != q.body.length + 4 then (spdmError eInvalid, d)
  else
    let algs := algStructs q.p1 (q.body.drop (28 + 4 * ext))
    let r := spdmMsg 0x63 q.p1 0 (leBytes 2 (36 + algs.length) ++ [BitVec.ofNat 8 (q.f 2 1 &&& 1), BitVec.ofNat 8 (q.f 3 1 &&& 2)] ++
      leBytes 4 4 ++ leBytes 4 (q.f 4 4 &&& 0x80) ++ leBytes 4 (q.f 8 4 &&& 2) ++ List.replicate 16 0 ++ algs)
    (r, d.setConn c ⟨3, x.tr ++ q.bytes ++ r⟩)

/-- GET_DIGESTS. -/
def spdmDigests (fz : Fuse) : List Byte := spdmMsg 0x01 1 1 (sha384 (certChain fz))

/-- GET_CERTIFICATE: a part of the chain of slot 0. -/
def spdmCert (fz : Fuse) (q : SpdmIn) : List Byte :=
  let all := certChain fz
  let off := q.f 0 2
  if q.p1 % 16 != 0 || q.body.length != 4 || all.length ≤ off then spdmError eInvalid
  else
    let part := (all.drop off).take (q.f 2 2)
    spdmMsg 0x02 0 0 (leBytes 2 part.length ++ leBytes 2 (all.length - off - part.length) ++ part)

/-- CHALLENGE. -/
def Dev.spdmChallenge (fz : Fuse) (d : Dev) (c : Nat) (q : SpdmIn) : List Byte × Dev :=
  if q.p1 % 16 != 0 || q.body.length != 40 || !(q.p2 == 0 || q.p2 == 1 || q.p2 == 0xFF) then (spdmError eInvalid, d)
  else
    let (nonce, d) := d.drawBytes 4
    let r := spdmMsg 0x03 0 1 (sha384 (certChain fz) ++ nonce ++ d.measSummary q.p2 ++ [0, 0] ++ q.body.drop 32)
    let (s, d) := Dev.signId fz d "responder-challenge_auth signing" ((d.conn c).tr ++ q.bytes ++ r)
    (r ++ s, d)

/-- GET_MEASUREMENTS (R353). -/
def Dev.spdmMeas (fz : Fuse) (d : Dev) (c : Nat) (q : SpdmIn) : List Byte × Dev :=
  let signed := bitN q.p1 0
  let i := q.p2
  if q.body.length != (if signed then 41 else 8) || !(i ≤ 16 || i == 0xFF) || (signed && q.f 32 1 % 16 != 0) then
    (spdmError eInvalid, d)
  else
    let rec_ := if i == 0 then [] else if i == 0xFF then d.measAll else d.measBlock i
    let n := if i == 0 then 0 else if i == 0xFF then 16 else 1
    let (nonce, d) := d.drawBytes 4
    let r := spdmMsg 0x60 (if i == 0 then 16 else 0) 0
      ([BitVec.ofNat 8 n] ++ leBytes 3 rec_.length ++ rec_ ++ nonce ++ [0, 0] ++ q.body.drop (if signed then 33 else 0))
    if !signed then (r, d)
    else
      let (s, d) := Dev.signId fz d "responder-measurements signing" ((d.conn c).tr ++ q.bytes ++ r)
      (r ++ s, d)

/-- KEY_EXCHANGE: a session of the eight is begun. -/
def Dev.spdmKeyEx (fz : Fuse) (d : Dev) (c : Nat) (q : SpdmIn) : List Byte × Dev :=
  if q.p2 % 16 != 0 || q.body.length < 134 || q.body.length != 134 + q.f 132 2 || !(q.p1 == 0 || q.p1 == 1 || q.p1 == 0xFF) then
    (spdmError eInvalid, d)
  else if d.drk.sess.length ≥ 8 then (spdmError eLimit, d)
  else
    let rsp := ((List.range 8).find? fun k => !(d.drk.sess.any fun s => s.id / 2 ^ 16 == k)).getD 0
    let id := q.f 0 2 + rsp * 2 ^ 16
    let (own, d) := d.drawBytes 17
    let r := spdmMsg 0x64 (own.headD 0).toNat 0 (leBytes 2 rsp ++ [0, 0] ++ (own.drop 8).take 32 ++ (own.drop 40).take 96 ++
      d.measSummary q.p1 ++ [0, 0])
    let (s, d) := Dev.signId fz d "responder-key_exchange_rsp signing" ((d.conn c).tr ++ q.bytes ++ r)
    (r ++ s ++ cryptBytes uVERIFY (leBytes 4 id ++ r ++ s) 48, { d with drk := { d.drk with sess := d.drk.sess ++ [⟨c, id, false, 0⟩] } })

/-- A session changed, or ended. -/
def Dev.setSess (d : Dev) (id : Nat) (g : SpdmS → SpdmS) : Dev :=
  { d with drk := { d.drk with sess := d.drk.sess.map fun s => if s.id == id then g s else s } }
def Dev.endSess (d : Dev) (id : Nat) : Dev := { d with drk := { d.drk with sess := d.drk.sess.filter fun s => s.id != id } }

/-- The verify data that FINISH must carry in a session. -/
def finishData (id : Nat) : List Byte := cryptBytes uVERIFY (leBytes 4 id) 48

/-- FINISH: the session is up where its verify data is right; otherwise it ends. -/
def Dev.spdmFinish (d : Dev) (id : Nat) (q : SpdmIn) : List Byte × Dev :=
  if q.p1 != 0 || q.body.length != 48 then (spdmError eInvalid, d)
  else if q.body != finishData id then (spdmError eDecrypt, d.endSess id)
  else (spdmMsg 0x65 0 0 [], d.setSess id fun s => { s with up := true })

/-- KEY_UPDATE: 1 of the requester's key, 2 of both, 3 the check of the new key. -/
def Dev.spdmKeyUpd (d : Dev) (id : Nat) (q : SpdmIn) : List Byte × Dev :=
  if q.p1 == 0 || q.p1 > 3 then (spdmError eInvalid, d)
  else (spdmMsg 0x69 q.p1 q.p2 [], if q.p1 == 3 then d else d.setSess id fun s => { s with keys := s.keys + 1 })

/-- CXL_IDE_KM in a session: KEY_PROG hands the key and its IV to the port's engine by IDE_KEY (R370). -/
def Dev.spdmIdeKm (d : Dev) (q : SpdmIn) : List Byte × Dev :=
  let n := q.f 2 1
  let p := q.body.drop (5 + n)
  let b := fun i => (p.getD i 0).toNat
  let answer := spdmMsg 0x7E 0 0 (q.body.take (3 + n) ++ leBytes 2 4 ++ cryptBytes uVENDOR p 4)
  if q.body.length < 5 + n || p.length != q.f (3 + n) 2 then (spdmError eInvalid, d)
  else if b 1 == 2 && p.length == 52 then
    (answer, d.drkOut (empBytes false 0x36 0 0 (d.ep eDR) (d.ep eFE)
      ([BitVec.ofNat 8 (b 7), BitVec.ofNat 8 (b 4), BitVec.ofNat 8 (b 6 / 2 % 2), BitVec.ofNat 8 (b 6 / 4)] ++ p.drop 8)))
  else (answer, d)

/-- A request of a connection, in a session or outside: the response. -/
def Dev.spdmDo (fz : Fuse) (d : Dev) (c : Nat) (ses : Option SpdmS) (q : SpdmIn) : List Byte × Dev :=
  let ready := (d.conn c).st == 3
  let inSes := fun (k : Nat → List Byte × Dev) => match ses with
    | none => (spdmError eSession, d)
    | some s => if s.up then k s.id else (spdmError eUnexpected, d)
  let open_ := fun (k : List Byte × Dev) => if ready then k else (spdmError eUnexpected, d)
  if q.code == 0x84 then (if q.ver != 0x10 then (spdmError eVersion, d) else d.spdmVersion c q)
  else if q.ver != 0x13 then (spdmError eVersion, d)
  else match q.code with
    | 0xE1 => d.spdmCapsDo c q
    | 0xE3 => d.spdmAlgs c q
    | 0x81 => open_ (spdmDigests fz, d)
    | 0x82 => open_ (spdmCert fz q, d)
    | 0x83 => open_ (Dev.spdmChallenge fz d c q)
    | 0xE0 => open_ (Dev.spdmMeas fz d c q)
    | 0xE4 => open_ (Dev.spdmKeyEx fz d c q)
    | 0xE5 => match ses with
      | none => (spdmError eSession, d)
      | some s => if s.up then (spdmError eUnexpected, d) else d.spdmFinish s.id q
    | 0xEC => inSes fun id => (spdmMsg 0x6C 0 0 [], d.endSess id)
    | 0xE8 => inSes fun _ => (spdmMsg 0x68 0 0 [], d)
    | 0xE9 => inSes fun id => d.spdmKeyUpd id q
    | 0xFE => inSes fun _ => d.spdmIdeKm q
    | _ => (spdmError eUnsupported, d)

/-- The darkroom answers SPDM: not in standby (R400), and not without its identity key. -/
def Dev.spdmOn (d : Dev) : Bool := d.pwr.dark && d.pwr.pwrok && d.drk.idKey

/-- A request of endpoint `src` on a transport answered: in clear, or sealed where it came in a session. -/
def Dev.spdmIn (fz : Fuse) (d : Dev) (path src tag : Nat) (ses : Option Nat) (q : SpdmIn) : Dev :=
  if !d.spdmOn then d
  else
    let c := path * 256 + src
    match ses with
    | none =>
      let (r, d) := Dev.spdmDo fz d c none q
      (d.emit (.spdm r)).mctpOut path src tag (5 :: r)
    | some id =>
      match d.drk.sess.find? fun s => s.id == id with
      | none => d
      | some s =>
        let (r, d) := Dev.spdmDo fz d c (some s) q
        let text := leBytes 4 id ++ leBytes 8 s.keys ++ r
        (d.emit (.spdm r)).mctpOut path src tag (6 :: leBytes 4 id ++ cryptBytes uSEAL text (r.length + 20))

/-- A request's fields from its bytes. -/
def spdmParse (bs : List Byte) : SpdmIn :=
  let b := fun i => (bs.getD i 0).toNat
  ⟨b 0, b 1, b 2, b 3, bs.drop 4⟩

/-! ## Messages and packets (R364, R365) -/

/-- The port's link is up to an expander (R352). -/
def Dev.expPort (d : Dev) (p : Nat) : Bool := d.fdUp && d.f (PORT.CFG.MODE p) == 3 && d.linkUp p

/-- A whole MCTP message from `src` on a transport: `fl` its tag with the TO bit. An expander on a MEM port answers the darkroom,
which is the requester there (R352): its SPDM messages are kept as the latest answer. -/
def Dev.mctpMsg (fz : Fuse) (d : Dev) (path src fl : Nat) (bs : List Byte) : Dev :=
  let b := fun i => (bs.getD i 0).toNat
  let tag := fl % 8
  if path != 0 && d.expPort (path - 1) then
    (if b 0 % 128 == 5 || b 0 % 128 == 6 then { d with drk := { d.drk with answers := Tbl.put [] d.drk.answers (path - 1) bs } }
     else d.count (8 * (path - 1) + 7) 1)
  else match b 0 % 128 with
  | 0 => if bs.length < 3 || !bitN (b 1) 7 then d else Dev.ctlIn fz d path src tag (b 1) (b 2) (bs.drop 3)
  | 5 => if bs.length < 5 then d else Dev.spdmIn fz d path src tag none (spdmParse (bs.drop 1))
  | 6 =>
    let id := leNat ((bs.drop 1).take 4)
    Dev.spdmIn fz d path src tag (some id) (spdmParse (cryptBytes uOPEN (bs.drop 1) (bs.length - 25)))
  | 0x7E =>
    if path != 0 then d.count (8 * (path - 1) + 7) 1
    else if (bs.drop 1).take 2 != [0x15, 0xC7] then d
    else
      let d : Dev := { d with drk := { d.drk with oob := src * 8 + tag } }
      Dev.oobIn fz d (src * 16 + tag) (bs.drop 3)
  | _ => d

/-- An MCTP packet reassembled into its message: header version 1, for this endpoint, its sequence unbroken. -/
def Dev.mctpIn (fz : Fuse) (d : Dev) (path : Nat) (bs : List Byte) : Dev :=
  let b := fun i => (bs.getD i 0).toNat
  let fl := b 3 % 16
  let key := path * 4096 + b 2 * 16 + fl
  let none_ : Asm := ⟨0, []⟩
  let put := fun (d : Dev) (x : Asm) => ({ d with drk := { d.drk with asm := Tbl.put none_ d.drk.asm key x } } : Dev)
  let x := Tbl.get none_ d.drk.asm key
  let acc := if bitN (b 3) 7 then bs.drop 4
    else if x.bs.isEmpty || x.seq != b 3 / 16 % 4 then [] else x.bs ++ bs.drop 4
  if bs.length < 5 || b 0 % 16 != 1 || !(b 1 == 0 || b 1 == d.drk.eid) || (path == 0 && bs.length > 4 + d.drk.i3c.mwl) then d
  else if acc.isEmpty then put d none_
  else if bitN (b 3) 6 then Dev.mctpMsg fz (put d none_) path (b 2) fl acc
  else put d ⟨(b 3 / 16 + 1) % 4, acc⟩

/-- A transport by which the darkroom is reached: the I3C bus, or the DOE mailbox of a HOST or PCIE port. -/
def Dev.reached (d : Dev) (path : Nat) : Bool := d.pwr.dark && (path == 0 || d.hostPort (path - 1))

/-- A port whose DOE mailbox the darkroom uses (R345): it is reached at a HOST or PCIE port, and reaches the expander of a MEM
port. -/
def Dev.doePort (d : Dev) (p : Nat) : Bool := d.hostPort p || d.expPort p

/-- MCTP_PACKET (R362, R364): on the bus with its PEC, as I3C at the dynamic address, as I²C at the static one until there is one; at a
port with none. -/
def execMctpPacket (path : Fin 97) (bs : List Byte) (s : State) : Result :=
  s.act fun fz d => d.when (d.pwr.dark && (path.val == 0 || d.doePort (path.val - 1))) fun d =>
    if path.val != 0 then Dev.mctpIn fz d path bs
    else if bs.getLast? != some (d.pec false bs.dropLast) then d
    else Dev.mctpIn fz d 0 bs.dropLast

/-- MCTP_MESSAGE_TIMEOUT (R364). -/
def execMctpMessageTimeout (path : Fin 97) (src : Byte) (fl : BitVec 4) (s : State) : Result :=
  s.act fun _ d => d.when d.pwr.dark fun d =>
    { d with drk := { d.drk with asm := Tbl.erase d.drk.asm (path.val * 4096 + src.toNat * 16 + fl.toNat) } }

/-- A control command as its own row. -/
def Dev.ctlRow (fz : Fuse) (d : Dev) (cmd : Nat) (q : MctpReq) : Dev :=
  d.when (d.reached q.path) fun d => Dev.ctlIn fz d q.path q.src.toNat q.tag.toNat q.inst.toNat cmd q.data

/-- SET_ENDPOINT_ID (R364). -/
def execSetEndpointId (q : MctpReq) (s : State) : Result := s.act fun fz d => Dev.ctlRow fz d cSET_EID q

/-- GET_ENDPOINT_ID (R364). -/
def execGetEndpointId (q : MctpReq) (s : State) : Result := s.act fun fz d => Dev.ctlRow fz d cGET_EID q

/-- GET_ENDPOINT_UUID (R364). -/
def execGetEndpointUuid (q : MctpReq) (s : State) : Result := s.act fun fz d => Dev.ctlRow fz d cGET_UUID q

/-- GET_MCTP_VERSION_SUPPORT (R364). -/
def execGetMctpVersionSupport (q : MctpReq) (s : State) : Result := s.act fun fz d => Dev.ctlRow fz d cGET_VER q

/-- GET_MESSAGE_TYPE_SUPPORT (R364). -/
def execGetMessageTypeSupport (q : MctpReq) (s : State) : Result := s.act fun fz d => Dev.ctlRow fz d cGET_TYPES q

/-- GET_VENDOR_DEFINED_MSG_SUPPORT (R364). -/
def execGetVendorDefinedMsgSupport (q : MctpReq) (s : State) : Result := s.act fun fz d => Dev.ctlRow fz d cGET_VENDOR q

/-- An SPDM request as its own row. -/
def Dev.spdmRow (fz : Fuse) (d : Dev) (code : Nat) (q : SpdmReq) : Dev :=
  d.when (d.reached q.path) fun d =>
    Dev.spdmIn fz d q.path q.src.toNat q.tag.toNat (q.ses.map (·.toNat)) ⟨q.ver.toNat, code, q.p1.toNat, q.p2.toNat, q.body⟩

/-- GET_VERSION (R352). -/
def execGetVersion (q : SpdmReq) (s : State) : Result := s.act fun fz d => Dev.spdmRow fz d 0x84 q

/-- GET_CAPABILITIES (R352). -/
def execGetCapabilities (q : SpdmReq) (s : State) : Result := s.act fun fz d => Dev.spdmRow fz d 0xE1 q

/-- NEGOTIATE_ALGORITHMS (R352). -/
def execNegotiateAlgorithms (q : SpdmReq) (s : State) : Result := s.act fun fz d => Dev.spdmRow fz d 0xE3 q

/-- GET_DIGESTS (R352). -/
def execGetDigests (q : SpdmReq) (s : State) : Result := s.act fun fz d => Dev.spdmRow fz d 0x81 q

/-- GET_CERTIFICATE (R352). -/
def execGetCertificate (q : SpdmReq) (s : State) : Result := s.act fun fz d => Dev.spdmRow fz d 0x82 q

/-- CHALLENGE (R352). -/
def execChallenge (q : SpdmReq) (s : State) : Result := s.act fun fz d => Dev.spdmRow fz d 0x83 q

/-- GET_MEASUREMENTS (R353). -/
def execGetMeasurements (q : SpdmReq) (s : State) : Result := s.act fun fz d => Dev.spdmRow fz d 0xE0 q

/-- KEY_EXCHANGE (R352). -/
def execKeyExchange (q : SpdmReq) (s : State) : Result := s.act fun fz d => Dev.spdmRow fz d 0xE4 q

/-- FINISH (R352). -/
def execFinish (q : SpdmReq) (s : State) : Result := s.act fun fz d => Dev.spdmRow fz d 0xE5 q

/-- END_SESSION (R352). -/
def execEndSession (q : SpdmReq) (s : State) : Result := s.act fun fz d => Dev.spdmRow fz d 0xEC q

/-- HEARTBEAT (R352). -/
def execHeartbeat (q : SpdmReq) (s : State) : Result := s.act fun fz d => Dev.spdmRow fz d 0xE8 q

/-- KEY_UPDATE (R352). -/
def execKeyUpdate (q : SpdmReq) (s : State) : Result := s.act fun fz d => Dev.spdmRow fz d 0xE9 q

/-- CXL_IDE_KM (R352). -/
def execCxlIdeKm (q : SpdmReq) (s : State) : Result := s.act fun fz d => Dev.spdmRow fz d 0xFE q

end Sys2Proof.Machine
end

