-- ==== Sys2Proof/Machine/EmpCmd.lean ====
section
/-! DEFINITION. The commands of the management interface: one per EMP operation (R370), the timers of R368 and R369, and the
I3C target (R361–R363). -/

namespace Sys2Proof.Machine

/-! ## EMP messages as commands -/

/-- The bytes of a message with an OP (R366). -/
def empWire (m : Emp) (op : Nat) : List Byte :=
  [BitVec.ofNat 8 (m.ver.toNat + b2n m.rsp * 16 + b2n m.whole * 0x60 + b2n m.rsv * 128), BitVec.ofNat 8 op, m.status, m.tag,
    BitVec.ofNat 8 m.src.toNat, BitVec.ofNat 8 m.dst.toNat] ++ leBytes 2 m.payload.length ++ m.payload

/-- What the darkroom does with a request of the fabric engine that it does not answer by itself: a checkpoint kept, a packet
of a port's DOE mailbox taken. -/
def Dev.empFromFe (fz : Fuse) (d : Dev) (h : EmpH) : EmpAns :=
  match h.op with
  | 0x34 => d.empCkpt h
  | 0x37 =>
    if h.f 0 1 ≥ 96 then say d xBADARG
    else say (if d.doePort (h.f 0 1) then Dev.mctpIn fz d (1 + h.f 0 1) (h.pl.drop 1) else d) xOK
  | _ => say d xDENIED

/-- A message received by the darkroom on the path that it names, or sent by it; none is longer than 4,096 bytes (R366). The
controller's is answered to its latest endpoint and tag. -/
def Dev.empRow (fz : Fuse) (d : Dev) (op : Nat) (m : Emp) : Dev :=
  if !d.pwr.dark || m.payload.length > 4088 then d
  else match m.path with
    | .oob => Dev.oobIn fz d (d.drk.oob / 8 * 16 + d.drk.oob % 8) (empWire m op)
    | .fm => d.when d.fdUp fun d => Dev.empFm fz d (empWire m op)
    | .fe => d.when d.fdUp fun d => Dev.feIn fz d (empWire m op) (Dev.empFromFe fz)
    | .dr => d.drkOut (empWire m op)

/-- GET_INFO (R370). -/
def execGetInfo (m : Emp) (s : State) : Result := s.act fun fz d => Dev.empRow fz d 0x01 m

/-- CSP_READ (R372). -/
def execCspRead (m : Emp) (s : State) : Result := s.act fun fz d => Dev.empRow fz d 0x02 m

/-- SYS_RESET (R401). -/
def execSysReset (m : Emp) (s : State) : Result := s.act fun fz d => Dev.empRow fz d 0x03 m

/-- SAFELIGHT (R409). -/
def execSafelight (m : Emp) (s : State) : Result := s.act fun fz d => Dev.empRow fz d 0x04 m

/-- SELFTEST (R371, R407): `pass` gives the result of each Frond's test. -/
def execSelftest (m : Emp) (pass : BitVec 9) (s : State) : Result :=
  s.act fun fz d =>
    if m.path != .oob then Dev.empRow fz d 0x05 m
    else if !d.pwr.dark || m.payload.length > 4088 then d
    else Dev.empIn fz (Dev.feFirst fz d) eOOB (d.drk.oob / 8 * 16 + d.drk.oob % 8) (empWire m 0x05) (Dev.empFromOob fz pass.toNat)

/-- TIME_CFG (R359). -/
def execTimeCfg (m : Emp) (s : State) : Result := s.act fun fz d => Dev.empRow fz d 0x06 m

/-- TIME_GET (R370). -/
def execTimeGet (m : Emp) (s : State) : Result := s.act fun fz d => Dev.empRow fz d 0x07 m

/-- EVENT (R382): sent by the darkroom, its records those of its queue; nobody else may send it (R370). -/
def execEvent (m : Emp) (s : State) : Result :=
  s.act fun fz d => if m.path == .dr then d.when d.pwr.dark fun d => d.eventSend m.tag.toNat else Dev.empRow fz d 0x08 m

/-- EVENT_ACK (R356). -/
def execEventAck (m : Emp) (s : State) : Result := s.act fun fz d => Dev.empRow fz d 0x09 m

/-- IMG_DATA (R371). -/
def execImgData (m : Emp) (s : State) : Result := s.act fun fz d => Dev.empRow fz d 0x0A m

/-- IMG_END (R371). -/
def execImgEnd (m : Emp) (s : State) : Result := s.act fun fz d => Dev.empRow fz d 0x0B m

/-- SLOT_READ (R327). -/
def execSlotRead (m : Emp) (s : State) : Result := s.act fun fz d => Dev.empRow fz d 0x10 m

/-- SLOT_OFF (R327). -/
def execSlotOff (m : Emp) (s : State) : Result := s.act fun fz d => Dev.empRow fz d 0x11 m

/-- EXTEND (R371). -/
def execExtend (m : Emp) (s : State) : Result := s.act fun fz d => Dev.empRow fz d 0x20 m

/-- SIGCHK (R348). -/
def execSigchk (m : Emp) (s : State) : Result := s.act fun fz d => Dev.empRow fz d 0x21 m

/-- LOG_READ (R370). -/
def execLogRead (m : Emp) (s : State) : Result := s.act fun fz d => Dev.empRow fz d 0x22 m

/-- DBG_CHAL (R342). -/
def execDbgChal (m : Emp) (s : State) : Result := s.act fun fz d => Dev.empRow fz d 0x23 m

/-- DBG_AUTH (R342). -/
def execDbgAuth (m : Emp) (s : State) : Result := s.act fun fz d => Dev.empRow fz d 0x24 m

/-- DBG_REVOKE (R342). -/
def execDbgRevoke (m : Emp) (s : State) : Result := s.act fun fz d => Dev.empRow fz d 0x25 m

/-- DBG_CSP (R344). -/
def execDbgCsp (m : Emp) (s : State) : Result := s.act fun fz d => Dev.empRow fz d 0x26 m

/-- MEM_READ (R371). -/
def execMemRead (m : Emp) (s : State) : Result := s.act fun fz d => Dev.empRow fz d 0x30 m

/-- MEM_WRITE (R371). -/
def execMemWrite (m : Emp) (s : State) : Result := s.act fun fz d => Dev.empRow fz d 0x31 m

/-- IMG_WRITE (R371). -/
def execImgWrite (m : Emp) (s : State) : Result := s.act fun fz d => Dev.empRow fz d 0x32 m

/-- BOOT_COMMIT (R370). -/
def execBootCommit (m : Emp) (s : State) : Result := s.act fun fz d => Dev.empRow fz d 0x33 m

/-- CKPT (R371). -/
def execCkpt (m : Emp) (s : State) : Result := s.act fun fz d => Dev.empRow fz d 0x34 m

/-- CKPT_RESTORE (R371). -/
def execCkptRestore (m : Emp) (s : State) : Result := s.act fun fz d => Dev.empRow fz d 0x35 m

/-- IDE_KEY (R370). -/
def execIdeKey (m : Emp) (s : State) : Result := s.act fun fz d => Dev.empRow fz d 0x36 m

/-- DOE_PKT (R370). -/
def execDoePkt (m : Emp) (s : State) : Result := s.act fun fz d => Dev.empRow fz d 0x37 m

/-- FM_MSG (R370). -/
def execFmMsg (m : Emp) (s : State) : Result := s.act fun fz d => Dev.empRow fz d 0x40 m

/-- FM_PEER (R369). -/
def execFmPeer (m : Emp) (s : State) : Result := s.act fun fz d => Dev.empRow fz d 0x41 m

/-- EMP_RELAY_TIMEOUT (R368): the oldest relayed request with a tag. -/
def execEmpRelayTimeout (tag : Byte) (s : State) : Result :=
  s.act fun _ d => d.when d.pwr.dark fun d =>
    match d.drk.relays.find? fun r => r.tag == tag.toNat with
    | none => d
    | some r => d.relayTimeout r

/-- EMP_FRAGMENT_TIMEOUT (R369). -/
def execEmpFragmentTimeout (p : Fin 96) (s : State) : Result :=
  s.act fun _ d => d.when (d.fdUp && !(d.lnk p).frag.isEmpty) fun d => (d.updLnk p fun x => { x with frag := [] }).count (8 * p + 7) 1

/-! ## The I3C target (R361–R363) -/

def Dev.setI3c (d : Dev) (g : I3c → I3c) : Dev := { d with drk := { d.drk with i3c := g d.drk.i3c } }

/-- The provisional ID (R362). -/
def Dev.pid (d : Dev) : Nat := 0x15C7 * 2 ^ 33 + 0x9600 * 2 ^ 16 + getBits d.pwr.strap 0 2 * 2 ^ 12

def i3cBcr : Byte := 0x06
def i3cDcr : Byte := 0

/-- A directed read that the target answers at its dynamic address, and does not acknowledge without one. -/
def Dev.i3cGet (d : Dev) (bs : List Byte) : Dev :=
  d.when d.pwr.dark fun d => if d.drk.i3c.addr.isNone then d.emit (.i3c false []) else d.emit (.i3c true bs)

/-- A dynamic address given to a target that has none; packets that it holds are announced (R363). -/
def Dev.i3cTake (d : Dev) (a : Nat) (bs : List Byte) : Dev :=
  d.when (d.pwr.dark && d.drk.i3c.addr.isNone) fun d =>
    ((d.setI3c fun x => { x with addr := some a, due := 0 }).emit (.i3c true bs)).askIbi

/-- ENTDAA (R362): the target answers with its identification. -/
def execEntdaa (a : BitVec 7) (s : State) : Result :=
  s.act fun _ d => d.i3cTake a.toNat (beBytes 6 d.pid ++ [i3cBcr, i3cDcr])

/-- SETDASA (R362): for the target's static address. -/
def execSetdasa (static_ a : BitVec 7) (s : State) : Result :=
  s.act fun _ d => d.when (static_.toNat == d.i3cStatic) fun d => d.i3cTake a.toNat []

/-- SETAASA (R362). -/
def execSetaasa (s : State) : Result := s.act fun _ d => d.i3cTake d.i3cStatic []

/-- RSTDAA (R362): a message in arrival is discarded, and a response already due waits for the new address. -/
def execRstdaa (s : State) : Result :=
  s.act fun _ d => d.when d.pwr.dark fun d =>
    let d : Dev := { d with drk := { d.drk with asm := Tbl.drop (fun k => k < 4096) d.drk.asm } }
    let due := d.drk.tx.length
    d.setI3c fun x => if x.addr.isSome then { x with addr := none, due := due } else x

/-- SETNEWDA (R361): for the target's present address. -/
def execSetnewda (old a : BitVec 7) (s : State) : Result :=
  s.act fun _ d => d.when (d.pwr.dark && d.drk.i3c.addr == some old.toNat) fun d => d.setI3c fun x => { x with addr := some a.toNat }

/-- ENEC (R363): bit 0 enables in-band interrupts; one is requested where a packet waits. -/
def execEnec (ev : Byte) (s : State) : Result :=
  s.act fun _ d => d.when (d.pwr.dark && ev.getLsbD 0) fun d => (d.setI3c fun x => { x with ibi := true }).askIbi

/-- DISEC (R363). -/
def execDisec (ev : Byte) (s : State) : Result :=
  s.act fun _ d => d.when (d.pwr.dark && ev.getLsbD 0) fun d => d.setI3c fun x => { x with ibi := false }

/-- GETPID (R362). -/
def execGetpid (s : State) : Result := s.act fun _ d => d.i3cGet (beBytes 6 d.pid)

/-- GETBCR (R362). -/
def execGetbcr (s : State) : Result := s.act fun _ d => d.i3cGet [i3cBcr]

/-- GETDCR (R362). -/
def execGetdcr (s : State) : Result := s.act fun _ d => d.i3cGet [i3cDcr]

/-- GETSTATUS (R361): two bytes, whose contents the spec does not give. -/
def execGetstatus (s : State) : Result :=
  s.act fun _ d =>
    let (v, d) := d.draw
    d.i3cGet (leBytes 2 v.toNat)

/-- GETMWL (R361). -/
def execGetmwl (s : State) : Result := s.act fun _ d => d.i3cGet (beBytes 2 d.drk.i3c.mwl)

/-- GETMRL (R361): with the one mandatory byte of an in-band interrupt. -/
def execGetmrl (s : State) : Result := s.act fun _ d => d.i3cGet (beBytes 2 d.drk.i3c.mrl ++ [1])

/-- SETMWL (R364): 64 to 256 payload bytes. -/
def execSetmwl (n : BitVec 16) (s : State) : Result :=
  s.act fun _ d => d.when (d.pwr.dark && 64 ≤ n.toNat && n.toNat ≤ 256) fun d => d.setI3c fun x => { x with mwl := n.toNat }

/-- SETMRL (R364). -/
def execSetmrl (n : BitVec 16) (s : State) : Result :=
  s.act fun _ d => d.when (d.pwr.dark && 64 ≤ n.toNat && n.toNat ≤ 256) fun d => d.setI3c fun x => { x with mrl := n.toNat }

/-- GETMXDS (R361): no speed limitation, as BCR says (R362). -/
def execGetmxds (s : State) : Result := s.act fun _ d => d.i3cGet [0, 0]

/-- I3C_PRIVATE_READ (R362, R363): the oldest packet with its PEC, and the next request where more wait. Without a dynamic address
it is the I²C read at the static one, to which a packet that was due at RSTDAA is not given (R374). -/
def execI3cPrivateRead (s : State) : Result :=
  s.act fun _ d => d.when d.pwr.dark fun d =>
    let k := d.drk.i3c.due
    match d.drk.tx.drop k with
    | [] => d.emit (.i3c false [])
    | p :: ps => (({ d with drk := { d.drk with tx := d.drk.tx.take k ++ ps } } : Dev).emit (.mctp (p ++ [d.pec true p]))).askIbi

end Sys2Proof.Machine
end

