-- ==== Sys2Proof/Machine/Debug.lean ====
section
/-! DEFINITION. The test access port and the debug master (R341–R344). -/

namespace Sys2Proof.Machine

/-- The instruction register of the port. -/
def Dev.setIr (d : Dev) (i : Nat) : Dev := { d with tap := { d.tap with ir := i } }

/-- Bits shifted out, the first lowest. -/
def bitsNat : List Bool → Nat
  | [] => 0
  | b :: bs => b2n b + 2 * bitsNat bs

/-- The port works while VIO is valid; TDO is an output of the fabric die, undriven while that die is in reset (R394, R406). -/
def Dev.tapUp (d : Dev) : Bool := d.pwr.rails.getLsbD 7

def Dev.tdo (d : Dev) (n v : Nat) : Dev := d.when d.fdUp fun d => d.emit (.tdo n v)

def Dev.shiftOut (d : Dev) (bs : List Bool) : Dev := d.tdo bs.length (bitsNat bs)

/-- IDCODE (R341). -/
def idcode : Nat := 0x096005C7

/-- A capture of the boundary register shifted out while another value is shifted in: the levels at the balls are not the
device's to give, and each captured bit is free. -/
def Dev.boundary (d : Dev) (tdi : List Bool) : Dev :=
  let d := tdi.foldl (fun (x : List Bool × Dev) _ =>
    let (v, d) := x.2.draw
    (x.1 ++ [v.getLsbD 0], d)) (([] : List Bool), d)
  let d := d.2.shiftOut d.1
  { d with tap := { d.tap with bsr := tdi } }

/-- The grant in force covers a scope bit. -/
def Dev.scope (d : Dev) (i : Nat) : Bool := d.fb FPC.DBG.AUTH && bitN (d.f FPC.DBG.SCOPE) i

/-! ## Memory (R343) -/

def dbgSlice : Nat := 0xFFE
def dbgOwn : Own := ⟨.unit 1, drkAgent, dbgSlice, true⟩

/-- The judgement of a debug access: without MEM scope nothing is admitted (R341), and a line of another device is judged at its
home (R331). -/
def Dev.dbgVerdict (d : Dev) (a : Nat) (k : Kind) : Verdict :=
  if d.scope 0 then (if d.remote (a / 64) then .ok else d.check a .dbg k dbgSlice)
  else match d.regionOf a with
    | some i => .region i
    | none => .noreg

/-- An access to a locked region: counted, its FPA recorded, and the first since the last grant raised. -/
def Dev.dbgLocked (d : Dev) (a : Nat) (wr : Bool) : Dev :=
  let d := d.incF (if wr then FPC.DBG.LWRITE else FPC.DBG.LREAD)
  let d := d.setF FPC.DBGFPA.FPA (a / 64)
  if d.drk.lockEv then ({ d with drk := { d.drk with lockEv := false } } : Dev).raiseSys 3 0 else d

/-- The fixed pattern of a locked region, from an address on. -/
def lockPattern (a n : Nat) : List Byte := (List.range n).map fun i => byteOf 0xDEAD0000DEAD0000 ((a + i) % 8)

def Dev.aLocked (d : Dev) (a : Nat) : Bool :=
  !d.remote (a / 64) && (match d.regionOf a with
    | some i => d.regionLocked i
    | none => false)

/-- A debug read, line by line: the bytes, and whether all of it was admitted. -/
def Dev.dbgRead : Nat → Dev → Nat → Nat → (Bool × List Byte) × Dev
  | 0, d, _, _ => ((true, []), d)
  | k + 1, d, a, n =>
    if n == 0 then ((true, []), d)
    else
      let m := min n (64 - a % 64)
      let v := d.dbgVerdict a .rd
      let ones := List.replicate m 0xFF
      let (one, d) : (Bool × List Byte) × Dev :=
        if d.aLocked a then ((false, lockPattern a m), d.dbgLocked a false)
        else if v != .ok then ((false, ones), d.pviol v a .dbg .rd drkAgent dbgSlice)
        else
          let (r, d) := d.cohRead dbgOwn (a / 64)
          if r.fail != 0 then ((false, ones), d)
          else if r.psn then
            let (bs, d) := d.drawBytes 8
            ((false, bs.take m), d)
          else ((true, lineSlice r.data (a % 64) m), d)
      let (rest, d) := Dev.dbgRead k d (a + m) (n - m)
      ((one.1 && rest.1, one.2 ++ rest.2), d)

/-- A debug write, line by line: whether all of it was admitted. -/
def Dev.dbgWrite : Nat → Dev → Nat → List Byte → Bool × Dev
  | 0, d, _, _ => (true, d)
  | k + 1, d, a, bs =>
    if bs.isEmpty then (true, d)
    else
      let m := min bs.length (64 - a % 64)
      let v := d.dbgVerdict a .wr
      let (one, d) : Bool × Dev :=
        if d.aLocked a then (false, d.dbgLocked a true)
        else if v != .ok then (false, d.notice v drkAgent dbgSlice true)
        else
          let (why, d) := Dev.cohPut 2 d dbgOwn a (bs.take m)
          (why == 0, d)
      let (rest, d) := Dev.dbgWrite k d (a + m) (bs.drop m)
      (one && rest, d)

/-! ## SCAN (R344) -/

/-- Every SRAM array of the fabric and port dies cleared: of what a reset keeps, that is the near table store and the
packet buffer. -/
def Dev.scanClear (d : Dev) : Dev :=
  let sram := fun (a : Nat) => d.fpaKind a == .nts || d.fpaKind a == .opb
  { d with
    pool := { d.pool with
      mem := d.pool.mem.filter fun c => !sram c.1
      lmeta := d.pool.lmeta.filter fun c => !sram (c.1 * 64) }
    sor := { d.sor with store := [] }
    coh := { d.coh with sf := [], l1 := [] }
    qm := { d.qm with cells := [], tab := [] } }

/-! ## The commands -/

/-- BYPASS (R341): one bit of delay, which captures 0. -/
def execBypass (tdi : List Bool) (s : State) : Result :=
  s.act fun _ d => d.when d.tapUp fun d => (d.setIr 1).shiftOut ((false :: tdi).take tdi.length)

/-- IDCODE (R341). -/
def execIdcode (s : State) : Result :=
  s.act fun _ d => d.when d.tapUp fun d => (d.setIr 2).tdo 32 idcode

/-- SAMPLE_PRELOAD (R341). -/
def execSamplePreload (tdi : List Bool) (s : State) : Result :=
  s.act fun _ d => d.when d.tapUp fun d => (d.setIr 3).boundary tdi

/-- EXTEST (R341). -/
def execExtest (tdi : List Bool) (s : State) : Result :=
  s.act fun _ d => d.when d.tapUp fun d => (d.setIr 4).boundary tdi

/-- SCAN (R341, R344): under its scope, while the fabric die is held in reset. -/
def execScan (s : State) : Result :=
  s.act fun _ d => d.when (d.tapUp && d.scope 2 && !d.fdUp) fun d => (d.setIr 5).scanClear

/-- DEBUG_MEMORY_ACCESS (R343): a read of `n` bytes, or a write of `bs`; one that has to wait for a line is taken up when it comes
again. -/
def execDebugMemoryAccess (wr : Bool) (fpa : BitVec 52) (n : BitVec 13) (bs : List Byte) (s : State) : Result :=
  s.act fun _ d => d.when d.fdUp fun d => d.attempt fun d =>
    if wr then
      let (ok, d) := Dev.dbgWrite (bs.length + 1) d fpa.toNat bs
      d.emit (.dbg ok [])
    else
      let ((ok, r), d) := Dev.dbgRead (n.toNat + 1) d fpa.toNat n.toNat
      d.emit (.dbg ok r)

/-- TRST_N_ASSERT (R342): the port is reset, and an authorisation that the TAP obtained ends. -/
def execTrstNAssert (s : State) : Result :=
  s.act fun _ d =>
    let d : Dev := { d with tap := Tap.cold }
    if d.drk.auth == 1 then d.dbgEnd else d

end Sys2Proof.Machine
end

