-- ==== Sys2Proof/Machine/Power.lean ====
section
/-! DEFINITION. Power and resets (R346, R394–R403), the rail monitors (R395–R398, R417), thermal supervision (R413, R414,
R429), TIME_PPS (R15, R359), and what time itself does (R12, R385, R387). -/

namespace Sys2Proof.Machine

/-! ## Rails (R394–R398, R417) -/

/-- The step of R395 at which a rail comes up, by its number in R394. -/
def railStep (r : Nat) : Nat := [2, 2, 3, 4, 5, 6, 7, 1, 0, 0, 0].getD r 0

/-- The window in which the monitors see a rail valid, in units of 0.1 mV (R417). -/
def railWindow (fz : Fuse) (r : Nat) : Nat × Nat :=
  let vt := 6800 + 50 * fz.vt
  [(min vt 7500 - 150, max vt 7500 + 150), (7760, 8240), (7275, 7725), (11640, 12360), (17100, 18900), (10670, 11330),
    (3800, 4200), (17100, 18900), (7760, 8240), (17100, 18900), (31350, 34650)].getD r (0, 0)

def railInside (fz : Fuse) (r v : Nat) : Bool := (railWindow fz r).1 ≤ v && v ≤ (railWindow fz r).2

/-- The main rails of R394. -/
def mainRail (r : Nat) : Bool := r < 8

/-- Rail `a` became valid before rail `b`, of an earlier step (R397). -/
def earlyFor (a b : Nat) : Bool := railStep b < railStep a

/-- An HBM rail out of its order, or before VCORE: outside the stack ratings (R397). -/
def hbmEarly (a b : Nat) : Bool := 4 ≤ a && a ≤ 6 && (b == 0 || (4 ≤ b && b ≤ 6)) && earlyFor a b

/-- The rails that became valid after `r` since it last did. -/
def Dev.railsAfter (d : Dev) (r : Nat) : List Nat := d.pwr.order.drop (d.pwr.order.idxOf r + 1)

/-- Ordering violations raised, once per rail; one among the HBM rails keeps the fabric die in reset (R397). -/
def Dev.railCheck (d : Dev) : Dev :=
  let bad := d.pwr.order.filter fun r => (d.railsAfter r).any (earlyFor r) && !d.pwr.raised.getLsbD r
  let hbm := bad.any fun r => (d.railsAfter r).any (hbmEarly r)
  let d : Dev := { d with pwr := { d.pwr with
    raised := bad.foldl (fun b r => b ||| BitVec.ofNat 11 (2 ^ r)) d.pwr.raised
    hbmOrder := d.pwr.hbmOrder || hbm } }
  bad.foldl (fun d r => d.drkRaise 19 r) d

/-- A rail marked valid, and marked invalid. -/
def Dev.railUp (d : Dev) (r : Nat) : Dev :=
  if d.pwr.rails.getLsbD r then d
  else { d with pwr := { d.pwr with rails := d.pwr.rails ||| BitVec.ofNat 11 (2 ^ r), order := d.pwr.order ++ [r] } }

def Dev.railDown (d : Dev) (r : Nat) : Dev :=
  { d with pwr := { d.pwr with
      rails := d.pwr.rails &&& ~~~(BitVec.ofNat 11 (2 ^ r)), order := d.pwr.order.filter (· != r)
      raised := d.pwr.raised &&& ~~~(BitVec.ofNat 11 (2 ^ r)) } }

/-- A rail becomes valid. The slot die leaves its reset with VAUX (R399); a violation that arises while PWROK is deasserted
is raised when the darkroom starts. -/
def Dev.railValid (d : Dev) (r : Nat) : Dev :=
  let early := d.pwr.order.filter fun a => earlyFor a r
  let d := d.railUp r
  let d := if r == 10 then d.slotClear else d
  if d.pwr.pwrok then
    let d : Dev := { d with pwr := { d.pwr with hbmOrder := d.pwr.hbmOrder || early.any fun a => hbmEarly a r } }
    d.railCheck
  else { d with pwr := { d.pwr with raised := early.foldl (fun b a => b &&& ~~~(BitVec.ofNat 11 (2 ^ a))) d.pwr.raised } }

/-- VAUX is lost: every slot output is undriven, and the SLOT block will be cold (R313, R326). -/
def Dev.vauxLost (d : Dev) : Dev :=
  let d := (d.railDown 10).slotClear
  if d.pwr.pwrok then d.drkRaise 19 10 else d

/-- The dies held in reset until the next cold reset (R398, R413). -/
def Dev.lockDies (d : Dev) : Dev :=
  let d := d.fdCold
  { d with pwr := { d.pwr with locked := true, warm := none } }

/-- The darkroom is unpowered: it stops, and with it everything that its reset line holds; its pins are released (R396, R406). -/
def Dev.darkLost (d : Dev) : Dev :=
  let d := d.fdCold
  { d with
    drk := Drk.cold
    pwr := { d.pwr with
      dark := false, pwrok := false, locked := false, hbmOrder := false, warm := none, safeDrv := false, alert := false,
      startFail := false } }

/-- The standby rails fall: the darkroom and the slot die stop (R397). -/
def Dev.standbyLost (d : Dev) : Dev := ((((d.railDown 8).railDown 9).railDown 10).slotClear).darkLost

/-- A rail leaves its limits (R398); the slot die runs on VAUX alone (R394, R399). -/
def Dev.railFault (d : Dev) (r : Nat) : Dev :=
  if r == 10 then d.vauxLost
  else if mainRail r then
    let d := d.railDown r
    if d.pwr.pwrok then d.lockDies.drkRaise 19 r else d
  else (d.railDown r).darkLost

/-! ## Cold reset (R346, R399, R400) -/

/-- The darkroom with its boot over: the event queue, the I3C address, the endpoint ID and packets on their way are kept. -/
def Drk.restart (k : Drk) : Drk :=
  { Drk.cold with
    evq := k.evq, evSent := k.evSent, evLost := k.evLost, i3c := k.i3c, eid := k.eid, oob := k.oob, asm := k.asm, tx := k.tx }

/-- PWROK deasserted: the dies are in reset, every channel turns off, and the darkroom runs its standby service. Safelight has
ended with the dies' state, and SAFE_N is released (log entry 147). -/
def Dev.coldStart (d : Dev) : Dev :=
  let d := (d.fdCold.slotCold)
  ({ d with
    drk := d.drk.restart
    pwr := { d.pwr with
      pwrok := false, locked := false, hbmOrder := false, warm := none, safeDrv := false, startFail := false } } : Dev).alertUpd

/-- PWROK asserted: the straps are sampled, every register outside the SLOT block is cold but the manager port's CFG, and the
darkroom restarts from its boot ROM. -/
def Dev.coldEnd (fz : Fuse) (d : Dev) (strap : BitVec 4) : Dev :=
  let d := d.fdCold
  let d : Dev := { d with
    time := 0
    drk := d.drk.restart
    tap := Tap.cold
    pwr := { d.pwr with strap := strap, pwrok := true, startFail := false } }
  Dev.bootRom fz d.mgrPortCfg.railCheck

/-- The standby rails become valid: the darkroom and the slot die leave their reset, and STRAP[1:0] is sampled. -/
def Dev.standbyUp (d : Dev) (strap : BitVec 2) : Dev :=
  let d := ((d.railValid 8).railValid 9)
  let d := if d.pwr.rails.getLsbD 10 then d else d.railValid 10
  { d with
    drk := Drk.cold
    pwr := { d.pwr with dark := true, strap := (d.pwr.strap &&& 0b1100) ||| strap.setWidth 4 } }

/-! ## Warm reset (R350, R401, R415) -/

/-- Step 4 of a warm reset: the dies are released, SAFE_N sampled, and slot 1 extended. The spore is reloaded once every stack is
READY (step 6). -/
def Dev.warmEnd (fz : Fuse) (d : Dev) (cause : Nat) (safeLow : Bool) : Dev :=
  let d : Dev := { d with pwr := { d.pwr with fdReset := false, warm := none, safeLow := safeLow } }
  let d := ((d.setF SYS.RSTSTAT.CAUSE cause).incF SYS.RSTSTAT.WARMS).setF SYS.RSTSTAT.SAFEPIN (b2n safeLow)
  let d := d.trainStart d.mgrPort
  let d := d.extend 1 3 (sha384 (Dev.configRecord fz d true))
  let d := if safeLow then d.enterSafe 5 0
    else if d.pwr.thermCrit != 0 then d.enterSafe 4 ((onesN 11 d.pwr.thermCrit.toNat).headD 0)
    else d
  { d with drk := { d.drk with reload := !d.drk.fm.isEmpty } }

/-- Steps 5 and 6: a stack is READY again, and the last of them has the darkroom reload the fabric manager spore. -/
def Dev.hbmReady (fz : Fuse) (d : Dev) (k : Nat) : Dev :=
  let d := (d.setF (HBM.STAT.READY k) 1).setF (HBM.STAT.SREF k) 0
  if d.drk.reload && (List.range 4).all fun k => d.fb (HBM.STAT.READY k) then
    (Dev.bootFm fz { d with drk := { d.drk with reload := false } } d.drk.fm true).2
  else d

/-! ## Sensors (R413, R414, R429) -/

/-- 110 °C, 120 °C and 85 °C in the coding of SYS.TEMP: TJ ÷ 4 − 64 (R415). -/
def tjCrit : Nat := 696
def tjTrip : Nat := 736
def tjDouble : Nat := 596

/-- A reading taken into SYS.TEMP[k], which the fabric die holds; a stack refreshes at twice the rate while its sensor reads above
85 °C (R429). -/
def Dev.sensor (d : Dev) (k tj : Nat) : Dev :=
  d.when d.fdUp fun d =>
    let d := (d.setF (SYS.TEMP.TJ k) tj).updF (SYS.TEMP.MAX k) (max tj)
    if k < 5 || 8 < k then d
    else { d with pool := { d.pool with refr2 := Tbl.put 0 d.pool.refr2 (k - 5) (b2n (tjDouble < tj)) } }

/-- One sorus clock after a millisecond: lowered, raised, or left. -/
def Dev.clockStep (d : Dev) (hot cool : Bool) (n : Nat) : Dev :=
  let c := d.f (SYS.SCLK.CUR n)
  let cap := d.f (SYS.SCLK.CAP n)
  let c' := if hot then max 10 (c - 1) else if cool then (if c < cap then c + 1 else cap) else c
  (d.setF (SYS.SCLK.CUR n) c').setF (SYS.SCLK.THR n) (b2n (c' < cap))

/-- The clocks after the sensors of the FD and PDs have been read (R414); in safelight they stay at 1.0 GHz (R410). -/
def Dev.throttle (d : Dev) : Dev :=
  let t := fun k => d.f (SYS.TEMP.TJ k)
  let tt := d.f SYS.THERM.TTHROT
  let hy := d.f SYS.THERM.HYST
  let hot := (List.range 5).any fun k => (tt + 64) * 4 < t k
  let cool := (List.range 5).all fun k => t k < (tt - hy + 64) * 4
  if d.safe then d
  else
    let d := (List.range 32).foldl (fun d n => d.clockStep hot cool n) d
    d.setF SYS.THERM.THROTTLING (b2n ((List.range 32).any fun n => d.f (SYS.SCLK.CUR n) < d.f (SYS.SCLK.CAP n)))

/-! ## TIME_PPS (R15, R359) -/

/-- Nanoseconds of a second. -/
def secNs : Nat := 1000000000

/-- Fabric time modulo 10⁹ as a signed difference from the nearest second. -/
def ppsPhase (t : Nat) : Int := if t % secNs ≤ secNs / 2 then (t % secNs : Int) else (t % secNs : Int) - secNs

/-- An edge at fabric time `t` is accepted: the first, or one within 100 µs of a second after the last. -/
def Pps.accepts (p : Pps) (t : Nat) : Bool :=
  p.free || (match p.last with
    | none => true
    | some l => l + secNs - 100000 ≤ t && t ≤ l + secNs + 100000)

def Pps.edge (p : Pps) (t : Nat) : Pps :=
  if p.accepts t then { p with last := some t, free := false, off := ppsPhase t, slew := ppsPhase t }
  else { p with ignored := p.ignored + 1 }

/-- 3 s have passed without an accepted edge. -/
def Pps.lost (p : Pps) (t : Nat) : Bool :=
  p.en && !p.free && (match p.last with
    | none => true
    | some l => l + 3 * secNs ≤ t)

/-! ## Time (R12, R15, R383, R385, R387) -/

/-- Ticks of the 250 MHz reference between corrections of 1 ns: 200 ppm (R15). -/
def slewTicks : Nat := 1250

/-- One tick of the reference: 4 ns, one more or less where the phase is being slewed. -/
def Dev.timeStep (d : Dev) : Dev :=
  let p := d.drk.pps
  if p.slew == 0 then { d with time := d.time + 4, drk := { d.drk with pps := { p with acc := 0 } } }
  else if p.acc + 1 < slewTicks then { d with time := d.time + 4, drk := { d.drk with pps := { p with acc := p.acc + 1 } } }
  else if 0 < p.slew then { d with time := d.time + 3, drk := { d.drk with pps := { p with acc := 0, slew := p.slew - 1 } } }
  else { d with time := d.time + 5, drk := { d.drk with pps := { p with acc := 0, slew := p.slew + 1 } } }

/-- The wait of a strand is a declared one (R174, R175, R219, R254). -/
def Wait.declared : Wait → Bool
  | .chput .. | .chget .. | .until .. | .waitCh .. | .slq .. => true
  | _ => false

/-- The strand waits on memory, for its own stores and for an access made for it among them. -/
def Wait.onMemory : Wait → Bool
  | .ld .. | .ldl .. | .prim .. | .st .. | .amo .. | .fence | .rsync .. | .move .. | .root .. => true
  | .hold why => why == 0 || why == 2
  | _ => false

/-- `n` cycles of a sorus clock counted: in the Fronds' events, and for the slices whose work its strands hold. -/
def Dev.cyclesPass (d : Dev) (s n : Nat) : Dev :=
  if n == 0 then d
  else
    let run := d.running s
    let d := run.foldl (fun d e =>
      let p := d.physOf e.1
      let d := if e.2.wait.declared then d.frEvent p 14 n else d
      let d := if e.2.wait.onMemory then d.frEvent p 15 n else d
      match e.2.sliceWork with
      | some k => d.countSlice k 4 n
      | none => d) d
    (List.range 9).foldl (fun d i =>
      let p := s * 9 + i
      if d.reg (CTR.FSEL.CLR p) == 0 then d
      else
        let busy := run.any fun e => d.physOf e.1 == p && e.2.wait == .none && !e.2.held
        let d := d.frEvent p 1 n
        let d := if busy then d else d.frEvent p 3 n
        if (d.sbLines p).length < 16 then d else d.frEvent p 16 n) d

/-- The clock of a sorus over one tick: CUR × 100 MHz for 4 ns, in tenths of a cycle. -/
def Dev.sorusTick (d : Dev) (s : Nat) : Dev :=
  let old := Tbl.get 0 d.ctr.clk s
  let new := old + d.f (SYS.SCLK.CUR s) * 4
  Dev.cyclesPass { d with ctr := { d.ctr with clk := Tbl.put 0 d.ctr.clk s new } } s (new / 10 - old / 10)

/-- The shadows take their values once fabric time has reached T (R387). -/
def Dev.snapReach (d : Dev) : Dev :=
  match d.ctr.snap with
  | some (t, false) => if t ≤ d.time then d.shadows else d
  | _ => d

/-- One tick of fabric time, where no command waits: time counts from the end of cold reset, and the sorus clocks run while
the dies do. -/
def Dev.tick (d : Dev) : Dev :=
  if !d.pwr.pwrok then d
  else
    let d := d.timeStep
    if d.fdUp then ((List.range 32).foldl Dev.sorusTick d).snapReach else d

/-! ## The commands -/

/-- PWROK_DEASSERT (R399): a warm reset in progress is abandoned. -/
def execPwrokDeassert (s : State) : Result := s.act fun _ d => d.when (d.pwr.dark && d.pwr.pwrok) fun d => d.coldStart

/-- PWROK_ASSERT (R346, R399): the one command that sets fabric time, to 0 (R12). -/
def execPwrokAssert (strap : BitVec 4) (s : State) : Result :=
  .next { s with dev := s.dev.when (s.dev.pwr.dark && !s.dev.pwr.pwrok) fun d => Dev.coldEnd s.fuse d strap }

/-- STANDBY_RAILS_VALID (R400). -/
def execStandbyRailsValid (strap : BitVec 2) (s : State) : Result :=
  s.act fun _ d => d.when (!d.pwr.dark) fun d => d.standbyUp strap

/-- STANDBY_RAILS_LOST (R397). -/
def execStandbyRailsLost (s : State) : Result := s.act fun _ d => d.when d.pwr.dark fun d => d.standbyLost

/-- VAUX_LOST (R326). -/
def execVauxLost (s : State) : Result := s.act fun _ d => d.when (d.pwr.rails.getLsbD 10) fun d => d.vauxLost

/-- RAIL_VALID (R396, R417): rail `r` at `v` × 0.1 mV. -/
def execRailValid (r : Fin 11) (v : Nat) (s : State) : Result :=
  s.act fun fz d => d.when (!d.pwr.rails.getLsbD r && railInside fz r v) fun d => d.railValid r

/-- RAIL_FAULT (R398, R417): rail `r` at `v` × 0.1 mV. -/
def execRailFault (r : Fin 11) (v : Nat) (s : State) : Result :=
  s.act fun fz d => d.when (d.pwr.rails.getLsbD r && !railInside fz r v) fun d => d.railFault r

/-- FD_RELEASE (R346). -/
def execFdRelease (s : State) : Result := s.act fun fz d => d.when d.mayRelease fun d => Dev.fdRelease fz d

/-- HBM_READY (R346, R401): stack `k` completes training. -/
def execHbmReady (k : Fin 4) (s : State) : Result :=
  s.act fun fz d => d.when (d.fdUp && !d.fb (HBM.STAT.READY k)) fun d => Dev.hbmReady fz d k

/-- BOOT_START (R169). -/
def execBootStart (s : State) : Result := s.act fun _ d => d.when d.fdUp fun d => d.bootStart

/-- RESET_N_ASSERT (R401). -/
def execResetNAssert (s : State) : Result := s.act fun _ d => d.when d.pwr.pwrok fun d => d.warmStart 1

/-- WARM_RESET_RELEASE (R401): step 4, with SAFE_N as sampled; the reset line is held while a rail is invalid (R396). -/
def execWarmResetRelease (safeLow : Bool) (s : State) : Result :=
  s.act fun fz d => d.when d.lineFree fun d => match d.pwr.warm with
    | some c => Dev.warmEnd fz d c safeLow
    | none => d

/-- DARKROOM_WATCHDOG (R409): the firmware restarts, and what it held of its protocols is gone. -/
def execDarkroomWatchdog (s : State) : Result :=
  s.act fun _ d => d.when (d.pwr.dark && d.drk.fwOk) fun d =>
    let d := d.enterSafe 3 0
    { d with drk := { d.drk with relays := [], asm := [], sess := [], spdm := [], nonces := [], used := [] } }

/-- THERMAL_CRITICAL (R413): sensor `k` has read `tj` or more for 1 ms. -/
def execThermalCritical (k : Fin 11) (tj : BitVec 11) (s : State) : Result :=
  s.act fun _ d => d.when (d.pwr.pwrok && tjCrit ≤ tj.toNat) fun d =>
    let d := d.sensor k tj.toNat
    let d : Dev := { d with pwr := { d.pwr with thermCrit := d.pwr.thermCrit ||| BitVec.ofNat 11 (2 ^ k.val) } }
    (d.drkRaise 17 k).enterSafe 4 k

/-- THERMAL_TRIP (R413). -/
def execThermalTrip (k : Fin 11) (tj : BitVec 11) (s : State) : Result :=
  s.act fun _ d => d.when (d.pwr.pwrok && tjTrip ≤ tj.toNat) fun d => d.lockDies.drkRaise 17 k

/-- THROTTLE_STEP (R414): a millisecond passes, with the readings of sensors 0 to 10; one that the list does not give
stands. -/
def execThrottleStep (tj : List (BitVec 11)) (s : State) : Result :=
  s.act fun _ d => d.when d.pwr.pwrok fun d =>
    let now := fun k => tj[k]?.elim (d.f (SYS.TEMP.TJ k)) (·.toNat)
    let d := (List.range 11).foldl (fun d k => d.sensor k (now k)) d
    let still := ((List.range 11).map fun k => b2n (tjCrit ≤ now k) * 2 ^ k).sum
    let d : Dev := { d with pwr := { d.pwr with thermCrit := d.pwr.thermCrit &&& BitVec.ofNat 11 still } }
    d.when d.fdUp Dev.throttle

/-- HBM_DOUBLE_REFRESH (R429): the sensor of stack `k` reads `tj`. -/
def execHbmDoubleRefresh (k : Fin 4) (tj : BitVec 11) (s : State) : Result :=
  s.act fun _ d => d.sensor (5 + k) tj.toNat

/-- SAFE_N_EXTERNAL_LOW (R357). -/
def execSafeNExternalLow (s : State) : Result :=
  s.act fun _ d => d.when d.pwr.dark fun d =>
    ({ d with pwr := { d.pwr with safeLow := true } } : Dev).enterSafe 5 0

/-- TIME_PPS_EDGE (R359). -/
def execTimePpsEdge (s : State) : Result :=
  s.act fun _ d => d.when (d.pwr.pwrok && d.drk.pps.en) fun d =>
    { d with drk := { d.drk with pps := d.drk.pps.edge d.now } }

/-- PPS_LOSS (R359). -/
def execPpsLoss (s : State) : Result :=
  s.act fun _ d => d.when (d.pwr.pwrok && d.drk.pps.lost d.now) fun d =>
    ({ d with drk := { d.drk with pps := { d.drk.pps with free := true, slew := 0 } } } : Dev).drkRaise 16 0

end Sys2Proof.Machine
end

