-- ==== Sys2Proof/Machine/Dispatch.lean ====
section
/-! DEFINITION. One arm per command: its meaning, called by its full name. -/

namespace Sys2Proof.Machine

/-- The effect of one command on the device, the queue of waiting commands apart. -/
def exec (i : Instr) (s : State) : Host.Outcome State Fault Refusal :=
  match i with
  | .pwrokDeassert => Sys2Proof.Machine.execPwrokDeassert s
  | .pwrokAssert strap => Sys2Proof.Machine.execPwrokAssert strap s
  | .standbyRailsValid strap => Sys2Proof.Machine.execStandbyRailsValid strap s
  | .vauxLost => Sys2Proof.Machine.execVauxLost s
  | .railValid r v => Sys2Proof.Machine.execRailValid r v s
  | .railFault r v => Sys2Proof.Machine.execRailFault r v s
  | .fdRelease => Sys2Proof.Machine.execFdRelease s
  | .hbmReady k => Sys2Proof.Machine.execHbmReady k s
  | .bootStart => Sys2Proof.Machine.execBootStart s
  | .resetNAssert => Sys2Proof.Machine.execResetNAssert s
  | .warmResetRelease safeLow => Sys2Proof.Machine.execWarmResetRelease safeLow s
  | .darkroomWatchdog => Sys2Proof.Machine.execDarkroomWatchdog s
  | .thermalCritical k tj => Sys2Proof.Machine.execThermalCritical k tj s
  | .thermalTrip k tj => Sys2Proof.Machine.execThermalTrip k tj s
  | .throttleStep tj => Sys2Proof.Machine.execThrottleStep tj s
  | .safeNExternalLow => Sys2Proof.Machine.execSafeNExternalLow s
  | .timePpsEdge => Sys2Proof.Machine.execTimePpsEdge s
  | .ppsLoss => Sys2Proof.Machine.execPpsLoss s
  | .shutterInEdge delay => Sys2Proof.Machine.execShutterInEdge delay s
  | .shutterTimer => Sys2Proof.Machine.execShutterTimer s
  | .snapshotComplete => Sys2Proof.Machine.execSnapshotComplete s
  | .sheetDump k => Sys2Proof.Machine.execSheetDump k s
  | .eventDelivery k => Sys2Proof.Machine.execEventDelivery k s
  | .cspRegisterWrite a v => Sys2Proof.Machine.execCspRegisterWrite a v s
  | .csprd t f => Sys2Proof.Machine.execCsprd t f s
  | .cspwr t f => Sys2Proof.Machine.execCspwr t f s
  | .bar0Read p off n => Sys2Proof.Machine.execBar0Read p off n s
  | .bar0Write p off bs => Sys2Proof.Machine.execBar0Write p off bs s
  | .msixTableWrite p k x => Sys2Proof.Machine.execMsixTableWrite p k x s
  | .biDecoderCommit p k => Sys2Proof.Machine.execBiDecoderCommit p k s
  | .biDecoderUncommit p k => Sys2Proof.Machine.execBiDecoderUncommit p k s
  | .memrd p r => Sys2Proof.Machine.execMemrd p r s
  | .memrddata p r => Sys2Proof.Machine.execMemrddata p r s
  | .memwr p r => Sys2Proof.Machine.execMemwr p r s
  | .memwrptl p r => Sys2Proof.Machine.execMemwrptl p r s
  | .memclnevct p r => Sys2Proof.Machine.execMemclnevct p r s
  | .birspi p ln => Sys2Proof.Machine.execBirspi p ln s
  | .birsps p ln => Sys2Proof.Machine.execBirsps p ln s
  | .birspe p ln => Sys2Proof.Machine.execBirspe p ln s
  | .pcieMemoryRead p r => Sys2Proof.Machine.execPcieMemoryRead p r s
  | .pcieMemoryWrite p off bs => Sys2Proof.Machine.execPcieMemoryWrite p off bs s
  | .pcieAtomicop p tag o sz off a b => Sys2Proof.Machine.execPcieAtomicop p tag o sz off a b s
  | .bisnpTimeout p ln => Sys2Proof.Machine.execBisnpTimeout p ln s
  | .rds m err => Sys2Proof.Machine.execRds m err s
  | .rdx m err => Sys2Proof.Machine.execRdx m err s
  | .upg m err => Sys2Proof.Machine.execUpg m err s
  | .rdu m err => Sys2Proof.Machine.execRdu m err s
  | .wru m => Sys2Proof.Machine.execWru m s
  | .wrp m err => Sys2Proof.Machine.execWrp m err s
  | .atom m err => Sys2Proof.Machine.execAtom m err s
  | .homeRequestDequeue ln err => Sys2Proof.Machine.execHomeRequestDequeue ln err s
  | .sfWayFree ln err => Sys2Proof.Machine.execSfWayFree ln err s
  | .predictorEntryExpire n k => Sys2Proof.Machine.execPredictorEntryExpire n k s
  | .gntm m => Sys2Proof.Machine.execGntm m s
  | .cmpMessage m => Sys2Proof.Machine.execCmpMessage m s
  | .cmpp m => Sys2Proof.Machine.execCmpp m s
  | .wback m => Sys2Proof.Machine.execWback m s
  | .datas m => Sys2Proof.Machine.execDatas m s
  | .datae m => Sys2Proof.Machine.execDatae m s
  | .datam m => Sys2Proof.Machine.execDatam m s
  | .datau m => Sys2Proof.Machine.execDatau m s
  | .dataa m => Sys2Proof.Machine.execDataa m s
  | .wbm m => Sys2Proof.Machine.execWbm m s
  | .wbo m => Sys2Proof.Machine.execWbo m s
  | .evictc m => Sys2Proof.Machine.execEvictc m s
  | .snps m => Sys2Proof.Machine.execSnps m s
  | .snpi m => Sys2Proof.Machine.execSnpi m s
  | .snpc m => Sys2Proof.Machine.execSnpc m s
  | .rspi m => Sys2Proof.Machine.execRspi m s
  | .rsps m => Sys2Proof.Machine.execRsps m s
  | .rspo m => Sys2Proof.Machine.execRspo m s
  | .rspd m => Sys2Proof.Machine.execRspd m s
  | .rspiwb m => Sys2Proof.Machine.execRspiwb m s
  | .snpcnt m => Sys2Proof.Machine.execSnpcnt m s
  | .cohReservedCode m => Sys2Proof.Machine.execCohReservedCode m s
  | .fbind t f => Sys2Proof.Machine.execFbind t f s
  | .fbindKeep t f => Sys2Proof.Machine.execFbindKeep t f s
  | .zeroingComplete k => Sys2Proof.Machine.execZeroingComplete k s
  | .funbind t f => Sys2Proof.Machine.execFunbind t f s
  | .unbindComplete k => Sys2Proof.Machine.execUnbindComplete k s
  | .slsetCreate t f => Sys2Proof.Machine.execSlsetCreate t f s
  | .slsetDestroy t f => Sys2Proof.Machine.execSlsetDestroy t f s
  | .slsetRoot t f => Sys2Proof.Machine.execSlsetRoot t f s
  | .slsetHostopen t f => Sys2Proof.Machine.execSlsetHostopen t f s
  | .slsetHostclose t f => Sys2Proof.Machine.execSlsetHostclose t f s
  | .slquiesce t f => Sys2Proof.Machine.execSlquiesce t f s
  | .slquiesceAbort t f => Sys2Proof.Machine.execSlquiesceAbort t f s
  | .sliceQuiesced n => Sys2Proof.Machine.execSliceQuiesced n s
  | .quiesceTimeout t => Sys2Proof.Machine.execQuiesceTimeout t s
  | .slresume t f => Sys2Proof.Machine.execSlresume t f s
  | .slreset t f => Sys2Proof.Machine.execSlreset t f s
  | .xinvGo v => Sys2Proof.Machine.execXinvGo v s
  | .xinvDone => Sys2Proof.Machine.execXinvDone s
  | .hgenReq h => Sys2Proof.Machine.execHgenReq h s
  | .genSwap h => Sys2Proof.Machine.execGenSwap h s
  | .genDrained h => Sys2Proof.Machine.execGenDrained h s
  | .exttblWrite v => Sys2Proof.Machine.execExttblWrite v s
  | .dlogBump n => Sys2Proof.Machine.execDlogBump n s
  | .dlogEpochAdopted n => Sys2Proof.Machine.execDlogEpochAdopted n s
  | .homeRecallGo n v => Sys2Proof.Machine.execHomeRecallGo n v s
  | .homeRecallDone n => Sys2Proof.Machine.execHomeRecallDone n s
  | .hgmapWrite n g v => Sys2Proof.Machine.execHgmapWrite n g v s
  | .predClr n => Sys2Proof.Machine.execPredClr n s
  | .hbmRecal k pc => Sys2Proof.Machine.execHbmRecal k pc s
  | .hbmCalNow k => Sys2Proof.Machine.execHbmCalNow k s
  | .hbmRecalDone k pc ns => Sys2Proof.Machine.execHbmRecalDone k pc ns s
  | .hbmInterfaceFault k pc => Sys2Proof.Machine.execHbmInterfaceFault k pc s
  | .hbmRetrainDone k pc ok => Sys2Proof.Machine.execHbmRetrainDone k pc ok s
  | .retireAuto k page => Sys2Proof.Machine.execRetireAuto k page s
  | .retcfgGo k v => Sys2Proof.Machine.execRetcfgGo k v s
  | .retireDone r => Sys2Proof.Machine.execRetireDone r s
  | .scrubRead ln err err2 => Sys2Proof.Machine.execScrubRead ln err err2 s
  | .expanderResponse e epoch ln data psn wr => Sys2Proof.Machine.execExpanderResponse e epoch ln data psn wr s
  | .hedgeTimeout ln => Sys2Proof.Machine.execHedgeTimeout ln s
  | .expanderNoResponse e => Sys2Proof.Machine.execExpanderNoResponse e s
  | .pair xp xs => Sys2Proof.Machine.execPair xp xs s
  | .unpair xp => Sys2Proof.Machine.execUnpair xp s
  | .verifyOn xp => Sys2Proof.Machine.execVerifyOn xp s
  | .verifyOff xp => Sys2Proof.Machine.execVerifyOff xp s
  | .admitExtent e => Sys2Proof.Machine.execAdmitExtent e s
  | .release e => Sys2Proof.Machine.execRelease e s
  | .partLock v => Sys2Proof.Machine.execPartLock v s
  | .mirtblWrite v => Sys2Proof.Machine.execMirtblWrite v s
  | .resilGo v => Sys2Proof.Machine.execResilGo v s
  | .resilLineCopy kind k err => Sys2Proof.Machine.execResilLineCopy kind k err s
  | .resilDone kind k => Sys2Proof.Machine.execResilDone kind k s
  | .portEnable p v => Sys2Proof.Machine.execPortEnable p v s
  | .portDisable p v => Sys2Proof.Machine.execPortDisable p v s
  | .portReset p v => Sys2Proof.Machine.execPortReset p v s
  | .linkUp p w rate rev pol lact lwc partner => Sys2Proof.Machine.execLinkUp p w rate rev pol lact lwc partner s
  | .linkDown p noLanes => Sys2Proof.Machine.execLinkDown p noLanes s
  | .l0Timeout p => Sys2Proof.Machine.execL0Timeout p s
  | .laneFail p l => Sys2Proof.Machine.execLaneFail p l s
  | .signalLoss p => Sys2Proof.Machine.execSignalLoss p s
  | .ts1 p x => Sys2Proof.Machine.execTs1 p x s
  | .ts2 p x => Sys2Proof.Machine.execTs2 p x s
  | .rts p x => Sys2Proof.Machine.execRts p x s
  | .addOrderedSet p x => Sys2Proof.Machine.execAddOrderedSet p x s
  | .flitReceive p x => Sys2Proof.Machine.execFlitReceive p x s
  | .credit p vc n => Sys2Proof.Machine.execCredit p vc n s
  | .lreq p c => Sys2Proof.Machine.execLreq p c s
  | .lack p c => Sys2Proof.Machine.execLack p c s
  | .lswitch p c => Sys2Proof.Machine.execLswitch p c s
  | .creditCtrlSend p => Sys2Proof.Machine.execCreditCtrlSend p s
  | .ackTimeout p => Sys2Proof.Machine.execAckTimeout p s
  | .creditTimeout p vc => Sys2Proof.Machine.execCreditTimeout p vc s
  | .retrainTimeout p => Sys2Proof.Machine.execRetrainTimeout p s
  | .retrainWatchExpire p => Sys2Proof.Machine.execRetrainWatchExpire p s
  | .widthChangeTimeout p => Sys2Proof.Machine.execWidthChangeTimeout p s
  | .linkCalPeriod p => Sys2Proof.Machine.execLinkCalPeriod p s
  | .linkCalNow p => Sys2Proof.Machine.execLinkCalNow p s
  | .eyeSweep p l hm vm => Sys2Proof.Machine.execEyeSweep p l hm vm s
  | .halfRecalDone p => Sys2Proof.Machine.execHalfRecalDone p s
  | .pathReissue v => Sys2Proof.Machine.execPathReissue v s
  | .pathLost m => Sys2Proof.Machine.execPathLost m s
  | .dupEntryExpire src tag => Sys2Proof.Machine.execDupEntryExpire src tag s
  | .dispatchManager t => Sys2Proof.Machine.execDispatchManager t s
  | .dispatchWindow n w t => Sys2Proof.Machine.execDispatchWindow n w t s
  | .dispatchStartChannel n c t => Sys2Proof.Machine.execDispatchStartChannel n c t s
  | .dispatchSq n q t => Sys2Proof.Machine.execDispatchSq n q t s
  | .load n index dest loc slo shi => Sys2Proof.Machine.execLoad n index dest loc slo shi s
  | .loadComplete n => Sys2Proof.Machine.execLoadComplete n s
  | .loadMeasureTimeout n => Sys2Proof.Machine.execLoadMeasureTimeout n s
  | .unload n index => Sys2Proof.Machine.execUnload n index s
  | .chcfgWrite n c v => Sys2Proof.Machine.execChcfgWrite n c v s
  | .chput t f ind => Sys2Proof.Machine.execChput t f ind s
  | .chputCreditResume t => Sys2Proof.Machine.execChputCreditResume t s
  | .chtry t f ind => Sys2Proof.Machine.execChtry t f ind s
  | .chget t f ind => Sys2Proof.Machine.execChget t f ind s
  | .chgetW t f ind => Sys2Proof.Machine.execChgetW t f ind s
  | .chgetWTimeout t => Sys2Proof.Machine.execChgetWTimeout t s
  | .chmark t f ind => Sys2Proof.Machine.execChmark t f ind s
  | .chrewind t f ind => Sys2Proof.Machine.execChrewind t f ind s
  | .chrelease t f ind => Sys2Proof.Machine.execChrelease t f ind s
  | .chskip t f ind => Sys2Proof.Machine.execChskip t f ind s
  | .chcnt t f ind => Sys2Proof.Machine.execChcnt t f ind s
  | .watchdogHung t => Sys2Proof.Machine.execWatchdogHung t s
  | .fenceComplete n ix => Sys2Proof.Machine.execFenceComplete n ix s
  | .fencedSendAttempt n ix => Sys2Proof.Machine.execFencedSendAttempt n ix s
  | .fswap t f => Sys2Proof.Machine.execFswap t f s
  | .swapComplete n => Sys2Proof.Machine.execSwapComplete n s
  | .trotate t f => Sys2Proof.Machine.execTrotate t f s
  | .selftestComplete n pass => Sys2Proof.Machine.execSelftestComplete n pass s
  | .halt t f => Sys2Proof.Machine.execHalt t f s
  | .haltClr t f => Sys2Proof.Machine.execHaltClr t f s
  | .add t f => Sys2Proof.Machine.execAdd t f s
  | .sub t f => Sys2Proof.Machine.execSub t f s
  | .and t f => Sys2Proof.Machine.execAnd t f s
  | .or t f => Sys2Proof.Machine.execOr t f s
  | .xor t f => Sys2Proof.Machine.execXor t f s
  | .andn t f => Sys2Proof.Machine.execAndn t f s
  | .slt t f => Sys2Proof.Machine.execSlt t f s
  | .sltu t f => Sys2Proof.Machine.execSltu t f s
  | .min t f => Sys2Proof.Machine.execMin t f s
  | .max t f => Sys2Proof.Machine.execMax t f s
  | .minu t f => Sys2Proof.Machine.execMinu t f s
  | .maxu t f => Sys2Proof.Machine.execMaxu t f s
  | .cmp t f => Sys2Proof.Machine.execCmp t f s
  | .cmpu t f => Sys2Proof.Machine.execCmpu t f s
  | .selv t f => Sys2Proof.Machine.execSelv t f s
  | .getcf t f => Sys2Proof.Machine.execGetcf t f s
  | .setcf t f => Sys2Proof.Machine.execSetcf t f s
  | .rdtime t f => Sys2Proof.Machine.execRdtime t f s
  | .rdcyc t f => Sys2Proof.Machine.execRdcyc t f s
  | .rdpmc t f => Sys2Proof.Machine.execRdpmc t f s
  | .rdrand t f => Sys2Proof.Machine.execRdrand t f s
  | .rdid t f => Sys2Proof.Machine.execRdid t f s
  | .addi t f => Sys2Proof.Machine.execAddi t f s
  | .andi t f => Sys2Proof.Machine.execAndi t f s
  | .ori t f => Sys2Proof.Machine.execOri t f s
  | .xori t f => Sys2Proof.Machine.execXori t f s
  | .cmpi t f => Sys2Proof.Machine.execCmpi t f s
  | .lui t f => Sys2Proof.Machine.execLui t f s
  | .sll t f => Sys2Proof.Machine.execSll t f s
  | .srl t f => Sys2Proof.Machine.execSrl t f s
  | .sra t f => Sys2Proof.Machine.execSra t f s
  | .ror t f => Sys2Proof.Machine.execRor t f s
  | .slli t f => Sys2Proof.Machine.execSlli t f s
  | .srli t f => Sys2Proof.Machine.execSrli t f s
  | .srai t f => Sys2Proof.Machine.execSrai t f s
  | .rori t f => Sys2Proof.Machine.execRori t f s
  | .extu t f => Sys2Proof.Machine.execExtu t f s
  | .exts t f => Sys2Proof.Machine.execExts t f s
  | .ins t f => Sys2Proof.Machine.execIns t f s
  | .clz t f => Sys2Proof.Machine.execClz t f s
  | .ctz t f => Sys2Proof.Machine.execCtz t f s
  | .popc t f => Sys2Proof.Machine.execPopc t f s
  | .bswap t f => Sys2Proof.Machine.execBswap t f s
  | .mul t f => Sys2Proof.Machine.execMul t f s
  | .mulh t f => Sys2Proof.Machine.execMulh t f s
  | .mulhu t f => Sys2Proof.Machine.execMulhu t f s
  | .div t f => Sys2Proof.Machine.execDiv t f s
  | .divu t f => Sys2Proof.Machine.execDivu t f s
  | .rem t f => Sys2Proof.Machine.execRem t f s
  | .remu t f => Sys2Proof.Machine.execRemu t f s
  | .ld t f => Sys2Proof.Machine.execLd t f s
  | .st t f => Sys2Proof.Machine.execSt t f s
  | .ldl t f => Sys2Proof.Machine.execLdl t f s
  | .pref t f => Sys2Proof.Machine.execPref t f s
  | .br t f => Sys2Proof.Machine.execBr t f s
  | .bz t f => Sys2Proof.Machine.execBz t f s
  | .bnz t f => Sys2Proof.Machine.execBnz t f s
  | .bneg t f => Sys2Proof.Machine.execBneg t f s
  | .call t f => Sys2Proof.Machine.execCall t f s
  | .jr t f => Sys2Proof.Machine.execJr t f s
  | .amoAdd t f => Sys2Proof.Machine.execAmoAdd t f s
  | .amoCas t f => Sys2Proof.Machine.execAmoCas t f s
  | .amoSwap t f => Sys2Proof.Machine.execAmoSwap t f s
  | .amoMin t f => Sys2Proof.Machine.execAmoMin t f s
  | .amoMax t f => Sys2Proof.Machine.execAmoMax t f s
  | .amoMinu t f => Sys2Proof.Machine.execAmoMinu t f s
  | .amoMaxu t f => Sys2Proof.Machine.execAmoMaxu t f s
  | .amoAnd t f => Sys2Proof.Machine.execAmoAnd t f s
  | .amoOr t f => Sys2Proof.Machine.execAmoOr t f s
  | .amoXor t f => Sys2Proof.Machine.execAmoXor t f s
  | .fence t f => Sys2Proof.Machine.execFence t f s
  | .fenceR t f => Sys2Proof.Machine.execFenceR t f s
  | .fenceW t f => Sys2Proof.Machine.execFenceW t f s
  | .rulesync t f => Sys2Proof.Machine.execRulesync t f s
  | .rulesyncComplete t => Sys2Proof.Machine.execRulesyncComplete t s
  | .hashCrc32c t f sz => Sys2Proof.Machine.execHashCrc32c t f sz s
  | .hashCrc64 t f sz => Sys2Proof.Machine.execHashCrc64 t f sz s
  | .hashToep t f wide => Sys2Proof.Machine.execHashToep t f wide s
  | .hashSip8 t f => Sys2Proof.Machine.execHashSip8 t f s
  | .hashSip16 t f => Sys2Proof.Machine.execHashSip16 t f s
  | .hashSip64 t f => Sys2Proof.Machine.execHashSip64 t f s
  | .trieStep t f => Sys2Proof.Machine.execTrieStep t f s
  | .exmProbe t f => Sys2Proof.Machine.execExmProbe t f s
  | .rangeCmp t f => Sys2Proof.Machine.execRangeCmp t f s
  | .rangeCmpS t f => Sys2Proof.Machine.execRangeCmpS t f s
  | .cinc t f k => Sys2Proof.Machine.execCinc t f k s
  | .cincA t f k => Sys2Proof.Machine.execCincA t f k s
  | .sketchAdd t f k => Sys2Proof.Machine.execSketchAdd t f k s
  | .sketchEst t f k => Sys2Proof.Machine.execSketchEst t f k s
  | .meter t f => Sys2Proof.Machine.execMeter t f s
  | .enq t f => Sys2Proof.Machine.execEnq t f s
  | .deq t f => Sys2Proof.Machine.execDeq t f s
  | .qrel t f => Sys2Proof.Machine.execQrel t f s
  | .qstat t f => Sys2Proof.Machine.execQstat t f s
  | .move t f => Sys2Proof.Machine.execMove t f s
  | .moveP t f => Sys2Proof.Machine.execMoveP t f s
  | .fill t f => Sys2Proof.Machine.execFill t f s
  | .fillP t f => Sys2Proof.Machine.execFillP t f s
  | .moveEngineComplete n k lines => Sys2Proof.Machine.execMoveEngineComplete n k lines s
  | .lcomp t f => Sys2Proof.Machine.execLcomp t f s
  | .ldecomp t f => Sys2Proof.Machine.execLdecomp t f s
  | .cqpost t f => Sys2Proof.Machine.execCqpost t f s
  | .cqpostEnd t f => Sys2Proof.Machine.execCqpostEnd t f s
  | .evraiseSrc t f => Sys2Proof.Machine.execEvraiseSrc t f s
  | .evraiseVec t f => Sys2Proof.Machine.execEvraiseVec t f s
  | .waitT t f => Sys2Proof.Machine.execWaitT t f s
  | .waitUntil t f => Sys2Proof.Machine.execWaitUntil t f s
  | .waitCh t f => Sys2Proof.Machine.execWaitCh t f s
  | .waitExpire t => Sys2Proof.Machine.execWaitExpire t s
  | .mpuset t f => Sys2Proof.Machine.execMpuset t f s
  | .mpulock t f => Sys2Proof.Machine.execMpulock t f s
  | .shutter t f => Sys2Proof.Machine.execShutter t f s
  | .sheetcfg t f => Sys2Proof.Machine.execSheetcfg t f s
  | .sqTailDoorbell p f q v => Sys2Proof.Machine.execSqTailDoorbell p f q v s
  | .cqHeadDoorbell p f q v => Sys2Proof.Machine.execCqHeadDoorbell p f q v s
  | .sqRestart p f q => Sys2Proof.Machine.execSqRestart p f q s
  | .sqSkip p f q => Sys2Proof.Machine.execSqSkip p f q s
  | .sqaWrite n q v => Sys2Proof.Machine.execSqaWrite n q v s
  | .cqaWrite n q v => Sys2Proof.Machine.execCqaWrite n q v s
  | .windowCommand p f w x => Sys2Proof.Machine.execWindowCommand p f w x s
  | .resultSlotRead p f w off n => Sys2Proof.Machine.execResultSlotRead p f w off n s
  | .notReady p off => Sys2Proof.Machine.execNotReady p off s
  | .enqueueCommand p f w x => Sys2Proof.Machine.execEnqueueCommand p f w x s
  | .releaseCommand p f w x => Sys2Proof.Machine.execReleaseCommand p f w x s
  | .fringHeadDoorbell p f r v => Sys2Proof.Machine.execFringHeadDoorbell p f r v s
  | .egressHeadDoorbell p f e v => Sys2Proof.Machine.execEgressHeadDoorbell p f e v s
  | .fringRefill n r c => Sys2Proof.Machine.execFringRefill n r c s
  | .scheduledDequeue => Sys2Proof.Machine.execScheduledDequeue s
  | .shaperCredit => Sys2Proof.Machine.execShaperCredit s
  | .spillStep start => Sys2Proof.Machine.execSpillStep start s
  | .refill q ue => Sys2Proof.Machine.execRefill q ue s
  | .qmTableRead tbl ix => Sys2Proof.Machine.execQmTableRead tbl ix s
  | .qmTableWrite tbl ix => Sys2Proof.Machine.execQmTableWrite tbl ix s
  | .flush tbl ix => Sys2Proof.Machine.execFlush tbl ix s
  | .qmSpillWrite v => Sys2Proof.Machine.execQmSpillWrite v s
  | .qmGthWrite v => Sys2Proof.Machine.execQmGthWrite v s
  | .slotModeOff n port => Sys2Proof.Machine.execSlotModeOff n port s
  | .slotModeDirect n port => Sys2Proof.Machine.execSlotModeDirect n port s
  | .slotModeSeq n port => Sys2Proof.Machine.execSlotModeSeq n port s
  | .slotLimWrite n vth v => Sys2Proof.Machine.execSlotLimWrite n vth v s
  | .slotPresenceChange n => Sys2Proof.Machine.execSlotPresenceChange n s
  | .slotSample n ix vin vout vgate => Sys2Proof.Machine.execSlotSample n ix vin vout vgate s
  | .fastTrip n => Sys2Proof.Machine.execFastTrip n s
  | .faultTmr n => Sys2Proof.Machine.execFaultTmr n s
  | .rampTmr n => Sys2Proof.Machine.execRampTmr n s
  | .pgqualDone n => Sys2Proof.Machine.execPgqualDone n s
  | .perstRelease n => Sys2Proof.Machine.execPerstRelease n s
  | .insertDone n => Sys2Proof.Machine.execInsertDone n s
  | .retryDone n => Sys2Proof.Machine.execRetryDone n s
  | .absenceDone n => Sys2Proof.Machine.execAbsenceDone n s
  | .stoppingDone n => Sys2Proof.Machine.execStoppingDone n s
  | .bypass tdi => Sys2Proof.Machine.execBypass tdi s
  | .idcode => Sys2Proof.Machine.execIdcode s
  | .samplePreload tdi => Sys2Proof.Machine.execSamplePreload tdi s
  | .extest tdi => Sys2Proof.Machine.execExtest tdi s
  | .scan => Sys2Proof.Machine.execScan s
  | .debugMemoryAccess wr fpa n bs => Sys2Proof.Machine.execDebugMemoryAccess wr fpa n bs s
  | .trstNAssert => Sys2Proof.Machine.execTrstNAssert s
  | .getInfo m => Sys2Proof.Machine.execGetInfo m s
  | .cspRead m => Sys2Proof.Machine.execCspRead m s
  | .sysReset m => Sys2Proof.Machine.execSysReset m s
  | .safelight m => Sys2Proof.Machine.execSafelight m s
  | .selftest m pass => Sys2Proof.Machine.execSelftest m pass s
  | .timeCfg m => Sys2Proof.Machine.execTimeCfg m s
  | .timeGet m => Sys2Proof.Machine.execTimeGet m s
  | .event m => Sys2Proof.Machine.execEvent m s
  | .eventAck m => Sys2Proof.Machine.execEventAck m s
  | .imgData m => Sys2Proof.Machine.execImgData m s
  | .imgEnd m => Sys2Proof.Machine.execImgEnd m s
  | .slotRead m => Sys2Proof.Machine.execSlotRead m s
  | .slotOff m => Sys2Proof.Machine.execSlotOff m s
  | .extend m => Sys2Proof.Machine.execExtend m s
  | .sigchk m => Sys2Proof.Machine.execSigchk m s
  | .logRead m => Sys2Proof.Machine.execLogRead m s
  | .dbgChal m => Sys2Proof.Machine.execDbgChal m s
  | .dbgAuth m => Sys2Proof.Machine.execDbgAuth m s
  | .dbgRevoke m => Sys2Proof.Machine.execDbgRevoke m s
  | .dbgCsp m => Sys2Proof.Machine.execDbgCsp m s
  | .memRead m => Sys2Proof.Machine.execMemRead m s
  | .memWrite m => Sys2Proof.Machine.execMemWrite m s
  | .imgWrite m => Sys2Proof.Machine.execImgWrite m s
  | .bootCommit m => Sys2Proof.Machine.execBootCommit m s
  | .ckpt m => Sys2Proof.Machine.execCkpt m s
  | .ckptRestore m => Sys2Proof.Machine.execCkptRestore m s
  | .ideKey m => Sys2Proof.Machine.execIdeKey m s
  | .doePkt m => Sys2Proof.Machine.execDoePkt m s
  | .fmMsg m => Sys2Proof.Machine.execFmMsg m s
  | .fmPeer m => Sys2Proof.Machine.execFmPeer m s
  | .empRelayTimeout tag => Sys2Proof.Machine.execEmpRelayTimeout tag s
  | .empFragmentTimeout p => Sys2Proof.Machine.execEmpFragmentTimeout p s
  | .mbxtxGo v taken => Sys2Proof.Machine.execMbxtxGo v taken s
  | .mbxtxTimeout => Sys2Proof.Machine.execMbxtxTimeout s
  | .mbxrxDone v => Sys2Proof.Machine.execMbxrxDone v s
  | .mctpPacket path bs => Sys2Proof.Machine.execMctpPacket path bs s
  | .mctpMessageTimeout path src fl => Sys2Proof.Machine.execMctpMessageTimeout path src fl s
  | .setEndpointId q => Sys2Proof.Machine.execSetEndpointId q s
  | .getEndpointId q => Sys2Proof.Machine.execGetEndpointId q s
  | .getEndpointUuid q => Sys2Proof.Machine.execGetEndpointUuid q s
  | .getMctpVersionSupport q => Sys2Proof.Machine.execGetMctpVersionSupport q s
  | .getMessageTypeSupport q => Sys2Proof.Machine.execGetMessageTypeSupport q s
  | .getVendorDefinedMsgSupport q => Sys2Proof.Machine.execGetVendorDefinedMsgSupport q s
  | .entdaa a => Sys2Proof.Machine.execEntdaa a s
  | .setdasa static_ a => Sys2Proof.Machine.execSetdasa static_ a s
  | .setaasa => Sys2Proof.Machine.execSetaasa s
  | .rstdaa => Sys2Proof.Machine.execRstdaa s
  | .setnewda old a => Sys2Proof.Machine.execSetnewda old a s
  | .enec ev => Sys2Proof.Machine.execEnec ev s
  | .disec ev => Sys2Proof.Machine.execDisec ev s
  | .getpid => Sys2Proof.Machine.execGetpid s
  | .getbcr => Sys2Proof.Machine.execGetbcr s
  | .getdcr => Sys2Proof.Machine.execGetdcr s
  | .getstatus => Sys2Proof.Machine.execGetstatus s
  | .getmwl => Sys2Proof.Machine.execGetmwl s
  | .getmrl => Sys2Proof.Machine.execGetmrl s
  | .setmwl n => Sys2Proof.Machine.execSetmwl n s
  | .setmrl n => Sys2Proof.Machine.execSetmrl n s
  | .getmxds => Sys2Proof.Machine.execGetmxds s
  | .getVersion q => Sys2Proof.Machine.execGetVersion q s
  | .getCapabilities q => Sys2Proof.Machine.execGetCapabilities q s
  | .negotiateAlgorithms q => Sys2Proof.Machine.execNegotiateAlgorithms q s
  | .getDigests q => Sys2Proof.Machine.execGetDigests q s
  | .getCertificate q => Sys2Proof.Machine.execGetCertificate q s
  | .challenge q => Sys2Proof.Machine.execChallenge q s
  | .getMeasurements q => Sys2Proof.Machine.execGetMeasurements q s
  | .keyExchange q => Sys2Proof.Machine.execKeyExchange q s
  | .finish q => Sys2Proof.Machine.execFinish q s
  | .endSession q => Sys2Proof.Machine.execEndSession q s
  | .heartbeat q => Sys2Proof.Machine.execHeartbeat q s
  | .keyUpdate q => Sys2Proof.Machine.execKeyUpdate q s
  | .cxlIdeKm q => Sys2Proof.Machine.execCxlIdeKm q s
  | .evtRouteWrite k v => Sys2Proof.Machine.execEvtRouteWrite k v s
  | .fselClr p v => Sys2Proof.Machine.execFselClr p v s
  | .peerLost v => Sys2Proof.Machine.execPeerLost v s
  | .loadSignatureTimeout n => Sys2Proof.Machine.execLoadSignatureTimeout n s
  | .standbyRailsLost => Sys2Proof.Machine.execStandbyRailsLost s
  | .darkroomAllChannelOff => Sys2Proof.Machine.execDarkroomAllChannelOff s
  | .hbmDoubleRefresh k tj => Sys2Proof.Machine.execHbmDoubleRefresh k tj s
  | .i3cPrivateRead => Sys2Proof.Machine.execI3cPrivateRead s

end Sys2Proof.Machine
end

