-- ==== Sys2Proof/Safety.lean ====
section
/-! DEFINITION. What statements about steps and runs are made of: the state that a command leaves, a strand that issues, a run
that nothing stops, and the invariants that every step keeps. -/

namespace Sys2Proof.Machine

/-- The state with the device `d`: manufacture's part, the waiting commands and fabric time are those of `s` (R3, R12). -/
def State.after (s : State) (d : Dev) : State := { s with dev := { d with time := s.dev.time } }

/-- The strand issues its next instruction: neither the fetch of its word nor the check of that fetch fails, the L1I holds the
line, and the word is an instruction (R161, R190, R191, R195). -/
def Dev.issues (d : Dev) (t : Nat) : Bool :=
  d.canIssue t && !d.fetchBad t && d.fetchVerdict t == .ok && (d.l1iLine t).isSome && (frondRead (d.fetchWord t)).isSome

/-- What the effective address of a strand comes to: the FPA that it translates to, or the fault that it draws; none where a walk of
the tables awaits a home (R33, R201). -/
def Dev.leads (d : Dev) (t ea : Nat) (q : Want) : Option Ea × Dev := d.tryOwn fun d => d.eaOf t ea q

/-- The strand's Frond holds the line of an FPA without poison, nothing of the strand's waits to reach the line, and the strand
is not being stopped: a read of the line is served at once (R67, R194, R221). -/
def Dev.holdsFor (d : Dev) (t fpa : Nat) : Prop :=
  (∃ st, (d.l1 (d.physOf t) (fpa / 64)).st = some st ∧ (st = .m ∨ st = .o ∨ st = .e ∨ st = .s)) ∧
  (d.l1 (d.physOf t) (fpa / 64)).psn = false ∧ (∀ e ∈ d.sor.sb, e.t = t → e.fpa / 64 ≠ fpa / 64) ∧
  d.postOn t (fpa / 64) = false ∧ (d.str t).stop = 0

/-- A line of this device in HBM without a mirror copy, or in fabric memory outside the tables in use, of which nothing is under way
and which nobody holds: a unit's access to it is made at once, and reaches that line alone (R57, R330). -/
def Dev.plainLine (d : Dev) (ln : Nat) : Prop :=
  d.still ln = true ∧ d.sfe ln = SfE.empty ∧ (d.lnKind ln = .hbm ∨ d.lnKind ln = .fab) ∧ d.inTables ln = false ∧ d.partnerOf ln = none

/-- The line of an FPA as the strand's Frond holds it. -/
def Dev.lineFor (d : Dev) (t fpa : Nat) : Line := (d.l1 (d.physOf t) (fpa / 64)).data

/-- The header and payload that a message has with an OP (R366). -/
def empHdr (m : Emp) (op : Nat) : EmpH :=
  ⟨m.rsp, op, m.status.toNat, m.tag.toNat, m.src.toNat, m.dst.toNat, m.payload.length, m.rsv, m.payload⟩

/-- A whole request without a reserved bit or a status. -/
def empPlain (m : Emp) : Prop :=
  m.ver = 1 ∧ m.rsp = false ∧ m.whole = true ∧ m.rsv = false ∧ m.status = 0 ∧ m.payload.length ≤ 4088

/-- Such a request that the catalogue lets endpoint `ep` send to its receiver, with its length (R366, R370). -/
def Dev.empFits (d : Dev) (m : Emp) (ep op : Nat) : Prop :=
  empPlain m ∧ ∃ o ∈ empOps, o.op = op ∧ d.mayAsk ep o (empHdr m op) = true ∧ o.lo ≤ m.payload.length ∧ m.payload.length ≤ o.hi

/-- How a request comes to the darkroom by its path (R367): its sender, the address and tag that a controller's answer goes to, and
the device that handles it: the messages of the fabric engine that wait are handled ahead of the controller's (R368). -/
def State.heard (s : State) (m : Emp) : Nat × Nat × Dev :=
  match m.path with
  | .oob => (eOOB, s.dev.drk.oob / 8 * 16 + s.dev.drk.oob % 8, (Dev.feFirst s.fuse s.dev).draw.2)
  | .fm => (eFM, 0, s.dev)
  | .fe => (eFE, 0, s.dev)
  | .dr => (eDR, 0, s.dev)

/-- A run that nothing stops: each of `n` steps answers a next state. -/
def Safe : Nat → State → Prop
  | 0, _ => True
  | n + 1, s => ∃ t, step s = .next t ∧ Safe n t

/-- What manufacture fixed stands, and fabric time has reached `t0` (R3, R12). -/
def Lasting (fz : Fuse) (t0 : Nat) (s : State) : Prop := s.fuse = fz ∧ t0 ≤ s.dev.time

end Sys2Proof.Machine
end

