-- ==== Sys2Proof/Certificates/Slice0/Obligations.lean ====
section
/-! DEFINITION. The statements about the device, for the provers. -/

open Sys2Proof Sys2Proof.Machine

/-! ## The step, its queue and what lasts -/

/-- A step takes the command at the front of the queue and runs it with the rest of the queue. -/
def Obligations.StepRunsTheFrontCommand : Prop :=
  ∀ (c : Instr) (rest : List Instr) (s : State),
    step { s with pending := c :: rest } = exec c { s with pending := rest }

/-- With an empty queue a step is one tick of fabric time (a choice of the model, log entry 3). -/
def Obligations.IdleStepIsOneTick : Prop :=
  ∀ s : State, s.pending = [] →
    ∃ t, step s = .next t ∧ t.fuse = s.fuse ∧ t.pending = [] ∧
      (s.dev.pwr.pwrok = false → t = s) ∧
      (s.dev.pwr.pwrok = true →
        s.dev.time + 3 ≤ t.dev.time ∧ t.dev.time ≤ s.dev.time + 5 ∧
        (s.dev.drk.pps.slew = 0 → t.dev.time = s.dev.time + 4) ∧
        t.dev.csr = s.dev.csr ∧ t.dev.pool = s.dev.pool ∧ t.dev.coh = s.dev.coh ∧ t.dev.sor = s.dev.sor ∧
        t.dev.out = s.dev.out)

/-- No command of the table ends in a fault or a refusal, in any state. That a row whose event
cannot occur, an interval's end, a message that nobody sent and an instruction row never stop the machine is the model's choice
(log entries 1, 7, 8, 9 and 10). -/
def Obligations.NoCommandStopsTheMachine : Prop := ∀ s : State, ∃ t, step s = .next t

/-- The queue of waiting commands loses its first command at each step, and nothing else of it changes. -/
def Obligations.QueueLosesItsFrontAlone : Prop :=
  ∀ s t : State, step s = .next t → t.pending = s.pending.tail

/-- Every step keeps what manufacture fixed, and fabric time never decreases but where cold reset ends. -/
def Obligations.FuseAndTimeLast : Prop :=
  ∀ (fz : Fuse) (t0 : Nat) (s t : State),
    (∀ (strap : BitVec 4) (rest : List Instr), s.pending ≠ .pwrokAssert strap :: rest) →
    Lasting fz t0 s → step s = .next t → Lasting fz t0 t

/-- Fabric time is 0 after reset, and the fuses are those of a blank part (a choice of the model, log entry 2). -/
def Obligations.LastingAtReset : Prop := Lasting Fuse.blank 0 State.reset

/-- The machine right after reset. What no rule gives a reset value, and that reset is the end of cold reset with STRAP 0b0100, is
the model's choice (log entries 2, 4, 12 and 124). -/
def Obligations.ResetLeavesEverythingCold : Prop :=
  State.reset.dev.time = 0 ∧ State.reset.pending = [] ∧
  (∀ r : FRef, r.addr ≠ 0x100000 → State.reset.dev.reg r = w64 r.cold) ∧
  State.reset.dev.f (PORT.CFG.MODE 0) = 2 ∧ State.reset.dev.f (PORT.CFG.WIDTH 0) = 2 ∧
  State.reset.dev.f (PORT.CFG.HOSTID 0) = 0 ∧ State.reset.dev.f (PORT.CFG.EN 0) = 1 ∧
  State.reset.dev.pool.mem = [] ∧ State.reset.dev.coh = Coh.cold ∧
  (∀ t, (State.reset.dev.str t).live = false) ∧ State.reset.dev.fdUp = false

/-! ## Power, resets, rails, sensors and time -/

/-- The commands of power and resets: the device that each leaves where its event can occur. What the darkroom keeps over cold
reset, what the release of a warm reset does, and what becomes of SAFE_N are the model's choices (log entries 112, 113, 115, 121
and 147). -/
def Obligations.PowerAndResetsComplete : Prop :=
  ∀ s : State,
    (s.dev.pwr.dark = true → s.dev.pwr.pwrok = true → exec .pwrokDeassert s = .next (s.after s.dev.coldStart)) ∧
    (∀ strap, s.dev.pwr.dark = true → s.dev.pwr.pwrok = false →
      let u := Dev.coldEnd s.fuse s.dev strap
      let mgr := PORT.CFG.reg (if strap.getLsbD 3 then 48 else 0)
      exec (.pwrokAssert strap) s = .next { s with dev := u } ∧
      u.time = 0 ∧ u.pwr.pwrok = true ∧ u.pwr.strap = strap ∧ u.fdUp = false ∧ u.pwr.booted = false ∧ u.drk.armed = false ∧
      (u.reg mgr).toNat = mgrCfg ∧
      (∀ r : FRef, inSlotBlock r.addr = false → r.addr ≠ mgr.addr → u.reg r = w64 r.cold) ∧
      (∀ r : FRef, inSlotBlock r.addr = true → u.reg r = s.dev.reg r) ∧
      u.pool = Pool.cold ∧ u.coh = Coh.cold ∧ u.sor = Sori.cold ∧ u.link = [] ∧ u.wq = Wq.cold ∧ u.qm = Qm.cold) ∧
    (∀ strap, s.dev.pwr.dark = false → exec (.standbyRailsValid strap) s = .next (s.after (s.dev.standbyUp strap))) ∧
    (s.dev.pwr.dark = true → exec .standbyRailsLost s = .next (s.after s.dev.standbyLost)) ∧
    (s.dev.mayRelease = true → exec .fdRelease s = .next (s.after (Dev.fdRelease s.fuse s.dev))) ∧
    (s.dev.fdUp = true →
      let ready := s.dev.drk.armed = true ∧ s.dev.safe = false ∧ s.dev.pwr.booted = false ∧ ∀ k, k < 4 → s.dev.f (HBM.STAT.READY k) = 1
      let u := s.dev.startWork 0 { Work.none with kind := 5, spore := 0, entry := 0 } true
      (ready → exec .bootStart s = .next (s.after
        { u with pwr := { u.pwr with booted := true }, drk := { u.drk with armed := false } })) ∧
      (¬ready → exec .bootStart s = .next (s.after s.dev))) ∧
    (s.dev.pwr.pwrok = true → s.dev.fdUp = true →
      exec .resetNAssert s = .next (s.after
        { s.dev.relaysEnd.fdWarm with pwr := { s.dev.relaysEnd.fdWarm.pwr with warm := some 1 } })) ∧
    (∀ safeLow, s.dev.lineFree = false → exec (.warmResetRelease safeLow) s = .next (s.after s.dev)) ∧
    (∀ safeLow c, s.dev.lineFree = true → s.dev.pwr.warm = some c →
      exec (.warmResetRelease safeLow) s = .next (s.after (Dev.warmEnd s.fuse s.dev c safeLow))) ∧
    (s.dev.pwr.dark = true →
      exec .safeNExternalLow s =
        .next (s.after (({ s.dev with pwr := { s.dev.pwr with safeLow := true } } : Dev).enterSafe 5 0))) ∧
    (s.dev.pwr.dark = true → s.dev.drk.fwOk = true →
      ∃ t, exec .darkroomWatchdog s = .next t ∧ t.dev.csr = (s.dev.enterSafe 3 0).csr ∧ t.dev.sor = (s.dev.enterSafe 3 0).sor ∧
        t.dev.drk.relays = [] ∧ t.dev.drk.asm = [] ∧ t.dev.drk.sess = [] ∧ t.dev.drk.spdm = [] ∧
        t.dev.drk.nonces = [] ∧ t.dev.drk.used = [])

/-- Rails become valid and invalid as the monitors see them; a stack becomes ready. That a window takes in its edges and the rows are
the monitors' edges is the model's choice (log entries 116 and 117). -/
def Obligations.RailsFollowTheirMonitors : Prop :=
  (∀ (r : Fin 11) (v : Nat) (s : State), s.dev.pwr.rails.getLsbD r = false → railInside s.fuse r v = true →
    ∃ t, exec (.railValid r v) s = .next t ∧ t.dev.pwr.rails.getLsbD r = true ∧
      t.dev.pwr.order = s.dev.pwr.order ++ [r.val] ∧ t.dev.pool = s.dev.pool ∧ t.dev.coh = s.dev.coh) ∧
  (∀ (r : Fin 11) (v : Nat) (s : State), s.dev.pwr.rails.getLsbD r = true → railInside s.fuse r v = false → mainRail r = true →
    s.dev.pwr.pwrok = true →
    ∃ t, exec (.railFault r v) s = .next t ∧ t.dev.pwr.rails.getLsbD r = false ∧ t.dev.pwr.locked = true ∧ t.dev.fdUp = false ∧
      t.dev.coh = Coh.cold ∧ t.dev.pool = Pool.cold ∧
      (s.dev.pwr.dark = true → s.dev.drk.evq.length < 256 →
        t.dev.drk.evq = s.dev.drk.evq ++ [evtRecord (960 + 19) 1 r s.dev.time])) ∧
  (∀ (r : Fin 11) (v : Nat) (s : State), s.dev.pwr.rails.getLsbD r = true → railInside s.fuse r v = false → r = 8 ∨ r = 9 →
    ∃ t, exec (.railFault r v) s = .next t ∧ t.dev.pwr.rails.getLsbD r = false ∧ t.dev.pwr.dark = false ∧ t.dev.pwr.pwrok = false ∧
      t.dev.fdUp = false ∧ t.dev.pwr.rails.getLsbD 10 = s.dev.pwr.rails.getLsbD 10 ∧
      ∀ q : FRef, inSlotBlock q.addr = true → t.dev.reg q = s.dev.reg q) ∧
  (∀ s : State, s.dev.pwr.rails.getLsbD 10 = true →
    ∃ t, exec .vauxLost s = .next t ∧ t.dev.pwr.rails.getLsbD 10 = false ∧
      (∀ r : FRef, inSlotBlock r.addr = true → t.dev.reg r = w64 r.cold) ∧
      (∀ r : FRef, inSlotBlock r.addr = false → t.dev.reg r = s.dev.reg r)) ∧
  (∀ (k : Fin 4) (s : State), s.dev.fdUp = true → s.dev.f (HBM.STAT.READY k) ≠ 1 →
    ∃ t, exec (.hbmReady k) s = .next t ∧ t.dev.f (HBM.STAT.READY k) = 1 ∧ t.dev.f (HBM.STAT.SREF k) = 0 ∧
      (∀ r : FRef, r.addr ≠ (HBM.STAT.READY k).addr → t.dev.reg r = s.dev.reg r) ∧
      (s.dev.drk.reload = true → (∀ j, j < 4 → j ≠ k.val → s.dev.f (HBM.STAT.READY j) = 1) →
        ∃ u : Dev, u.csr = t.dev.csr ∧ u.drk = { s.dev.drk with reload := false } ∧
          t = s.after (Dev.bootFm s.fuse u s.dev.drk.fm true).2) ∧
      ((s.dev.drk.reload = false ∨ ∃ j, j < 4 ∧ j ≠ k.val ∧ s.dev.f (HBM.STAT.READY j) ≠ 1) → t.dev.drk = s.dev.drk))

/-- What cold reset, warm reset and a thermal trip lose, and what memory warm reset keeps. That a trip and a lost rail lose what cold
reset loses, and what warm reset keeps of home memory, follow log entries 109 and 114. -/
def Obligations.ResetsLoseTheDies : Prop :=
  (∀ s : State, s.dev.pwr.dark = true → s.dev.pwr.pwrok = true →
    ∃ t, exec .pwrokDeassert s = .next t ∧ t.dev.pwr.pwrok = false ∧ t.dev.fdUp = false ∧ t.dev.coh = Coh.cold ∧
      t.dev.sor = Sori.cold ∧ t.dev.moves = [] ∧ t.dev.link = [] ∧ t.dev.fpc = Fpc.cold ∧ t.dev.wq = Wq.cold ∧ t.dev.qm = Qm.cold ∧
      t.dev.pool = Pool.cold) ∧
  (∀ s : State, s.dev.pwr.pwrok = true → s.dev.fdUp = true →
    ∃ t, exec .resetNAssert s = .next t ∧ t.dev.pwr.warm = some 1 ∧ t.dev.fdUp = false ∧ t.dev.coh = Coh.cold ∧
      t.dev.sor = Sori.cold ∧ t.dev.moves = [] ∧ t.dev.link = [] ∧ t.dev.fpc = Fpc.cold ∧ t.dev.wq = Wq.cold ∧ t.dev.qm = Qm.cold ∧
      (∀ a, s.dev.fpaKind a ≠ .opb → t.dev.byte a = s.dev.byte a) ∧
      (∀ a, s.dev.fpaKind a = .opb → t.dev.byte a = 0)) ∧
  (∀ (k : Fin 11) (tj : BitVec 11) (s : State), s.dev.pwr.pwrok = true → 736 ≤ tj.toNat →
    ∃ t, exec (.thermalTrip k tj) s = .next t ∧ t.dev.pwr.locked = true ∧ t.dev.fdUp = false ∧ t.dev.coh = Coh.cold ∧
      t.dev.sor = Sori.cold ∧ t.dev.moves = [] ∧ t.dev.link = [] ∧ t.dev.fpc = Fpc.cold ∧ t.dev.wq = Wq.cold ∧ t.dev.qm = Qm.cold ∧
      t.dev.pool = Pool.cold ∧ (∀ r : FRef, inSlotBlock r.addr = true → t.dev.reg r = s.dev.reg r))

/-- Temperature and time. At which readings the sensors' limits lie, how the clocks are stepped, and how TIME_PPS is slewed, are the
model's choices where the rules leave them (log entries 118, 119, 120 and 121). -/
def Obligations.SensorsAndPpsComplete : Prop :=
  (∀ s : State,
    (∀ (k : Fin 11) (tj : BitVec 11), s.dev.pwr.pwrok = true → 696 ≤ tj.toNat →
      let d := s.dev.sensor k tj.toNat
      let e : Dev := { d with pwr := { d.pwr with thermCrit := d.pwr.thermCrit ||| BitVec.ofNat 11 (2 ^ k.val) } }
      exec (.thermalCritical k tj) s = .next (s.after ((e.drkRaise 17 k).enterSafe 4 k)) ∧
      e.pwr.thermCrit.getLsbD k = true ∧
      (s.dev.fdUp = true → e.f (SYS.TEMP.TJ k) = tj.toNat ∧ e.f (SYS.TEMP.MAX k) = max tj.toNat (s.dev.f (SYS.TEMP.MAX k))) ∧
      (s.dev.pwr.dark = true → s.dev.drk.evq.length < 256 →
        (e.drkRaise 17 k).drk.evq = s.dev.drk.evq ++ [evtRecord (960 + 17) 1 k s.dev.time])) ∧
    (∀ tj : List (BitVec 11), s.dev.pwr.pwrok = true → s.dev.fdUp = true → tj.length = 11 →
      ∃ t, exec (.throttleStep tj) s = .next t ∧
        (∀ k, k < 11 → t.dev.f (SYS.TEMP.TJ k) = (tj.getD k 0).toNat ∧
          t.dev.f (SYS.TEMP.MAX k) = max (tj.getD k 0).toNat (s.dev.f (SYS.TEMP.MAX k))) ∧
        (∀ k, k < 4 → Tbl.get 0 t.dev.pool.refr2 k = b2n (596 < (tj.getD (5 + k) 0).toNat)) ∧
        (s.dev.safe = true → ∀ n, n < 32 → t.dev.f (SYS.SCLK.CUR n) = s.dev.f (SYS.SCLK.CUR n)) ∧
        (s.dev.safe = false → ∀ n, n < 32 →
          let tt := s.dev.f SYS.THERM.TTHROT
          let hy := s.dev.f SYS.THERM.HYST
          let cur := s.dev.f (SYS.SCLK.CUR n)
          let cap := s.dev.f (SYS.SCLK.CAP n)
          let now := t.dev.f (SYS.SCLK.CUR n)
          let hot := ∃ k, k < 5 ∧ (tt + 64) * 4 < (tj.getD k 0).toNat
          let cool := ∀ k, k < 5 → (tj.getD k 0).toNat < (tt - hy + 64) * 4
          (hot → now = max 10 (cur - 1)) ∧ (¬hot → cool → now = min (cur + 1) cap) ∧ (¬hot → ¬cool → now = cur) ∧
          (t.dev.fb (SYS.SCLK.THR n) = true ↔ now < cap))) ∧
    (∀ (k : Fin 4) (tj : BitVec 11), s.dev.fdUp = true →
      ∃ t, exec (.hbmDoubleRefresh k tj) s = .next t ∧
        (596 < tj.toNat → Tbl.get 0 t.dev.pool.refr2 k = 1) ∧ (tj.toNat ≤ 596 → Tbl.get 0 t.dev.pool.refr2 k = 0) ∧
        (∀ j, j ≠ k.val → Tbl.get 0 t.dev.pool.refr2 j = Tbl.get 0 s.dev.pool.refr2 j) ∧
        t.dev.f (SYS.TEMP.TJ (5 + k)) = tj.toNat ∧ t.dev.pool.mem = s.dev.pool.mem ∧ t.dev.pool.lmeta = s.dev.pool.lmeta) ∧
    (s.dev.pwr.pwrok = true → s.dev.drk.pps.en = true →
      ∃ t, exec .timePpsEdge s = .next t ∧ t.dev.csr = s.dev.csr ∧ t.dev.pool = s.dev.pool ∧
        (s.dev.drk.pps.accepts s.dev.now = true →
          t.dev.drk.pps.last = some s.dev.now ∧ t.dev.drk.pps.free = false ∧ t.dev.drk.pps.off = ppsPhase s.dev.now ∧
          t.dev.drk.pps.slew = ppsPhase s.dev.now ∧ t.dev.drk.pps.ignored = s.dev.drk.pps.ignored) ∧
        (s.dev.drk.pps.accepts s.dev.now = false → t.dev.drk.pps = { s.dev.drk.pps with ignored := s.dev.drk.pps.ignored + 1 })) ∧
    (s.dev.pwr.pwrok = true → s.dev.drk.pps.lost s.dev.now = true →
      ∃ t, exec .ppsLoss s = .next t ∧ t.dev.drk.pps = { s.dev.drk.pps with free := true, slew := 0 } ∧ t.dev.csr = s.dev.csr ∧
        (s.dev.pwr.dark = true → s.dev.drk.evq.length < 256 →
          t.dev.drk.evq = s.dev.drk.evq ++ [evtRecord (960 + 16) 1 0 s.dev.time]))) ∧
  ∀ (d : Dev) (reason arg : Nat), reason < 8 → arg < 256 →
    (d.fdUp = false → d.enterSafe reason arg = d) ∧
    (d.fdUp = true → d.safe = true → d.enterSafe reason arg =
      { d with drk := { d.drk with safeLog := d.drk.safeLog ++ [(reason, arg, d.now)] } }) ∧
    (d.fdUp = true → d.safe = false → ∃ g : Dev,
      (let u := g.stopAll
       d.enterSafe reason arg = ({ u with moves := u.moves.map fun m => { m with abort := true } } : Dev).slowClocks) ∧
      g.safe = true ∧ g.f SYS.SAFE.REASON = reason ∧ g.f SYS.SAFE.ARG = arg ∧ g.reg SYS.SAFETIME.TIME = w64 d.now ∧
      g.pwr.safeDrv = true ∧ g.sor = d.sor ∧ g.moves = d.moves ∧
      ∀ n, n < 32 → (d.enterSafe reason arg).f (SYS.SCLK.CUR n) = 10)

/-! ## Events, counters and control space (R18–R24, R375–R391) -/

/-- One record a source (R377, R378). -/
def Obligations.RaiseFormsOneRecord : Prop :=
  ∀ (d : Dev) (k det : Nat), k < 1024 → det < 2 ^ 32 → d.fdUp = true →
    let u := d.raise k det
    let head := fun (d : Dev) => d.reg (EVT.RECA.HEAD k)
    u = { d with csr := u.csr } ∧
    (∀ a, a ≠ 0xB90000 + 8 * k → a ≠ (EVT.RECA.HEAD k).addr → a ≠ (EVT.RECB.TIME k).addr →
      Tbl.get 0 u.csr a = Tbl.get 0 d.csr a) ∧
    (d.fb (EVT.ROUTE.PEND k) = false →
      (head u).toNat = 1 + 2 * k + 2 ^ 16 + 2 ^ 32 * det ∧ u.reg (EVT.RECB.TIME k) = w64 d.now ∧ u.fb (EVT.ROUTE.PEND k) = true ∧
      ∀ b, b < 64 → b ≠ 3 → (u.reg (EVT.ROUTE.DEST k)).getLsbD b = (d.reg (EVT.ROUTE.DEST k)).getLsbD b) ∧
    (d.fb (EVT.ROUTE.PEND k) = true →
      ((head u).toNat / 2 ^ 16) % 2 ^ 16 = min (((head d).toNat / 2 ^ 16) % 2 ^ 16 + 1) 65535 ∧
      (∀ b, b < 64 → (b < 16 ∨ 32 ≤ b) → (head u).getLsbD b = (head d).getLsbD b) ∧
      ∀ a, a ≠ (EVT.RECA.HEAD k).addr → Tbl.get 0 u.csr a = Tbl.get 0 d.csr a)

/-- EVENT_DELIVERY, EVT_ROUTE_WRITE, SHUTTER and its events, FSEL_CLR, SHEETCFG and SHEET_DUMP. When a record waits for its
channel, how a dump is written, and when a snapshot takes its shadows are the model's choices (log entries 94, 95 and 96). -/
def Obligations.EventsAndSnapshotsComplete : Prop :=
  (∀ (s : State) (k : Fin 1024), s.dev.fdUp = true →
    let d := s.dev
    let go := exec (.eventDelivery k) s
    (d.fb (EVT.ROUTE.PEND k) = true → d.fb (EVT.ROUTE.MASK k) = false →
      (d.f (EVT.ROUTE.DEST k) = 1 → d.f (SLICE.HOSTS.MASK (d.f (EVT.ROUTE.SLICE k))) ≠ 0 →
        go = .next (s.after ((d.raiseVec (d.f (EVT.ROUTE.SLICE k)) (d.f (EVT.ROUTE.VEC k))).setF (EVT.ROUTE.PEND k) 0))) ∧
      (d.f (EVT.ROUTE.DEST k) = 2 → d.recordRoom (d.f (EVT.ROUTE.SORUS k)) (d.f (EVT.ROUTE.CHAN k)) = true →
        ∃ e u, go = .next u ∧ u.dev.fb (EVT.ROUTE.PEND k) = false ∧
          e = (d.chWrite (d.f (EVT.ROUTE.SORUS k)) (d.f (EVT.ROUTE.CHAN k)) (d.reg (EVT.RECA.HEAD k))).chWrite
            (d.f (EVT.ROUTE.SORUS k)) (d.f (EVT.ROUTE.CHAN k)) (d.reg (EVT.RECB.TIME k)) ∧ u.dev.sor = e.sor) ∧
      (d.f (EVT.ROUTE.DEST k) = 0 → go = .next (s.after d))) ∧
    (d.fb (EVT.ROUTE.PEND k) = false ∨ d.fb (EVT.ROUTE.MASK k) = true → go = .next (s.after d)) ∧
    ∀ v : Word, ∃ u, exec (.evtRouteWrite k v) s = .next u ∧
      ((976 ≤ k.val ∧ k.val < 981) ∨ d.safe = true → u = s.after d) ∧
      (k.val < 976 ∨ 981 ≤ k.val → d.safe = false →
        u.dev.f (EVT.ROUTE.DEST k) = (if getBits v 0 2 = 3 then d.f (EVT.ROUTE.DEST k) else getBits v 0 2) ∧
        u.dev.fb (EVT.ROUTE.PEND k) = (d.fb (EVT.ROUTE.PEND k) && !v.getLsbD 3) ∧
        u.dev.f (EVT.ROUTE.MASK k) = getBits v 2 1 ∧ u.dev.f (EVT.ROUTE.SLICE k) = getBits v 4 12 ∧
        u.dev.f (EVT.ROUTE.VEC k) = getBits v 16 4 ∧ u.dev.f (EVT.ROUTE.SORUS k) = getBits v 20 5 ∧
        u.dev.f (EVT.ROUTE.CHAN k) = getBits v 25 8)) ∧
  (∀ (s : State), s.dev.fdUp = true →
    (∀ delay, s.dev.ctr.snap = none → ∃ u T, exec (.shutterInEdge delay) s = .next u ∧ u.dev.ctr.snap = some (T, false) ∧
      s.dev.now + 40 ≤ T ∧ T ≤ s.dev.now + 200 ∧ u.dev.fb CTR.SHSTAT.BUSY = true) ∧
    (∀ delay x, s.dev.ctr.snap = some x → exec (.shutterInEdge delay) s = .next (s.after (s.dev.count 2608 1))) ∧
    (s.dev.f CTR.SHCTL.PERIOD ≠ 0 → s.dev.ctr.snap = none → ∃ u T, exec .shutterTimer s = .next u ∧
      u.dev.ctr.snap = some (T, true) ∧ T % (s.dev.f CTR.SHCTL.PERIOD * 1000000) = 0 ∧ T ≤ s.dev.now ∧
      s.dev.now < T + s.dev.f CTR.SHCTL.PERIOD * 1000000 ∧ u.dev.ctr.unitSh = s.dev.ctr.unit ∧
      u.dev.ctr.sliceSh = s.dev.ctr.slice) ∧
    (∀ T, s.dev.ctr.snap = some (T, true) → ∃ u, exec .snapshotComplete s = .next u ∧ u.dev.ctr.snap = none ∧
      u.dev.f CTR.SHSTAT.SEQ = (s.dev.f CTR.SHSTAT.SEQ + 1) % 2 ^ 32 ∧ u.dev.fb CTR.SHSTAT.BUSY = false ∧
      u.dev.reg CTR.SHTIME.T = w64 T ∧ u.dev.ctr.unitSh = s.dev.ctr.unitSh ∧ u.dev.ctr.sliceSh = s.dev.ctr.sliceSh) ∧
    (∀ (p : Fin 288) (v : Word), s.dev.safe = true → exec (.fselClr p v) s = .next (s.after s.dev)) ∧
    (∀ (p : Fin 288) (v : Word), s.dev.safe = false → ∃ u, exec (.fselClr p v) s = .next u ∧
      (∀ j, j < 8 → Tbl.get 0 u.dev.ctr.pmc (p * 8 + j) = 0 ∧
        getBits (u.dev.reg (CTR.FSEL.CLR p)) (7 * j) 7 =
          if getBits v (7 * j) 7 < 20 then getBits v (7 * j) 7 else getBits (s.dev.reg (CTR.FSEL.CLR p)) (7 * j) 7) ∧
      ∀ i, i / 8 ≠ p.val → Tbl.get 0 u.dev.ctr.pmc i = Tbl.get 0 s.dev.ctr.pmc i) ∧
    ∀ k : Fin 16, getBits (s.dev.sheet0 k) 0 1 = 1 →
      let d := s.dev
      let e := ({ d with coh := { d.coh with need := none } } : Dev).sheetRun k d.now d.ctr.slice
      (d.fb (CTR.SHEETST.BUSY k) = true → exec (.sheetDump k) s = .next (s.after
        (((d.incF (CTR.SHEETST.SKIPS k)).count 2610 1).raise 969 k))) ∧
      (d.fb (CTR.SHEETST.BUSY k) = false → e.coh.need = none →
        exec (.sheetDump k) s = .next (s.after { e with coh := { e.coh with need := d.coh.need } })) ∧
      ∀ o m, d.fb (CTR.SHEETST.BUSY k) = false → e.coh.need = some (o, m) →
        let g := d.ownSend o m
        exec (.sheetDump k) s = .next (s.after (({ g with ctr := { g.ctr with
          dumps := g.ctr.dumps ++ [⟨k, d.now, d.ctr.slice⟩] } } : Dev).setF (CTR.SHEETST.BUSY k) 1))) ∧
  (∀ (d0 : Dev) (k t : Nat) (ctr : Tbl Word),
    let d := Dev.sheetHead k 32768 d0
    let len := dumpLen (getBits (d.sheet0 k) 1 1 == 1) (getBits (d.sheet1 k) 17 17 + 1 - getBits (d.sheet1 k) 0 17)
    let used := ringUsed (d.f (CTR.SHEETST.HEAD k)) (d.f (CTR.SHEETST.TAIL k))
    (2 ^ getBits (d.sheet0 k) 3 4 < used + len →
      d0.sheetRun k t ctr = ((d.incF (CTR.SHEETST.SKIPS k)).count 2610 1).raise 969 k) ∧
    ∀ e ok, used + len ≤ 2 ^ getBits (d.sheet0 k) 3 4 → Dev.sheetEntries k t ctr len len 0 d = (ok, e) →
      let u := d0.sheetRun k t ctr
      Tbl.get 0 u.ctr.dseq k = (Tbl.get 0 e.ctr.dseq k + 1) % 2 ^ 32 ∧ u.pool = e.pool ∧ u.coh = e.coh ∧
      u.f (CTR.SHEETST.TAIL k) = e.f (CTR.SHEETST.TAIL k) ∧ (ok = false → u.fb (CTR.SHEETST.WERR k) = true)) ∧
  ∀ (s : State) (t : StrandIx) (f : FX), s.dev.issues t = true → (s.dev.str t).priv = true → f.rc = 0 →
    (f.ra = 0 → f.rb = 0 → ∃ u, exec (.shutter t f) s = .next u ∧ (u.dev.str t).wait = .shut f.rd.toNat ∧
      (s.dev.ctr.snap = none → u.dev.ctr.snap = some (s.dev.now + 200, false)) ∧
      (s.dev.ctr.snap ≠ none → u.dev.ctr.snap = s.dev.ctr.snap)) ∧
    (f.rb.toNat ≤ 28 → exec (.sheetcfg t f) s = .next (s.after
      ((s.dev.sheetcfg (s.dev.gr t f.ra).toNat (s.dev.gr t f.rb) (s.dev.gr1 t f.rb 1) (s.dev.gr1 t f.rb 2) (s.dev.gr1 t f.rb 3)).2.give
        t f.rd.toNat (w64 (s.dev.sheetcfg (s.dev.gr t f.ra).toNat (s.dev.gr t f.rb) (s.dev.gr1 t f.rb 1) (s.dev.gr1 t f.rb 2)
          (s.dev.gr1 t f.rb 3)).1))))

/-- The access codes (R6–R8, R436), and read after write of a register field (R19). -/
def Obligations.FieldsFollowTheirAccessCode : Prop :=
  (∀ (old v : Word) (x : FieldDesc), x.lo + x.w ≤ 64 →
    let n := getBits v x.lo x.w
    let o := getBits old x.lo x.w
    let u := fieldWrite old v x
    let legal := match x.legal with
      | none => True
      | some (lo, hi) => lo ≤ n ∧ n ≤ hi
    (∀ i, i < 64 → (i < x.lo ∨ x.lo + x.w ≤ i) → u.getLsbD i = old.getLsbD i) ∧
    (x.acc = .rw ∨ x.acc = .rwl → (legal → getBits u x.lo x.w = n) ∧ (¬legal → u = old)) ∧
    (x.acc = .w1c → x.w = 1 → getBits u x.lo x.w = if n = 1 then 0 else o) ∧
    (x.acc = .clr → getBits u x.lo x.w = if n = 0 then 0 else o) ∧
    (x.acc = .set → x.w = 1 → getBits u x.lo x.w = if n = 1 then 1 else o) ∧
    (x.acc = .ro ∨ x.acc = .wo → u = old)) ∧
  ∀ (d : Dev) (q r : FRef) (v : Nat), r.lo + r.w ≤ 64 →
    let u := d.setF r v
    u.f r = v % 2 ^ r.w ∧ u = { d with csr := u.csr } ∧
    (q.addr ≠ r.addr → u.f q = d.f q) ∧
    (q.addr = r.addr → q.cold = r.cold → (q.lo + q.w ≤ r.lo ∨ r.lo + r.w ≤ q.lo) → u.f q = d.f q)

/-- CSPRD, CSPWR and the register write itself (R20, R251). -/
def Obligations.ControlSpaceOutcomes : Prop :=
  (∀ (s : State) (t : StrandIx) (f : FX), s.dev.issues t = true →
    let a := ((s.dev.str t).g f.ra.toNat).toNat
    let v := (s.dev.str t).g f.rb.toNat
    let fault := fun (i : Instr) (cause : Nat) => exec i s = .next (s.after (s.dev.strandFault t cause 0))
    ((s.dev.str t).priv = false → fault (.csprd t f) cPRIV ∧ fault (.cspwr t f) cPRIV) ∧
    ((s.dev.str t).priv = true → f.rc = 0 →
      (f.rb = 0 →
        (a % 8 ≠ 0 → fault (.csprd t f) cCSPALIGN) ∧
        (a % 8 = 0 → cspMapped a = false → fault (.csprd t f) cCSPUNMAPPED) ∧
        (a % 8 = 0 → cspMapped a = true → s.dev.sbOwn t = false →
          exec (.csprd t f) s = .next (s.after (s.dev.give t f.rd.toNat (Dev.cspRead s.fuse s.dev a))))) ∧
      (f.rd = 0 →
        (a % 8 ≠ 0 → fault (.cspwr t f) cCSPALIGN) ∧
        (a % 8 = 0 → cspMapped a = false → fault (.cspwr t f) cCSPUNMAPPED) ∧
        (a % 8 = 0 → cspMapped a = true → s.dev.sbOwn t = false →
          ((Dev.cspWrite s.fuse s.dev a v).str t).live = true →
          exec (.cspwr t f) s = .next (s.after ((Dev.cspWrite s.fuse s.dev a v).next t)))))) ∧
  (∀ (s : State) (a v : Word), s.dev.fdUp = true → a.toNat % 8 = 0 →
    (s.dev.safe = false → exec (.cspRegisterWrite a v) s = .next (s.after (Dev.cspWrite s.fuse s.dev a.toNat v))) ∧
    (regAt a.toNat = none ∨ s.dev.safe = true → exec (.cspRegisterWrite a v) s = .next (s.after s.dev))) ∧
  -- the registers that a rule of their own writes: those of the SLOT, HOME, HBM, BIND, SLICE, PORT, SORUS, QM, EVT, CTR and SYS blocks
  (let ownRule : List Nat := [0xBB1000, 0xBB1008, 0xBB1010, 0x800000, 0x800100, 0x800200, 0xB00008, 0xB00010, 0xB08000, 0xB08008,
      0xB08010, 0xB08020, 0xB09000, 0xBC0000, 0xBC0008, 0xBC0018, 0xBC0020, 0xBC1000, 0x1000038, 0x1000100, 0x1000180, 0x100000,
      0x100200, 0x100030, 0x100020, 0x900038, 0x900028, 0x900030, 0x905000, 0x907000, 0xB40008, 0xB40010, 0xB40018, 0xB40020,
      0xB40040, 0xB90000, 0xBA1000, 0x18000, 0x18008, 0x10200]
    ∀ (fz : Fuse) (d : Dev) (a n i : Nat) (r : RegDesc), regAt a = some (r, n, i) →
      (∀ v : Word, r.base ∉ ownRule → (inSlotBlock a = true → d.slotUp = true) →
        let u := Dev.cspWrite fz d a v
        let old := d.word a (r.coldAt i)
        let new := u.word a (r.coldAt i)
        u = { d with csr := u.csr } ∧ (∀ b, b ≠ a → Tbl.get 0 u.csr b = Tbl.get 0 d.csr b) ∧
        (∀ x ∈ r.flds, getBits new x.lo x.w = getBits (fieldWrite old v x) x.lo x.w) ∧
        ∀ b, b < 64 → (∀ x ∈ r.flds, b < x.lo ∨ x.lo + x.w ≤ b) → new.getLsbD b = old.getLsbD b) ∧
      (Dev.computed fz d r.base n i = (0, 0) → ∀ b, b < 64 → (Dev.cspRead fz d a).getLsbD b =
        ((d.word a (r.coldAt i)).getLsbD b && r.flds.any fun x => x.acc != .wo && x.lo ≤ b && b < x.lo + x.w))) ∧
  ∀ (fz : Fuse) (d : Dev) (a : Nat), regAt a = none → Dev.cspRead fz d a = 0

/-- R23. Which accesses PCIe allows is the model's choice (log entries 57 and 58). -/
def Obligations.UnboundFramesReadOnes : Prop :=
  ∀ (s : State) (p : Fin 96) (off : BitVec 24), s.dev.hostPort p = true → s.dev.paused p = false → 0x8000 ≤ off.toNat →
    let sl := s.dev.frameSlice (s.dev.hostOf p) (off.toNat / 0x8000)
    let o := off.toNat % 0x8000
    (∀ n, bar0Fits off.toNat n = true →
      sl = none ∨ (∃ k, sl = some k ∧ (0x6000 ≤ o ∨ (0x1000 ≤ o ∧ o < 0x2000 ∧ s.dev.fb (SLICE.CTL.CTR_USER k) = false))) →
      exec (.bar0Read p off n) s = .next (s.after (s.dev.emit (.bar0 p off.toNat (List.replicate n 0xFF))))) ∧
    ∀ bs, bar0Fits off.toNat bs.length = true →
      sl = none ∨ (∃ k, sl = some k ∧ (0x6000 ≤ o ∨ (0x1000 ≤ o ∧ o < 0x1800 ∧ s.dev.fb (SLICE.CTL.CTR_USER k) = false))) →
      exec (.bar0Write p off bs) s = .next (s.after (s.dev.count (8 * p) 1))

/-- BAR0: doorbells, windows, slots and MSI-X (chapter 9, R21–R23, R381). What SKIP does after an overrun, the bits of a CQ doorbell,
which requests a generation change holds, and when a held read is answered are the model's choices (log entries 26, 27, 30, 58, 60
and 61), and so is the layout of MSI-X (log entry 18). -/
def Obligations.Bar0CommandsComplete : Prop :=
  (∀ (s : State) (p : Fin 96) (f : BitVec 9) (n : Nat), s.dev.hostPort p = true → s.dev.paused p = false → f ≠ 0 →
    s.dev.frameSlice (s.dev.hostOf p) f.toNat = some n → n < 4096 →
    let d := s.dev
    let is := fun (i : Instr) (e : Dev) => exec i s = .next (s.after e)
    (∀ q : Fin 8, d.fb (SLICE.SQA.EN n q) = true →
      let h := d.f (SLICE.SQB.HEAD n q)
      (∀ v : BitVec 32, v.toNat < 2 ^ 16 →
        (ringUsed h (d.f (SLICE.SQB.TAIL n q)) ≤ ringUsed h v.toNat → ringUsed h v.toNat ≤ 2 ^ d.f (SLICE.SQA.LOGSZ n q) →
          is (.sqTailDoorbell p f q v) (d.setF (SLICE.SQB.TAIL n q) v.toNat)) ∧
        (2 ^ d.f (SLICE.SQA.LOGSZ n q) < ringUsed h v.toNat ∨ ringUsed h v.toNat < ringUsed h (d.f (SLICE.SQB.TAIL n q)) →
          d.f (SLICE.SQB.STATE n q) ≠ 2 →
          ∃ u, exec (.sqTailDoorbell p f q v) s = .next u ∧ u.dev.f (SLICE.SQB.STATE n q) = 2 ∧ u.dev.f (SLICE.SQB.REASON n q) = 6 ∧
            u.dev.f (SLICE.SQB.ERRIDX n q) = v.toNat ∧ u.dev.f (SLICE.SQB.TAIL n q) = d.f (SLICE.SQB.TAIL n q))) ∧
      (d.f (SLICE.SQB.STATE n q) = 2 → is (.sqRestart p f q) (d.setF (SLICE.SQB.STATE n q) 1) ∧
        (d.f (SLICE.SQB.REASON n q) ≠ 6 → ∃ u, exec (.sqSkip p f q) s = .next u ∧ u.dev.f (SLICE.SQB.STATE n q) = 1 ∧
          u.dev.f (SLICE.SQB.HEAD n q) = (d.f (SLICE.SQB.ERRIDX n q) + 1) % 2 ^ 16))) ∧
    (∀ (q : Fin 8) (v : BitVec 32), d.fb (SLICE.CQA.EN n q) = true → v.getLsbD 31 = false →
      let h := d.f (SLICE.CQB.HEAD n q)
      ringUsed h (v.toNat % 2 ^ 16) ≤ ringUsed h (d.f (SLICE.CQB.TAIL n q)) →
      is (.cqHeadDoorbell p f q v) ((d.setF (SLICE.CQB.HEAD n q) (v.toNat % 2 ^ 16)).cqRetry n q) ∧
      (d.cqHeld n q = [] → is (.cqHeadDoorbell p f q v) (d.setF (SLICE.CQB.HEAD n q) (v.toNat % 2 ^ 16)))) ∧
    (∀ w : Fin 64, d.fb (SLICE.WIN.EN n w) = true →
      (∀ x : Line, (d.win n w).state ≠ 1 → d.f (SLICE.STATE.STATE n) = 1 → d.safe = false →
        ∃ u, exec (.windowCommand p f w x) s = .next u ∧ (u.dev.win n w).state = 1 ∧ (u.dev.win n w).cmd = some x ∧
          (u.dev.win n w).cfg = d.reg (SLICE.WIN.EN n w) ∧ (u.dev.win n w).seq = ((d.win n w).seq + 1) % 2 ^ 32 ∧ (u.dev.win n w).nr = false) ∧
      (∀ (o : BitVec 6) (k : BitVec 7), 0 < k.toNat → o.toNat + k.toNat ≤ 64 →
        let at_ := f.toNat * 0x8000 + 0x3000 + 64 * w + o.toNat
        ((d.win n w).state ≠ 1 →
          is (.resultSlotRead p f w o k) (d.emit (.bar0 p at_ (lineSlice (d.win n w).slot o.toNat k.toNat)))) ∧
        ((d.win n w).state = 1 → d.winF n w (SLICE.WIN.EN n w) = 1 → d.winF n w (SLICE.WIN.HOLD n w) ≠ 0 →
          is (.resultSlotRead p f w o k) { d with wq := { d.wq with
            reads := d.wq.reads ++ [⟨p, at_, k.toNat, n, w, d.f (BIND.HGEN.CUR (d.hostOf p))⟩] } }))) ∧
    -- R288, R289, R294: the sixty-fourth byte of a command has come
    (∀ (w : Fin 64) (x : Line),
      let c : Dev := { d with qm := { d.qm with buf := Tbl.put (0, 0) d.qm.buf (n * 128 + w) (0, 0) } }
      let st := d.f (SLICE.STATE.STATE n)
      let go := exec (.enqueueCommand p f w x) s
      (st = 2 ∨ st = 3 → go = .next (s.after (c.countSlice n 14 1))) ∧
      (st ≠ 2 → st ≠ 3 → c.qEn tSLICE n = false → go = .next (s.after c)) ∧
      (st ≠ 2 → st ≠ 3 → c.qEn tSLICE n = true → d.qm.todo = [] →
        ∀ r e, ({ c with coh := { c.coh with need := none } } : Dev).enqueue (some n) x.toNat = (r, e) → e.coh.need = none →
          ∃ u, go = .next u ∧ u.dev.pool = e.pool ∧ u.dev.qm.q = e.qm.q ∧ u.dev.qm.cells = e.qm.cells ∧
            Tbl.get 0 u.dev.qm.res (n * 64 + w) =
              w64 (r + (getBits (Tbl.get 0 e.qm.res (n * 64 + w)) 32 32 + 1) % 2 ^ 32 * 2 ^ 32))) ∧
    (∀ (w : Fin 16) (x : Line), d.qm.todo = [] →
      let c : Dev := { d with qm := { d.qm with buf := Tbl.put (0, 0) d.qm.buf (n * 128 + (64 + w)) (0, 0) } }
      ∀ r e, ({ c with coh := { c.coh with need := none } } : Dev).release (some n) x.toNat = (r, e) → e.coh.need = none →
        is (.releaseCommand p f w x) { e with coh := { e.coh with need := d.coh.need } }) ∧
    -- R286, R305
    (∀ (r : Fin 8) (v : BitVec 32),
      let i := 8 * n + r.val
      let x := d.qring i
      (2 ^ 16 ≤ v.toNat ∨ d.qEn tFRING i = false → is (.fringHeadDoorbell p f r v) (d.count (8 * p) 1)) ∧
      (v.toNat < 2 ^ 16 → d.qEn tFRING i = true →
        (ringUsed x.head v.toNat ≤ ringUsed x.head x.tail → ∃ u, exec (.fringHeadDoorbell p f r v) s = .next u ∧
          (u.dev.qring i).head = v.toNat ∧ (u.dev.qring i).tail = x.tail ∧ (u.dev.qring i).herr = x.herr) ∧
        (ringUsed x.head x.tail < ringUsed x.head v.toNat → is (.fringHeadDoorbell p f r v) (d.setRing i { x with herr := true })))) ∧
    (∀ (e : Fin 32) (v : BitVec 32),
      ((∀ o ∈ d.outputsOf n, d.qf tOUTPUT o 0 13 5 ≠ e.val) →
        ∃ u, exec (.egressHeadDoorbell p f e v) s = .next u ∧ u.dev.qm.ring = d.qm.ring ∧
          Tbl.get 0 u.dev.ctr.unit (8 * p) = Tbl.get 0 d.ctr.unit (8 * p) + 1) ∧
      ∀ o, (d.outputsOf n).find? (fun o => d.qf tOUTPUT o 0 13 5 == e) = some o → bitsN v.toNat 16 15 = 0 →
        let x := d.qring (32768 + o)
        x.paused = false → ∃ u, exec (.egressHeadDoorbell p f e v) s = .next u ∧
          (ringUsed x.head x.tail < ringUsed x.head (v.toNat % 2 ^ 16) → u.dev.qring (32768 + o) = { x with herr := true }) ∧
          (ringUsed x.head (v.toNat % 2 ^ 16) ≤ ringUsed x.head x.tail → v.getLsbD 31 = false →
            u.dev.qring (32768 + o) = { x with head := v.toNat % 2 ^ 16 }))) ∧
  -- what a read of a status word, a counter or a result word gives (R263, R272, R274, R289, R293, R384)
  (∀ (s : State) (p : Fin 96) (f : BitVec 9) (n : Nat), s.dev.hostPort p = true → s.dev.paused p = false → f ≠ 0 →
    s.dev.frameSlice (s.dev.hostOf p) f.toNat = some n → n < 4096 →
    let d := s.dev
    let gives := fun (o k : Nat) (bs : List Byte) => exec (.bar0Read p (BitVec.ofNat 24 (f.toNat * 0x8000 + o)) k) s =
      .next (s.after (d.emit (.bar0 p (f.toNat * 0x8000 + o) bs)))
    (∀ q, q < 8 → gives (0x100 + 8 * q) 8 (leBytes 8 (d.reg (SLICE.SQB.HEAD n q)).toNat) ∧
      gives (0x140 + 8 * q) 8 (leBytes 8 (d.reg (SLICE.CQB.HEAD n q)).toNat) ∧ gives (4 * q) 4 [0, 0, 0, 0]) ∧
    (∀ w, w < 64 → gives (0x800 + 8 * w) 8 (leBytes 8 (d.winWord n w).toNat) ∧
      gives (0x4000 + 64 * w) 8 (leBytes 8 (Tbl.get 0 d.qm.res (n * 64 + w)).toNat)) ∧
    (d.fb (SLICE.CTL.CTR_USER n) = true →
      (∀ k, k < 16 → gives (0x1000 + 8 * k) 8 (leBytes 8 (Tbl.get 0 d.ctr.slice (n * 16 + k)).toNat) ∧
        gives (0x1080 + 8 * k) 8 (leBytes 8 (Tbl.get 0 d.ctr.sliceSh (n * 16 + k)).toNat)) ∧
      gives 0x1100 8 (leBytes 8 (d.reg CTR.SHTIME.T).toNat) ∧ gives 0x1108 8 (leBytes 8 (d.f CTR.SHSTAT.SEQ))) ∧
    ∀ r, r < 8 →
      let x := d.qring (8 * n + r)
      gives (0x5800 + 8 * r) 8 (leBytes 8 (x.head + x.tail * 2 ^ 16 + b2n x.herr * 2 ^ 32 + b2n x.sw * 2 ^ 33))) ∧
  (∀ (s : State) (p : Fin 96) (off : BitVec 24) (r : HeldRd), s.dev.hostPort p = true → (∀ q ∈ s.dev.wq.reads, s.dev.readHolds q = true) →
    (holdSplit s.dev.wq.reads).1.find? (fun r => r.port == p.val && r.off == off.toNat) = some r →
    ∃ u, exec (.notReady p off) s = .next u ∧ (u.dev.win r.slice r.w).nr = true ∧
      u.dev.out = s.dev.out ++ [.bar0 p off.toNat (lineSlice (winRecord 0x87 []) (off.toNat % 64) r.len)] ∧
      u.dev.wq.reads = s.dev.wq.reads.erase r) ∧
  (∀ (s : State) (p : Fin 96) (off : BitVec 24), s.dev.hostPort p = true →
    (∀ n, bar0Fits off.toNat n = true →
      (off.toNat < 0x8000 ∨ s.dev.paused p = false → exec (.bar0Read p off n) s = .next (s.after (s.dev.bar0Read p off.toNat n))) ∧
      (0x8000 ≤ off.toNat → s.dev.paused p = true →
        ∃ u, exec (.bar0Read p off n) s = .next u ∧ u.dev.bind.held = s.dev.bind.held ++ [.bar0Rd p off.toNat n])) ∧
    ∀ bs, bar0Fits off.toNat bs.length = true →
      (off.toNat < 0x8000 ∨ s.dev.paused p = false → exec (.bar0Write p off bs) s = .next (s.after (s.dev.bar0Write p off.toNat bs))) ∧
      (0x8000 ≤ off.toNat → s.dev.paused p = true →
        ∃ u, exec (.bar0Write p off bs) s = .next u ∧ u.dev.bind.held = s.dev.bind.held ++ [.bar0Wr p off.toNat bs])) ∧
  ∀ (s : State) (p : Fin 96) (k : Fin 16), s.dev.hasMsix p k = true →
    (∀ v en, ∃ u, exec (.msixTableWrite p 0 (.notify v en)) s = .next u ∧ Tbl.get 0 u.dev.host.notify p = v.val + 16 * (if en then 1 else 0)) ∧
    (∀ en fm, ∃ u, exec (.msixTableWrite p k (.ctrl en fm)) s = .next u ∧
      Tbl.get 0 u.dev.host.ctl (p * 16 + k) = (if en then 1 else 0) + 2 * (if fm then 1 else 0)) ∧
    ∀ (i : Fin 16) (a : Word) (x : BitVec 32) (m : Bool), k = 0 ∨ (s.dev.frameSlice (s.dev.hostOf p) k).isSome = true →
      ∃ u, exec (.msixTableWrite p k (.entry i a x m)) s = .next u ∧
        Tbl.get MsixE.reset u.dev.host.msix (msixKey p k i) = ⟨a, x, m⟩

/-! ## Hosts and coherence (R53–R92, R128–R133, R439) -/

/-- MEMRD to MEMCLNEVCT, the back-invalidate rows, and PCIe requests (R70, R75, R130, R131). Untracked reads, what a back-invalidate
answer leaves, whose copy an E/M record names, and how BIRspE is told to the home are the model's choices (log entries 38, 39, 142
and 144), as are a PCIe request's bounds (log entry 57) and the wait of a walk (log entry 128). -/
def Obligations.HostRequestsComplete : Prop :=
  (∀ (s : State) (p : Fin 96) (r : CxlReq), s.dev.cxlPort p = true → s.dev.paused p = false →
    (∀ u ∈ s.dev.host.walks, heldPort u ≠ p.val) →
    let d : Dev := { s.dev with coh := { s.dev.coh with need := none } }
    let is := fun (i : Instr) (e : Dev) => exec i s = .next (s.after { e with coh := { e.coh with need := s.dev.coh.need } })
    let at_ := fun (q : Perm) (w : Want) (k : Kind) (wr : Bool) (judge : Nat → Bool) =>
      d.reach p r.ld.toNat r.hpa.toNat q w k wr judge
    let every := fun _ : Nat => true
    -- a write-back of a line held E/M goes to its home unchecked (R330)
    let notOwn := fun ln => !d.hostEM p ln
    let msg := fun (op : BitVec 6) (fpa n : Nat) => ({ op := op, addr := BitVec.ofNat 46 (fpa / 64), slice := BitVec.ofNat 12 n } : Msg)
    let rq : PortReq := { PortReq.blank with tag := r.tag.toNat, kind := 0, ld := r.ld.toNat }
    (∀ fpa n e, e.coh.need = none → at_ .r .r .rd false every = (.ok fpa n, e) →
      is (.memrddata p r) ((e.countSlice n 6 1).hostSend p (msg opRdU fpa n) rq) ∧
      (r.mv ≠ .a → is (.memrd p r) ((e.countSlice n 6 1).hostSend p
        (msg (if d.hdmDb p r.ld.toNat = true ∧ r.mv = .s then opRdS else opRdU) fpa n) rq))) ∧
    (∀ fpa n e, e.coh.need = none → r.mv = .a → at_ .rw .w .wr false every = (.ok fpa n, e) →
      is (.memrd p r) ((e.countSlice n 6 1).hostSend p (msg (if d.hdmDb p r.ld.toNat = true then opRdX else opRdU) fpa n) rq)) ∧
    (∀ fpa n e, e.coh.need = none →
      let q : PortReq := { PortReq.blank with tag := r.tag.toNat, kind := 1, ld := r.ld.toNat }
      let keep := if e.hdmDb p r.ld.toNat = true then mvKeep r.mv else 0
      (at_ .w .w .wr true every = (.ok fpa n, e) →
        is (.memwrptl p r) ((e.countSlice n 7 1).hostSend p { msg opWrP fpa n with data := r.data, mask := r.mask } q)) ∧
      (at_ .w .w .wr true notOwn = (.ok fpa n, e) →
        (e.hostEM p (fpa / 64) = false →
          is (.memwr p r) ((e.countSlice n 7 1).hostSend p { msg opWrU fpa n with data := r.data, new := keep } q)) ∧
        (e.hostEM p (fpa / 64) = true → e.biOf p (fpa / 64) = none →
          is (.memwr p r) (e.hostSend p { msg opWbM fpa n with data := r.data, new := keep } q)))) ∧
    (∀ fpa n e, e.coh.need = none → at_ .none .r .rd true (fun _ => false) = (.ok fpa n, e) →
      is (.memclnevct p r) (e.hostSend p (msg opEvictC fpa n) { PortReq.blank with tag := r.tag.toNat, kind := 5, ld := r.ld.toNat })) ∧
    (∀ why e, e.coh.need = none → why = .xlat ∨ why = .prot →
      let poison := (e.count (8 * p) 1).emit (.cxlData p r.ld.toNat r.tag.toNat 0 true)
      let drops := (e.count (8 * p) 1).emit (.cxlCmp p r.ld.toNat r.tag.toNat)
      (at_ .r .r .rd false every = (why, e) → is (.memrddata p r) poison ∧ (r.mv ≠ .a → is (.memrd p r) poison)) ∧
      (at_ .rw .w .wr false every = (why, e) → r.mv = .a → is (.memrd p r) poison) ∧
      (at_ .w .w .wr true notOwn = (why, e) → is (.memwr p r) drops) ∧
      (at_ .w .w .wr true every = (why, e) → is (.memwrptl p r) drops)) ∧
    -- a table walk that must wait for a home: the request is kept at its port (R33)
    ∀ q : HostReq, ∀ i : Instr, (i, q) ∈ [(.memrd p r, .memRd p r), (.memrddata p r, .memRdData p r), (.memwr p r, .memWr p r),
        (.memwrptl p r, .memWrPtl p r), (.memclnevct p r, .memClnEvct p r)] → ∀ o m, (d.memTake q).coh.need = some (o, m) →
      exec i s = .next (s.after ((s.dev.ownSend o m).memWalk q))) ∧
  (∀ (s : State) (p : Fin 96), s.dev.pciePort p = true → s.dev.paused p = false → (∀ u ∈ s.dev.host.walks, heldPort u ≠ p.val) →
    let d : Dev := { s.dev with coh := { s.dev.coh with need := none } }
    let is := fun (i : Instr) (e : Dev) =>
      e.coh.need = none → exec i s = .next (s.after { e with coh := { e.coh with need := s.dev.coh.need } })
    (∀ r : PcieReq, r.len.toNat ≤ 4096 → is (.pcieMemoryRead p r) (d.pcieRead p r)) ∧
    (∀ (off : BitVec 46) (bs : List Byte), bs.length ≤ 512 →
      is (.pcieMemoryWrite p off bs) (Dev.pcieWrite p (bs.length + 1) d off.toNat bs)) ∧
    ∀ (tag : BitVec 10) (o : PcieAop) (sz : Bool) (off : BitVec 46) (a b : Word) (fpa n : Nat) (e : Dev),
      (o = .cas128 ∨ o = .bar0 → exec (.pcieAtomicop p tag o sz off a b) s = .next (s.after (s.dev.emit (.pcieStat p tag.toNat 1)))) ∧
      (o = .fetchAdd ∨ o = .cas ∨ o = .swap →
      d.reach p (d.bar2 p off.toNat).1 (d.bar2 p off.toNat).2 .rw .a .at false (fun _ => true) = (.ok fpa n, e) →
      ∃ m : Msg, m.op = opAtom ∧ m.place = 2 ∧ m.aop = (if o = .fetchAdd then 0 else if o = .cas then 1 else 2) ∧ m.sz = sz ∧
        m.addr = BitVec.ofNat 46 (fpa / 64) ∧ m.opa = a ∧ m.opb = b ∧
        is (.pcieAtomicop p tag o sz off a b)
          ((e.countSlice n 6 1).hostSend p m { PortReq.blank with tag := tag.toNat, kind := 4, len := if sz then 8 else 4 }))) ∧
  (∀ (s : State) (p : Fin 96) (r : CxlReq), s.dev.cxlPort p = true → s.dev.paused p = true →
    let holds := fun (i : Instr) (q : HostReq) =>
      exec i s = .next (s.after { s.dev with bind := { s.dev.bind with held := s.dev.bind.held ++ [q] } })
    holds (.memrd p r) (.memRd p r) ∧ holds (.memrddata p r) (.memRdData p r) ∧ holds (.memwr p r) (.memWr p r) ∧
    holds (.memwrptl p r) (.memWrPtl p r) ∧ holds (.memclnevct p r) (.memClnEvct p r)) ∧
  (∀ (s : State) (p : Fin 96), s.dev.cxlPort p = true →
    (∀ k : Fin 16, (∃ u, exec (.biDecoderCommit p k) s = .next u ∧ Tbl.get 0 u.dev.host.commit (p * 16 + k) = 1) ∧
      ∃ u, exec (.biDecoderUncommit p k) s = .next u ∧ Tbl.get 0 u.dev.host.commit (p * 16 + k) = 0) ∧
    ∀ (ln : BitVec 46) (b : BiSnp), s.dev.biOf p ln.toNat = some b →
      let d : Dev := { s.dev with coh := { s.dev.coh with bisnp := s.dev.coh.bisnp.erase b } }
      let m := fun (op : BitVec 6) => ({ op := op, src := d.ag (0x280 + p), dst := b.home, tag := b.tag, addr := ln } : Msg)
      let sends := fun (i : Instr) (a : Msg) => exec i s = .next (s.after (d.send a))
      let leaves := fun (op : BitVec 6) => ∃ m ∈ s.dev.coh.net, m.src = d.ag (0x280 + p) ∧ m.addr = ln ∧ m.op = op
      let wb := fun (k : BitVec 2) => { m opRspIWb with wb := k }
      (leaves opWbM → ¬leaves opEvictC →
        sends (.birspi p ln) (wb 1) ∧ sends (.birsps p ln) (wb 1) ∧ sends (.birspe p ln) (wb 1)) ∧
      (leaves opEvictC → ¬leaves opWbM →
        sends (.birspi p ln) (wb 3) ∧ sends (.birsps p ln) (wb 3) ∧ sends (.birspe p ln) (wb 3)) ∧
      (¬leaves opWbM → ¬leaves opEvictC →
      (b.wr = none → sends (.birspi p ln) (m opRspI) ∧ sends (.birsps p ln) (m opRspS) ∧
        sends (.birspe p ln) { m opRspI with new := 3 }) ∧
      ∀ x, b.wr = some x →
        sends (.birspi p ln) { m opRspD with data := x } ∧ sends (.birspe p ln) { m opRspD with data := x } ∧
        sends (.birsps p ln) { m opRspD with data := x, new := 1 })) ∧
  ∀ (s : State) (p : Fin 96) (ln : BitVec 46), (s.dev.biOf p ln.toNat).isSome = true →
    let n := homeOf ln.toNat
    (s.dev.f (PORT.STAT.LINK p) = 3 → exec (.bisnpTimeout p ln) s = .next (s.after s.dev)) ∧
    (s.dev.f (PORT.STAT.LINK p) ≠ 3 → exec (.bisnpTimeout p ln) s = .next (s.after
      (((s.dev.setF (HOME.ERR.TBI_EXP n) 1).raise 866 (n + s.dev.hostOf p * 64)).linkDown p 5)))

/-- R97. -/
def Obligations.HomeOfAnAddress : Prop :=
  ∀ a : Nat, homeOf (a / 64) = (a / 2 ^ 6 % 64 ^^^ a / 2 ^ 12 % 64 ^^^ a / 2 ^ 18 % 64 ^^^ a / 2 ^ 24 % 64) ∧ homeOf (a / 64) < 64

/-- RDS, RDX, UPG, RDU, WRU, WRP, ATOM, HOME_REQUEST_DEQUEUE, SF_WAY_FREE and PREDICTOR_ENTRY_EXPIRE; and what is asked of the
holders of a line that is held (R54, R63, R67). -/
def Obligations.RequestsReachTheirHome : Prop :=
  (∀ (s : State) (m : Msg) (err : BitVec 560), s.dev.fdUp = true →
    let ln := m.addr.toNat
    agDev m.src = s.dev.devId → agDev m.dst = s.dev.devId → isHome (agId m.dst) = true → lnDev ln = s.dev.devId →
    let goes := fun (i : Instr) (op : BitVec 6) (err : BitVec 560) =>
      let m := { m with op := op }
      let d := s.dev.take m
      let older := ∃ u ∈ s.dev.coh.hq, u.addr = m.addr
      s.dev.inTurn m = true → d.gateDrops m = false →
      (s.dev.txn ln = none → ¬older → op = opUpg ∨ d.ownEviction m = false → exec i s = .next (s.after (d.openReq m err))) ∧
      ((s.dev.txn ln).isSome = true ∨ older → exec i s = .next (s.after { d with coh := { d.coh with hq := d.coh.hq ++ [m] } }))
    goes (.rds m err) opRdS err ∧ goes (.rdx m err) opRdX err ∧ goes (.upg m err) opUpg err ∧ goes (.rdu m err) opRdU err ∧
    goes (.wru m) opWrU 0 ∧ goes (.wrp m err) opWrP err ∧ goes (.atom m err) opAtom err) ∧
  (∀ (s : State) (ln : BitVec 46) (err : BitVec 560) (m : Msg), s.dev.fdUp = true → s.dev.txn ln.toNat = none →
    s.dev.coh.hq.find? (fun m => m.addr.toNat == ln.toNat) = some m → m.op = opUpg ∨ s.dev.ownEviction m = false →
    lnDev ln.toNat = s.dev.devId →
    let d : Dev := { s.dev with coh := { s.dev.coh with hq := s.dev.coh.hq.erase m } }
    exec (.homeRequestDequeue ln err) s = .next (s.after (d.openReq m err)) ∧
    exec (.sfWayFree ln err) s = .next (s.after (d.openReq m err))) ∧
  (∀ (s : State) (m : Msg) (err : BitVec 560) (op : BitVec 6) (i : Instr), s.dev.fdUp = true → agDev m.src = s.dev.devId →
    agDev m.dst = s.dev.devId → isHome (agId m.dst) = true → lnDev m.addr.toNat = s.dev.devId →
    (op, i) ∈ [(opRdS, .rds m err), (opRdU, .rdu m err), (opRdX, .rdx m err), (opUpg, .upg m err), (opWrU, .wru m), (opWrP, .wrp m err)] →
    let ln := m.addr.toNat
    let m := { m with op := op }
    let reads := op = opRdS ∨ op = opRdU
    let own := op = opRdX ∨ op = opUpg
    let d := if own then (s.dev.take m).train m else s.dev.take m
    let e := d.sfe ln
    s.dev.inTurn m = true → d.gateDrops m = false → s.dev.txn ln = none → (∀ u ∈ s.dev.coh.hq, u.addr ≠ m.addr) →
    op = opUpg ∨ d.ownEviction m = false → d.turnsAway m = false → d.coh.waits = [] → d.needsMsc ln = false →
    d.sfRoom ln = (true, d) → e.own ≤ 88 → d.allPeers ln e = [] → (reads → e.excl = true) →
    let sori := if reads then (if 1 ≤ e.own ∧ e.own ≤ 32 then [e.own - 1] else []) else e.allSori
    let grps := if reads then (if 65 ≤ e.own then [e.own - 65] else []) else e.allGroups
    let hosts := ((grps.map fun g => d.groupHosts (homeOf ln) g).flatten).eraseDups.filter fun h =>
      reads ∨ d.holderOf m.src ≠ .host h
    let req := if own then m.src else d.homeAg ln
    let snp := fun a => ({ op := if reads then opSnpS else opSnpI, src := d.homeAg ln, dst := d.ag a, tag := m.tag, addr := m.addr, req := req } : Msg)
    sori ≠ [] ∨ hosts ≠ [] →
    ∃ u t, exec i s = .next u ∧ u.dev.txn ln = some t ∧ t.kind = .req m ∧ t.sori = sori ∧ t.hosts = hosts ∧ t.peers = [] ∧
      u.dev.coh.net = d.coh.net ++ (sori.map fun k => snp (0x240 + k)) ++ ((hosts.filterMap d.portOfHost).map fun p => snp (0x280 + p)) ∧
      u.dev.coh.sf = d.coh.sf) ∧
  ∀ (s : State) (n : Fin 64) (k : Fin 4096), ∃ u, exec (.predictorEntryExpire n k) s = .next u ∧
    (Tbl.get PredE.none u.dev.coh.pred (n * 4096 + k)).valid = false ∧
    (Tbl.get PredE.none u.dev.coh.pred (n * 4096 + k)).ctr = (Tbl.get PredE.none s.dev.coh.pred (n * 4096 + k)).ctr

/-- What a home does with a line that has no entry (R53, R54, R74). That a DataE is a grant to the predictor is the model's reading
(log entry 37), and which host of a group a grant names its own record (log entry 142). -/
def Obligations.UnheldLinesServed : Prop :=
  ∀ (s : State) (m : Msg) (err : BitVec 560) (op : BitVec 6), s.dev.fdUp = true → agDev m.src = s.dev.devId → agDev m.dst = s.dev.devId →
    isHome (agId m.dst) = true → lnDev m.addr.toNat = s.dev.devId →
    let ln := m.addr.toNat
    let m := { m with op := op }
    let d := s.dev.take m
    s.dev.inTurn m = true → d.gateDrops m = false → (∀ u ∈ s.dev.coh.hq, u.addr ≠ m.addr) →
    d.mscAgain (Txn.new ln (.req m) err) = false →
    s.dev.txn ln = none → d.ownEviction m = false → d.turnsAway m = false → d.sfe ln = SfE.empty → d.coh.waits = [] →
    d.present ln = true → d.needsMsc ln = false → d.lostExp ln = false →
    (op = opRdS → d.sfRoom ln = (true, d) →
      let (r, e) := d.homeRead ln err
      exec (.rds m err) s = .next (s.after
        (((e.granted m).setOwner ln (d.holderOf m.src)).answer m { op := opDataE, data := r.data, psn := r.psn }))) ∧
    (op = opRdX → (d.train m).sfRoom ln = (true, d.train m) →
      let (r, e) := (d.train m).homeRead ln err
      exec (.rdx m err) s = .next (s.after
        (((e.granted m).setOwner ln (d.holderOf m.src)).answer m { op := opDataM, data := r.data, psn := r.psn }))) ∧
    (op = opRdU →
      let (r, e) := d.homeRead ln err
      exec (.rdu m err) s = .next (s.after ((e.setSf ln SfE.empty).answer m { op := opDataU, data := r.data, psn := r.psn }))) ∧
    (m.new = 0 →
      (op = opWrU → exec (.wru m) s = .next (s.after
        (((d.homeWrite ln m.data (BitVec.allOnes 64)).setSf ln SfE.empty).answer m { op := opCmp }))) ∧
      (op = opWrP → exec (.wrp m err) s = .next (s.after
        ((((d.homeRead ln err).2.homeWrite ln m.data m.mask).setSf ln SfE.empty).answer m { op := opCmp }))))

/-- GNTM, CMP_MESSAGE, CMPP, WBACK, DATAS to DATAA, WBM, WBO, EVICTC and COH_RESERVED_CODE. -/
def Obligations.ResponsesArrive : Prop :=
  (∀ (s : State) (m : Msg), s.dev.fdUp = true → agDev m.src = s.dev.devId → agDev m.dst = s.dev.devId →
    let ln := m.addr.toNat
    let a := agId m.dst
    let is := fun (i : Instr) (op : BitVec 6) (k : Dev → Dev) =>
      s.dev.inTurn { m with op := op } = true → exec i s = .next (s.after (k (s.dev.take { m with op := op })))
    let x := s.dev.l1 a ln
    let fill := fun (st : L1St) (d : Dev) =>
      let e := d.setL1 a ln { st := some st, data := m.data, psn := m.psn, log := 0, pref := false }
      ({ e with sor := { e.sor with rdu := e.sor.rdu.map fun u => if u.p == a && u.ln == ln then { u with shared := false } else u } } : Dev).wake a
    (isFrond a = true →
      (x.st = some .is ∨ x.st = some .im ∨ x.st = some .sm →
        is (.datas m) opDataS (fill .s) ∧ is (.datae m) opDataE (fill .e) ∧
        is (.datam m) opDataM (fill (if m.psn then .e else .m))) ∧
      (x.st = some .sm → is (.gntm m) opGntM fun d => (d.setL1 a ln { x with st := some (if x.psn then .e else .m), pref := false }).wake a) ∧
      (x.st = some .mi ∨ x.st = some .oi ∨ x.st = some .ei → is (.wback m) opWbAck fun d => (d.setL1 a ln L1Line.none).wake a) ∧
      (s.dev.postOf { m with op := opCmpP } = none → is (.cmpp m) opCmpP fun d => d.failFrond { m with op := opCmpP }) ∧
      is (.datau m) opDataU (fun d => d.dataUFrond { m with op := opDataU }) ∧
      (s.dev.postOf { m with op := opDataA } = none → is (.dataa m) opDataA fun d => d.dataAFrond { m with op := opDataA }) ∧
      ∀ e, s.dev.postOf { m with op := opDataA } = some e → is (.dataa m) opDataA fun d => d.postDone e) ∧
    (∀ r : PortReq, isPort a = true → s.dev.portReqOf (a - 0x280) m.tag.toNat = some r → r.kind = 1 →
      is (.cmpMessage m) opCmp fun d => (d.dropReq r).emit (.cxlCmp (a - 0x280) r.ld r.tag)) ∧
    (isHome a = true → lnDev ln = s.dev.devId → s.dev.txn ln = none →
      let ends := fun (m : Msg) (d : Dev) => (d.unrecord m).answer m { op := opWbAck }
      (is (.wbm m) opWbM fun d => ends { m with op := opWbM } (d.homeWrite ln m.data (BitVec.allOnes 64))) ∧
      (is (.wbo m) opWbO fun d => ends { m with op := opWbO }
        (if d.inMsc ln then d.setMsc ln { d.msc ln with dirty := true } else d)) ∧
      is (.evictc m) opEvictC fun d => ends { m with op := opEvictC } d)) ∧
  ∀ (s : State) (m : Msg), s.dev.fdUp = true → m.op ∉ msgCodes → isHome (agId m.dst) = true →
    exec (.cohReservedCode m) s = .next (s.after
      (((s.dev.take m).setF (HOME.ERR.BADOP (agId m.dst - 0x200)) 1).raiseFpa 864 m.src.toNat 2 m.addr.toNat))

/-- SNPS, SNPI, SNPC, RSPI, RSPS, RSPO, RSPD, RSPIWB and SNPCNT. -/
def Obligations.SnoopsAnswered : Prop :=
  (∀ (s : State) (m : Msg) (op : BitVec 6) (i : Instr), s.dev.fdUp = true → agDev m.src = s.dev.devId → agDev m.dst = s.dev.devId →
    (op = opSnpS ∧ i = .snps m) ∨ (op = opSnpI ∧ i = .snpi m) ∨ (op = opSnpC ∧ i = .snpc m) →
    let ln := m.addr.toNat
    let a := agId m.dst
    let m := { m with op := op }
    let d := s.dev.take m
    s.dev.inTurn m = true →
    (isUnit a = true →
      let ps := (d.sorusHolders (a - 0x240) ln).filter fun p => d.ag p != m.req
      exec i s = .next (s.after ((ps.foldl (fun d p => d.send { m with dst := d.ag p }) d).send
        { op := opSnpCnt, src := m.dst, dst := m.src, tag := m.tag, addr := m.addr, cnt := BitVec.ofNat 4 ps.length }))) ∧
    (isFrond a = true →
      let x := d.l1 a ln
      let tells := fun (r : Msg) (y : L1Line) => exec i s = .next (s.after
        (((d.setL1 a ln y).frEvent a 7 1).send { r with src := m.dst, dst := m.src, tag := m.tag, addr := m.addr }))
      (x.st = some .m →
        (op = opSnpS → tells { op := opRspD, data := x.data, new := 2 } { x with st := some .o }) ∧
        (op = opSnpI → tells { op := opRspD, data := x.data } L1Line.none) ∧
        (op = opSnpC → tells { op := opRspD, data := x.data, new := 1 } { x with st := some .s })) ∧
      (x.st = some .o →
        (op = opSnpS → tells { op := opRspO } x) ∧ (op = opSnpI → tells { op := opRspI } L1Line.none) ∧
        (op = opSnpC → tells { op := opRspS } { x with st := some .s })) ∧
      (x.st = some .e ∨ x.st = some .s →
        (op = opSnpI → tells { op := opRspI } L1Line.none) ∧ (op ≠ opSnpI → tells { op := opRspS } { x with st := some .s })) ∧
      (x.st = some .sm →
        (op = opSnpI → tells { op := opRspI } { x with st := some .im }) ∧ (op ≠ opSnpI → tells { op := opRspS } x)) ∧
      (x.st = some .mi → tells { op := opRspIWb, wb := 1 } x) ∧ (x.st = some .oi → tells { op := opRspIWb, wb := 2 } x) ∧
      (x.st = some .ei → tells { op := opRspIWb, wb := 3 } x) ∧
      (x.st = none ∨ x.st = some .is ∨ x.st = some .im → tells { op := opRspI } x))) ∧
  ∀ (s : State) (m : Msg) (t : Txn), s.dev.fdUp = true → agDev m.src = s.dev.devId → agDev m.dst = s.dev.devId →
    isHome (agId m.dst) = true → lnDev m.addr.toNat = s.dev.devId → s.dev.txn m.addr.toNat = some t →
    let ln := m.addr.toNat
    let c := s.dev.countAnswer t m
    let goes := fun (i : Instr) (op : BitVec 6) (t : Txn) => s.dev.inTurn { m with op := op } = true → exec i s = .next (s.after (((s.dev.take { m with op := op }).setTxn t).advance ln))
    goes (.snpcnt m) opSnpCnt { t with sori := t.sori.filter (· != agId m.src - 0x240), owed := t.owed + m.cnt.toNat } ∧
    (t.ownNew ≠ 7 → goes (.rsps m) opRspS { c with ownNew := max t.ownNew 1 } ∧ goes (.rspo m) opRspO { c with ownNew := 2 } ∧
      (s.dev.inTurn { m with op := opRspD } = true → exec (.rspd m) s = .next (s.after
        ((((s.dev.take { m with op := opRspD }).homeWrite ln m.data (BitVec.allOnes 64)).setTxn
          { c with ownNew := m.new.toNat, got := true }).advance ln)))) ∧
    goes (.rspi m) opRspI { c with got := t.got || m.new == 3 } ∧
    (m.src.toNat ∉ t.wbIn → goes (.rspiwb m) opRspIWb { c with wbs := m.src.toNat :: t.wbs }) ∧
    (m.src.toNat ∈ t.wbIn → goes (.rspiwb m) opRspIWb { c with wbIn := t.wbIn.erase m.src.toNat })

/-! ## Slices, binding and the memory pool (R25–R52, R85–R122) -/

/-- FBIND, FBIND_KEEP, FUNBIND and SLSET (R38–R40). That SLSET ROOT keeps its strand waiting, that HOSTOPEN of a slice open on the
host is BAD_ARG, and that unused fields are held to be 0 are the model's choices (log entries 29, 129 and 145). -/
def Obligations.BindingInstructionsComplete : Prop :=
  ∀ (s : State) (t : StrandIx) (f : FX), s.dev.issues t = true → (s.dev.str t).priv = true → f.rc = 0 →
    let d := s.dev
    let a := ((d.str t).g f.ra.toNat).toNat
    let n := ((d.str t).g f.rb.toNat).toNat
    let gives := fun (i : Instr) (st : Nat) (e : Dev) => exec i s = .next (s.after (e.give t f.rd.toNat (w64 st)))
    n < 4096 →
    (a < 2 ^ 52 → a % 2 ^ 30 = 0 → a / 2 ^ 49 = d.devId → d.fb BIND.EXTTBL.EN = true → d.sliceState n ≠ 0 →
      let x := a / 2 ^ 30 % 2 ^ 19
      let w := d.extEntry x
      (extState w = 0 →
        gives (.fbind t f) bSTARTED ((d.setExt x (extWord n 2 (extLast w))).recallExt x) ∧
        (extLast w = n → gives (.fbindKeep t f) bOK (d.setExt x (extWord n 1 (extLast w)))) ∧
        (extLast w ≠ n → gives (.fbindKeep t f) bSTARTED ((d.setExt x (extWord n 2 (extLast w))).recallExt x))) ∧
      (extState w = 1 →
        gives (.fbind t f) bNOT_FREE d ∧
        (extOwner w ≠ n → gives (.funbind t f) bNOT_OWNER d) ∧
        (extOwner w = n → gives (.funbind t f) bSTARTED (((d.setExt x (extWord n 3 (extLast w))).dropTlb
          fun _ e => getBits e 30 22 == d.devId * 2 ^ 19 + x).recallExt x))) ∧
      (extState w = 2 ∨ extState w = 3 → gives (.fbind t f) bBUSY d ∧ gives (.funbind t f) bBUSY d)) ∧
    (f.ra = 0 →
      (d.sliceState n = 0 → ∃ e, gives (.slsetCreate t f) bOK e ∧ e.sliceState n = 3 ∧ (∀ i, i < 16 → Tbl.get 0 e.ctr.slice (n * 16 + i) = 0) ∧
        ∀ q, q < 8 → e.fb (SLICE.SQA.EN n q) = false) ∧
      (d.sliceState n = 3 → d.extents n = 0 → d.bind.frA.any (·.2 == n + 1) = false → d.bind.frS.any (·.2 == n + 1) = false →
        gives (.slsetDestroy t f) bOK (d.setF (SLICE.STATE.STATE n) 0))) ∧
    (d.sliceState n ≠ 0 →
      (a < 2 ^ 52 → a % 2 ^ 17 = a % 2 → exec (.slsetRoot t f) s = .next (s.after
        ((d.setReg (SLICE.XLAT_ROOT.V n) (w64 a)).waitOn t (.root f.rd.toNat n)))) ∧
      (a < 2 ^ 15 → a / 64 ≠ 0 → d.fb (BIND.HGEN.PEND (a % 64)) = false →
        (framesOf d.bind.frS (a % 64) n ≠ [] → gives (.slsetHostopen t f) bBAD_ARG d) ∧
        (framesOf d.bind.frS (a % 64) n = [] → Tbl.get 0 d.bind.frS (frameKey (a % 64) (a / 64)) = 0 →
        gives (.slsetHostopen t f) bOK
          { d with bind := { d.bind with frS := Tbl.put 0 d.bind.frS (frameKey (a % 64) (a / 64)) (n + 1) } })) ∧
      (a < 64 → d.fb (BIND.HGEN.PEND a) = false → ∃ e, gives (.slsetHostclose t f) bOK e ∧
        ∀ k, framesOf d.bind.frS a n = [k] → Tbl.get 0 e.bind.frS (frameKey a k) = 0 ∧
          ∀ j, j < 16 → Tbl.get Dec.none e.bind.decS (decKey a k j) = Dec.none))

/-- SLQUIESCE, SLRESUME, SLRESET, SLICE_QUIESCED, QUIESCE_TIMEOUT, ZEROING_COMPLETE and UNBIND_COMPLETE. The waiting of SLQUIESCE's
strand, the hold of unused fields to 0, and the two steps in which an extent on an expander is zeroed are the model's choices (log
entries 29, 138 and 145). -/
def Obligations.SliceLifeCycleCompletes : Prop :=
  (∀ (s : State) (t : StrandIx) (f : FX), s.dev.issues t = true → (s.dev.str t).priv = true → f.rc = 0 →
    let d := s.dev
    let a := ((d.str t).g f.ra.toNat).toNat
    let n := ((d.str t).g f.rb.toNat).toNat
    let gives := fun (i : Instr) (st : Nat) (e : Dev) => exec i s = .next (s.after (e.give t f.rd.toNat (w64 st)))
    n < 4096 →
    (a < 2 ^ 16 →
      let lim := d.now + (if a = 0 then d.f (SLICE.CTL.QTMO n) else a) * 10000
      (d.sliceState n = 1 →
        exec (.slquiesce t f) s = .next (s.after ((d.setF (SLICE.STATE.STATE n) 2).waitOn t (.slq f.rd.toNat n lim)))) ∧
      (d.sliceState n = 1 → ∃ u e, exec (.slquiesceAbort t f) s = .next u ∧ e = (d.setF (SLICE.STATE.STATE n) 2).abortSlice n ∧
        ∃ lim, u = s.after (e.waitOn t (.slq f.rd.toNat n lim))) ∧
      (d.sliceState n = 3 → gives (.slquiesce t f) bOK d ∧ gives (.slquiesceAbort t f) bOK d)) ∧
    (f.ra = 0 →
      (d.sliceState n = 1 → gives (.slresume t f) bOK d ∧ gives (.slreset t f) bNOT_QUIESCED d) ∧
      (d.sliceState n = 3 → gives (.slresume t f) bOK
          (((d.setF (SLICE.STATE.STATE n) 1).setF (SLICE.STATE.AUTOQ n) 0).slqReturn n bRESUMED) ∧
        gives (.slreset t f) bOK ((((d.resetQueues n).resetWindows n).resetChannels n).resetEvents n |>.qmReset n)))) ∧
  (∀ (s : State) (n : Fin 4096), s.dev.sliceState n = 2 → s.dev.sliceIdle n = true →
    exec (.sliceQuiesced n) s = .next (s.after (((s.dev.setF (SLICE.STATE.STATE n) 3).raise 967 n).slqReturn n bOK))) ∧
  (∀ (s : State) (t : StrandIx) (rd n lim : Nat), (s.dev.str t).wait = .slq rd n lim → (s.dev.str t).stop = 0 →
    exec (.quiesceTimeout t) s = .next (s.after (s.dev.give t rd (w64 bTIMEOUT)))) ∧
  ∀ (s : State) (x : Fin 524288), s.dev.fdUp = true → s.dev.fb BIND.EXTTBL.EN = true → s.dev.extQuiet x = true →
    let w := s.dev.extEntry x
    (extState w = 2 →
      (s.dev.zeroDue x = true → exec (.zeroingComplete x) s = .next (s.after (s.dev.zeroSend x))) ∧
      (s.dev.zeroDue x = false → s.dev.zeroAwaited x = false →
        let d : Dev := { s.dev with bind := { s.dev.bind with zsent := s.dev.bind.zsent.filter (· != x.val) } }
        exec (.zeroingComplete x) s = .next (s.after
          (((d.zeroFill x).setExt x (extWord (extOwner w) 1 (extLast w))).raise 966 x)))) ∧
    (extState w = 3 → exec (.unbindComplete x) s = .next (s.after
      ((s.dev.setExt x (extWord 0 0 (extOwner w))).raise 966 (x + 2 ^ 19))))

/-- What ZEROING does to memory (R38), and the binding unit's own write (R29). -/
def Obligations.ZeroFillIsExact : Prop :=
  (∀ (d : Dev) (x a : Nat), x < 2 ^ 19 → mirState (d.mirEntry x) = 0 →
    let u := d.zeroFill x
    (a / 2 ^ 30 = d.devId * 2 ^ 19 + x → u.byte a = 0 ∧ (u.lmeta (a / 64)).psn = false) ∧
    (a / 2 ^ 30 ≠ d.devId * 2 ^ 19 + x → u.byte a = d.byte a) ∧
    (Tbl.wf 0 d.pool.mem = true → Tbl.wf 0 u.pool.mem = true)) ∧
  ∀ (d : Dev) (x o st l : Nat), o < 4096 → st < 8 → l < 4096 →
    let u := d.setExt x (extWord o st l)
    extOwner (u.extEntry x) = o ∧ extState (u.extEntry x) = st ∧ extLast (u.extEntry x) = l ∧
    (∀ a, a < d.extAddr x ∨ d.extAddr x + 4 ≤ a → u.byte a = d.byte a) ∧ (Tbl.wf 0 d.pool.mem = true → Tbl.wf 0 u.pool.mem = true)

/-- XINV_GO, XINV_DONE, HGEN_REQ, GEN_SWAP, GEN_DRAINED, EXTTBL_WRITE, DLOG_BUMP and DLOG_EPOCH_ADOPTED. Frame 0's being held back by
no generation change is the model's reading (log entry 30). -/
def Obligations.BindingUnitCompletes : Prop :=
  (∀ s : State, s.dev.fdUp = true →
    (∀ v : Word, s.dev.safe = false → s.dev.fb BIND.XINV.BUSY = false → v.getLsbD 62 = true →
      ∃ u, exec (.xinvGo v) s = .next u ∧ u.dev.fb BIND.XINV.BUSY = true ∧ u.dev.f BIND.XINV.SLICE = getBits v 27 12 ∧
        u.dev.bind.xinv = getBits v 0 40 ∧ u.dev.bind.tlb = s.dev.bind.tlb) ∧
    (s.dev.fb BIND.XINV.BUSY = true → (∀ e ∈ s.dev.sor.strand, ∀ rd n, e.2.wait ≠ .root rd n) →
      let n := bitsN s.dev.bind.xinv 27 12
      let ls := s.dev.xinvLeaves n (if bitN s.dev.bind.xinv 39 then none else some (bitsN s.dev.bind.xinv 0 27))
      let e := ((s.dev.dropTlb fun k _ => ls.any (·.1 == k)).setF BIND.XINV.BUSY 0).retryAll n
      (s.dev.pagesBusy n (ls.map fun e => getBits e.2 21 31) = false → e.sor.strand = s.dev.sor.strand →
        exec .xinvDone s = .next (s.after e)) ∧
      (s.dev.pagesBusy n (ls.map fun e => getBits e.2 21 31) = true → exec .xinvDone s = .next (s.after s.dev))) ∧
    (∀ (h : Fin 64) (p : Nat), s.dev.safe = false → s.dev.fb (BIND.HGEN.PEND h) = false → Dev.overlaps (s.dev.staged h) = false →
      s.dev.bind.decS.any (fun e => e.1 / 16 / 512 == h.val && decide (e.2.sa + e.2.size > 2 ^ 27)) = false → s.dev.portOfHost h = some p →
      s.dev.f (PORT.CFG.MODE p) = 2 →
      exec (.hgenReq h) s = .next (s.after ((s.dev.setF (BIND.HGEN.PEND h) 1).setF (BIND.HGEN.DRAINED h) 0))) ∧
    (∀ h : Fin 64, s.dev.fb (BIND.HGEN.PEND h) = true → Tbl.get 0 s.dev.bind.swapped h = 0 →
      s.dev.bind.held.all (fun r => s.dev.hostOf (heldPort r) != h.val) = true → s.dev.host.walks = [] →
      exec (.genSwap h) s = .next (s.after
        ({ s.dev with bind := { s.dev.bind with held := s.dev.bind.held.filter fun r => s.dev.hostOf (heldPort r) != h.val } }.genSwap h))) ∧
    (∀ v : Word, s.dev.safe = false → s.dev.fb BIND.EXTTBL.EN = true → ∃ u, exec (.exttblWrite v) s = .next u ∧
      u.dev.f BIND.EXTTBL.BASE = s.dev.f BIND.EXTTBL.BASE ∧ u.dev.f BIND.EXTTBL.EN = getBits v 0 1 ∧ u.dev.pool = s.dev.pool) ∧
    (∀ v : Word, s.dev.safe = false → s.dev.fb BIND.EXTTBL.EN = false → v.getLsbD 0 = false → ∃ u, exec (.exttblWrite v) s = .next u ∧
      u.dev.f BIND.EXTTBL.BASE = getBits v 21 31 ∧ u.dev.f BIND.EXTTBL.EN = 0) ∧
    ∀ n : Fin 4096, s.dev.safe = false → s.dev.fb (SLICE.DLOG_CTL.BUSY n) = false → ∃ u, exec (.dlogBump n) s = .next u ∧
      u.dev.f (SLICE.DLOG_CTL.EPOCH n) = (s.dev.f (SLICE.DLOG_CTL.EPOCH n) + 1) % 256 ∧ u.dev.f (SLICE.DLOG_CTL.MISS n) = 0 ∧
      u.dev.fb (SLICE.DLOG_CTL.BUSY n) = true) ∧
  (∀ (s : State) (h : Fin 64), s.dev.genDrained h = true → ∃ u, exec (.genDrained h) s = .next u ∧
    u.dev.fb (BIND.HGEN.PEND h) = false ∧ u.dev.fb (BIND.HGEN.DRAINED h) = true ∧ Tbl.get 0 u.dev.bind.swapped h = 0) ∧
  (∀ (s : State) (n : Fin 4096), ∃ u, exec (.dlogEpochAdopted n) s = .next u ∧ u.dev.fb (SLICE.DLOG_CTL.BUSY n) = false ∧
    u.dev.f (SLICE.DLOG_CTL.EPOCH n) = s.dev.f (SLICE.DLOG_CTL.EPOCH n)) ∧
  ∀ (d : Dev) (h f n : Nat), h < 64 → f < 512 → Tbl.wf 0 d.bind.frA = true → Tbl.wf 0 d.bind.frS = true →
    Tbl.get 0 (hostSwap 0 d.bind.frA d.bind.frS h 512) (n * 512 + f) =
      Tbl.get 0 (if n = h then d.bind.frS else d.bind.frA) (n * 512 + f)

/-- HOME and HBM commands (R91, R92, R101–R103, R109). That an entry in the recall buffer still names its group, the place of the
memory-side cache's lines in HBM, a retirement's event and its named lines, and safelight on the loss of a stack with the only good
copies are the model's choices (log entries 46, 50, 130, 139 and 140). -/
def Obligations.HomesAndHbmComplete : Prop :=
  (∀ (s : State) (n : Fin 64), s.dev.fdUp = true →
    (∀ v : Word, s.dev.safe = false → s.dev.fb (HOME.RECALL.BUSY n) = false → v.getLsbD 62 = true → getBits v 5 2 ≠ 3 →
      exec (.homeRecallGo n v) s = .next (s.after
        (let d := ((s.dev.setF (HOME.RECALL.INDEX n) (getBits v 0 5)).setF (HOME.RECALL.KIND n) (getBits v 5 2)).setF (HOME.RECALL.BUSY n) 1
        ({ d with coh := { d.coh with recTgt := Tbl.put 0 d.coh.recTgt n (1 + getBits v 5 2 * 32 + getBits v 0 5) } } : Dev).recallSome n))) ∧
    (∀ v : Word, s.dev.fb (HOME.RECALL.BUSY n) = true → ∃ u, exec (.homeRecallGo n v) s = .next u ∧ u.dev.coh = s.dev.coh) ∧
    (s.dev.fb (HOME.RECALL.BUSY n) = true → s.dev.recallLeft n = [] → s.dev.recalls n = 0 →
      exec (.homeRecallDone n) s = .next (s.after (s.dev.setF (HOME.RECALL.BUSY n) 0))) ∧
    (∀ (g : Fin 24) (v : Word), s.dev.safe = false →
      (s.dev.groupNamed n g = false → ∃ u, exec (.hgmapWrite n g v) s = .next u ∧ u.dev.f (HOME.HGMAP.HOSTS n g) = v.toNat) ∧
      (s.dev.groupNamed n g = true → s.dev.f (HOME.HGMAP.HOSTS n g) &&& v.toNat ≠ s.dev.f (HOME.HGMAP.HOSTS n g) →
        exec (.hgmapWrite n g v) s = .next (s.after (s.dev.setF (HOME.ERR.HGMAP n) 1)))) ∧
    (s.dev.safe = false → ∃ u, exec (.predClr n) s = .next u ∧ (∀ k, k < 4096 → Tbl.get PredE.none u.dev.coh.pred (n * 4096 + k) = PredE.none) ∧
      ∀ k, k / 4096 ≠ n.val → Tbl.get PredE.none u.dev.coh.pred k = Tbl.get PredE.none s.dev.coh.pred k)) ∧
  (∀ (s : State) (k : Fin 4) (p : Fin 32), s.dev.fdUp = true →
    (s.dev.pcState k p = 0 → (s.dev.f (HBM.STAT.PCFAIL k)).testBit p = false → s.dev.pcState k (pairPc p) ≠ 1 →
      ∃ u, exec (.hbmRecal k p) s = .next u ∧ u.dev.pcState k p = 1) ∧
    (s.dev.safe = false → exec (.hbmCalNow k) s = .next (s.after ((List.range 32).foldl (fun d p => d.pcRecal k p) s.dev))) ∧
    (∀ ns, s.dev.pcState k p = 1 → ∃ g : Dev → Dev, exec (.hbmRecalDone k p ns) s = .next (s.after (s.dev.pcServe g)) ∧
      (g s.dev).pcState k p = 0 ∧ (s.dev.pcState k (pairPc p) = 3 → (g s.dev).pcState k (pairPc p) = 1) ∧
      (g s.dev).f (HBM.CAL.PAUSEMAX k) = max (s.dev.f (HBM.CAL.PAUSEMAX k)) (min 65535 ns)) ∧
    ((s.dev.f (HBM.STAT.PCFAIL k)).testBit p = false → ∃ u, exec (.hbmInterfaceFault k p) s = .next u ∧ u.dev.pcState k p = 2) ∧
    (s.dev.pcState k p = 2 →
      (∃ g : Dev → Dev, exec (.hbmRetrainDone k p true) s = .next (s.after (s.dev.pcServe g)) ∧ (g s.dev).pcState k p = 0 ∧
        (g s.dev).f (HBM.STAT.PCFAIL k) = s.dev.f (HBM.STAT.PCFAIL k)) ∧
      ∃ (g : Dev → Dev) (e : Dev), exec (.hbmRetrainDone k p false) s = .next (s.after (s.dev.pcServe g)) ∧
        g s.dev = (if (e.mscLoss k p).healthyOn k = true then (e.mscLoss k p).enterSafe 2 (0x40 + k) else e.mscLoss k p) ∧
        e.pcState k p = 0 ∧ (e.f (HBM.STAT.PCFAIL k)).testBit p = true) ∧
    (∀ page : BitVec 24, s.dev.fb (HBM.RETCFG.BUSY k) = false → s.dev.f (HBM.STAT.RET_USED k) < 1024 →
      (s.dev.fb (HBM.RETCFG.AUTO k) = true →
        s.dev.f (HBM.RETCFG.THRESH k) ≤ (Tbl.get (0, 0) s.dev.pool.cand (k * 2 ^ 24 + page.toNat)).1 →
        ∃ u, exec (.retireAuto k page) s = .next u ∧ u.dev.fb (HBM.RETCFG.BUSY k) = true ∧ Tbl.get 0 u.dev.pool.retire k = page.toNat + 1) ∧
      ∀ v : Word, s.dev.safe = false → v.getLsbD 62 = true → getBits v 9 24 = page.toNat →
        ∃ u, exec (.retcfgGo k v) s = .next u ∧ u.dev.fb (HBM.RETCFG.BUSY k) = true ∧ Tbl.get 0 u.dev.pool.retire k = page.toNat + 1) ∧
    ∀ (page i : Nat) (bad : BitVec 64), Tbl.get 0 s.dev.pool.retire k = page + 1 →
      let d : Dev := { s.dev with pool := { s.dev.pool with
        retire := Tbl.put 0 s.dev.pool.retire k 0, cand := Tbl.put (0, 0) s.dev.pool.cand (k * 2 ^ 24 + page) (0, 0) } }
      let d := (d.retireCopy k page bad).setF (HBM.RETCFG.BUSY k) 0
      i < 1024 → d.fb (HBM.RETMAP.V k i) = false → (∀ j, j < i → d.fb (HBM.RETMAP.V k j) = true) →
      exec (.retireDone ⟨k, bad⟩) s = .next (s.after
        ((((d.setF (HBM.RETMAP.V k i) 1).setF (HBM.RETMAP.PAGE k i) page).updF (HBM.STAT.RET_USED k) (· + 1)).raise (retireSrc k page) page))) ∧
  ∀ (s : State) (ln : BitVec 46) (e1 e2 : BitVec 560) (r : LRead) (e : Dev), s.dev.fdUp = true → s.dev.txn ln.toNat = none →
    ln.toNat % 2 ^ 43 < 2 ^ 42 → s.dev.lnKind ln.toNat = .hbm → s.dev.remote ln.toNat = false → s.dev.pcPaused ln.toNat = false →
    s.dev.partnerOf ln.toNat = none → s.dev.readOne ln.toNat e1 = (some r, e) → exec (.scrubRead ln e1 e2) s = .next (s.after e)

/-- Expander, mirror and resilver commands (R94, R110–R122). The order of PAIR's checks, the steps of a resilver's walk, UNPAIR's
choice of the extent that becomes FREE, and what PAIR and RESIL do where no text says are the model's choices (log entries 47, 48,
49, 132 and 145). -/
def Obligations.PoolCommandsComplete : Prop :=
  ∀ s : State, s.dev.fdUp = true → s.dev.safe = false →
    let d := s.dev
    let is := fun (i : Instr) (e : Dev) => exec i s = .next (s.after e)
    (∀ e : Fin 64,
      (d.f (HBM.EXP.STATE e) = 0 → 0 < d.f (HBM.EXP.CAP_GIB e) → d.f (HBM.EXP.CAP_GIB e) ≤ 2048 → d.f HBM.PART.M ≠ 0 →
        ((List.range 64).map fun i => if i ≠ e.val ∧ d.f (HBM.EXP.STATE i) ≠ 0 then d.f (HBM.EXP.CAP_GIB i) else 0).sum +
          d.f (HBM.EXP.CAP_GIB e) ≤ 32768 →
        d.f (HBM.EXP.PORT e) < 96 → d.f (PORT.CFG.MODE (d.f (HBM.EXP.PORT e))) = 3 → d.windowPairs e = [] →
        ∃ u, exec (.admitExtent e) s = .next u ∧ u.dev.f (HBM.EXP.STATE e) = 1 ∧ u.dev.f (HBM.EXP.ERR e) = 0) ∧
      (d.windowPairs e = [] → d.extTable.all (fun x => decide (extState x.2 < 1 ∨ 3 < extState x.2)) = true →
        ∃ u, exec (.release e) s = .next u ∧ u.dev.f (HBM.EXP.STATE e) = 0 ∧ u.dev.f (HBM.EXP.ERR e) = 0) ∧
      (d.pool.exps.any (fun r => r.e == e.val && !r.hedged) = true → is (.expanderNoResponse e) (d.declareDead e 1)) ∧
      (∀ (ep : BitVec 8) (ln : BitVec 46) (x : Line) (psn wr : Bool),
        (ep.toNat ≠ d.f (HBM.EXP.EPOCH e) → ∃ u, exec (.expanderResponse e ep ln x psn wr) s = .next u ∧
          u.dev.f (HBM.EXP.STALE e) = min (d.f (HBM.EXP.STALE e) + 1) (2 ^ (HBM.EXP.STALE e).w - 1) ∧ u.dev.pool.exps = d.pool.exps ∧
          u.dev.pool.mem = d.pool.mem) ∧
        ∀ r, ep.toNat = d.f (HBM.EXP.EPOCH e) → d.pool.exps.find? (fun r => r.e == e.val && r.ln == ln.toNat && r.wr == true) = some r →
          r.stamp = none →
          is (.expanderResponse e ep ln x psn true) ({ d with pool := { d.pool with exps := d.pool.exps.erase r } }.unpin r.home e))) ∧
    (∀ (ln : BitVec 46) (r : ExpReq) (t : Txn) (q : Nat),
      d.pool.exps.find? (fun r => r.ln == ln.toNat && !r.wr && !r.hedged) = some r → d.spareExp r.home = some q → d.txn r.home = some t →
      t.both = false → q ≠ ln.toNat → ln.toNat ∈ t.exps → q ∉ t.exps → t.rd = [] →
      ∃ u t', exec (.hedgeTimeout ln) s = .next u ∧ u.dev.txn r.home = some t' ∧
        q ∈ t'.exps ∧ u.dev.pool.exps.any (fun v => v.ln == q && v.home == r.home && !v.wr && v.hedged) = true) ∧
    (d.fb HBM.MIRTBL.EN = true →
      (∀ xp xs : Fin 524288, d.extKind xp = .hbm → d.extKind xs = .hbm → d.extUnit xp ≠ d.extUnit xs →
        mirState (d.mirEntry xp) = 0 → mirState (d.mirEntry xs) = 0 → d.fb BIND.EXTTBL.EN = true → extState (d.extEntry xs) = 0 →
        extState (d.extEntry xp) ≠ 4 →
        ∃ c : Dev, c.fb HBM.MIRTBL.EN = true ∧ c.pool = d.pool ∧ is (.pair xp xs)
          ((((c.setExt xs (extWord 0 4 (extLast (d.extEntry xs)))).setMir xp (mirWord xs 0 4 false)).setMir xs (mirWord xp 1 4 false)).setF
            HBM.MIRCMD.STATUS 0)) ∧
      ∀ xp : Fin 524288, d.extKind xp = .hbm → mirState (d.mirEntry xp) ≠ 0 → mirState (d.mirEntry xp) ≠ 3 →
        (∃ c : Dev, c.pool = d.pool ∧ is (.verifyOn xp) ((c.setPair xp (mirSetVerify true)).setF HBM.MIRCMD.STATUS 0)) ∧
        (∃ c : Dev, c.pool = d.pool ∧ is (.verifyOff xp) ((c.setPair xp (mirSetVerify false)).setF HBM.MIRCMD.STATUS 0)) ∧
        (∃ c : Dev, c.pool = d.pool ∧ is (.unpair xp) ((((c.setMir xp 0).setMir (mirPartner (d.mirEntry xp)) 0).setExt
          (if extState (d.extEntry (mirPartner (d.mirEntry xp))) = 4 then mirPartner (d.mirEntry xp) else xp)
          (extWord 0 0 0xFFF)).setF HBM.MIRCMD.STATUS 0))) ∧
    (∀ v : Word, getBits v 6 2 = 1 → getBits v 0 6 < 4 → v.getLsbD 62 = true →
      ∃ c : Dev, c.pool = d.pool ∧ is (.resilGo v) (c.resStart (64 + getBits v 0 6))) ∧
    (∀ (kind : Bool) (k : Fin 64) (err : BitVec 560), is (.resilLineCopy kind k err) (d.resStep ((if kind then 64 else 0) + k) err)) ∧
    (∀ (g : Nat) (err : BitVec 560), d.rstate g = 2 → d.pool.await = false → d.resHeld g = false →
      let cur := Tbl.get 0 d.pool.resCur g
      let w := d.resStep g err
      (cur < d.resNextAt g →
        Tbl.get 0 w.pool.resCur g = min (d.resNextAt g) ((cur / 2 ^ 20 + 1) * 2 ^ 20) ∧ w.pool.mem = d.pool.mem) ∧
      ∀ dst r e, cur = d.resNextAt g → d.resLine g = some dst → d.lnKind dst = .hbm →
        let src := lineIn dst (mirPartner (d.mirEntry (extOf dst)))
        d.txn src = none → d.pcPaused src = false → d.pcPaused dst = false → (d.msc src).pin = [] → d.readOne src err = (some r, e) →
        e.pool.mem = d.pool.mem ∧ w.line dst = r.data ∧ w.lmeta dst = e.lmeta src ∧ (∀ a, a / 64 ≠ dst → w.byte a = d.byte a) ∧
          Tbl.get 0 w.pool.resCur g = (extOf dst - (d.resWindow g).1) * 2 ^ 24 + dst % 2 ^ 24 + 1) ∧
    (∀ g : Nat, d.rstate g = 2 → d.pool.await = false → d.resLine g = none → d.resNextAt g ≤ Tbl.get 0 d.pool.resCur g →
      d.coh.txns.any (fun t => t.kind == .resil g) = false →
      let c := (d.resExtents g (· == 3)).foldl (fun (d : Dev) x => (d.setPair x (mirSetState 1)).setGone x 0) d
      (∀ k : Fin 4, g = 64 + k → is (.resilDone true (Fin.ofNat 64 k)) (c.resEnd g 3)) ∧
      ∀ k : Fin 64, g = k → is (.resilDone false k) ((c.setF (HBM.EXP.STATE k) 1).resEnd g 3)) ∧
    (∀ v : Word, d.fb HBM.PART.LOCK = false → v.getLsbD 63 = true →
      (getBits v 0 6 + getBits v 6 5 + getBits v 11 5 ≤ 33 → getBits v 6 5 ≤ 24 → getBits v 11 5 ≤ 24 →
        ∃ u, exec (.partLock v) s = .next u ∧ u.dev.fb HBM.PART.LOCK = true ∧ u.dev.f HBM.PART.F = getBits v 0 6 ∧
          u.dev.f HBM.PART.M = getBits v 6 5 ∧ u.dev.f HBM.PART.Q = getBits v 11 5 ∧ u.dev.fb HBM.PART.ERR = false) ∧
      (33 < getBits v 0 6 + getBits v 6 5 + getBits v 11 5 →
        ∃ u, exec (.partLock v) s = .next u ∧ u.dev.fb HBM.PART.LOCK = false ∧ u.dev.fb HBM.PART.ERR = true)) ∧
    ∀ v : Word, 1 ≤ getBits v 1 3 → getBits v 1 3 ≤ 6 → ∃ u, exec (.mirtblWrite v) s = .next u ∧
      u.dev.f HBM.MIRTBL.EN = getBits v 0 1 ∧ u.dev.f HBM.MIRTBL.HEDGE = getBits v 1 3 ∧
      u.dev.f HBM.MIRTBL.BASE = if d.fb HBM.MIRTBL.EN then d.f HBM.MIRTBL.BASE else getBits v 21 31

/-! ## The strand's instructions (R190–R211) -/

/-- The results of the two-source integer instructions (R196). -/
def Obligations.IntegerResults : Prop :=
  ∀ (s : State) (t : StrandIx) (f : FA) (a b : Word), s.dev.issues t = true →
    (s.dev.str t).g f.ra.toNat = a → (s.dev.str t).g f.rb.toNat = b →
    exec (.add t f) s = .next (s.after ((s.dev.updStr t fun x => { x with cf := cfAdd x.cf a b }).give t f.rd.toNat (a + b))) ∧
    exec (.sub t f) s = .next (s.after ((s.dev.updStr t fun x => { x with cf := cfSub x.cf a b }).give t f.rd.toNat (a - b))) ∧
    exec (.and t f) s = .next (s.after (s.dev.give t f.rd.toNat (a &&& b))) ∧
    exec (.or t f) s = .next (s.after (s.dev.give t f.rd.toNat (a ||| b))) ∧
    exec (.xor t f) s = .next (s.after (s.dev.give t f.rd.toNat (a ^^^ b))) ∧
    exec (.andn t f) s = .next (s.after (s.dev.give t f.rd.toNat (a &&& ~~~b))) ∧
    exec (.slt t f) s = .next (s.after (s.dev.give t f.rd.toNat (if a.toInt < b.toInt then 1 else 0))) ∧
    exec (.sltu t f) s = .next (s.after (s.dev.give t f.rd.toNat (if a.toNat < b.toNat then 1 else 0))) ∧
    exec (.min t f) s = .next (s.after (s.dev.give t f.rd.toNat (if a.toInt ≤ b.toInt then a else b))) ∧
    exec (.max t f) s = .next (s.after (s.dev.give t f.rd.toNat (if a.toInt ≤ b.toInt then b else a))) ∧
    exec (.minu t f) s = .next (s.after (s.dev.give t f.rd.toNat (if a.toNat ≤ b.toNat then a else b))) ∧
    exec (.maxu t f) s = .next (s.after (s.dev.give t f.rd.toNat (if a.toNat ≤ b.toNat then b else a))) ∧
    exec (.cmp t f) s = .next (s.after ((s.dev.updStr t fun x => { x with cf := cfSub x.cf a b }).give t f.rd.toNat
      (if a.toInt < b.toInt then BitVec.allOnes 64 else if a = b then 0 else 1))) ∧
    exec (.cmpu t f) s = .next (s.after ((s.dev.updStr t fun x => { x with cf := cfSub x.cf a b }).give t f.rd.toNat
      (if a.toNat < b.toNat then BitVec.allOnes 64 else if a = b then 0 else 1))) ∧
    exec (.selv t f) s = .next (s.after (s.dev.give t f.rd.toNat (if (s.dev.str t).cf.getLsbD 4 then a else b)))

/-- The condition flags of R193. -/
def Obligations.FlagsOfAddAndSub : Prop :=
  ∀ (old : BitVec 5) (a b : Word),
    ((cfAdd old a b).getLsbD 0 = true ↔ a + b = 0) ∧
    (cfAdd old a b).getLsbD 1 = (a + b).getLsbD 63 ∧
    ((cfAdd old a b).getLsbD 2 = true ↔ 2 ^ 64 ≤ a.toNat + b.toNat) ∧
    ((cfAdd old a b).getLsbD 3 = true ↔ a.toInt + b.toInt < -(2 ^ 63) ∨ 2 ^ 63 ≤ a.toInt + b.toInt) ∧
    (cfAdd old a b).getLsbD 4 = old.getLsbD 4 ∧
    ((cfSub old a b).getLsbD 0 = true ↔ a = b) ∧
    (cfSub old a b).getLsbD 1 = (a - b).getLsbD 63 ∧
    ((cfSub old a b).getLsbD 2 = true ↔ b.toNat ≤ a.toNat) ∧
    ((cfSub old a b).getLsbD 3 = true ↔ a.toInt - b.toInt < -(2 ^ 63) ∨ 2 ^ 63 ≤ a.toInt - b.toInt) ∧
    (cfSub old a b).getLsbD 4 = old.getLsbD 4

/-- GETCF, SETCF, RDTIME, RDCYC, RDPMC, RDRAND and RDID (R196). -/
def Obligations.StrandReadsComplete : Prop :=
  ∀ (s : State) (t : StrandIx) (f : FA), s.dev.issues t = true →
    (f.ra = 0 → f.rb = 0 →
      exec (.getcf t f) s = .next (s.after (s.dev.give t f.rd.toNat ((s.dev.str t).cf.setWidth 64))) ∧
      exec (.rdtime t f) s = .next (s.after (s.dev.give t f.rd.toNat (w64 s.dev.now))) ∧
      exec (.rdcyc t f) s = .next (s.after (s.dev.give t f.rd.toNat
        (w64 (Tbl.get 0 s.dev.ctr.clk (t / 32) / 10) - w64 (Tbl.get 0 s.dev.ctr.clkBase (s.dev.physOf t))))) ∧
      exec (.rdrand t f) s =
        .next (s.after ({ s.dev with fresh := s.dev.fresh + 1 }.give t f.rd.toNat (Config.freeBits s.dev.fresh))) ∧
      exec (.rdid t f) s = .next (s.after (s.dev.give t f.rd.toNat (w64 (t + s.dev.devId * 1024))))) ∧
    (f.ra = 0 → f.rb.toNat ≤ 7 →
      exec (.rdpmc t f) s =
        .next (s.after (s.dev.give t f.rd.toNat (Tbl.get 0 s.dev.ctr.pmc (s.dev.physOf t * 8 + f.rb.toNat))))) ∧
    (f.rd = 0 → f.rb = 0 →
      exec (.setcf t f) s =
        .next (s.after ((s.dev.updStr t fun x => { x with cf := (x.g f.ra.toNat).setWidth 5 }).next t))) ∧
    (f.ra ≠ 0 ∨ f.rb ≠ 0 →
      exec (.getcf t f) s = .next (s.after (s.dev.strandFault t cILLEGAL 0)) ∧
      exec (.rdtime t f) s = .next (s.after (s.dev.strandFault t cILLEGAL 0)) ∧
      exec (.rdcyc t f) s = .next (s.after (s.dev.strandFault t cILLEGAL 0)) ∧
      exec (.rdrand t f) s = .next (s.after (s.dev.strandFault t cILLEGAL 0)) ∧
      exec (.rdid t f) s = .next (s.after (s.dev.strandFault t cILLEGAL 0))) ∧
    (f.ra ≠ 0 ∨ 8 ≤ f.rb.toNat → exec (.rdpmc t f) s = .next (s.after (s.dev.strandFault t cILLEGAL 0))) ∧
    (f.rd ≠ 0 ∨ f.rb ≠ 0 → exec (.setcf t f) s = .next (s.after (s.dev.strandFault t cILLEGAL 0)))

/-- The I-format instructions (R197). -/
def Obligations.ImmediateResults : Prop :=
  ∀ (s : State) (t : StrandIx) (f : FI) (a : Word), s.dev.issues t = true → (s.dev.str t).g f.ra.toNat = a →
    exec (.addi t f) s = .next (s.after (s.dev.give t f.rd.toNat (a + f.imm.signExtend 64))) ∧
    exec (.andi t f) s = .next (s.after (s.dev.give t f.rd.toNat (a &&& f.imm.setWidth 64))) ∧
    exec (.ori t f) s = .next (s.after (s.dev.give t f.rd.toNat (a ||| f.imm.setWidth 64))) ∧
    exec (.xori t f) s = .next (s.after (s.dev.give t f.rd.toNat (a ^^^ f.imm.setWidth 64))) ∧
    exec (.cmpi t f) s =
      .next (s.after ((s.dev.updStr t fun x => { x with cf := cfSub x.cf a (f.imm.signExtend 64) }).give t f.rd.toNat
        (if a.toInt < (f.imm.signExtend 64).toInt then BitVec.allOnes 64 else if a = f.imm.signExtend 64 then 0 else 1)))

/-- LUI (R198). -/
def Obligations.LuiResult : Prop :=
  ∀ (s : State) (t : StrandIx) (f : FI), s.dev.issues t = true →
    (f.ra.toNat < 8 →
      ∃ v : Word, exec (.lui t f) s = .next (s.after (s.dev.give t f.rd.toNat v)) ∧
        ∀ i, i < 64 → v.getLsbD i =
          (if 16 * (f.ra.toNat % 4) ≤ i ∧ i < 16 * (f.ra.toNat % 4) + 16 then f.imm.getLsbD (i - 16 * (f.ra.toNat % 4))
           else f.ra.getLsbD 2 && ((s.dev.str t).g f.rd.toNat).getLsbD i)) ∧
    (8 ≤ f.ra.toNat → exec (.lui t f) s = .next (s.after (s.dev.strandFault t cILLEGAL 0)))

/-- Opcode 0x02 (R199). -/
def Obligations.ShiftAndFieldResults : Prop :=
  ∀ (s : State) (t : StrandIx) (f : FS) (a : Word), s.dev.issues t = true → (s.dev.str t).g f.ra.toNat = a →
    let n := ((s.dev.str t).g f.rb.toNat).toNat % 64
    let m := f.amt.toNat
    let wd := f.rb.toNat + 1
    let r := (s.dev.str t).g f.rd.toNat
    let gives := fun (c : Instr) (v : Word) => exec c s = .next (s.after (s.dev.give t f.rd.toNat v))
    let ill := fun (c : Instr) => exec c s = .next (s.after (s.dev.strandFault t cILLEGAL 0))
    (f.amt = 0 → gives (.sll t f) (a <<< n) ∧ gives (.srl t f) (a >>> n) ∧ gives (.sra t f) (a.sshiftRight n) ∧
      ∃ v, gives (.ror t f) v ∧ ∀ i, i < 64 → v.getLsbD i = a.getLsbD ((i + n) % 64)) ∧
    (f.rb = 0 → gives (.slli t f) (a <<< m) ∧ gives (.srli t f) (a >>> m) ∧ gives (.srai t f) (a.sshiftRight m) ∧
      ∃ v, gives (.rori t f) v ∧ ∀ i, i < 64 → v.getLsbD i = a.getLsbD ((i + m) % 64)) ∧
    (m + wd ≤ 64 →
      (∃ v, gives (.extu t f) v ∧ ∀ i, i < 64 → v.getLsbD i = (decide (i < wd) && a.getLsbD (m + i))) ∧
      (∃ v, gives (.exts t f) v ∧ ∀ i, i < 64 → v.getLsbD i = a.getLsbD (m + min i (wd - 1))) ∧
      (∃ v, gives (.ins t f) v ∧
        ∀ i, i < 64 → v.getLsbD i = if m ≤ i ∧ i < m + wd then a.getLsbD (i - m) else r.getLsbD i)) ∧
    (f.rb = 0 → f.amt = 0 →
      (∃ k : Nat, gives (.clz t f) (w64 k) ∧ k ≤ 64 ∧ (∀ i, i < k → a.getLsbD (63 - i) = false) ∧ (k < 64 → a.getLsbD (63 - k) = true)) ∧
      (∃ k : Nat, gives (.ctz t f) (w64 k) ∧ k ≤ 64 ∧ (∀ i, i < k → a.getLsbD i = false) ∧ (k < 64 → a.getLsbD k = true)) ∧
      gives (.popc t f) (w64 ((List.range 64).countP fun i => a.getLsbD i)) ∧
      (∃ v, gives (.bswap t f) v ∧ ∀ i, i < 64 → v.getLsbD i = a.getLsbD (8 * (7 - i / 8) + i % 8))) ∧
    (f.amt ≠ 0 → ill (.sll t f) ∧ ill (.srl t f) ∧ ill (.sra t f) ∧ ill (.ror t f)) ∧
    (f.rb ≠ 0 → ill (.slli t f) ∧ ill (.srli t f) ∧ ill (.srai t f) ∧ ill (.rori t f)) ∧
    (64 < m + wd → ill (.extu t f) ∧ ill (.exts t f) ∧ ill (.ins t f)) ∧
    (f.rb ≠ 0 ∨ f.amt ≠ 0 → ill (.clz t f) ∧ ill (.ctz t f) ∧ ill (.popc t f) ∧ ill (.bswap t f))

/-- Opcode 0x03 (R200). -/
def Obligations.MultiplyDivideResults : Prop :=
  ∀ (s : State) (t : StrandIx) (f : FA) (a b : Word), s.dev.issues t = true →
    (s.dev.str t).g f.ra.toNat = a → (s.dev.str t).g f.rb.toNat = b →
    exec (.mul t f) s = .next (s.after (s.dev.give t f.rd.toNat (BitVec.ofNat 64 (a.toNat * b.toNat)))) ∧
    exec (.mulh t f) s = .next (s.after (s.dev.give t f.rd.toNat (BitVec.ofInt 64 (a.toInt * b.toInt / 2 ^ 64)))) ∧
    exec (.mulhu t f) s = .next (s.after (s.dev.give t f.rd.toNat (BitVec.ofNat 64 (a.toNat * b.toNat / 2 ^ 64)))) ∧
    (b ≠ 0 →
      exec (.div t f) s = .next (s.after (s.dev.give t f.rd.toNat (BitVec.ofInt 64 (a.toInt.tdiv b.toInt)))) ∧
      exec (.divu t f) s = .next (s.after (s.dev.give t f.rd.toNat (BitVec.ofNat 64 (a.toNat / b.toNat)))) ∧
      exec (.rem t f) s =
        .next (s.after (s.dev.give t f.rd.toNat (BitVec.ofInt 64 (a.toInt - a.toInt.tdiv b.toInt * b.toInt)))) ∧
      exec (.remu t f) s = .next (s.after (s.dev.give t f.rd.toNat (BitVec.ofNat 64 (a.toNat % b.toNat))))) ∧
    (a.toInt = -(2 ^ 63) → b.toInt = -1 →
      exec (.div t f) s = .next (s.after (s.dev.give t f.rd.toNat a)) ∧
      exec (.rem t f) s = .next (s.after (s.dev.give t f.rd.toNat 0))) ∧
    (b = 0 →
      exec (.div t f) s = .next (s.after (s.dev.strandFault t cDIVZERO 0)) ∧
      exec (.divu t f) s = .next (s.after (s.dev.strandFault t cDIVZERO 0)) ∧
      exec (.rem t f) s = .next (s.after (s.dev.strandFault t cDIVZERO 0)) ∧
      exec (.remu t f) s = .next (s.after (s.dev.strandFault t cDIVZERO 0)))

/-- What writing a result and retiring changes, and what it leaves. -/
def Obligations.GiveFrame : Prop :=
  ∀ (d : Dev) (t rd : Nat) (v : Word),
    ((d.give t rd v).str t).g rd = (if rd = 0 then 0 else v) ∧
    (∀ q, q ≠ rd → ((d.give t rd v).str t).g q = (d.str t).g q) ∧
    ((d.give t rd v).str t).pc = (d.str t).pc + 4 ∧ ((d.give t rd v).str t).cf = (d.str t).cf ∧
    ((d.give t rd v).str t).slice = (d.str t).slice ∧ ((d.give t rd v).str t).priv = (d.str t).priv ∧
    ((d.give t rd v).str t).live = (d.str t).live ∧ ((d.give t rd v).str t).work = (d.str t).work ∧
    (∀ u, u ≠ t → (d.give t rd v).str u = d.str u) ∧
    (d.give t rd v).pool = d.pool ∧ (d.give t rd v).coh = d.coh ∧ (d.give t rd v).csr = d.csr ∧
    (d.give t rd v).wq = d.wq ∧ (d.give t rd v).qm = d.qm ∧ (d.give t rd v).link = d.link ∧ (d.give t rd v).fpc = d.fpc ∧
    (d.give t rd v).out = d.out ∧ (d.give t rd v).ctr.unit = d.ctr.unit

/-- Branches and calls (R206). -/
def Obligations.BranchesGo : Prop :=
  ∀ (s : State) (t : StrandIx) (f : FB) (j : FA), s.dev.issues t = true →
    let dest := (BitVec.ofNat 64 (s.dev.str t).pc + f.disp.signExtend 64 * 4).toNat
    let taken := (s.dev.frEvent (s.dev.physOf t) 9 1).retire t dest
    let link := w64 ((s.dev.str t).pc + 4)
    let v := (s.dev.str t).cf.getLsbD 4
    let a := (s.dev.str t).g f.ra.toNat
    (f.ra = 0 → exec (.br t f) s = .next (s.after taken)) ∧
    (f.ra = 0 → v = false → exec (.bz t f) s = .next (s.after taken) ∧ exec (.bnz t f) s = .next (s.after (s.dev.next t))) ∧
    (f.ra = 0 → v = true → exec (.bnz t f) s = .next (s.after taken) ∧ exec (.bz t f) s = .next (s.after (s.dev.next t))) ∧
    (f.ra ≠ 0 → a = 0 → exec (.bz t f) s = .next (s.after taken) ∧ exec (.bnz t f) s = .next (s.after (s.dev.next t))) ∧
    (f.ra ≠ 0 → a ≠ 0 → exec (.bnz t f) s = .next (s.after taken) ∧ exec (.bz t f) s = .next (s.after (s.dev.next t))) ∧
    (f.ra ≠ 0 → a.getLsbD 63 = true → exec (.bneg t f) s = .next (s.after taken)) ∧
    (f.ra ≠ 0 → a.getLsbD 63 = false → exec (.bneg t f) s = .next (s.after (s.dev.next t))) ∧
    exec (.call t f) s = .next (s.after
      (((s.dev.updStr t fun x => x.setG f.ra.toNat link).frEvent (s.dev.physOf t) 9 1).retire t dest)) ∧
    (j.rb = 0 → exec (.jr t j) s = .next (s.after
      (((s.dev.updStr t fun x => x.setG j.rd.toNat link).frEvent (s.dev.physOf t) 9 1).retire t
        ((s.dev.str t).g j.ra.toNat).toNat))) ∧
    (f.ra ≠ 0 → exec (.br t f) s = .next (s.after (s.dev.strandFault t cILLEGAL 0))) ∧
    (f.ra = 0 → exec (.bneg t f) s = .next (s.after (s.dev.strandFault t cILLEGAL 0))) ∧
    (j.rb ≠ 0 → exec (.jr t j) s = .next (s.after (s.dev.strandFault t cILLEGAL 0)))

/-! ## Loads, stores, atomics and fences (R201–R212) -/

/-- LD and LDL on a line that the L1D holds, the forwarding of a strand's own store, LDL's hint OWN, and the faults of their
addresses. -/
def Obligations.LoadsThatHit : Prop :=
  (∀ (s : State) (t : StrandIx) (f : FM) (fpa : Nat) (d : Dev) (st : L1St), s.dev.issues t = true →
    let n := 2 ^ f.sz.toNat
    let l := d.l1 (d.physOf t) (fpa / 64)
    s.dev.eaM t f % n = 0 → s.dev.leads t (s.dev.eaM t f) .r = (some (.ok fpa), d) →
    l.st = some st → (st = .m ∨ st = .o ∨ st = .e ∨ st = .s) → l.psn = false →
    (∀ e ∈ d.sor.sb, e.p = d.physOf t → e.fpa + e.bs.length ≤ fpa ∨ fpa + n ≤ e.fpa) → d.postOn t (fpa / 64) = false →
    (d.str t).stop = 0 →
    ∃ v : Word, exec (.ld t f) s = .next (s.after ((d.frEvent (d.physOf t) 4 1).give t f.rd.toNat v)) ∧
      ∀ i, i < 64 → v.getLsbD i = (decide (i < 8 * n) && l.data.getLsbD (8 * (fpa % 64) + i))) ∧
  (∀ (s : State) (t : StrandIx) (f : FM) (fpa : Nat) (d : Dev), s.dev.issues t = true →
    (f.rd = 8 ∨ f.rd = 16 ∨ f.rd = 24) → f.sz.toNat < 2 →
    s.dev.eaM t f % 64 = 0 → s.dev.leads t (s.dev.eaM t f) .r = (some (.ok fpa), d) → d.holdsFor t fpa →
    exec (.ldl t f) s = .next (s.after ((d.countLook t true).giveLine t f.rd.toNat (d.lineFor t fpa)))) ∧
  (∀ (s : State) (t : StrandIx) (f : FM) (fpa : Nat) (d : Dev) (xs : List SbE) (e : SbE), s.dev.issues t = true →
    let n := 2 ^ f.sz.toNat
    s.dev.eaM t f % n = 0 → s.dev.leads t (s.dev.eaM t f) .r = (some (.ok fpa), d) → d.sor.sb = xs ++ [e] → e.p = d.physOf t →
    e.t = t.val → e.fpa ≤ fpa → fpa + n ≤ e.fpa + e.bs.length → d.postOn t (fpa / 64) = false → (d.str t).stop = 0 →
    ∃ v : Word, exec (.ld t f) s = .next (s.after (d.give t f.rd.toNat v)) ∧
      ∀ i, i < 8 → ∀ j, j < 8 → v.getLsbD (8 * i + j) = (decide (i < n) && (e.bs.getD (fpa - e.fpa + i) 0).getLsbD j)) ∧
  (∀ (s : State) (t : StrandIx) (f : FM) (fpa : Nat) (d : Dev), s.dev.issues t = true →
    (f.rd = 8 ∨ f.rd = 16 ∨ f.rd = 24) → f.sz = 2 →
    s.dev.eaM t f % 64 = 0 → s.dev.leads t (s.dev.eaM t f) .r = (some (.ok fpa), d) → (d.str t).stop = 0 →
    d.postOn t (fpa / 64) = false → (∀ e ∈ d.sor.sb, e.t = t.val → e.fpa / 64 ≠ fpa / 64) →
    let p := d.physOf t
    let ln := fpa / 64
    let x := d.str t
    let l := d.l1 p ln
    let asks := fun (op : BitVec 6) (st : L1St) => ∃ u m, exec (.ldl t f) s = .next u ∧ u.dev.coh.net = d.coh.net ++ [m] ∧
      m.op = op ∧ m.src = d.ag p ∧ m.addr = BitVec.ofNat 46 ln ∧ (u.dev.l1 p ln).st = some st ∧
      (u.dev.str t).wait = .ldl f.rd.toNat fpa (s.dev.eaM t f) 2 0 ∧ (u.dev.str t).pc = x.pc
    (l.st = some .m → l.psn = false →
      exec (.ldl t f) s = .next (s.after ((d.countLook t true).giveLine t f.rd.toNat l.data))) ∧
    (l.st = some .e → l.psn = false → exec (.ldl t f) s = .next (s.after
      (((d.setL1 p ln { l with st := some .m }).countLook t true).giveLine t f.rd.toNat l.data))) ∧
    (d.check fpa (strDom x.priv) .rd x.slice = .ok →
      (l.st = some .s ∨ l.st = some .o → l.psn = false → asks opUpg .sm) ∧
      (l.st = none → (d.l1Mates p ln).length < 8 → asks opRdX .im))) ∧
  (∀ (s : State) (t : StrandIx) (f : FM) (d : Dev), s.dev.issues t = true → s.dev.eaM t f % 2 ^ f.sz.toNat = 0 →
    s.dev.leads t (s.dev.eaM t f) .r = (none, d) → exec (.ld t f) s = .next (s.after (d.waitOn t (.hold 2)))) ∧
  (∀ (s : State) (t : StrandIx) (f : FM), s.dev.issues t = true → s.dev.eaM t f % 2 ^ f.sz.toNat ≠ 0 →
    exec (.ld t f) s = .next (s.after (s.dev.strandFault t cALIGN (s.dev.eaM t f % 2 ^ 52))) ∧
    exec (.st t f) s = .next (s.after (s.dev.strandFault t cALIGN (s.dev.eaM t f % 2 ^ 52)))) ∧
  (∀ (s : State) (t : StrandIx) (f : FM) (c : Nat) (d : Dev), s.dev.issues t = true → s.dev.eaM t f % 2 ^ f.sz.toNat = 0 →
    s.dev.leads t (s.dev.eaM t f) .r = (some (.fault c), d) →
    exec (.ld t f) s = .next (s.after (d.strandFault t c (s.dev.eaM t f % 2 ^ 52))))

/-- ST. -/
def Obligations.StoresRetire : Prop :=
  ∀ (s : State) (t : StrandIx) (f : FM) (fpa : Nat) (d : Dev), s.dev.issues t = true →
    let n := 2 ^ f.sz.toNat
    let x := d.str t
    s.dev.eaM t f % n = 0 → s.dev.leads t (s.dev.eaM t f) .w = (some (.ok fpa), d) →
    ((d.sbLines (d.physOf t)).contains (fpa / 64) = true ∨ (d.sbLines (d.physOf t)).length < 16) → x.stop = 0 →
    exec (.st t f) s = .next (s.after (Dev.drainStores
      { d.next t with sor := { (d.next t).sor with
          sb := (d.next t).sor.sb ++ [⟨d.physOf t, t, fpa, leBytes n (x.g f.rd.toNat).toNat, x.slice, x.priv, s.dev.eaM t f, x.fw, d.sor.seq⟩]
          seq := d.sor.seq + 1 } }
      (d.physOf t)))

/-- The one operation that changes a line's bytes in a Frond's L1D, and the dirty-page log it keeps (R47, R48). -/
def Obligations.StoreFrame : Prop :=
  ∀ (d : Dev) (w : OwnFor) (p ln off n sa : Nat) (bs : List Byte) (priv : Bool), off + bs.length ≤ 64 →
    let e := d.storeL1 w p ln off bs n priv sa
    let epoch := d.f (SLICE.DLOG_CTL.EPOCH n) + 1
    (d.logsStore p ln n priv = false →
      (e.l1 p ln).st = some .m ∧
      (∀ i, i < 64 → ∀ j, j < 8 → (e.l1 p ln).data.getLsbD (8 * i + j) =
        if off ≤ i ∧ i < off + bs.length then (bs.getD (i - off) 0).getLsbD j else (d.l1 p ln).data.getLsbD (8 * i + j)) ∧
      (e.l1 p ln).log = (if priv = false ∧ d.fb (SLICE.DLOG_BASE.EN n) = true then epoch else (d.l1 p ln).log) ∧
      (∀ q k, k < 2 ^ 46 → ln < 2 ^ 46 → (q ≠ p ∨ k ≠ ln) → e.l1 q k = d.l1 q k) ∧
      e.pool = d.pool ∧ e.csr = d.csr ∧ e.sor = d.sor ∧ e.coh.net = d.coh.net) ∧
    (d.logsStore p ln n priv = true → 0 < bs.length → sa / 4096 = (sa + bs.length - 1) / 4096 →
      let pg := sa / 2 ^ 21
      let base := d.f (SLICE.DLOG_RANGE.BASE_PG n)
      let miss := SLICE.DLOG_CTL.MISS n
      (pg < base ∨ d.f (SLICE.DLOG_RANGE.LIMIT_PG n) < pg →
        (e.l1 p ln).log = epoch ∧ e.f miss = min (d.f miss + 1) (2 ^ miss.w - 1) ∧ e.pool = d.pool) ∧
      (base ≤ pg → pg ≤ d.f (SLICE.DLOG_RANGE.LIMIT_PG n) →
        let i := (sa - base * 2 ^ 21) / 4096
        let a := d.f (SLICE.DLOG_BASE.BASE n) * 4096 + i / 64 * 8
        let j := a / 64
        a < 2 ^ 52 → d.coh.own = [] → d.plainLine j → (d.homeRead j 0).1.psn = false →
        (e.l1 p ln).st = some .m ∧ (e.l1 p ln).log = epoch ∧
        leNat (e.bytes a 8) = leNat (lineSlice (d.homeRead j 0).1.data (a % 64) 8) ||| 2 ^ (i % 64) ∧
        ∀ b, b < a ∨ a + 8 ≤ b → e.byte b = d.byte b))

/-- Atomics in the L1D. -/
def Obligations.NearAtomics : Prop :=
  ∀ (s : State) (t : StrandIx) (f : FAt), s.dev.issues t = true →
    (∀ (fpa : Nat) (d : Dev) (st : L1St),
      let n := if f.sz then 8 else 4
      let x := s.dev.str t
      let ea := (x.g f.ra.toNat).toNat
      let p := d.physOf t
      let l := d.l1 p (fpa / 64)
      let old := leNat (lineSlice l.data (fpa % 64) n)
      let b := (x.g f.rb.toNat).toNat % 2 ^ (8 * n)
      let stores := fun (y : Nat) (d : Dev) =>
        d.storeL1 (.log p) p (fpa / 64) (fpa % 64) (leBytes n y) (d.str t).slice (d.str t).priv ea
      let done := fun (i : Instr) (op y : Nat) =>
        (∀ e, d.tryOwn (fun d => ((), stores y d)) = (some (), e) →
          exec i s = .next (s.after ((e.frEvent p 10 1).amoDone t f.rd.toNat op (w64 old) true))) ∧
        (d.logsStore p (fpa / 64) (d.str t).slice (d.str t).priv = false →
          d.tryOwn (fun d => ((), stores y d)) = (some (), stores y d))
      f.place ≠ 0 → f.z6 = false → f.z0 = false → ea % n = 0 → s.dev.leads t ea .a = (some (.ok fpa), d) →
      l.st = some st → (st = .m ∨ st = .e) → l.psn = false →
      (∀ e ∈ d.sor.sb, (f.rel = true → e.p ≠ p ∧ e.t ≠ t.val) ∧ (e.t = t.val → e.fpa / 64 ≠ fpa / 64)) →
      (∀ e ∈ d.sor.posts, e.t = t.val → f.rel = false ∧ e.fpa / 64 ≠ fpa / 64) →
      (d.str t).stop = 0 → d.inTables (fpa / 64) = false →
      done (.amoAdd t f) 0 ((old + b) % 2 ^ (8 * n)) ∧ done (.amoSwap t f) 2 b ∧
      done (.amoMin t f) 3 (if sext (8 * n) old ≤ sext (8 * n) b then old else b) ∧
      done (.amoMax t f) 4 (if sext (8 * n) old ≤ sext (8 * n) b then b else old) ∧
      done (.amoMinu t f) 5 (min old b) ∧ done (.amoMaxu t f) 6 (max old b) ∧
      done (.amoAnd t f) 7 (old &&& b) ∧ done (.amoOr t f) 8 (old ||| b) ∧ done (.amoXor t f) 9 (old ^^^ b) ∧
      (old = (x.g f.rd.toNat).toNat % 2 ^ (8 * n) → done (.amoCas t f) 1 b) ∧
      (old ≠ (x.g f.rd.toNat).toNat % 2 ^ (8 * n) →
        exec (.amoCas t f) s = .next (s.after
          (((d.setL1 p (fpa / 64) { l with st := some .m }).frEvent p 10 1).amoDone t f.rd.toNat 1 (w64 old) false)))) ∧
    (f.place = 0 ∨ f.z6 = true ∨ f.z0 = true → ∀ i : Instr,
      i ∈ [.amoAdd t f, .amoCas t f, .amoSwap t f, .amoMin t f, .amoMax t f, .amoMinu t f, .amoMaxu t f, .amoAnd t f, .amoOr t f,
        .amoXor t f] →
      exec i s = .next (s.after (s.dev.strandFault t cILLEGAL 0)))

/-- PREF, the fences and RULESYNC. -/
def Obligations.PrefetchAndFencesComplete : Prop :=
  (∀ (s : State) (t : StrandIx) (f : FM) (fpa : Nat) (d : Dev), s.dev.issues t = true → f.rd = 0 → f.sz.toNat < 2 →
    s.dev.leads t (s.dev.eaM t f) (if f.sz = 1 then .w else .r) = (some (.ok fpa), d) →
    ((d.l1 (d.physOf t) (fpa / 64)).st = some .m ∨ (d.l1 (d.physOf t) (fpa / 64)).st = some .e) →
    exec (.pref t f) s = .next (s.after (d.next t))) ∧
  (∀ (s : State) (t : StrandIx) (f : FM) (c : Nat) (d : Dev), s.dev.issues t = true → f.rd = 0 → f.sz.toNat < 2 →
    s.dev.leads t (s.dev.eaM t f) (if f.sz = 1 then .w else .r) = (some (.fault c), d) →
    exec (.pref t f) s = .next (s.after ((d.count (2320 + d.physOf t) 1).next t))) ∧
  (∀ (s : State) (t : StrandIx) (f : FM) (d : Dev), s.dev.issues t = true → f.rd = 0 → f.sz.toNat < 2 →
    s.dev.leads t (s.dev.eaM t f) (if f.sz = 1 then .w else .r) = (none, d) →
    exec (.pref t f) s = .next (s.after (d.waitOn t (.hold 2)))) ∧
  (∀ (s : State) (t : StrandIx) (f : FA), s.dev.issues t = true → f.rd = 0 → f.ra = 0 → f.rb = 0 →
    (s.dev.sbOwn t = false → (s.dev.str t).stop = 0 → exec (.fence t f) s = .next (s.after (s.dev.next t))) ∧
    exec (.fenceR t f) s = .next (s.after (s.dev.next t)) ∧
    exec (.fenceW t f) s = .next (s.after ((s.dev.updStr t fun x => { x with fw := x.fw + 1 }).next t)) ∧
    (s.dev.sbOwn t = false → s.dev.admitted = [] → (s.dev.str t).priv = true →
      exec (.rulesync t f) s = .next (s.after
        (let marks := s.dev.fpc.chg.map (·.id)
         (s.dev.rsyncWalk (s.dev.rsyncLines marks)).2.waitOn t (.rsync marks [] (some (s.dev.rsyncWalk (s.dev.rsyncLines marks)).1))))) ∧
    ((s.dev.str t).priv = false → exec (.rulesync t f) s = .next (s.after (s.dev.strandFault t cPRIV 0)))) ∧
  (∀ (s : State) (t : StrandIx) (marks : List Nat), s.dev.fdUp = true → (s.dev.str t).wait = .rsync marks [] (some []) →
    s.dev.sbOwn t = false → (s.dev.str t).stop = 0 →
    ∃ u, exec (.rulesyncComplete t) s = .next u ∧ (u.dev.str t).pc = (s.dev.str t).pc + 4 ∧ (u.dev.str t).wait = .none ∧
      u.dev.fpc.chg = s.dev.fpc.chg.filter (fun c => !marks.contains c.id) ∧ u.dev.pool = s.dev.pool)

/-! ## Primitives and privileged instructions (R216–R255) -/

/-- Opcode 0x1C (R224). -/
def Obligations.HashResults : Prop :=
  ∀ (s : State) (t : StrandIx) (f : FX), s.dev.issues t = true →
    let g := fun (r : Nat) => (s.dev.str t).g r
    let a := g f.ra.toNat
    let b := g f.rb.toNat
    let k0 := g f.rc.toNat
    let k1 := g (f.rc.toNat + 1)
    let gives := fun (c : Instr) (v : Word) => exec c s = .next (s.after (s.dev.primGive t f.rd.toNat v))
    let ill := fun (c : Instr) => exec c s = .next (s.after (s.dev.strandFault t cILLEGAL 0))
    (∀ sz : BitVec 2, f.rc = 0 →
      gives (.hashCrc32c t f sz) (w64 (crc32c (a.toNat % 2 ^ 32) (leBytes (2 ^ sz.toNat) b.toNat))) ∧
      gives (.hashCrc64 t f sz) (w64 (hashCrc64 a.toNat (leBytes (2 ^ sz.toNat) b.toNat)))) ∧
    (f.rc.toNat ≤ 30 →
      gives (.hashToep t f false) (w64 (a.toNat % 2 ^ 32 ^^^ toeplitz (toepKey k0 k1) (leBytes 4 b.toNat))) ∧
      gives (.hashToep t f true) (w64 (a.toNat % 2 ^ 32 ^^^ toeplitz (toepKey k0 k1) (leBytes 8 b.toNat)))) ∧
    (f.ra = 0 → f.rc.toNat ≤ 30 →
      gives (.hashSip8 t f) (sipHash k0 k1 [b]) ∧
      (f.rb.toNat ≤ 30 → gives (.hashSip16 t f) (sipHash k0 k1 [b, g (f.rb.toNat + 1)])) ∧
      (f.rb = 8 ∨ f.rb = 16 ∨ f.rb = 24 →
        gives (.hashSip64 t f) (sipHash k0 k1 ((List.range 8).map fun i => g (f.rb.toNat + i))))) ∧
    (∀ sz : BitVec 2, f.rc ≠ 0 → ill (.hashCrc32c t f sz) ∧ ill (.hashCrc64 t f sz)) ∧
    (f.rc = 31 → ill (.hashToep t f false) ∧ ill (.hashToep t f true)) ∧
    (f.ra ≠ 0 ∨ f.rc = 31 → ill (.hashSip8 t f) ∧ ill (.hashSip16 t f) ∧ ill (.hashSip64 t f)) ∧
    (f.rb = 31 → ill (.hashSip16 t f)) ∧ (f.rb ≠ 8 → f.rb ≠ 16 → f.rb ≠ 24 → ill (.hashSip64 t f))

/-- TRIE.STEP, EXM.PROBE, RANGE.CMP, LCOMP and SKETCH.EST (R221). -/
def Obligations.LineReadersComplete : Prop :=
  (∀ (s : State) (t : StrandIx) (f : FX) (fpa : Nat) (d : Dev), s.dev.issues t = true →
    let x := s.dev.str t
    let ea := (x.g f.ra.toNat).toNat
    let on := fun (k : Prim) => .next (s.after ((d.countLook t true).primDone t k [d.lineFor t fpa >>> (8 * (fpa % 64))]))
    ea % 64 = 0 → s.dev.leads t ea .r = (some (.ok fpa), d) → d.holdsFor t fpa →
    (0 < f.rd.toNat → f.rd.toNat ≤ 30 → f.rb.toNat ≤ 30 →
      exec (.trieStep t f) s = on (.trie f.rd.toNat ((d.str t).g f.rb.toNat) ((d.str t).g (f.rb.toNat + 1)) ((d.str t).g f.rc.toNat))) ∧
    (f.rc = 0 → f.rb.toNat ≤ 30 →
      exec (.exmProbe t f) s = on (.exm f.rd.toNat ((d.str t).g f.rb.toNat) ((d.str t).g (f.rb.toNat + 1)))) ∧
    (f.rc = 0 → exec (.rangeCmp t f) s = on (.range f.rd.toNat false ((d.str t).g f.rb.toNat)) ∧
      exec (.rangeCmpS t f) s = on (.range f.rd.toNat true ((d.str t).g f.rb.toNat))) ∧
    (f.rd = 8 ∨ f.rd = 16 ∨ f.rd = 24 → f.rb = 0 → exec (.lcomp t f) s = on (.lcomp f.rd.toNat f.rc.toNat))) ∧
  (∀ (s : State) (t : StrandIx) (f : FX) (k : BitVec 4) (l : List (Nat × Nat)) (d : Dev), s.dev.issues t = true →
    let a := (s.dev.gr t f.ra).toNat
    let cell := fun (c : Nat × Nat) => bitsN (d.lineFor t c.1 >>> (8 * (c.1 % 64))).toNat 0 32
    k.toNat ≤ 10 → f.rc = 0 → a % 64 = 0 →
    s.dev.tryOwn (fun d => d.cells t .r ([0, 1, 2, 3].map fun j => sketchCell a (s.dev.gr t f.rb).toNat (10 + k.toNat) j % 2 ^ 64)) = (some (.inl l), d) →
    (∀ c ∈ l, d.holdsFor t c.1) →
    ∃ u, exec (.sketchEst t f k) s = .next u ∧ (u.dev.str t).pc = (d.str t).pc + 4 ∧
      (f.rd ≠ 0 → (u.dev.str t).g f.rd.toNat = w64 ((l.map cell).foldl min (2 ^ 32 - 1))) ∧
      (u.dev.str t).cf.getLsbD 4 = decide ((l.map cell).foldl min (2 ^ 32 - 1) ≠ 2 ^ 32 - 1))

/-- The lookups (R226, R228, R230). -/
def Obligations.LookupsCompute : Prop :=
  (∀ (node : Line) (hi lo best : Word),
    let dep := lineField node 56 1
    let b := if dep < 16 then keyByte hi lo dep else 0
    let hit := fun (l : Nat) => (lineField node 0 32).testBit (ibmIx b l)
    (∀ l, l ≤ 7 → hit l = true → (∀ m, l < m → m ≤ 7 → hit m = false) →
      (trieStep node hi lo best).2 =
        w64 (lineField node 48 8 + ((List.range (ibmIx b l)).countP fun i => (lineField node 0 32).testBit i) *
          2 ^ (lineField node 57 1 % 8))) ∧
    ((∀ l, l ≤ 7 → hit l = false) → (trieStep node hi lo best).2 = best) ∧
    ((lineField node 32 8).testBit (b / 4) = false → (trieStep node hi lo best).1 = 0) ∧
    ((lineField node 32 8).testBit (b / 4) = true →
      (trieStep node hi lo best).1 =
        w64 (lineField node 40 8 + 256 * ((List.range (b / 4)).countP fun i => (lineField node 32 8).testBit i) + 64 * (b % 4)))) ∧
  (∀ (x : Line) (hi lo : Word),
    let res := fun (k : Nat) => lineField x (16 * k + 12) 4
    let hit := fun (k : Nat) => res k ≠ 0 ∧
      lineField x (16 * k) 12 = (hi.toNat % 2 ^ 32 ^^^ hi.toNat / 2 ^ 32) * 2 ^ 64 + lo.toNat
    ((∀ k, k < 4 → ¬hit k) → exmProbe x hi lo = (0, false)) ∧
    (∀ k, k < 4 → hit k → (∀ j, j < k → ¬hit j) → exmProbe x hi lo = (w64 (res k + k * 2 ^ 32), true))) ∧
  (∀ (x : Line) (v : Word),
    let bd := fun (j : Nat) => BitVec.ofNat 64 (lineField x (8 * j) 8)
    (rangeCmp x false v).1 = w64 ((List.range 8).countP fun j => decide ((bd j).toNat ≤ v.toNat)) ∧
    (rangeCmp x true v).1 = w64 ((List.range 8).countP fun j => decide ((bd j).toInt ≤ v.toInt)) ∧
    ∀ sg, (rangeCmp x sg v).2 = true ↔ ∃ j, j < 8 ∧ bd j = v)

/-- Compression and decompression of a line agree (R248–R250). -/
def Obligations.CompressionLosesNothing : Prop :=
  ∀ (x : Line) (fill : List Byte),
    ((lcomp x).1 = 32 ∨ (lcomp x).1 = 48 ∨ (lcomp x).1 = 64) ∧ (lcomp x).2.length ≤ (lcomp x).1 ∧
    ldecomp ((lcomp x).2 ++ fill) (lcomp x).1 = some x

/-- The far updates (R222, R223). The order of an instruction's checks follows log entry 63, the codes of the four updates and the
address that their log needs log entry 64, and which events they count log entry 65: the model's reading or choice. -/
def Obligations.FarUpdatesLeave : Prop :=
  ∀ (s : State) (t : StrandIx) (f : FX), s.dev.issues t = true →
    let ea := ((s.dev.str t).g f.ra.toNat).toNat
    (∀ (fpa : Nat) (d : Dev), f.rd = 0 → f.rc = 0 → s.dev.leads t ea .a = (some (.ok fpa), d) →
      (d.inTables (fpa / 64) = false →
        (ea % 16 = 0 → exec (.cinc t f 0) s = .next (s.after
          (((d.post t fpa 16 ea upCINC ((d.str t).g f.rb.toNat)).primNext t false).postsGo (d.physOf t)))) ∧
        (ea % 2 = 0 → exec (.cincA t f 0) s = .next (s.after
          (((d.post t fpa 2 ea upCINCA ((d.str t).g f.rb.toNat)).primNext t false).postsGo (d.physOf t))))) ∧
      (d.inTables (fpa / 64) = true →
        (ea % 16 = 0 → exec (.cinc t f 0) s = .next (s.after (d.strandFault t cPROT (ea % 2 ^ 52)))) ∧
        (ea % 2 = 0 → exec (.cincA t f 0) s = .next (s.after (d.strandFault t cPROT (ea % 2 ^ 52)))))) ∧
    (∀ (k : BitVec 4) (l : List (Nat × Nat)) (d : Dev), k.toNat ≤ 10 → f.rd = 0 → ea % 64 = 0 →
      s.dev.tryOwn (fun d => d.cells t .a ([0, 1, 2, 3].map fun j => sketchCell ea (s.dev.gr t f.rb).toNat (10 + k.toNat) j % 2 ^ 64)) = (some (.inl l), d) →
      (∀ c ∈ l, d.inTables (c.1 / 64) = false) →
      exec (.sketchAdd t f k) s = .next (s.after
        (((l.foldl (fun d c => d.post t c.1 4 c.2 upSKETCH (d.gr t f.rc)) d).primNext t false).postsGo (d.physOf t)))) ∧
    (∀ (fpa : Nat) (d : Dev), ea % 32 = 0 → s.dev.leads t ea .a = (some (.ok fpa), d) → (d.l1 (d.physOf t) (fpa / 64)).st = none →
      (∀ e ∈ d.sor.sb, e.t = t.val → e.fpa / 64 ≠ fpa / 64) → d.postOn t (fpa / 64) = false →
      d.check fpa (strDom (d.str t).priv) .up (d.str t).slice = .ok →
      ∃ u m, exec (.meter t f) s = .next (s.after u) ∧
        u = (((d.countReq (d.str t).slice (d.str t).priv 6).send m).waitOn t
          (.amo f.rd.toNat upMETER 32 fpa ea (d.gr t f.rb) (d.gr t f.rc) 2 false false 2)) ∧
        m.op = opAtom ∧ m.src = d.ag (d.physOf t) ∧ m.dst = d.homeAg (fpa / 64) ∧ m.addr = BitVec.ofNat 46 (fpa / 64) ∧
        m.aop = 13 ∧ m.opa = d.gr t f.rb ∧ m.opb = d.gr t f.rc)

/-- MOVE, FILL, the engine's completion and LDECOMP. The row that carries an operation on, the wait for a place, and the order of
LDECOMP's checks are the model's choices (log entries 67, 68 and 145). -/
def Obligations.MoveEngineCompletes : Prop :=
  (∀ (s : State) (t : StrandIx) (f : FX), s.dev.issues t = true →
    let x := s.dev.str t
    let dst := (x.g f.ra.toNat).toNat
    let src := (x.g f.rb.toNat).toNat
    let len := (x.g f.rc.toNat).toNat
    let cw := (x.g f.rd.toNat).toNat
    dst % 64 = 0 → len % 64 = 0 → 0 < len → len ≤ 2 ^ 36 →
    (s.dev.sbOwn t = true → exec (.fill t f) s = .next (s.after (s.dev.waitOn t (.hold 0))) ∧
      (cw % 8 = 0 → exec (.fillP t f) s = .next (s.after (s.dev.waitOn t (.hold 0)))) ∧
      (src % 64 = 0 → exec (.move t f) s = .next (s.after (s.dev.waitOn t (.hold 0)))) ∧
      (src % 64 = 0 → cw % 8 = 0 → exec (.moveP t f) s = .next (s.after (s.dev.waitOn t (.hold 0))))) ∧
    (s.dev.sbOwn t = false → (s.dev.movesOf (t / 32)).length < 16 →
    (∃ m : MoveOp, m.dst = dst ∧ m.len = len ∧ m.fill = true ∧ m.val = x.g f.rb.toNat ∧ m.slice = x.slice ∧ m.priv = x.priv ∧
      exec (.fill t f) s = .next (s.after ({ s.dev with moves := s.dev.moves ++ [m] }.waitOn t (.move f.rd.toNat m.id)))) ∧
    (cw % 8 = 0 → ∃ m : MoveOp, m.dst = dst ∧ m.len = len ∧ m.fill = true ∧ m.posted = true ∧ m.cw = cw ∧
      exec (.fillP t f) s = .next (s.after ({ s.dev with moves := s.dev.moves ++ [m] }.primNext t false))) ∧
    (src % 64 = 0 → ∃ m : MoveOp, m.dst = dst ∧ m.src = src ∧ m.len = len ∧ m.fill = false ∧ m.slice = x.slice ∧ m.priv = x.priv ∧
      exec (.move t f) s = .next (s.after ({ s.dev with moves := s.dev.moves ++ [m] }.waitOn t (.move f.rd.toNat m.id)))) ∧
    (src % 64 = 0 → cw % 8 = 0 → ∃ m : MoveOp, m.dst = dst ∧ m.src = src ∧ m.len = len ∧ m.fill = false ∧ m.posted = true ∧ m.cw = cw ∧
      exec (.moveP t f) s = .next (s.after ({ s.dev with moves := s.dev.moves ++ [m] }.primNext t false))))) ∧
  (∀ (s : State) (n : Fin 32) (k : Fin 16) (lines : BitVec 31) (m : MoveOp), s.dev.fdUp = true →
    (s.dev.movesOf n)[k.val]? = some m →
    exec (.moveEngineComplete n k lines) s = .next (s.after (s.dev.mvComplete m lines.toNat)) ∧
    let d := s.dev
    let word := mvWord m.len 0 0
    (m.priv = true → m.res = none → m.abort = false → m.lines = 0 → 0 < m.len → m.len % 64 = 0 → m.len / 64 ≤ lines.toNat →
      m.dst % 64 = 0 → m.dst + m.len ≤ 2 ^ 52 → d.coh.own = [] → (∀ e ∈ d.sor.strand, e.2.wait ≠ .hold 1) →
      (∀ j, j < m.len / 64 → d.plainLine (m.dst / 64 + j) ∧ d.check (m.dst + 64 * j) .f .wr m.slice = .ok) →
      (m.fill = false → m.src % 64 = 0 ∧ m.src + m.len ≤ 2 ^ 52 ∧ ∀ j, j < m.len / 64 →
        let ln := m.src / 64 + j
        d.plainLine ln ∧ d.check (m.src + 64 * j) .f .rd m.slice = .ok ∧ (d.homeRead ln 0).1 = ⟨d.line ln, false, 0, 0⟩) →
      (m.posted = false → (d.str m.t).wait = .move m.rd m.id ∧ (d.str m.t).stop = 0) →
      (m.posted = true → m.cw % 8 = 0 ∧ m.cw + 8 ≤ 2 ^ 52 ∧ d.plainLine (m.cw / 64) ∧ d.check m.cw .f .wr m.slice = .ok) →
      let e := d.mvComplete m lines.toNat
      let inWord := fun a => m.posted = true ∧ m.cw ≤ a ∧ a < m.cw + 8
      (∀ i, i < m.len → ¬inWord (m.dst + i) →
        e.byte (m.dst + i) = if m.fill then (leBytes 8 m.val.toNat).getD (i % 8) 0 else d.byte (m.src + i)) ∧
      (m.posted = true → leNat (e.bytes m.cw 8) = word.toNat) ∧
      (m.posted = false → (e.str m.t).pc = (d.str m.t).pc + 4 ∧ (m.rd ≠ 0 → (e.str m.t).g m.rd = word)) ∧
      ∀ a, (a < m.dst ∨ m.dst + m.len ≤ a) → ¬inWord a → e.byte a = d.byte a)) ∧
  (∀ (s : State) (t : StrandIx) (f : FX) (fpa : Nat) (d : Dev), s.dev.issues t = true →
    let ea := ((s.dev.str t).g f.ra.toNat).toNat
    f.rd = 0 → (f.rb = 8 ∨ f.rb = 16 ∨ f.rb = 24) → ea % 64 = 0 → s.dev.leads t ea .w = (some (.ok fpa), d) →
    (ldecomp (d.grLine t f.rb) (d.gr t f.rc).toNat = none →
      exec (.ldecomp t f) s = .next (s.after ((d.updStr t fun x => x.withV false).primNext t false))) ∧
    (∀ y, ldecomp (d.grLine t f.rb) (d.gr t f.rc).toNat = some y →
      exec (.ldecomp t f) s = .next (s.after
        (((d.updStr t fun x => x.withV true).frEvent (d.physOf t) 12 1).stGo t fpa ea (lineBytes y)))))

/-! ## Ports and links (R123–R160) -/

/-- PORT_ENABLE to RTS, CREDIT_TIMEOUT, RETRAIN_TIMEOUT, the path rows and PEER_LOST. How a path's return and its loss reach waiting
messages, the rows of training with their contents, and what of CFG is taken under EN are the model's choices (log entries 42, 55, 56
and 146). -/
def Obligations.PortsComplete : Prop :=
  ∀ (s : State) (p : Fin 96), s.dev.fdUp = true →
    let d := s.dev
    let link := d.f (PORT.STAT.LINK p)
    let is := fun (i : Instr) (e : Dev) => exec i s = .next (s.after e)
    let up := 2 ≤ link ∧ link ≤ 4
    (∀ v : Word, d.safe = false → link ≠ 5 → v.getLsbD 17 = false →
      (d.fb (PORT.CFG.EN p) = false → 1 ≤ getBits v 0 3 → getBits v 0 3 ≤ 3 → getBits v 3 3 ≤ 2 → getBits v 6 2 ≤ 2 →
        p.val ≠ d.mgrPort ∨ getBits v 0 3 ≠ 3 →
        (∀ q, q < 96 → q ≠ p.val → d.fb (PORT.CFG.EN q) = true → d.f (PORT.CFG.HOSTID q) ≠ getBits v 8 6) →
        ∃ u, exec (.portEnable p v) s = .next u ∧ u.dev.fb (PORT.CFG.EN p) = true ∧ u.dev.f (PORT.CFG.MODE p) = getBits v 0 3 ∧
          u.dev.f (PORT.CFG.WIDTH p) = getBits v 3 3 ∧ u.dev.f (PORT.CFG.HOSTID p) = getBits v 8 6 ∧ u.dev.f (PORT.STAT.LINK p) = 1) ∧
      (d.fb (PORT.CFG.EN p) = true →
        ∃ e : Dev, e.fb (PORT.CFG.EN p) = false ∧ e.f (PORT.STAT.LINK p) = link ∧ is (.portDisable p v) (e.linkDown p 7))) ∧
    (∀ v : Word, d.safe = false → link ≠ 5 → d.fb (PORT.CFG.EN p) = true → v.getLsbD 15 = true →
      ∃ e : Dev, e.fb (PORT.CFG.EN p) = true ∧ e.f (PORT.STAT.LINK p) = link ∧
        is (.portReset p v) (if link = 0 then e.trainStart p else e.linkDown p 6)) ∧
    (∀ (w : BitVec 3) (rate : BitVec 2) (rev : Bool) (pol lact : BitVec 16) (lwc : Bool), link = 1 → (d.lnk p).due = false →
      let most := min w.toNat (d.f (PORT.CFG.WIDTH p))
      let up := fun (q : LinkPartner) => Instr.linkUp p w rate rev pol lact lwc q
      (d.f (PORT.CFG.MODE p) ≠ 4 →
        let set := trainSet (lact.toNat &&& d.lanesMax p) most
        (set ≠ 0 → ∃ u, exec (up .flit) s = .next u ∧ u.dev.f (PORT.STAT.LINK p) = 2 ∧
          u.dev.f (PORT.STAT.CWIDTH p) = maskWidth set ∧ u.dev.f (PORT.LANE.LACT p) = set) ∧
        is (up .unlisted) d ∧ is (up .noFlit) (d.setF (PORT.STAT.ERR p) 5)) ∧
      ∀ q : LinkPeer, d.f (PORT.CFG.MODE p) = 4 → (d.lnk p).peer = some q → q.cred ≠ [] → q.dev ≠ d.devId →
        let set := trainSet (lact.toNat &&& d.lanesMax p) (min most q.width)
        ∀ r, set ≠ 0 → rateSet (min rate.toNat (d.f (PORT.CFG.RATE p))) q.rates = some r →
        ∃ u, exec (up .flit) s = .next u ∧ u.dev.f (PORT.STAT.LINK p) = 2 ∧ u.dev.f (PORT.STAT.CRATE p) = r ∧
          (u.dev.lnk p).txMask = set ∧ (u.dev.lnk p).rxMask = set ∧ (u.dev.lnk p).replay = []) ∧
    is (.linkDown p true) (d.linkDown p 8) ∧ is (.linkDown p false) (d.linkDown p 9) ∧ is (.l0Timeout p) (d.linkDown p 10) ∧
    is (.signalLoss p) (d.linkDown p 4) ∧
    (∀ vc : Fin 7, d.linkRuns p = true → Tbl.get 0 (d.lnk p).cred vc = 0 → (d.lnk p).txq.any (·.1 == vc.val) = true →
      is (.creditTimeout p vc) (d.linkDown p 1)) ∧
    (link = 3 → d.f (PORT.CFG.MODE p) = 4 → is (.retrainTimeout p) (d.linkDown p 3)) ∧
    (∀ why, why < 16 → up → d.f (PORT.CFG.MODE p) = 4 → d.fb (PORT.CFG.EN p) = false →
      let u := d.linkDown p why
      u.f (PORT.STAT.LINK p) = 0 ∧ u.f (PORT.STAT.DWHY p) = why ∧ u.f (PORT.LANE.LACT p) = 0 ∧ u.lnk p = Link.none) ∧
    (∀ l : Fin 16, up → (d.lanesAll p).testBit l = true →
      let fail := setBitN (d.f (PORT.LANE.LFAIL p)) l
      let set := laneSet (d.lanesAll p) fail
      let c := d.setF (PORT.LANE.LFAIL p) fail
      (set = 0 → is (.laneFail p l) (c.linkDown p 8)) ∧
      (set ≠ 0 → d.f (PORT.CFG.MODE p) = 1 → is (.laneFail p l)
        ((((c.setF (PORT.LANE.LACT p) set).setF (PORT.STAT.CWIDTH p) (maskWidth set)).raise (4 * p + 1) (maskWidth set + fail * 8)).retrain
          p set 3 0 true))) ∧
    (∀ (x : BitVec 256) (t : Tos), tosRead x = some t → d.f (PORT.CFG.MODE p) = 4 →
      (link = 1 → t.devid ≠ d.devId →
        (t.kind = 0x1E → ∃ u q, exec (.ts1 p x) s = .next u ∧ (u.dev.lnk p).peer = some q ∧ q.dev = t.devid ∧ q.port = t.port) ∧
        (t.kind = 0x2D → ∃ u q, exec (.ts2 p x) s = .next u ∧ (u.dev.lnk p).peer = some q ∧ q.dev = t.devid ∧ q.cred = t.cred)) ∧
      (t.kind = 0x4B → (link = 2 → is (.rts p x) (d.retrain p t.lmask 4 t.aseq false).againGo) ∧
        ∀ a, link = 3 → (d.lnk p).act = some a → a.own = false → is (.rts p x) (d.retrained p t.lmask t.nextrx).againGo)) ∧
    (∀ (v : Fin 8) (m : Msg) (q : Nat), d.coh.rem = [(96, m)] → d.coh.again = [] → agDev m.dst = v →
      let late := d.coh.late.filter (·.2 != m)
      let c : Dev := { d with coh := { d.coh with rem := [], late := late } }
      let a : Msg := { op := opDataS, psn := true, addr := m.addr, tag := m.tag, src := m.dst, dst := m.src }
      (agDev m.src = d.devId → msgAnswered m = true → d.peerPort m 96 = some q →
        (d.tooLate m = false → is (.pathReissue v)
          ({ d with coh := { d.coh with rem := [(q, m)], late := late } }.linkSend q (msgVc m) (msgPack m))) ∧
        (d.tooLate m = true → is (.pathReissue v) d)) ∧
      (m.op = opRdS → (isOwn (agId m.src) = false → is (.pathLost m) (c.shadowResp a)) ∧
        (isOwn (agId m.src) = true → is (.pathLost m) (c.ownAnswer a))) ∧
      (m.op = opSnpI → is (.peerLost v) ({ d with coh := { d.coh with rem := [] } }.departPeer v))) ∧
    ∀ (src : BitVec 13) (tag : BitVec 12),
      let e : Dev := { d with coh := { d.coh with dup := d.coh.dup.filter fun e => !(e.1.src == src && e.1.tag == tag && e.2.isSome) } }
      is (.dupEntryExpire src tag) ((d.link.map (·.1)).foldl Dev.rxDrain e) ∧
      (d.link.all (fun x => x.2.rxb.isEmpty) = true → ∃ u, exec (.dupEntryExpire src tag) s = .next u ∧ u.dev.coh = e.coh)

/-- FLIT_RECEIVE to HALF_RECAL_DONE. That a flit's reissued messages let new ones follow, one message to a flit, and the partner's
answer to L0p as a free value are the model's choices (log entries 42, 52, 53 and 55). -/
def Obligations.LinkLayerCompletes : Prop :=
  ∀ (s : State) (p : Fin 96),
    let d := s.dev
    let l := d.lnk p
    let link := d.f (PORT.STAT.LINK p)
    let is := fun (i : Instr) (e : Dev) => exec i s = .next (s.after e)
    (d.linkRuns p = true →
      (∀ x : BitVec 1024, d.f (PORT.CFG.MODE p) = 4 →
        let y := flitFix (flitMerge (popN 16 l.rxMask) x)
        let b := y.1
        let hdr := leNat (b.take 4)
        let c := (d.count (8 * p + 2) 1).count (8 * p + 6) y.2
        let crc := crc64 (leBytes 4 l.rxSeq ++ b.take 114)
        (crc ≠ leNat ((b.drop 114).take 8) → l.disc = false → exec (.flitReceive p x) s = .next (s.after
          (((c.setLnk p { l with disc := true, nak := true }).count (8 * p + 5) 1).flitTx p l.txMask l.txSeq 0 0 []).againGo)) ∧
        (crc = leNat ((b.drop 114).take 8) → bitsN hdr 3 3 = 1 → hdr.testBit 17 = false →
          let e := c.setLnk p { l with disc := false, rxSeq := (l.rxSeq + 1) % 2 ^ 32 }
          let acked := if hdr.testBit 18 then ((e.ackFlits p (bitsN hdr 19 12)).actCheck p).rxDrain p else e
          exec (.flitReceive p x) s = .next (s.after
            (((acked.updLnk p fun x => { x with cred := Tbl.upd 0 x.cred (bitsN hdr 8 3) (· + bitsN hdr 11 6) }).flitBody p
              (bitsN hdr 0 3) 1 ((b.drop 4).take 110)).linkFlush p).againGo)) ∧
        (∀ xs f ys, crc = leNat ((b.drop 114).take 8) → bitsN hdr 3 3 = 0 → hdr.testBit 18 = true → d.coh.again = [] →
          l.act = none → l.rxb = [] → l.txq = [] → l.owed = [] → l.nak = false → l.watch = false → l.wrep = [] →
          l.replay = xs ++ f :: ys → f.1 % 4096 = bitsN hdr 19 12 → (∀ g ∈ xs, g.1 % 4096 ≠ bitsN hdr 19 12) →
          let again := fun (g : Nat × Nat × Nat × List Byte) => Out.flit p (flitStripe l.txMask (flitMake g.1
            (g.2.2.1 + g.2.1 * 8 + 2 ^ 18 + (l.rxSeq + 4095) % 4096 * 2 ^ 19) g.2.2.2))
          ∃ u, exec (.flitReceive p x) s = .next u ∧ (u.dev.lnk p).replay = ys ∧ (u.dev.lnk p).rxSeq = l.rxSeq ∧
            (hdr.testBit 17 = false → u.dev.out = d.out ∧ (u.dev.lnk p).rep = 0) ∧
            (hdr.testBit 17 = true → 0 < d.f (PORT.TMR.NREPLAY p) → u.dev.out = d.out ++ ys.map again ∧ (u.dev.lnk p).rep = 1))) ∧
      (∀ (vc : Fin 7) (n : BitVec 6),
        exec (.credit p vc n) s = .next (s.after
          ((d.setLnk p { l with cred := Tbl.upd 0 l.cred vc.val (· + n.toNat) }).linkFlush p).againGo) ∧
        (l.txq = [] → d.coh.again = [] → ∃ u, exec (.credit p vc n) s = .next u ∧ u.dev.out = d.out ∧
          ∀ v, Tbl.get 0 (u.dev.lnk p).cred v = Tbl.get 0 l.cred v + if v = vc.val then n.toNat else 0)) ∧
      (l.replay ≠ [] → l.rep < d.f (PORT.TMR.NREPLAY p) → l.watch = false → l.wrep = [] → is (.ackTimeout p)
        (((d.setLnk p { l with rep := l.rep + 1 }).count (8 * p + 3) 1).flitReplay p)) ∧
      (∀ c : LinkCtl,
        (l.act = none → c.action = 1 →
          exec (.lreq p c) s = .next (s.after
            (let a : LinkAct := ⟨1, c.aseq.toNat, c.lmask.toNat, false, false, false, false, none⟩
             (d.setLnk p { l with act := some a, adds := 0 }).respond p a)) ∧
          ∃ u a, exec (.lreq p c) s = .next u ∧ (u.dev.lnk p).act = some a ∧ a.code = 1 ∧ a.aseq = c.aseq.toNat ∧
            a.mask = c.lmask.toNat ∧ a.own = false ∧ a.lack = true ∧ a.sent = true) ∧
        ∀ a, l.act = some a → a.code ≠ 3 →
          (a.own = true → a.lack = false → a.aseq = c.aseq.toNat →
            (c.action = 4 → l.locked a = true →
              exec (.lack p c) s = .next (s.after (d.lswitchSend p { a with lack := true })) ∧
              ∃ u b, exec (.lack p c) s = .next u ∧ (u.dev.lnk p).act = some b ∧ b.lack = true ∧ b.sent = true ∧ b.mask = a.mask) ∧
            (c.action = 4 → l.locked a = false →
              exec (.lack p c) s = .next (s.after (d.setLnk p { l with act := some { a with lack := true } }))) ∧
            (c.action ≠ 4 → l.due = false → ∃ u, exec (.lack p c) s = .next u ∧ (u.dev.lnk p).act = none ∧
              (u.dev.lnk p).txMask = l.txMask ∧ (u.dev.lnk p).rxMask = l.rxMask)) ∧
          (a.got = false →
            let e := d.setLnk p { l with rxMask := c.lmask.toNat, act := some { a with got := true } }
            (a.lsw = none → exec (.lswitch p c) s = .next (s.after e)) ∧
            ∀ q m, a.lsw = some (q, m) →
              ((∃ f ∈ l.replay, f.1 = q) → exec (.lswitch p c) s = .next (s.after e)) ∧
              ((∀ f ∈ l.replay, f.1 ≠ q) → exec (.lswitch p c) s = .next (s.after (e.actDone p { a with got := true })))))) ∧
    (l.owed ≠ [] → exec (.creditCtrlSend p) s = .next (s.after (d.ctrlSend p 1 (d.f (PORT.STAT.CWIDTH p)) 0 0 l.txMask))) ∧
    (∀ v k r, l.owed = (v, k) :: r → d.linkRuns p = true → l.txq = [] → l.replay.length < 512 →
      let bs := ([1, d.f (PORT.STAT.CWIDTH p), d.devId, p.val, 0, 0].map (BitVec.ofNat 8)) ++ leBytes 2 l.txMask
      ∃ u, exec (.creditCtrlSend p) s = .next u ∧
        u.dev.out = d.out ++ [.flit p (flitStripe l.txMask (flitMake l.txSeq (l.header 7 2) bs))] ∧
        Tbl.get 0 (u.dev.lnk p).owed v = k - min 63 k ∧ (u.dev.lnk p).txSeq = (l.txSeq + 1) % 2 ^ 32 ∧
        (u.dev.lnk p).replay = l.replay ++ [(l.txSeq, 2, 7, bs)]) ∧
    (∀ (x : BitVec 256) (t : Tos) (a : LinkAct), tosRead x = some t → t.kind = 0x78 → l.act = some a → a.code ≠ 3 → a.aseq = t.aseq →
      let y := { l with adds := setBitN l.adds t.lane }
      (y.locked a = false ∨ (a.own = true ∧ (a.lack = false ∨ a.sent = true)) →
        exec (.addOrderedSet p x) s = .next (s.after (d.setLnk p y))) ∧
      (y.locked a = true → a.own = true → a.lack = true → a.sent = false →
        exec (.addOrderedSet p x) s = .next (s.after ((d.setLnk p y).lswitchSend p a))) ∧
      (y.locked a = true → a.own = false → a.lack = false →
        exec (.addOrderedSet p x) s = .next (s.after ((d.setLnk p y).respond p a)))) ∧
    (∀ a, l.act = some a → a.code ≠ 3 → link ≠ 4 → l.due = false → ∃ u, exec (.widthChangeTimeout p) s = .next u ∧ (u.dev.lnk p).act = none ∧
      (u.dev.lnk p).txMask = d.f (PORT.LANE.LACT p) ∧ (u.dev.lnk p).rxMask = d.f (PORT.LANE.LACT p)) ∧
    (∃ u, exec (.retrainWatchExpire p) s = .next u ∧ (u.dev.lnk p).watch = false ∧ (u.dev.lnk p).wrep = []) ∧
    (let mask := d.f (PORT.LANE.LACT p)
     link = 2 → d.f (PORT.CFG.MODE p) = 1 → l.act = none → 2 ≤ (onesN 16 mask).length → d.f (PORT.LANE.LFAIL p) = 0 →
      d.fb (PORT.STAT.LWC p) = true →
      let c : Dev := { d with fresh := d.fresh + 1 }
      let e := if Config.freeBits d.fresh = 0 then c.calSkip p
        else ((c.setF (PORT.STAT.LINK p) 4).setLnk p { l with cal := 2, full := mask }).setWidth p (lowerHalf mask)
      (d.fdUp = true → d.safe = false → is (.linkCalNow p) e) ∧ (d.fb (PORT.CFG.CALEN p) = true → is (.linkCalPeriod p) e)) ∧
    (∀ (i : Fin 16) (hm : BitVec 6) (vm : BitVec 8),
      let e := (d.setF (PORT.EYE.HM p i) hm.toNat).setF (PORT.EYE.VM p i) vm.toNat
      (hm = 0 → is (.eyeSweep p i hm vm) (e.laneFail p i)) ∧
      (hm ≠ 0 → d.f (PORT.CAL.DRIFT p) = 0 → ∃ u, exec (.eyeSweep p i hm vm) s = .next u ∧
        u.dev.f (PORT.EYE.HM p i) = hm.toNat ∧ u.dev.f (PORT.EYE.VM p i) = vm.toNat ∧ u.dev.f (PORT.STAT.LINK p) = link)) ∧
    (d.f (PORT.CFG.MODE p) = 1 →
      (l.cal = 2 → is (.halfRecalDone p) ((d.setLnk p { l with cal := 4 }).setWidth p (upperHalf l.full))) ∧
      (l.cal = 4 → is (.halfRecalDone p) ((d.setWidth p l.full).calEnd p)))

/-- Packing and unpacking agree (R72, R138, R143). -/
def Obligations.MessagesReadBackAsSent : Prop :=
  (∀ m : Msg, m.op ∈ msgCodes →
    let u := msgUnpack (msgPack m)
    u.op = m.op ∧ u.src = m.src ∧ u.dst = m.dst ∧ u.tag = m.tag ∧ u.addr = m.addr ∧ msgFields u = msgFields m) ∧
  ∀ t : Tos, t.kind ∈ tosKinds → t.lane < 16 → t.rates < 8 → t.rate < 3 → t.width ≤ 4 → t.devid < 8 → t.port < 128 → t.action ≤ 5 →
    t.aseq < 256 → t.cred.length = 8 → (∀ c ∈ t.cred, c < 2 ^ 16) → t.lmask < 2 ^ 16 → t.nextrx < 2 ^ 12 →
    (t.preset ≤ 10 ∨ t.preset = 255) → tosRead (tosMake t) = some t

/-! ## Work queues, windows and the dispatcher (R164–R166, R257–R279) -/

/-- The dispatcher's four sources, and the registers of a queue. The order in which a sorus takes from its sources, and the strand's
number that each command carries, follow log entry 53; which agent the dispatcher's own accesses carry is log entry 152; both are the
model's choices. -/
def Obligations.DispatcherTakesWork : Prop :=
  (∀ (s : State) (n : BitVec 12) (w : BitVec 6) (t : StrandIx) (cmd : Line), s.dev.fdUp = true →
    let d := s.dev
    let x := d.win n.toNat w.toNat
    let spore := d.winF n.toNat w.toNat (SLICE.WIN.SPORE n.toNat w.toNat)
    let entry := d.winF n.toNat w.toNat (SLICE.WIN.ENTRY n.toNat w.toNat)
    let c := Instr.dispatchWindow n w t
    x.cmd = some cmd →
    (d.safe = true → exec c s = .next (s.after
      ((d.setWin n.toNat w.toNat { x with cmd := none }).winDone n.toNat w.toNat 0x84 0 (winRecord 0x84 [])))) ∧
    (d.safe = false → t.val ∈ d.freeStrands (sorusOf t) →
      d.turnOf (sorusOf t) 1 (n.toNat * 64 + w.toNat) (d.winsFor (sorusOf t)) = true →
      (d.sporeOk (sorusOf t) spore entry n.toNat false = false →
        ∃ u, exec c s = .next (s.after u) ∧ (u.win n.toNat w.toNat).cmd = none ∧
          (u.win n.toNat w.toNat).status = 0x86 ∧ (u.win n.toNat w.toNat).state = 2) ∧
      (d.sporeOk (sorusOf t) spore entry n.toNat false = true →
        ∃ u, exec c s = .next u ∧ (u.dev.win n.toNat w.toNat).cmd = none ∧
          (u.dev.str t).live = true ∧ (u.dev.str t).priv = false ∧ (u.dev.str t).slice = n.toNat ∧
          (∀ i, i < 8 → (u.dev.str t).g (8 + i) = w64 (bitsN cmd.toNat (64 * i) 64)) ∧
          (u.dev.str t).cf = 0 ∧ (u.dev.str t).work.slot = .win n.toNat w.toNat))) ∧
  (∀ (s : State) (n : Fin 32) (c : BitVec 8) (t : StrandIx), s.dev.fdUp = true → s.dev.safe = false → sorusOf t = n.val →
    let d := s.dev
    d.chDue n c.toNat = true → d.chSporeOk n c.toNat = true → t.val ∈ d.freeStrands n.val → d.windowWaits n = false →
    d.turnOf n 2 c.toNat (d.chansFor n) = true →
    ∃ u, exec (.dispatchStartChannel n c t) s = .next u ∧ (u.dev.str t).live = true ∧
      (u.dev.str t).priv = d.fb (SORUS.CHCFG.PRIV n c.toNat) ∧ (u.dev.str t).slice = d.f (SORUS.CHCFG.SLICE n c.toNat) ∧
      (u.dev.str t).work.kind = 2 ∧ (u.dev.str t).work.src = c.toNat) ∧
  (∀ (s : State) (n q : Nat) (t : StrandIx) (c : Instr) (bs : List Byte) (e : Dev),
    ((n = mgrN ∧ q = 0 ∧ c = .dispatchManager t) ∨ ∃ (a : BitVec 12) (b : Fin 8), n = a.toNat ∧ q = b.val ∧ c = .dispatchSq a b t) →
    let d := s.dev
    let head := d.f (SLICE.SQB.HEAD n q)
    let w := leNat bs
    let spore := bitsN w 16 10
    let read := ({ d with coh := { d.coh with need := none } } : Dev).sqRead n q (sorusUnit (sorusOf t))
    let g := if n = mgrN then e else e.turned (sorusOf t) 3 (n * 8 + q)
    let is := fun (u : Dev) => exec c s = .next (s.after { u with coh := { u.coh with need := d.coh.need } })
    d.fdUp = true → d.sqReady n q = true → e.coh.need = none →
    (read = (none, e) → is (e.sqStop n q 7 head)) ∧
    (read = (some bs, e) →
      (e.sqCheck n w ≠ 0 → is (e.sqStop n q (e.sqCheck n w) head)) ∧
      (e.sqCheck n w = 0 → e.sqStrand n q t = false → is e) ∧
      (e.sqCheck n w = 0 → e.sqStrand n q t = true →
        (g.sporeOk (sorusOf t) spore (bitsN w 1 3) n (n == mgrN) = false → is (g.sqStop n q 5 head)) ∧
        (g.sporeOk (sorusOf t) spore (bitsN w 1 3) n (n == mgrN) = true →
          (g.sporeFull (sorusOf t) spore = true → is g) ∧
          ∀ (ok : Bool) (h : Dev), g.sporeFull (sorusOf t) spore = false →
            (if bitsN w 9 1 = 1 then g.cqReserve n (bitsN w 32 3) else (true, g)) = (ok, h) →
            (ok = false → is h) ∧
            (ok = true →
              let k : Work := { Work.none with
                kind := if n = mgrN then 3 else 0, src := q, slice := if n = mgrN then 0 else n, spore := spore
                entry := bitsN w 1 3, idx := h.f (SLICE.SQB.HEAD n q), cookie := bitsN w 64 32, idem := decide (bitsN w 8 1 = 1)
                slot := if bitsN w 9 1 = 0 then .none else if n = mgrN then .mgr else .cq n (bitsN w 32 3)
                body := cmdWords (BitVec.ofNat 512 w) }
              let h := if h.safe then h.complete (sorusUnit (sorusOf t)) k 0x84 0 [] [] else h.startWork t k (n == mgrN)
              let h : Dev := { h with wq := { h.wq with
                sqRot := Tbl.put 0 h.wq.sqRot (n * 8 + q) ((sorusOf t + 1) % 32)
                sqOwn := Tbl.put 0 h.wq.sqOwn (n * 8 + q) (1 + w % 256) } }
              is ((if n = mgrN then h else h.countSlice n 0 1).sqDisown n q)))))) ∧
  (∀ (d : Dev) (n q v : Nat), Tbl.get 0 d.wq.sqOwn (n * 8 + q) = v + 1 →
    let head := d.f (SLICE.SQB.HEAD n q)
    let pos := head % 2 ^ d.sqLog n q * 64
    let b : Byte := BitVec.ofNat 8 v &&& 0xFE
    let on := fun (e : Dev) => ({ e with wq := { e.wq with
      sqOwn := Tbl.put 0 e.wq.sqOwn (n * 8 + q) 0 } } : Dev).setF (SLICE.SQB.HEAD n q) ((head + 1) % 65536)
    (n = mgrN → d.sqDisown n q = on { d with wq := { d.wq with mgr := Tbl.put 0 d.wq.mgr (0x4000 + pos) b } }) ∧
    (n ≠ mgrN →
      let made := d.tryOwn fun d => d.sliceWrite (.sq n q) (12 + (Tbl.get 0 d.wq.sqRot (n * 8 + q) + 31) % 32) n
        (d.f (SLICE.SQA.BASE n q) * 1024 + pos) dispAgent [b]
      d.sqDisown n q = if made.1.isSome then on made.2 else made.2)) ∧
  (∀ (s : State) (n : BitVec 12) (q : Fin 8) (v : Word), s.dev.fdUp = true → s.dev.safe = false →
    let a := n.toNat
    let b := q.val
    (s.dev.fb (SLICE.SQA.EN a b) = false → v.getLsbD 0 = true → s.dev.queuesOn 0x100 < 16384 →
      ∃ u, exec (.sqaWrite n q v) s = .next u ∧ u.dev.fb (SLICE.SQA.EN a b) = true ∧ u.dev.f (SLICE.SQB.POOL a b) = 0 ∧
        u.dev.f (SLICE.SQB.STATE a b) = 1 ∧ u.dev.f (SLICE.SQB.HEAD a b) = 0 ∧ u.dev.f (SLICE.SQB.TAIL a b) = 0 ∧
        u.dev.f (SLICE.SQA.BASE a b) = getBits v 10 38 ∧
        (4 ≤ getBits v 1 4 → u.dev.f (SLICE.SQA.LOGSZ a b) = getBits v 1 4)) ∧
    (s.dev.fb (SLICE.SQA.EN a b) = true → v.getLsbD 0 = false →
      ∃ u, exec (.sqaWrite n q v) s = .next u ∧ u.dev.fb (SLICE.SQA.EN a b) = false ∧ u.dev.f (SLICE.SQB.STATE a b) = 0) ∧
    (s.dev.fb (SLICE.CQA.EN a b) = false → v.getLsbD 0 = true → s.dev.queuesOn 0x180 < 16384 →
      ∃ u, exec (.cqaWrite n q v) s = .next u ∧ u.dev.fb (SLICE.CQA.EN a b) = true ∧ u.dev.f (SLICE.CQB.POOL a b) = 0 ∧
        u.dev.f (SLICE.CQB.HEAD a b) = 0 ∧ u.dev.f (SLICE.CQB.TAIL a b) = 0 ∧ u.dev.f (SLICE.CQB.RSV a b) = 0 ∧
        u.dev.f (SLICE.CQA.BASE a b) = getBits v 9 39 ∧
        (4 ≤ getBits v 1 4 → u.dev.f (SLICE.CQA.LOGSZ a b) = getBits v 1 4)) ∧
    (s.dev.fb (SLICE.SQA.EN a b) = false → v.getLsbD 0 = true → 16384 ≤ s.dev.queuesOn 0x100 →
      ∃ u, exec (.sqaWrite n q v) s = .next u ∧ u.dev.fb (SLICE.SQA.EN a b) = false ∧ u.dev.f (SLICE.SQB.POOL a b) = 1))

/-- CQPOST, EVRAISE, WAIT, MPUSET and MPULOCK. The order of an instruction's checks follows log entry 63, that EVRAISE acts after the
strand's earlier stores log entry 66, the order of MPUSET's checks log entry 70 and that only enabled entries overlap log entry 71;
these four are the model's reading of the rules, not their words. -/
def Obligations.PostsRaisesAndWaitsComplete : Prop :=
  (∀ (s : State) (t : StrandIx) (f : FX), s.dev.issues t = true →
    let d := s.dev
    let x := d.str t
    let g := fun (r : BitVec 5) => x.g r.toNat
    let flag := fun (b : Bool) (e : Dev) => s.after ((e.updStr t fun y => y.withV b).next t)
    (d.sbOwn t = false → f.rd = 0 → f.rc = 0 →
      let res := if f.ra = 0 then List.replicate 64 0 else d.grLine t f.ra
      (f.ra = 0 ∨ f.ra = 8 ∨ f.ra = 16 ∨ f.ra = 24) →
      (x.work.slot ≠ .none → x.posted = false →
        let e := (d.sporePost t (getBits (g f.rb) 0 7) res).updStr t fun y => { y with posted := true }
        exec (.cqpost t f) s = .next (s.after (e.next t)) ∧ exec (.cqpostEnd t f) s = .next (s.after ((e.next t).freeStr t))) ∧
      (x.work.slot = .none →
        exec (.cqpost t f) s = .next (s.after (d.next t)) ∧ exec (.cqpostEnd t f) s = .next (s.after ((d.next t).freeStr t))) ∧
      (x.work.slot ≠ .none → x.posted = true →
        exec (.cqpost t f) s = .next (s.after (d.strandFault t cILLEGAL 0)) ∧
        exec (.cqpostEnd t f) s = .next (s.after ((d.next t).freeStr t)))) ∧
    (d.sbOwn t = false → f.rd = 0 → f.rc = 0 →
      (x.priv = true →
        ((g f.ra).toNat < 32 →
          exec (.evraiseSrc t f) s = .next (flag true (d.raise (992 + (g f.ra).toNat) (getBits (g f.rb) 0 32)))) ∧
        (32 ≤ (g f.ra).toNat → exec (.evraiseSrc t f) s = .next (flag false d))) ∧
      (x.priv = false → exec (.evraiseSrc t f) s = .next (s.after (d.strandFault t cPRIV 0))) ∧
      (f.rb = 0 →
        ((g f.ra).toNat < 16 → exec (.evraiseVec t f) s = .next (flag true (d.raiseVec x.slice (g f.ra).toNat))) ∧
        (16 ≤ (g f.ra).toNat → exec (.evraiseVec t f) s = .next (flag false d)))) ∧
    (f.rd = 0 → f.rb = 0 → f.rc = 0 →
      (g f.ra = 0 → exec (.waitT t f) s = .next (s.after (d.next t))) ∧
      (g f.ra ≠ 0 → exec (.waitT t f) s = .next (s.after (d.waitOn t (.until (d.time + (g f.ra).toNat))))) ∧
      ((g f.ra).toNat ≤ d.time → exec (.waitUntil t f) s = .next (s.after (d.next t))) ∧
      (d.time < (g f.ra).toNat → exec (.waitUntil t f) s = .next (s.after (d.waitOn t (.until (g f.ra).toNat))))) ∧
    (f.rc.toNat ≤ 3 →
      let cs := ((onesN 64 (g f.ra).toNat).map (64 * f.rc.toNat + ·)).filter fun c => d.fb (SORUS.CHCFG.EN (sorusOf t) c)
      (x.priv = true ∨ ∀ c ∈ cs, d.f (SORUS.CHCFG.SLICE (sorusOf t) c) = x.slice) →
      (g f.ra = 0 → exec (.waitCh t f) s =
        .next (s.after ((d.updStr t fun y => y.withV false).give t f.rd.toNat (BitVec.allOnes 64)))) ∧
      ((∃ c ∈ cs, d.chUnread (sorusOf t) c = true) → ∃ c ∈ cs, d.chUnread (sorusOf t) c = true ∧
        (∀ c' ∈ cs, d.chUnread (sorusOf t) c' = true → c ≤ c') ∧
        exec (.waitCh t f) s = .next (s.after ((d.updStr t fun y => y.withV true).give t f.rd.toNat (w64 c)))) ∧
      (g f.ra ≠ 0 → (∀ c ∈ cs, d.chUnread (sorusOf t) c = false) → exec (.waitCh t f) s =
        .next (s.after (d.waitOn t (.waitCh f.rd.toNat cs (if g f.rb = 0 then 0 else d.time + (g f.rb).toNat)))))) ∧
    (x.priv = false →
      exec (.mpuset t f) s = .next (s.after (d.strandFault t cPRIV 0)) ∧
      exec (.mpulock t f) s = .next (s.after (d.strandFault t cPRIV 0))) ∧
    (x.priv = true → f.rc = 0 → (g f.ra).toNat < 256 →
      let i := (g f.ra).toNat
      let w0 := g f.rb
      let w1 := x.g (f.rb.toNat + 1)
      let w2 := x.g (f.rb.toNat + 2)
      let status := fun (e : Dev) (v : Nat) => s.after (e.give t f.rd.toNat (w64 v))
      (f.rb.toNat ≤ 29 → d.regBad w0 w1 w2 = true → exec (.mpuset t f) s = .next (status d 3)) ∧
      (f.rb.toNat ≤ 29 → d.regBad w0 w1 w2 = false → d.regionLocked i = true → exec (.mpuset t f) s = .next (status d 2)) ∧
      (f.rb.toNat ≤ 29 → d.regBad w0 w1 w2 = false → d.regionLocked i = false →
        (w0.getLsbD 0 = false ∨ d.regMeets i (regLo w0) (regHi w1) = none) →
        ∃ e, exec (.mpuset t f) s = .next (status e 0) ∧ e.reg (FPC.REGION0.WORD0 i) = w0 ∧
          e.reg (FPC.REGION1.WORD1 i) = w1 ∧ e.reg (FPC.REGION2.WORD2 i) = w2 ∧ e.fb (FPC.REGIONL.CHG i) = true) ∧
      (f.rb.toNat ≤ 29 → d.regBad w0 w1 w2 = false → d.regionLocked i = false → w0.getLsbD 0 = true →
        ∀ j, d.regMeets i (regLo w0) (regHi w1) = some j → ∃ e, exec (.mpuset t f) s = .next (status e (1 + j * 256)) ∧
          e.f FPC.OVL.NEW = i ∧ e.reg (FPC.REGION0.WORD0 i) = d.reg (FPC.REGION0.WORD0 i)) ∧
      (f.rb = 0 → d.regionLocked i = true → exec (.mpulock t f) s = .next (status d 0)) ∧
      (f.rb = 0 → d.regionLocked i = false → ∃ e, exec (.mpulock t f) s = .next (status e 0) ∧
        e.regionLocked i = true ∧ e.reg (FPC.REGION0.WORD0 i) = d.reg (FPC.REGION0.WORD0 i)))) ∧
  (∀ (s : State) (t : StrandIx), s.dev.fdUp = true →
    (∀ n, (s.dev.str t).wait = .until n → exec (.waitExpire t) s = .next (s.after (s.dev.next t))) ∧
    (∀ rd cs lim, (s.dev.str t).wait = .waitCh rd cs lim → lim ≠ 0 →
      exec (.waitExpire t) s = .next (s.after (s.dev.waitChEnd t rd cs))))

/-! ## Loading and channels (R170–R179, R213–R215) -/

/-- LOAD, UNLOAD and the channels of a sorus. The order of LOAD's checks and what ends it follow log entries 76 and 78, that an F image
is measured before its signature is checked log entry 150, which agent the loader is log entry 77, and that a field with no use is held
to be 0 log entry 145: the model's reading. -/
def Obligations.LoadsAndChannelsComplete : Prop :=
  (∀ (s : State) (n : Fin 32) (i : BitVec 10) (dest : BitVec 14) (loc : Bool) (lo hi : BitVec 12), s.dev.fdUp = true → s.dev.safe = false →
    let d := s.dev
    let ended := fun (u : State) (st : Nat) => u.dev.f (SORUS.LCTL.STATUS n) = st ∧ u.dev.fb (SORUS.LCTL.BUSY n) = false ∧
      u.dev.fb (EVT.ROUTE.PEND (384 + 6 * n.val + 4)) = true
    (d.fb (SORUS.LCTL.BUSY n) = false →
      let g := ((d.setReg (SORUS.LCTL.OP n) (putBits (putBits (d.reg (SORUS.LCTL.OP n)) 2 49
        (i.toNat + dest.toNat * 2 ^ 10 + b2n loc * 2 ^ 24 + lo.toNat * 2 ^ 25 + hi.toNat * 2 ^ 37)) 0 2 1)).setF
          (SORUS.LCTL.BUSY n) 1).setLoad n { LoadOp.none with wait := 3 }
      let e := Dev.loadGo s.fuse { g with coh := { g.coh with need := none } } n
      (g.f (SORUS.LCTL.INDEX n) = i.toNat ∧ g.f (SORUS.LCTL.DEST n) = dest.toNat ∧ g.fb (SORUS.LCTL.LOC n) = loc ∧
        g.f (SORUS.LCTL.SLO n) = lo.toNat ∧ g.f (SORUS.LCTL.SHI n) = hi.toNat) ∧
      (e.coh.need = none → exec (.load n i dest loc lo hi) s = .next (s.after { e with coh := { e.coh with need := d.coh.need } })) ∧
      (∀ o m, e.coh.need = some (o, m) → exec (.load n i dest loc lo hi) s = .next (s.after (g.ownSend o m))) ∧
      (d.fb (SORUS.SPTABA.V n i.toNat) = false → ∃ u, exec (.unload n i) s = .next u ∧ ended u 10) ∧
      (d.fb (SORUS.SPTABA.V n i.toNat) = true → d.sporeRun n i.toNat ≠ 0 → ∃ u, exec (.unload n i) s = .next u ∧ ended u 11 ∧
        u.dev.fb (SORUS.SPTABA.V n i.toNat) = true) ∧
      (d.fb (SORUS.SPTABA.V n i.toNat) = true → d.sporeRun n i.toNat = 0 → ∃ u, exec (.unload n i) s = .next u ∧ ended u 0 ∧
        u.dev.fb (SORUS.SPTABA.V n i.toNat) = false ∧
        (∀ b, b < 64 → b ≠ 0 → (u.dev.reg (SORUS.SPTABA.V n i.toNat)).getLsbD b = (d.reg (SORUS.SPTABA.V n i.toNat)).getLsbD b) ∧
        (∀ x ∈ u.dev.sor.l1i, x.1 / 2 ^ 47 / 9 ≠ n.val) ∧
        ∀ x ∈ d.sor.l1i, x.1 / 2 ^ 47 / 9 ≠ n.val → x ∈ u.dev.sor.l1i)) ∧
    (d.fb (SORUS.LCTL.BUSY n) = true →
      exec (.load n i dest loc lo hi) s = .next (s.after d) ∧ exec (.unload n i) s = .next (s.after d) ∧
      ((d.loadOp n).wait = 0 → (d.loadOp n).status < 32 →
        ∃ u, exec (.loadComplete n) s = .next u ∧ ended u (d.loadOp n).status ∧
          ((d.loadOp n).status = 0 → d.f (SORUS.LCTL.OP n) = 1 →
            let j := d.f (SORUS.LCTL.INDEX n)
            u.dev.fb (SORUS.SPTABA.V n j) = true ∧ u.dev.fb (SORUS.SPTABA.PRIV n j) = imgPriv (d.loadOp n).hdr ∧
            (Tbl.get (⟨[], []⟩ : Spore) u.dev.sor.spore (n * 1024 + j)).entry = imgEntries (d.loadOp n).hdr)) ∧
      (∀ o m, (d.loadOp n).wait = 3 →
        (Dev.loadGo s.fuse { d with coh := { d.coh with need := none } } n).coh.need = some (o, m) →
        exec (.loadComplete n) s = .next (s.after (d.ownSend o m))) ∧
      ((d.loadOp n).wait = 1 ∨ (d.loadOp n).wait = 5 → ∃ u, exec (.loadMeasureTimeout n) s = .next u ∧ ended u 8) ∧
      ((d.loadOp n).wait = 2 → ∃ u, exec (.loadSignatureTimeout n) s = .next u ∧ ended u 5))) ∧
  -- the steps of a load
  (∀ (fz : Fuse) (d : Dev) (n : Nat),
    let u := Dev.loadGo fz d n
    let fails := fun (e : Dev) (st : Nat) => u = e.setLoad n { LoadOp.none with status := st }
    let lo := fun (e : Dev) => e.f (SORUS.LCTL.SLO n)
    let hi := fun (e : Dev) => e.f (SORUS.LCTL.SHI n)
    (d.fb (SORUS.SPTABA.V n (d.f (SORUS.LCTL.INDEX n))) = true → fails d 1) ∧
    (d.fb (SORUS.SPTABA.V n (d.f (SORUS.LCTL.INDEX n))) = false →
      (∀ e, Dev.loadRead n 4 (d.f (SORUS.LSRC.FPA n)) d = (none, e) → fails e 9) ∧
      ∀ h e, Dev.loadRead n 4 (d.f (SORUS.LSRC.FPA n)) d = (some h, e) →
        let ranged := imgPriv h = true ∨ imgF h 48 2 ≤ lo e ∧ lo e ≤ hi e ∧ hi e ≤ imgF h 50 2
        let loc := d.fb (SORUS.LCTL.LOC n)
        (sporeHdrOk h loc = false → fails e 2) ∧
        (sporeHdrOk h loc = true → ¬ranged → fails e 3) ∧
        (sporeHdrOk h loc = true → ranged →
          let read := Dev.loadRead n ((imgClen h + 63) / 64) (d.f (SORUS.LSRC.FPA n) + 4) e
          (∀ e', read = (none, e') → fails e' 9) ∧
          ∀ bs e', read = (some bs, e') →
            let code := bs.take (imgClen h)
            let x : LoadOp := ⟨h, if loc then [] else code, 0, 0⟩
            (imgHash h code ≠ imgDigest h → fails e' 4) ∧
            (imgHash h code = imgDigest h →
              (policyAsks fz (imgPriv h) = false → u = Dev.loadPlace fz e' n x) ∧
              (policyAsks fz (imgPriv h) = true → imgPriv h = true →
                u = (e'.setLoad n { x with wait := 5 }).feSend 0x20 n ([3, 6] ++ imgDigest h)) ∧
              (policyAsks fz (imgPriv h) = true → imgPriv h = false → u = e'.loadCheck n x))))) ∧
  -- the answers that a load waits for
  (∀ (fz : Fuse) (d : Dev) (n : Nat) (dig : List Byte) (r : Nat),
    let x := d.loadOp n
    let ends := fun (st : Nat) => d.setLoad n { x with wait := 0, status := st }
    (imgSigned x.hdr = false → d.loadCheck n x = d.setLoad n { LoadOp.none with status := 5 }) ∧
    (imgSigned x.hdr = true → d.loadCheck n x = (d.setLoad n { x with wait := 2 }).feSend 0x21 n
      ([BitVec.ofNat 8 (b2n (!imgPriv x.hdr))] ++ imgDigest x.hdr ++ imgSig x.hdr)) ∧
    (imgDigest x.hdr = dig →
      (x.wait = 1 → d.loadMeasured n dig r = ends (if r = 0 then 0 else 8)) ∧
      (x.wait = 5 → d.loadMeasured n dig r = if r = 0 then d.loadCheck n x else ends 8) ∧
      (x.wait = 2 → r ≠ 0 → r ≠ 2 → Dev.loadChecked fz d n dig r = ends 5) ∧
      (x.wait = 2 → r = 0 ∨ r = 2 →
        let e := d.setLoad n { x with wait := 4 }
        let v := Dev.loadPlace fz { e with coh := { e.coh with need := none } } n { x with wait := 0 }
        v.coh.need = none → Dev.loadChecked fz d n dig r = { v with coh := { v.coh with need := d.coh.need } }))) ∧
  (∀ (fz : Fuse) (d : Dev) (n : Nat) (x : LoadOp),
    let u := Dev.loadPlace fz d n x
    let loc := d.fb (SORUS.LCTL.LOC n)
    let fab := d.allFab (d.loadBase n) (imgClen x.hdr)
    let free := d.storeFree n (d.loadBase n) (imgClen x.hdr)
    let put := if loc then d else d.putStore n (d.loadBase n) x.code
    (loc = true → fab = false → u = d.setLoad n { x with wait := 0, status := 7 }) ∧
    (loc = false → free = false → u = d.setLoad n { x with wait := 0, status := 6 }) ∧
    ((if loc then fab else free) = true →
      (imgPriv x.hdr = true → policyAsks fz true = false →
        u = (put.setLoad n { x with wait := 1, code := [] }).feSend 0x20 n ([3, 6] ++ imgDigest x.hdr)) ∧
      (imgPriv x.hdr = true → policyAsks fz true = true → u = put.setLoad n { x with wait := 0, code := [] }) ∧
      (imgPriv x.hdr = false → u = (put.loadLog n x.hdr).setLoad n { x with wait := 0, code := [] }))) ∧
  -- the channels
  (∀ (s : State) (n : Fin 32) (c : BitVec 8) (v : Word), s.dev.fdUp = true → s.dev.safe = false →
    let k := c.toNat
    let e := s.dev.chFields n k v
    (s.dev.fb (SORUS.CHCFG.EN n k) = false → v.getLsbD 0 = true → e.storeFree n (e.chBuf n k).1 (e.chBuf n k).2 = true →
      ∃ u, exec (.chcfgWrite n c v) s = .next u ∧ u.dev.fb (SORUS.CHCFG.EN n k) = true ∧
        u.dev.f (SORUS.CHSTAT.LOST n k) = 0 ∧ u.dev.ch n k = Chan.empty ∧ u.dev.f (SORUS.CHCFG.SLICE n k) = e.f (SORUS.CHCFG.SLICE n k)) ∧
    (s.dev.fb (SORUS.CHCFG.EN n k) = false → v.getLsbD 0 = true → e.storeFree n (e.chBuf n k).1 (e.chBuf n k).2 = false →
      ∃ u, exec (.chcfgWrite n c v) s = .next u ∧ u.dev.fb (SORUS.CHCFG.EN n k) = false ∧ u.dev.fb (SORUS.STAT.CFGERR n) = true) ∧
    (s.dev.fb (SORUS.CHCFG.EN n k) = false → v.getLsbD 0 = false →
      ∃ u, exec (.chcfgWrite n c v) s = .next u ∧ u.dev.csr = e.csr ∧ u.dev.fb (SORUS.CHCFG.EN n k) = false) ∧
    (s.dev.fb (SORUS.CHCFG.EN n k) = true → v.getLsbD 0 = true → exec (.chcfgWrite n c v) s = .next (s.after s.dev)) ∧
    (s.dev.fb (SORUS.CHCFG.EN n k) = true → v.getLsbD 0 = false →
      exec (.chcfgWrite n c v) s = .next (s.after ((s.dev.chOff n k).chFields n k v)))) ∧
  (∀ (s : State) (t : StrandIx) (f : FQ) (ind : Bool), s.dev.issues t = true →
    let d := s.dev
    let x := d.str t
    let n := sorusOf t
    let c := if ind = true then (x.g f.ch.toNat).toNat else f.ch.toNat
    let q := d.ch n c
    let a := x.g f.ra.toNat
    let setV := fun (b : Bool) (e : Dev) => e.updStr t fun y => y.withV b
    let take := ((d.setCh n c { q with r := q.r + 1 }).updStr t fun y => y.withV true).give t f.rd.toNat (d.chWord n c q.r)
    let idle := (setV false d).give t f.rd.toNat 0xFFFFFFFFFFFFFF00
    -- the instructions with the condition on their unused fields
    let forms : List (Instr × Bool) := [(.chput t f ind, f.rd == 0), (.chtry t f ind, f.rd == 0), (.chskip t f ind, f.rd == 0),
      (.chget t f ind, f.ra == 0), (.chcnt t f ind, f.ra == 0), (.chgetW t f ind, true),
      (.chmark t f ind, f.rd == 0 && f.ra == 0), (.chrewind t f ind, f.rd == 0 && f.ra == 0),
      (.chrelease t f ind, f.rd == 0 && f.ra == 0)]
    (∀ i ∈ forms, i.2 = false ∨ (ind = true ∧ 32 ≤ f.ch.toNat) → exec i.1 s = .next (s.after (d.strandFault t cILLEGAL 0))) ∧
    ((ind = true → f.ch.toNat < 32) →
      (255 < c ∨ d.fb (SORUS.CHCFG.EN n c) = false ∨ (x.priv = false ∧ d.f (SORUS.CHCFG.SLICE n c) ≠ x.slice)) →
      ∀ i ∈ forms, i.2 = true → exec i.1 s = .next (s.after (d.strandFault t cCHAN 0))) ∧
    ((ind = true → f.ch.toNat < 32) →
      c ≤ 255 → d.fb (SORUS.CHCFG.EN n c) = true → (x.priv = true ∨ d.f (SORUS.CHCFG.SLICE n c) = x.slice) →
      (f.rd = 0 → d.chFull n c = false →
        exec (.chput t f ind) s = .next (s.after ((d.chWrite n c a).next t)) ∧
        exec (.chtry t f ind) s = .next (s.after ((setV true (d.chWrite n c a)).next t))) ∧
      (f.rd = 0 → d.chFull n c = true →
        exec (.chput t f ind) s = .next (s.after (d.waitOn t (.chput c a))) ∧
        exec (.chtry t f ind) s = .next (s.after ((setV false d).next t))) ∧
      (q.r < q.w → exec (.chgetW t f ind) s = .next (s.after take) ∧
        (f.ra = 0 → exec (.chget t f ind) s = .next (s.after take))) ∧
      (q.w ≤ q.r →
        exec (.chgetW t f ind) s =
          .next (s.after (d.waitOn t (.chget f.rd.toNat c (if a = 0 then 0 else d.time + a.toNat)))) ∧
        (f.ra = 0 → exec (.chget t f ind) s = .next (s.after idle))) ∧
      (f.rd = 0 → f.ra = 0 →
        exec (.chmark t f ind) s = .next (s.after ((d.setCh n c { q with m := q.r }).next t)) ∧
        exec (.chrewind t f ind) s = .next (s.after (((d.setCh n c { q with r := q.m }).chArrived n c).next t)) ∧
        exec (.chrelease t f ind) s = .next (s.after ((d.setCh n c { q with f := q.r, m := q.r }).next t))) ∧
      (f.rd = 0 →
        let l := getBits (d.chWord n c (q.r - a.toNat)) 0 16
        let target := q.r - a.toNat + l
        let mayGo := a ≠ 0 ∧ d.chSpill n c = false ∧ a.toNat ≤ q.r - q.f ∧ a.toNat ≤ l
        (mayGo → exec (.chskip t f ind) s = .next (s.after ((d.setCh n c { q with
          r := min target q.w, f := min target q.w, m := min target q.w, skip := q.skip + (target - min target q.w) }).next t))) ∧
        (¬mayGo → exec (.chskip t f ind) s = .next (s.after (d.strandFault t cCHAN 0)))) ∧
      (f.ra = 0 → exec (.chcnt t f ind) s = .next (s.after (d.give t f.rd.toNat (w64 (q.w - q.r))))))) ∧
  (∀ (s : State) (t : StrandIx),
    (∀ c v, (s.dev.str t).wait = .chput c v → s.dev.chFull (sorusOf t) c = false →
      exec (.chputCreditResume t) s = .next (s.after ((s.dev.chWrite (sorusOf t) c v).next t))) ∧
    (∀ rd c lim, (s.dev.str t).wait = .chget rd c lim → lim ≠ 0 → (s.dev.ch (sorusOf t) c).w ≤ (s.dev.ch (sorusOf t) c).r →
      exec (.chgetWTimeout t) s =
        .next (s.after ((s.dev.updStr t fun y => y.withV false).give t rd 0xFFFFFFFFFFFFFF00))))

/-! ## Fencing, rotation and halting (R181–R187, R256) -/

/-- The watchdog, fencing, FSWAP, TROTATE and HALT. What a fencing without a spare does is log entry 20, that a fencing's spare is
not given away log entry 21, and that an unused field is held to be 0 log entry 145: the model's reading. -/
def Obligations.FencingAndRotationComplete : Prop :=
  (∀ (s : State) (t : StrandIx), s.dev.canHang t = true → exec (.watchdogHung t) s = .next (s.after (s.dev.hung t))) ∧
  (∀ (s : State) (n : Fin 32) (i : Fin 9) (l : Nat), s.dev.fdUp = true →
    let p := n.val * 9 + i.val
    Tbl.get 0 s.dev.sor.fencing p ≠ 0 → Tbl.get 0 s.dev.sor.swap n = 0 → s.dev.lfOn n i = some l →
    exec (.fenceComplete n i) s = .next (s.after (s.dev.fenceDone n i)) ∧
    (s.dev.fenceBehind n i = true → exec (.fenceComplete n i) s = .next (s.after s.dev)) ∧
    (s.dev.fenceBehind n i = false → s.dev.l1Lines p = [] → s.dev.lfStrands n l = [] → s.dev.f (SORUS.STAT.SPARE n) ≠ 0xF →
      ∃ u, exec (.fenceComplete n i) s = .next u ∧ Tbl.get 0 u.dev.sor.fencing p = 0 ∧
        u.dev.f (SORUS.LFMAP.PHYS n l) = s.dev.f (SORUS.STAT.SPARE n) ∧
        u.dev.f (SORUS.LFMAP.GEN n l) = (s.dev.f (SORUS.LFMAP.GEN n l) + 1) % 16 ∧ u.dev.f (SORUS.STAT.SPARE n) = 0xF ∧
        bitN (u.dev.f (SORUS.STAT.FENCED n)) i = true ∧ u.dev.f (SORUS.FENCE.LAST n) = i)) ∧
  (∀ (s : State) (n : Fin 32) (i : Fin 9), s.dev.fdUp = true → bitN (s.dev.f (SORUS.STAT.FENCED n)) i = true →
    ∃ u, exec (.fencedSendAttempt n i) s = .next u ∧
      u.dev.f (SORUS.FENCE.ATTEMPTS n) = min (2 ^ (SORUS.FENCE.ATTEMPTS n).w - 1) (s.dev.f (SORUS.FENCE.ATTEMPTS n) + 1)) ∧
  (∀ (s : State) (t : StrandIx) (f : FX), s.dev.issues t = true →
    let d := s.dev
    let n := (d.gr t f.ra).toNat
    let l := (d.gr t f.rb).toNat
    let ret := fun (e : Dev) (v : Nat) => s.after (e.give t f.rd.toNat (w64 v))
    ((d.str t).priv = false → ∀ c ∈ [Instr.fswap t f, .trotate t f, .halt t f, .haltClr t f],
      exec c s = .next (s.after (d.strandFault t cPRIV 0))) ∧
    ((d.str t).priv = true → f.rc = 0 →
      (n < 32 → l < 8 → d.rotBusy n = false →
        (d.spareFree n = false → exec (.fswap t f) s = .next (ret d 1)) ∧
        (d.spareFree n = true →
          ∃ u, exec (.fswap t f) s = .next u ∧ (u.dev.str t).wait = .swap f.rd.toNat n ∧
            Tbl.get 0 u.dev.sor.swap n = 1 + l ∧ ∀ v ∈ d.lfStrands n l, (u.dev.str v).held = true)) ∧
      (d.spareFree n = true → d.f (SORUS.STAT.SPARE n) ≠ 0xF ∧ ∀ j, j < 9 → Tbl.get 0 d.sor.fencing (n * 9 + j) = 0) ∧
      (n < 32 → l < 8 → d.rotBusy n = true → exec (.fswap t f) s = .next (ret d 2)) ∧
      (32 ≤ n ∨ 8 ≤ l → exec (.fswap t f) s = .next (ret d 3)) ∧
      (f.rb = 0 →
        (n < 32 → d.rotBusy n = false → d.spareFree n = true →
          ∃ e, exec (.trotate t f) s = .next (ret e 4) ∧ e.f (SORUS.STAT.ROT n) = 1 ∧
            Tbl.get 0 e.sor.rot n = 1 ∧ Tbl.get 0 e.sor.test n = 1 + d.f (SORUS.STAT.SPARE n)) ∧
        (n < 32 → d.rotBusy n = false → d.spareFree n = false → exec (.trotate t f) s = .next (ret d 1)) ∧
        (n < 32 → d.rotBusy n = true → exec (.trotate t f) s = .next (ret d 2)) ∧
        (32 ≤ n → exec (.trotate t f) s = .next (ret d 3)) ∧
        (n < 32 → n ≠ 0 → ∃ e, exec (.halt t f) s = .next (ret e (Tbl.get 0 d.sor.halt n * 256)) ∧ Tbl.get 0 e.sor.halt n = 1) ∧
        (n = 0 ∨ 32 ≤ n → exec (.halt t f) s = .next (ret d 3)) ∧
        (n < 32 → ∃ e, exec (.haltClr t f) s = .next (ret e (Tbl.get 0 d.sor.halt n * 256)) ∧ Tbl.get 0 e.sor.halt n = 0) ∧
        (32 ≤ n → exec (.haltClr t f) s = .next (ret d 3))))) ∧
  (∀ (s : State) (n : Fin 32) (l : Nat), s.dev.fdUp = true → l < 8 → Tbl.get 0 s.dev.sor.swap n = l + 1 →
    let i := s.dev.f (SORUS.LFMAP.PHYS n l)
    s.dev.migratable n l (n.val * 9 + i) = true →
    exec (.swapComplete n) s = .next (s.after (s.dev.swapDone n)) ∧
    (i < 9 → s.dev.l1Lines (n.val * 9 + i) = [] → s.dev.sor.strand = [] →
      ∃ u, exec (.swapComplete n) s = .next u ∧ Tbl.get 0 u.dev.sor.swap n = 0 ∧
        u.dev.f (SORUS.LFMAP.PHYS n l) = s.dev.f (SORUS.STAT.SPARE n) ∧ u.dev.f (SORUS.STAT.SPARE n) = i ∧
        bitN (u.dev.f (SORUS.STAT.UNTESTED n)) i = true)) ∧
  (∀ (s : State) (n : Fin 32) (i k : Nat), s.dev.fdUp = true → i < 9 → Tbl.get 0 s.dev.sor.test n = i + 1 →
    Tbl.get 0 s.dev.sor.rot n = k + 1 →
    (∃ u, exec (.selftestComplete n true) s = .next u ∧ bitN (u.dev.f (SORUS.STAT.UNTESTED n)) i = false ∧
      Tbl.get 0 u.dev.sor.test n = 0 ∧ (8 ≤ k → u.dev.f (SORUS.STAT.ROT n) = 2) ∧ (k < 8 → Tbl.get 0 u.dev.sor.swap n = 1 + k)) ∧
    (∃ u, exec (.selftestComplete n false) s = .next u ∧ bitN (u.dev.f (SORUS.STAT.FAILED n)) i = true ∧
      bitN (u.dev.f (SORUS.STAT.UNTESTED n)) i = false ∧
      u.dev.f (SORUS.STAT.SPARE n) = 0xF ∧ u.dev.f (SORUS.STAT.ROT n) = 3 ∧ Tbl.get 0 u.dev.sor.test n = 0))

/-! ## The queue manager (R242–R244, R280–R311) -/

/-- The commands of the queue manager. That a row carries the first cell of a run and the place where a spill looks is log entry 85, that
DEQ waits for a spilled head log entry 86, the order of a command's checks log entry 84, when a ring's write is tried again log entry 87,
and the scheduler's rotation log entry 89: the model's reading or choice. -/
def Obligations.QueueManagerCompletes : Prop :=
  (∀ (s : State) (t : StrandIx) (f : FX), s.dev.issues t = true →
    let d := s.dev
    let own := if (d.str t).priv = true then none else some (d.str t).slice
    let x := leNat (d.grLine t f.rb)
    let q := (d.gr t f.ra).toNat
    let names := (d.str t).priv = true ∨ d.qSlice q = (d.str t).slice
    let w := d.waitOn t (.enq f.rd.toNat)
    let w0 : Dev := { w with coh := { w.coh with need := none } }
    let is := fun (c : Instr) (e : Dev) => exec c s = .next (s.after { e with coh := { e.coh with need := d.coh.need } })
    (f.ra = 0 → f.rc = 0 → (f.rb = 8 ∨ f.rb = 16 ∨ f.rb = 24) → d.sbOwn t = false → d.qm.todo = [] →
      ((w0.enqueue own x).2.coh.need = none →
        is (.enq t f) ((w0.enqueue own x).2.qmResult ⟨false, own, x, 0, some t.val⟩ (w0.enqueue own x).1)) ∧
      ((w0.release own x).2.coh.need = none →
        is (.qrel t f) ((w0.release own x).2.qmResult ⟨true, own, x, 0, some t.val⟩ ((w0.release own x).1 * 2 ^ 16))) ∧
      ((d.str t).stop = 0 →
        (d.enqStatus own x ≠ 0 → exec (.enq t f) s =
          .next (s.after (w.primGiveV t f.rd.toNat (w64 (d.enqStatus own x * 2 ^ 16)) false))) ∧
        (d.relStatus own x ≠ 0 → exec (.qrel t f) s =
          .next (s.after (w.primGiveV t f.rd.toNat (w64 (d.relStatus own x * 2 ^ 16)) false))))) ∧
    (f.rb = 0 → f.rc = 0 → f.rd.toNat % 4 = 0 → f.rd ≠ 0 →
      let rd := f.rd.toNat
      let none' := fun (r : Word) => ∃ u, exec (.deq t f) s = .next u ∧ (u.dev.str t).g rd = r ∧ (u.dev.str t).g (rd + 1) = 0 ∧
        (u.dev.str t).g (rd + 2) = 0 ∧ (u.dev.str t).g (rd + 3) = 0 ∧ (u.dev.str t).cf.getLsbD 4 = false ∧ u.dev.qm = d.qm
      (131072 ≤ q → none' 3) ∧
      (q < 131072 → ¬names → none' 2) ∧
      (q < 131072 → names → d.qSched q = true → none' 1) ∧
      (q < 131072 → names → d.qSched q = false → d.pkts q = [] → none' 0) ∧
      (∀ p ps, q < 131072 → names → d.qSched q = false → d.pkts q = p :: ps → p.sp = [] →
        ∃ u, exec (.deq t f) s = .next u ∧ u.dev.pkts q = ps ∧ (u.dev.str t).cf.getLsbD 4 = true ∧
          ∀ i, i < 4 → (u.dev.str t).g (rd + i) = w64 (bitsN (leNat (d.descriptor q p)) (64 * i) 64))) ∧
    (f.rb = 0 → f.rc = 0 →
      (131072 ≤ q ∨ ¬names → exec (.qstat t f) s = .next (s.after (d.primGiveV t f.rd.toNat 0 false))) ∧
      (q < 131072 → names → (d.pkts q).length < 2 ^ 32 → cellsOf (d.pkts q) < 2 ^ 32 → exec (.qstat t f) s =
        .next (s.after (d.primGiveV t f.rd.toNat (w64 ((d.pkts q).length + cellsOf (d.pkts q) * 2 ^ 32)) true))))) ∧
  (∀ (s : State) (n : Fin 4096) (r : Fin 8) (c : Fin 196608) (e : Dev), s.dev.fdUp = true →
    let d := s.dev
    let i := 8 * n.val + r.val
    let k := 2 ^ d.qf tFRING i 0 5 3
    let x := d.qring i
    let z := ({ d with coh := { d.coh with need := none } } : Dev).zeroRun (.unit 6) c k n
    d.refillOk i c = true → d.runStill c k = true →
    z.sliceWrite (.unit 6) 0 n (d.qf tFRING i 1 0 48 + x.tail % 2 ^ d.frLog i * 8) qmAgent (leBytes 8 (1 + c * 2 ^ 8 + k * 2 ^ 32)) =
      (true, e) →
    let u := (e.markCells c k 1 n).setRing i { e.qring i with tail := (x.tail + 1) % 65536, sw := false }
    u.coh.need = none →
    exec (.fringRefill n r c) s =
      .next (s.after (({ u with coh := { u.coh with need := d.coh.need } } : Dev).qmSettle d.opbFree)) ∧
    (∀ j, j < k → (u.cellE (c + j)).st = 1 ∧ (u.cellE (c + j)).owner = n) ∧ (u.qring i).tail = (x.tail + 1) % 65536) ∧
  -- the zeros of a run that another slice held
  (∀ (d : Dev) (c k n : Nat), d.coh.own = [] → d.runStill c k = true → c + k ≤ 196608 → d.fb (SLICE.DLOG_BASE.EN n) = false →
    (∀ ln ∈ cellLines c k, d.partnerOf (d.opbLn ln) = none) → ∀ j, j < k → ∀ ln ∈ cellLines (c + j) 1,
      (d.zeroRun (.unit 6) c k n).line (d.opbLn ln) = if (d.cellE (c + j)).last = n + 1 then d.line (d.opbLn ln) else 0) ∧
  (∀ (d : Dev) (c : QmTodo) (r t rd : Nat), c.strand = some t → (d.str t).wait = .enq rd → (d.str t).stop = 0 →
    d.qmResult c r = d.primGiveV t rd (w64 r) (r / 2 ^ 16 == 0)) ∧
  (∀ (s : State) (o : Nat), s.dev.fdUp = true → s.dev.nextOutput = some o →
    let d : Dev := { s.dev with qm := { s.dev.qm with rot := (o + 1) % 256 } }
    exec .scheduledDequeue s = .next (s.after ((d.serve o).qmSettle s.dev.opbFree)) ∧ s.dev.mayDequeue o = true) ∧
  -- what an output selects, and what serving it does
  (∀ (d : Dev) (o g k q : Nat),
    (d.selGroup o = some g → d.gOutput g = o ∧ d.groupOk g = true) ∧
    (d.selClass g = some k → d.cGroup k = g ∧ d.classOk k = true ∧
      ∀ c ∈ d.blClasses, d.cGroup c = g → d.classOk c = true → d.qf tCLASS c 0 29 1 = 1 →
        d.qf tCLASS k 0 29 1 = 1 ∧ d.qf tCLASS k 0 30 3 ≤ d.qf tCLASS c 0 30 3) ∧
    (d.selQueue k = some q → d.qClass q = k ∧ d.queueOk q = true) ∧
    (d.queueOk q = true ↔ d.qSched q = true ∧ d.qEn tQUEUE q = true ∧ (∃ p ps, d.pkts q = p :: ps ∧ p.sp = []) ∧
      ((d.shaper tQUEUE q).1 = true → 0 < (d.node (nodeKey tQUEUE q)).tok))) ∧
  (∀ (d e : Dev) (o g k q : Nat) (p : Pkt), o < 256 → q < 131072 →
    d.selGroup o = some g → d.selClass g = some k → d.selQueue k = some q → d.readyHead q = some p →
    let x := d.qring (32768 + o)
    (({ d with qm := { d.qm with egw := d.qm.egw ++ [⟨o, g, k, q, d.descriptor q p⟩] } } : Dev).tryOwn fun d =>
      d.sliceWrite (.unit (16 + o)) 0 (d.oSlice o) (d.qf tOUTPUT o 1 0 48 + x.tail % 2 ^ d.egLog o * 32) qmAgent (d.descriptor q p)) =
        (some true, e) →
    let u := d.serve o
    let at_ := fun (e : Dev) (t i : Nat) => e.node (nodeKey t i)
    let paid := fun (t i : Nat) => (at_ u t i).tok =
      if (e.shaper t i).1 then (at_ e t i).tok - (p.len * 2 ^ 32 : Nat) else (at_ e t i).tok
    u.pkts q = (e.pkts q).tail ∧ (u.qring (32768 + o)).tail = (x.tail + 1) % 65536 ∧
    (∀ j, j < p.n → (u.cellE (p.cell + j)).st = 3 ∧ (u.cellE (p.cell + j)).owner = e.oSlice o) ∧
    (at_ u tOUTPUT o).v = (at_ e tGROUP g).t ∧ (at_ u tGROUP g).v = (at_ e tCLASS k).t ∧
    (at_ u tCLASS k).v = (at_ e tQUEUE q).t ∧ (at_ u tGROUP g).fprev = (at_ e tGROUP g).t ∧
    (at_ u tCLASS k).fprev = (at_ e tCLASS k).t ∧ (at_ u tQUEUE q).fprev = (at_ e tQUEUE q).t ∧
    paid tOUTPUT o ∧ paid tGROUP g ∧ paid tCLASS k ∧ paid tQUEUE q) ∧
  (∀ s : State, s.dev.fdUp = true → exec .shaperCredit s = .next (s.after s.dev.shaperStep) ∧
    ((s.dev.qm.tab.map (·.1)).Nodup → ∀ t ∈ [tQUEUE, tCLASS, tGROUP, tOUTPUT], ∀ i, i < 131072 →
      let x := s.dev.node (nodeKey t i)
      let sh := s.dev.shaper t i
      (s.dev.shaperStep.node (nodeKey t i)).tok =
        if sh.1 then min (x.tok + (rateUnits sh.2.1 : Nat)) ((sh.2.2 * 2 ^ 32 : Nat) : Int) else x.tok)) ∧
  (∀ (s : State) (start : BitVec 29) (q : Nat) (p : Pkt), s.dev.fdUp = true → s.dev.fb QM.STAT.SPILLING = true →
    s.dev.spillQueue = some q → (s.dev.spillable q).getLast? = some p → p.n ≤ s.dev.spFree →
    exec (.spillStep start) s = .next (s.after (s.dev.spillStep start.toNat)) ∧
    let d := s.dev
    let u := d.spillStep start.toNat
    let sp := d.spillRun start.toNat p.n
    let src := fun i => d.opbLn (cellLn p.cell + i)
    (d.coh.own = [] → d.f HBM.PART.F + d.f HBM.PART.M + d.f HBM.PART.Q ≤ 64 → p.cell + p.n ≤ 196608 →
      (∀ i, i < 4 * p.n → d.still (src i) = true ∧ d.sfe (src i) = SfE.empty ∧ d.partnerOf (src i) = none ∧
        (d.homeRead (src i) 0).1 = ⟨d.line (src i), false, 0, 0⟩) →
      (∀ i, i < 4 * p.n → u.line (d.opbLn (d.spLn (sp.getD (i / 4) 0) + i % 4)) = d.line (src i)) ∧
      u.pkts q = (d.pkts q).map (fun y => if y.id = p.id then { y with sp := sp } else y) ∧
      ∀ j, j < p.n → (u.cellE (p.cell + j)).st = 0)) ∧
  (∀ (s : State) (q : BitVec 17) (ue : BitVec 256) (p : Pkt) (c : Nat), s.dev.fdUp = true →
    s.dev.refillPkt q.toNat = some p → s.dev.allocRun p.n = some c →
    exec (.refill q ue) s = .next (s.after (s.dev.refill q.toNat ue)) ∧
    let d := s.dev
    let u := d.refill q.toNat ue
    let ln := fun i => d.spLn (p.sp.getD (i / 4) 0) + i % 4
    let lost := fun i => ue.getLsbD i || bitN (d.f (HBM.STAT.PCFAIL (hbmStack (ln i)))) (hbmPc (ln i))
    (d.coh.own = [] → (∀ e ∈ d.sor.strand, e.2.wait ≠ .hold 3) → d.fb (SLICE.DLOG_BASE.EN (d.qSlice q.toNat)) = false →
      (∀ i, i < 4 * p.n → d.partnerOf (d.opbLn (cellLn c + i)) = none) →
      (∀ i, i < 4 * p.n → let dst := d.opbLn (cellLn c + i)
        u.line dst = d.line (d.opbLn (ln i)) ∧ (u.lmeta dst).psn = (lost i || (d.lmeta (d.opbLn (ln i))).psn) ∧
        (lost i = true → (u.lmeta dst).why = 7)) ∧
      u.pkts q.toNat = (d.pkts q.toNat).map (fun y => if y.id = p.id then { y with
        cell := c, sp := [], psn := y.psn || (List.range (4 * p.n)).any lost } else y) ∧
      ∀ j, j < p.n → (u.cellE (c + j)).st = 2 ∧ (u.cellE (c + j)).owner = d.qSlice q.toNat)) ∧
  (∀ (s : State) (t : BitVec 3) (i : BitVec 17), s.dev.fdUp = true → s.dev.safe = false →
    let d := s.dev
    let a := t.toNat
    let b := i.toNat
    let w := fun (j : Nat) => d.reg (QM.TDATA.WORD j)
    (a ≤ 5 → b < qmSize a → ∃ u, exec (.qmTableRead t i) s = .next u ∧ u.dev.f QM.TCMD.STATUS = 0 ∧
      (∀ j, j < 3 → u.dev.reg (QM.TDATA.WORD j) = d.qw a b j) ∧ u.dev.reg (QM.TDATA.WORD 3) = d.qmWord3 a b ∧ u.dev.qm = d.qm) ∧
    (5 < a ∨ qmSize a ≤ b → (∃ u, exec (.qmTableRead t i) s = .next u ∧ u.dev.f QM.TCMD.STATUS = 1 ∧
        (∀ j, j < 4 → u.dev.reg (QM.TDATA.WORD j) = w j) ∧ u.dev.qm = d.qm) ∧
      ∃ u, exec (.qmTableWrite t i) s = .next u ∧ u.dev.f QM.TCMD.STATUS = 1 ∧ u.dev.qm = d.qm) ∧
    (a ≤ 5 → d.qmBad a b (w 0) (w 1) (w 2) = false → d.qmBusy a b (w 0) (w 1) = true →
      ∃ u, exec (.qmTableWrite t i) s = .next u ∧ u.dev.f QM.TCMD.STATUS = 2 ∧ u.dev.qm = d.qm) ∧
    (a ≤ 5 → d.qmBad a b (w 0) (w 1) (w 2) = false → d.qmBusy a b (w 0) (w 1) = false →
      ∃ u, exec (.qmTableWrite t i) s = .next u ∧ u.dev.f QM.TCMD.STATUS = 0 ∧ ∀ j, j < 3 → u.dev.qw a b j = w j) ∧
    (a ≤ 5 → d.qmBad a b (w 0) (w 1) (w 2) = true →
      ∃ u, exec (.qmTableWrite t i) s = .next u ∧ u.dev.f QM.TCMD.STATUS = 1 ∧ u.dev.qm = d.qm) ∧
    (a = 2 → d.pkts b = [] → ∃ u, exec (.flush t i) s = .next u ∧ u.dev.f QM.TCMD.STATUS = 0 ∧ u.dev.pkts b = []) ∧
    (a = 2 → ∃ e : Dev, e.f QM.TCMD.STATUS = s.dev.f QM.TCMD.STATUS ∧ e.qm = d.qm ∧
      exec (.flush t i) s = .next (s.after (((e.discard b 7).qmSettle e.opbFree).setF QM.TCMD.STATUS 0))) ∧
    (a ≠ 2 → ∃ u, exec (.flush t i) s = .next u ∧ u.dev.f QM.TCMD.STATUS = 1 ∧ u.dev.qm = d.qm)) ∧
  (∀ (s : State) (v : Word), s.dev.fdUp = true → s.dev.safe = false →
    let lo := getBits v 1 18
    let hi := getBits v 19 18
    let rsv := getBits v 37 18
    (lo < hi → lo ≤ 196608 → hi ≤ 196608 → rsv ≤ 196608 →
      ∃ u, exec (.qmSpillWrite v) s = .next u ∧ u.dev.fb QM.SPILL.EN = v.getLsbD 0 ∧ u.dev.f QM.SPILL.LOW = lo ∧
        u.dev.f QM.SPILL.HIGH = hi ∧ u.dev.f QM.SPILL.RSV = rsv) ∧
    (hi ≤ lo ∨ 196608 < hi ∨ 196608 < rsv →
      ∃ u, exec (.qmSpillWrite v) s = .next u ∧ u.dev.fb QM.STAT.CFGERR = true ∧ u.dev.reg QM.SPILL.reg = s.dev.reg QM.SPILL.reg) ∧
    (getBits v 30 30 ≤ getBits v 0 30 → ∃ u, exec (.qmGthWrite v) s = .next u ∧
      u.dev.f QM.GTH.GTH_R = getBits v 0 30 ∧ u.dev.f QM.GTH.GTH_Y = getBits v 30 30) ∧
    (getBits v 0 30 < getBits v 30 30 → ∃ u, exec (.qmGthWrite v) s = .next u ∧
      u.dev.fb QM.STAT.CFGERR = true ∧ u.dev.reg QM.GTH.reg = s.dev.reg QM.GTH.reg))

/-! ## The slot power channels (R312–R329) -/

/-- Every command of a slot channel, by its state. How STOPPING ends is log entry 90, what a refused write leaves log entry 91, and that the
board decides what the sensors read log entry 93: the model's reading. -/
def Obligations.SlotChannelsFollowTheirStates : Prop :=
  (∀ (s : State) (n : Fin 24), s.dev.slotUp = true →
    let d := s.dev
    let st := fun (u : State) => u.dev.f (SLOT.STAT.STATE n)
    let mode := fun (u : State) => u.dev.f (SLOT.CTL.MODE n)
    let enters := fun (e : Dev) =>
      if e.fb (SLOT.STAT.LATCH n) then 8 else if e.fb (SLOT.STAT.PRSNT n) && e.vinOk n then 2 else 1
    let off := fun (u : State) (why : Nat) => u.dev.fb (SLOT.STAT.PWRGD n) = false ∧ u.dev.fb (SLOT.STAT.PERST n) = true ∧
      u.dev.f (SLOT.STAT.REASON n) = why ∧ u.dev.reg (SLOT.TTRIP.TIME n) = w64 d.now
    (d.fdUp = true → d.safe = false → ∀ p : BitVec 7,
      (∃ u, exec (.slotModeOff n p) s = .next u ∧ mode u = 0 ∧ u.dev.f (SLOT.CTL.PORT n) = p.toNat ∧
        (d.slotOn n = true → st u = 9 ∧ off u 8) ∧ (d.slotOn n = false → d.slotSt n ≠ 9 → st u = 0) ∧ (d.slotSt n = 9 → st u = 9)) ∧
      (∃ u, exec (.slotModeDirect n p) s = .next u ∧ mode u = 1 ∧ u.dev.f (SLOT.CTL.PORT n) = p.toNat ∧
        (d.slotOn n = false → d.slotSt n ≠ 9 → st u = 3) ∧ (d.slotOn n = true ∨ d.slotSt n = 9 → st u = d.slotSt n)) ∧
      (∃ u, exec (.slotModeSeq n p) s = .next u ∧ mode u = 2 ∧ u.dev.f (SLOT.CTL.PORT n) = p.toNat ∧
        (d.slotSt n = 0 → st u = enters d ∧
          (d.fb (SLOT.STAT.LATCH n) = true → u.dev.fb (EVT.ROUTE.PEND (576 + 4 * n.val + 3)) = true)) ∧ (d.slotSt n ≠ 0 → st u = d.slotSt n))) ∧
    (d.fdUp = true → d.safe = false → ∀ v : Word,
      (limOk v = true → d.fb SLOT.GCTL.LOCK = false →
        ∃ u, exec (.slotLimWrite n false v) s = .next u ∧ u.dev.reg (SLOT.LIM.reg n) = w64 (getBits v 0 31)) ∧
      (vthOk v = true → d.fb SLOT.GCTL.LOCK = false →
        ∃ u, exec (.slotLimWrite n true v) s = .next u ∧ u.dev.reg (SLOT.VTH.reg n) = w64 (getBits v 0 27)) ∧
      (∀ vth, (if vth then vthOk v else limOk v) = false ∨ d.fb SLOT.GCTL.LOCK = true →
        ∃ u, exec (.slotLimWrite n vth v) s = .next u ∧ u.dev.fb SLOT.GCTL.CFGERR = true ∧
          u.dev.reg (SLOT.LIM.reg n) = d.reg (SLOT.LIM.reg n) ∧ u.dev.reg (SLOT.VTH.reg n) = d.reg (SLOT.VTH.reg n))) ∧
    (∃ u, exec (.slotPresenceChange n) s = .next u ∧ u.dev.fb (SLOT.STAT.PRSNT n) = !d.fb (SLOT.STAT.PRSNT n) ∧
      (d.slotSeq n = false → st u = d.slotSt n) ∧
      (d.slotSeq n = true → d.fb (SLOT.STAT.PRSNT n) = false → d.slotSt n = 1 → st u = if d.vinOk n then 2 else 1) ∧
      (d.slotSeq n = true → d.fb (SLOT.STAT.PRSNT n) = true → d.slotOn n = true → st u = 1 ∧ off u 9)) ∧
    (∀ (i : BitVec 11) (vin vout : BitVec 14) (vg : BitVec 15),
      ∃ u, exec (.slotSample n i vin vout vg) s = .next u ∧ u.dev.f (SLOT.MEAS.ISENSE n) = min 2000 i.toNat ∧
        u.dev.f (SLOT.MEAS.VIN n) = vin.toNat ∧ u.dev.f (SLOT.MEAS.VOUT n) = vout.toNat ∧
        u.dev.f (SLOT.PEAK.IPEAK n) = max (min 2000 i.toNat) (d.f (SLOT.PEAK.IPEAK n)) ∧
        let seq := d.f (SLOT.CTL.MODE n) = 2
        let here := d.fb (SLOT.STAT.PRSNT n) = true
        let inside := d.f (SLOT.VTH.UV n) * 50 < vin.toNat ∧ vin.toNat < d.f (SLOT.VTH.OV n) * 50
        (d.slotSt n = 3 → (seq → here ∧ inside) → vout.toNat + 8000 ≤ vg.toNat → d.f (SLOT.VTH.PGTH n) * 50 ≤ vout.toNat → st u = 4) ∧
        (d.slotOn n = true → seq → ¬here → st u = 1 ∧ off u 9) ∧
        (d.slotOn n = true → seq → here → ¬inside → st u = 2 ∧ off u 10) ∧
        (d.slotSt n = 1 → seq → (here ∧ inside → st u = 2) ∧ (¬(here ∧ inside) → st u = 1))) ∧
    (∀ (c : Instr) (why : Nat), d.slotOn n = true →
      (c = .fastTrip n ∧ why = 1 ∨ c = .faultTmr n ∧ why = 2 ∨ c = .rampTmr n ∧ why = 3 ∧ d.slotSt n = 3) →
      ∃ u, exec c s = .next u ∧ off u why ∧ u.dev.f (SLOT.STAT.TRIPS n) = min 65535 (d.f (SLOT.STAT.TRIPS n) + 1) ∧
        (d.slotSeq n = false → mode u = 0 ∧ st u = 0) ∧
        (d.slotSeq n = true → u.dev.f (SLOT.STAT.COUNT n) = min 16 (d.f (SLOT.STAT.COUNT n) + 1) ∧
          (min 16 (d.f (SLOT.STAT.COUNT n) + 1) ≤ d.f (SLOT.TMR.NRETRY n) → st u = 7) ∧
          (d.f (SLOT.TMR.NRETRY n) < min 16 (d.f (SLOT.STAT.COUNT n) + 1) → st u = 8 ∧ u.dev.fb (SLOT.STAT.LATCH n) = true))) ∧
    (d.slotSt n = 4 → ∃ u, exec (.pgqualDone n) s = .next u ∧ st u = 5 ∧ u.dev.fb (SLOT.STAT.PWRGD n) = true) ∧
    (d.slotSt n = 5 → ∃ u, exec (.perstRelease n) s = .next u ∧ st u = 6 ∧ u.dev.fb (SLOT.STAT.PERST n) = false) ∧
    (d.slotSt n = 2 → d.slotSeq n = true → d.fb (SLOT.STAT.PRSNT n) = true → d.vinOk n = true →
      ∃ u, exec (.insertDone n) s = .next u ∧ st u = 3) ∧
    (d.slotSt n = 7 → ∃ u, exec (.retryDone n) s = .next u ∧ st u = if d.fb (SLOT.STAT.PRSNT n) && d.vinOk n then 3 else 2) ∧
    (d.fb (SLOT.STAT.PRSNT n) = false → ∃ u, exec (.absenceDone n) s = .next u ∧ u.dev.f (SLOT.STAT.COUNT n) = 0 ∧
      u.dev.fb (SLOT.STAT.LATCH n) = false ∧ st u = if d.slotSt n = 8 then 1 else d.slotSt n) ∧
    (d.slotSt n = 9 → ∃ u, exec (.stoppingDone n) s = .next u ∧ mode u = d.f (SLOT.CTL.MODE n) ∧
      (d.f (SLOT.CTL.MODE n) = 0 → st u = 0) ∧ (d.f (SLOT.CTL.MODE n) = 1 → st u = 3) ∧
      (d.f (SLOT.CTL.MODE n) = 2 → st u = enters d))) ∧
  (∀ s : State, s.dev.pwr.dark = true → s.dev.slotUp = true → ∃ u, exec .darkroomAllChannelOff s = .next u ∧
    ∀ n, n < 24 → u.dev.f (SLOT.CTL.MODE n) = 0 ∧
      (s.dev.slotOn n = true → u.dev.f (SLOT.STAT.STATE n) = 9 ∧ u.dev.f (SLOT.STAT.REASON n) = 11))

/-! ## The management interface (R341–R375) -/

/-- The operations of EMP. The order of a message's checks is log entry 97, which records EVENT_ACK takes log entry 98, which nonce
DBG_AUTH answers log entries 99 and 151, what SYS_RESET and IMG_END need log entry 100, how MEM_READ and MEM_WRITE are judged log entry
101, that rows carry the messages of the darkroom and the fabric engine log entry 102, the results of SELFTEST log entry 103, and that the
fabric engine answers a relayed request within the command log entry 149: the model's reading or choice. -/
def Obligations.EmpRequestsAreAnswered : Prop :=
  -- the controller's requests, the fabric manager's and the fabric engine's
  (∀ (s : State) (m : Emp) (ep mt : Nat) (d : Dev), s.heard m = (ep, mt, d) → ep ≠ eDR → s.dev.pwr.dark = true →
    d.pwr.pwrok = true → (ep = eOOB ∨ s.dev.fdUp = true) →
    let fz := s.fuse
    let arg := (empHdr m 0).f
    let fits := d.empFits m ep
    let ans := fun (c : Instr) (op : Nat) (pl : List Byte) (e : Dev) =>
      exec c s = .next (s.after (e.empAnswer ep mt (empHdr m op) 0 pl))
    let rest := if ep = eOOB then Dev.empFromOob fz (getBits (Dev.feFirst fz s.dev).draw.1 0 9)
      else if ep = eFE then Dev.empFromFe fz else fun d _ => say d 3
    -- whatever the status
    (∀ (op : Nat) (c : Instr), (op, c) ∈ [(0x01, Instr.getInfo m), (0x02, .cspRead m), (0x03, .sysReset m), (0x04, .safelight m),
        (0x06, .timeCfg m), (0x07, .timeGet m), (0x09, .eventAck m), (0x0A, .imgData m), (0x0B, .imgEnd m), (0x10, .slotRead m),
        (0x11, .slotOff m), (0x22, .logRead m), (0x23, .dbgChal m), (0x24, .dbgAuth m), (0x25, .dbgRevoke m), (0x26, .dbgCsp m),
        (0x37, .doePkt m), (0x40, .fmMsg m), (0x41, .fmPeer m)] →
      (fits op →
        (∀ e, Dev.empOp fz d ep mt (empHdr m op) rest = (none, e) → exec c s = .next (s.after e)) ∧
        (∀ st pl e, Dev.empOp fz d ep mt (empHdr m op) rest = (some (st, pl), e) → op ≠ 3 ∨ st ≠ 0 →
          exec c s = .next (s.after (e.empAnswer ep mt (empHdr m op) st pl)))) ∧
      (empPlain m → (∀ o ∈ empOps, o.op = op → d.mayAsk ep o (empHdr m op) = false) →
        exec c s = .next (s.after ((d.empCount 0).empAnswer ep mt (empHdr m op) 3 [])))) ∧
    -- each with its effect
    (fits 0x01 → ans (.getInfo m) 0x01 (leBytes 8 (d.reg DRK.IDENT.reg).toNat ++ leBytes 8 (d.reg DRK.FAMPARAM0.reg).toNat ++
      leBytes 8 (d.reg DRK.FAMPARAM1.reg).toNat ++ (if d.drk.fwOk then d.drk.fwDig else mslotZero) ++ [BitVec.ofNat 8 d.infoState]) d) ∧
    (fits 0x02 → 1 ≤ arg 8 1 → arg 8 1 ≤ 64 → arg 0 8 % 8 = 0 → cspReadable (arg 0 8) (arg 8 1) = true → d.fdUp = true →
      ans (.cspRead m) 0x02 ((List.range (arg 8 1)).flatMap fun i => leBytes 8 (Dev.cspRead fz d (arg 0 8 + 8 * i)).toNat) d) ∧
    (fits 0x03 → arg 0 1 = 1 → d.fdUp = true →
      let why := if ep = eOOB then 2 else 3
      let u := (d.empAnswer ep mt (empHdr m 3) 0 []).warmStart why
      exec (.sysReset m) s = .next (s.after u) ∧ u.pwr.warm = some why ∧ u.fdUp = false) ∧
    (fits 0x04 → d.fdUp = true →
      let e := d.enterSafe (if ep = eOOB then 6 else 7) (arg 0 1)
      ans (.safelight m) 0x04 [] e ∧ e.safe = true) ∧
    (fits 0x06 → arg 0 1 ≤ 1 → ∃ e, ans (.timeCfg m) 0x06 [] e ∧ e.drk.pps.en = decide (arg 0 1 = 1)) ∧
    (fits 0x07 → ans (.timeGet m) 0x07 (leBytes 8 d.now ++ [BitVec.ofNat 8 d.drk.pps.state] ++
      leBytes 4 (BitVec.ofInt 32 d.drk.pps.off).toNat ++ leBytes 4 d.drk.pps.ignored) d) ∧
    (fits 0x09 → arg 0 1 ≤ d.drk.evSent → ∃ e, ans (.eventAck m) 0x09 [] e ∧ e.drk.evq = d.drk.evq.drop (arg 0 1) ∧
      e.drk.evSent = d.drk.evSent - arg 0 1) ∧
    (fits 0x0A → arg 0 1 ≤ 1 → d.drk.want = arg 0 1 + 1 → arg 1 4 + (m.payload.length - 5) ≤ imgMax (arg 0 1) →
      ans (.imgData m) 0x0A [] { d with drk := { d.drk with img := Tbl.putRange 0 d.drk.img (arg 1 4) (m.payload.drop 5) } }) ∧
    (fits 0x0B → d.drk.want = arg 0 1 + 1 → arg 1 4 ≤ imgMax (arg 0 1) →
      let img := Tbl.range 0 d.drk.img 0 (arg 1 4)
      (arg 0 1 = 0 → (Dev.bootFw fz d img).1 = true →
        ans (.imgEnd m) 0x0B [] (Dev.bootFw fz d img).2 ∧ (Dev.bootFw fz d img).2.drk.fwOk = true) ∧
      (arg 0 1 = 1 → (Dev.bootFm fz d img false).1 = true →
        ans (.imgEnd m) 0x0B [] (Dev.bootFm fz d img false).2 ∧ (Dev.bootFm fz d img false).2.drk.xfer = true)) ∧
    (fits 0x10 → arg 0 4 < 2 ^ 24 → ans (.slotRead m) 0x10 ((onesN 24 (arg 0 4)).flatMap fun n =>
      leBytes 8 (d.reg (SLOT.STAT.reg n)).toNat ++ leBytes 8 (d.reg (SLOT.MEAS.reg n)).toNat ++
        leBytes 8 (d.reg (SLOT.TTRIP.reg n)).toNat) d) ∧
    (fits 0x11 → arg 0 4 < 2 ^ 24 → ans (.slotOff m) 0x11 [] ((onesN 24 (arg 0 4)).foldl Dev.slotForce d)) ∧
    (ep = eFM → fits 0x20 → 8 ≤ arg 0 1 → arg 0 1 ≤ 15 → 0x80 ≤ arg 1 1 →
      ans (.extend m) 0x20 [] (d.extend (arg 0 1) (arg 1 1) (m.payload.drop 2))) ∧
    (fits 0x22 → 1 ≤ arg 2 1 → arg 2 1 ≤ 63 → ans (.logRead m) 0x22 (BitVec.ofNat 8 (b2n d.drk.mlogOvf) ::
      ((d.drk.mlog.drop (arg 0 2)).take (arg 2 1)).flatMap fun e =>
        [BitVec.ofNat 8 e.1, BitVec.ofNat 8 e.2.1] ++ List.replicate 6 0 ++ leBytes 8 e.2.2.1 ++ e.2.2.2) d) ∧
    (fits 0x23 → bitN fz.policy 2 = false → ∃ n e, ans (.dbgChal m) 0x23 n e ∧ n.length = 48 ∧
      e.drk.nonces = d.drk.nonces ++ [(d.time, n)]) ∧
    (let key := (m.payload.drop 2).take 97
      let covers := fun (n : List Byte) =>
        sigOk (beNat ((key.drop 1).take 48)) (beNat (key.drop 49)) (Dev.dbgDigest fz d n (arg 0 1) (arg 1 1)) (m.payload.drop 99)
      ∀ t nonce, (d.drk.nonces.find? fun e => covers e.2) = some (t, nonce) → fits 0x24 → arg 0 1 < 8 → arg 1 1 ≤ 1 →
        bitN fz.policy 2 = false → d.time - t ≤ 60000000000 → fz.dbgkey.getD (arg 1 1) [] = sha384 key →
        bitN fz.policy (8 + arg 1 1) = false → d.drk.idKey = true → key.headD 0 = 4 →
        ∃ e, ans (.dbgAuth m) 0x24 [BitVec.ofNat 8 (arg 0 1)] e ∧ e.fb FPC.DBG.AUTH = true ∧ e.f FPC.DBG.SCOPE = arg 0 1 ∧
          e.drk.nonces = d.drk.nonces.erase (t, nonce)) ∧
    (fits 0x25 → ∃ e, ans (.dbgRevoke m) 0x25 [] e ∧ e.fb FPC.DBG.AUTH = false ∧ e.f FPC.DBG.SCOPE = 0) ∧
    (fits 0x26 → arg 1 8 % 8 = 0 → d.fdUp = true → d.fb FPC.DBG.AUTH = true → bitN (d.f FPC.DBG.SCOPE) 1 = true →
      cspMapped (arg 1 8) = true →
      (arg 0 1 = 0 → ans (.dbgCsp m) 0x26 (leBytes 8 (Dev.cspRead fz d (arg 1 8)).toNat) d) ∧
      (arg 0 1 = 1 → ans (.dbgCsp m) 0x26 (leBytes 8 0)
        (if d.safe then d else Dev.cspWrite fz d (arg 1 8) (w64 (arg 9 8))))) ∧
    (let bs := empBytes false 0x40 0 m.tag.toNat m.src.toNat m.dst.toNat m.payload
      let relay : Relay := ⟨ep, 0x40, m.tag.toNat, m.src.toNat, m.dst.toNat, mt⟩
      (ep = eOOB → fits 0x40 → d.fmRuns = true → d.fb SYS.MBXRX.V = false → ∃ e, exec (.fmMsg m) s = .next (s.after e) ∧
        e.fb SYS.MBXRX.V = true ∧ e.f SYS.MBXRX.LEN = bs.length ∧ e.drk.relays = d.drk.relays ++ [relay]) ∧
      (ep = eOOB → fits 0x40 → d.fmRuns = true → d.fb SYS.MBXRX.V = true → d.drk.fmq.length < 16 →
        ∃ e, exec (.fmMsg m) s = .next (s.after e) ∧ e.drk.fmq = d.drk.fmq ++ [bs] ∧ e.drk.relays = d.drk.relays ++ [relay]) ∧
      (ep = eFM → fits 0x40 → ∃ e l, exec (.fmMsg m) s = .next (s.after e) ∧ e.out = d.out ++ .emp eOOB bs :: l ∧
        e.drk.relays = d.drk.relays ++ [relay])) ∧
    (fits 0x41 →
      (d.peerLinks (m.dst.toNat % 8) = [] → exec (.fmPeer m) s = .next (s.after d)) ∧
      (∀ p ps, d.peerLinks (m.dst.toNat % 8) = p :: ps → m.payload.length ≤ 101 →
        exec (.fmPeer m) s = .next (s.after (d.linkSend p 6 ([0x61, 0x41, 0, m.tag, BitVec.ofNat 8 m.src.toNat,
          BitVec.ofNat 8 m.dst.toNat] ++ leBytes 2 m.payload.length ++ m.payload))))) ∧
    (ep = eFE → fits 0x34 → d.ckptDue (empHdr m 0x34) = true → (arg 0 1 = 0 ∧ arg 1 1 < 64 ∨ arg 0 1 = 1 ∧ arg 1 1 < 4) →
      ∃ e, ans (.ckpt m) 0x34 [] e ∧ e.pool.ckpt = Tbl.put 0 d.pool.ckpt (arg 0 1 * 64 + arg 1 1) (arg 2 2 + 1)) ∧
    (ep = eFE → fits 0x37 → arg 0 1 < 96 → d.doePort (arg 0 1) = true →
      ans (.doePkt m) 0x37 [] (Dev.mctpIn fz d (1 + arg 0 1) (m.payload.drop 1))) ∧
    (∀ ms, ep = eFE →
      let e : Dev := { d with drk := { d.drk with fe := ms } }
      let told := fun (c : Instr) (op : Nat) (pl : List Byte) (e : Dev) =>
        exec c s = .next (s.after (Dev.feAnswered fz (e.empAnswer eFE mt (empHdr m op) 0 pl) (empHdr m op)))
      (fits 0x20 → d.drk.fe = empWire m 0x20 :: ms → (arg 0 1 = 3 ∧ arg 1 1 = 6 ∨ arg 0 1 = 5 ∧ arg 1 1 = 8) →
        told (.extend m) 0x20 [] (e.extend (arg 0 1) (arg 1 1) (m.payload.drop 2))) ∧
      (fits 0x21 → d.drk.fe = empWire m 0x21 :: ms → arg 0 1 ≤ 1 →
        told (.sigchk m) 0x21 [if policyAsks fz (arg 0 1 == 0) = false then 2
          else if spkeyOk fz ((m.payload.drop 1).take 48) (m.payload.drop 49) = true then 0 else 1] e)) ∧
    (ep = eOOB → ∀ pass : BitVec 9, (Dev.feFirst fz s.dev).empFits m eOOB 0x05 → arg 0 1 < 32 → arg 1 2 < 512 →
      d.fdUp = true → d.safe = true →
      let on := fun i => bitN (arg 1 2) i && Tbl.get 0 d.sor.fencing (arg 0 1 * 9 + i) == 0
      let code := fun i => if on i then (if pass.getLsbD i then 0 else 1) else 2
      ∃ e : Dev, exec (.selftest m pass) s = .next (s.after (e.empAnswer eOOB mt (empHdr m 5) 0
          (leBytes 3 ((List.range 9).map fun i => code i * 4 ^ i).sum))) ∧
        ∀ i, i < 9 → on i = true → bitN (e.f (SORUS.STAT.FAILED (arg 0 1))) i = !pass.getLsbD i ∧
          bitN (e.f (SORUS.STAT.UNTESTED (arg 0 1))) i = false ∧
          (pass.getLsbD i = true → bitN (e.f (SORUS.STAT.FENCED (arg 0 1))) i = false))) ∧
  -- the darkroom's requests to the fabric engine
  (∀ (s : State) (m : Emp), m.path = .dr → s.dev.pwr.dark = true → s.dev.fdUp = true →
    let d := s.dev
    let arg := (empHdr m 0).f
    let fits := d.empFits m eDR
    let out := fun (op st : Nat) (pl : List Byte) => Out.emp eDR (empBytes true op st m.tag.toNat m.dst.toNat m.src.toNat pl)
    let ans := fun (c : Instr) (op : Nat) (e : Dev) => exec c s = .next (s.after (e.emit (out op 0 [])))
    (∀ (op : Nat) (c : Instr), (op, c) ∈ [(0x30, Instr.memRead m), (0x31, .memWrite m), (0x32, .imgWrite m), (0x33, .bootCommit m),
        (0x35, .ckptRestore m), (0x36, .ideKey m), (0x37, .doePkt m)] → fits op →
        (op = 0x35 → m.payload.length = 1 + 4 * arg 0 1) → d.drkSends (empHdr m op) = true →
      let d0 : Dev := { d with coh := { d.coh with need := none } }
      (∀ st pl e, d0.feDo (empHdr m op) = (some (st, pl), e) → e.coh.need = none →
        exec c s = .next (s.after (({ e with coh := { e.coh with need := d.coh.need } } : Dev).emit (out op st pl)))) ∧
      ∀ o r, (d0.feDo (empHdr m op)).2.coh.need = some (o, r) → exec c s = .next (s.after (d.ownSend o r))) ∧
    (let a := arg 0 8
      let n := arg 8 2
      fits 0x30 → n % 8 = 0 → 8 ≤ n → n ≤ 4080 → a + n ≤ 2 ^ 52 → d.coh.own = [] →
      (∀ ln ∈ linesOf a n, d.plainLine ln ∧ d.check (ln * 64) .drk .rd drkSlice = .ok ∧
        (d.homeRead ln 0).1 = ⟨d.line ln, false, 0, 0⟩) →
      ∃ u, exec (.memRead m) s = .next u ∧ u.dev.out = d.out ++ [out 0x30 0 (d.bytes a n)] ∧ ∀ b, u.dev.byte b = d.byte b) ∧
    (let a := arg 0 8
      let bs := m.payload.drop 8
      fits 0x31 → a + bs.length ≤ 2 ^ 52 → d.coh.own = [] →
      (∀ ln ∈ linesOf a bs.length, d.plainLine ln ∧ d.check (ln * 64) .drk .wr drkSlice = .ok) →
      ∃ u, exec (.memWrite m) s = .next u ∧ u.dev.out = d.out ++ [out 0x31 0 []] ∧ u.dev.bytes a bs.length = bs ∧
        ∀ b, b < a ∨ a + bs.length ≤ b → u.dev.byte b = d.byte b) ∧
    (fits 0x32 → d.drk.xfer = true → arg 0 4 + (m.payload.length - 4) ≤ 2 ^ 20 → d.drkSends (empHdr m 0x32) = true →
      ans (.imgWrite m) 0x32 (d.putStore 0 (arg 0 4) (m.payload.drop 4))) ∧
    (fits 0x33 → d.drk.xfer = true → d.drkSends (empHdr m 0x33) = true → ∃ e, ans (.bootCommit m) 0x33 e ∧ e.drk.xfer = false ∧
      e.drk.armed = true ∧ e.fb (SORUS.SPTABA.V 0 0) = true ∧ e.fb (SORUS.SPTABA.PRIV 0 0) = true ∧
      e.f (SORUS.SPTABB.BASE 0 0) = 0x10000) ∧
    (fits 0x35 → m.payload.length = 1 + 4 * arg 0 1 → d.drkSends (empHdr m 0x35) = true → ∃ e, ans (.ckptRestore m) 0x35 e ∧
      e.pool.await = false ∧ ((d.pool.ckpt.map (·.1)).Nodup → ∀ x ∈ d.pool.ckpt, Tbl.get 0 e.pool.resCur x.1 = (x.2 - 1) * 2 ^ 20)) ∧
    (fits 0x36 → arg 0 1 < 96 → arg 2 1 ≤ 1 → ∃ e, ans (.ideKey m) 0x36 e ∧
      Tbl.get [] e.drk.ide (((arg 0 1 * 256 + arg 1 1) * 2 + arg 2 1) * 256 + arg 3 1) = m.payload.drop 4) ∧
    (fits 0x37 → arg 0 1 < 96 → ans (.doePkt m) 0x37 (d.emit (.doe (arg 0 1) (m.payload.drop 1)))) ∧
    (d.drk.evq.drop d.drk.evSent ≠ [] → ∃ u, exec (.event m) s = .next u ∧
      u.dev.drk.evSent = d.drk.evSent + min 255 (d.drk.evq.drop d.drk.evSent).length)) ∧
  (∀ (s : State) (tag : Byte) (r : Relay), s.dev.pwr.dark = true → (s.dev.drk.relays.find? fun r => r.tag == tag.toNat) = some r →
    exec (.empRelayTimeout tag) s = .next (s.after (({ s.dev with drk := { s.dev.drk with relays := s.dev.drk.relays.erase r } } : Dev).empSend
      r.from_ r.mt (empBytes true r.op 7 r.tag r.dst r.src [])))) ∧
  (∀ (s : State) (p : Fin 96), s.dev.fdUp = true → (s.dev.lnk p).frag ≠ [] →
    ∃ u, exec (.empFragmentTimeout p) s = .next u ∧ (u.dev.lnk p).frag = [])

/-- The test access port, FM's mailboxes, MCTP, the I3C target and SPDM. What SPDM and MCTP leave to other standards is log entry 16, their
codes and layouts log entry 17, the connection's start log entry 105, GETSTATUS and GETMXDS log entry 106, what SCAN acts on and what the
pins show log entry 107, a message that the darkroom does not take log entries 108 and 151, and I²C at the static address log entry 148:
choices of the model or taken from those standards. -/
def Obligations.ManagementCommandsComplete : Prop :=
  -- the test access port
  (∀ (s : State) (tdi : List Bool),
    let d := s.dev
    let tdo := fun (n v : Nat) (e : Dev) => if d.fdUp then e.emit (.tdo n v) else e
    (d.tapUp = true →
      exec (.bypass tdi) s = .next (s.after (tdo tdi.length (bitsNat ((false :: tdi).take tdi.length))
        ({ d with tap := { d.tap with ir := 1 } } : Dev))) ∧
      exec .idcode s = .next (s.after (tdo 32 0x096005C7 ({ d with tap := { d.tap with ir := 2 } } : Dev))) ∧
      (∃ u v, exec (.samplePreload tdi) s = .next u ∧ u.dev.tap = ⟨3, tdi⟩ ∧
        u.dev.out = (tdo tdi.length v d).out) ∧
      (∃ u v, exec (.extest tdi) s = .next u ∧ u.dev.tap = ⟨4, tdi⟩ ∧ u.dev.out = (tdo tdi.length v d).out) ∧
      (d.scope 2 = true → d.fdUp = false → ∃ u, exec .scan s = .next u ∧ u.dev.tap.ir = 5 ∧ u.dev.sor.store = [] ∧
        u.dev.coh.l1 = [] ∧ u.dev.coh.sf = [] ∧ ∀ a, d.fpaKind a ≠ .nts → d.fpaKind a ≠ .opb → u.dev.byte a = d.byte a)) ∧
    (d.tapUp = false → ∀ c ∈ [Instr.bypass tdi, .idcode, .samplePreload tdi, .extest tdi, .scan], exec c s = .next (s.after d)) ∧
    (d.fdUp = true → ∀ (fpa : BitVec 52) (n : BitVec 13) (bs : List Byte),
      let d0 : Dev := { d with coh := { d.coh with need := none } }
      let w := Dev.dbgWrite (bs.length + 1) d0 fpa.toNat bs
      let r := Dev.dbgRead (n.toNat + 1) d0 fpa.toNat n.toNat
      let is := fun (wr : Bool) (e : Dev) =>
        exec (.debugMemoryAccess wr fpa n bs) s = .next (s.after { e with coh := { e.coh with need := d.coh.need } })
      (w.2.coh.need = none → is true (w.2.emit (.dbg w.1 []))) ∧
      (r.2.coh.need = none → is false (r.2.emit (.dbg r.1.1 r.1.2))) ∧
      (∀ o m, w.2.coh.need = some (o, m) → exec (.debugMemoryAccess true fpa n bs) s = .next (s.after (d.ownSend o m))) ∧
      ∀ o m, r.2.coh.need = some (o, m) → exec (.debugMemoryAccess false fpa n bs) s = .next (s.after (d.ownSend o m))) ∧
    (d.scope 2 = false ∨ d.fdUp = true → exec .scan s = .next (s.after d)) ∧
    (∃ u, exec .trstNAssert s = .next u ∧ u.dev.tap = ⟨0, []⟩ ∧ (d.drk.auth = 1 → u.dev.fb FPC.DBG.AUTH = false) ∧
      (d.drk.auth ≠ 1 → u.dev.csr = d.csr))) ∧
  -- the mailboxes
  (∀ (s : State) (v : Word), s.dev.fdUp = true → s.dev.safe = false →
    let d := s.dev
    let n := getBits v 0 13
    (v.getLsbD 13 = true → d.fb SYS.MBXTX.BUSY = false → 8 ≤ n → n ≤ 4096 →
      (d.drk.fmq.length < 16 → exec (.mbxtxGo v true) s =
        .next (s.after (Dev.empFm s.fuse ((d.setF SYS.MBXTX.LEN n).setF SYS.MBXTX.RES 0) ((d.setF SYS.MBXTX.LEN n).mbxBytes n)))) ∧
      (16 ≤ d.drk.fmq.length → ∃ u, exec (.mbxtxGo v true) s = .next u ∧ u.dev.fb SYS.MBXTX.BUSY = true) ∧
      ∃ u, exec (.mbxtxGo v false) s = .next u ∧ u.dev.fb SYS.MBXTX.BUSY = true) ∧
    (d.fb SYS.MBXTX.BUSY = true →
      ∃ u, exec .mbxtxTimeout s = .next u ∧ u.dev.fb SYS.MBXTX.BUSY = false ∧ u.dev.f SYS.MBXTX.RES = 2) ∧
    (v.getLsbD 14 = true → d.fb SYS.MBXRX.V = true →
      (d.drk.fmq = [] → ∃ u, exec (.mbxrxDone v) s = .next u ∧ u.dev.fb SYS.MBXRX.V = false) ∧
      (∀ m ms, d.drk.fmq = m :: ms → m.length ≤ 4096 → ∃ u, exec (.mbxrxDone v) s = .next u ∧ u.dev.fb SYS.MBXRX.V = true ∧
        u.dev.f SYS.MBXRX.LEN = m.length ∧ u.dev.drk.fmq = ms))) ∧
  -- MCTP
  (∀ (s : State) (path : Fin 97) (bs : List Byte), s.dev.reached path = true →
    (path ≠ 0 → exec (.mctpPacket path bs) s = .next (s.after (Dev.mctpIn s.fuse s.dev path bs))) ∧
    (path = 0 →
      exec (.mctpPacket path (bs ++ [s.dev.pec false bs])) s = .next (s.after (Dev.mctpIn s.fuse s.dev 0 bs)))) ∧
  (∀ (fz : Fuse) (d : Dev) (path : Nat) (ver dst src fl : Byte) (bs : List Byte),
    let key := path * 4096 + src.toNat * 16 + fl.toNat % 16
    let seq := fl.toNat / 16 % 4
    let x := Tbl.get (⟨0, []⟩ : Asm) d.drk.asm key
    let put := fun (y : Asm) => ({ d with drk := { d.drk with asm := Tbl.put ⟨0, []⟩ d.drk.asm key y } } : Dev)
    let got := Dev.mctpIn fz d path (ver :: dst :: src :: fl :: bs)
    let whole := fun (l : List Byte) => Dev.mctpMsg fz (put ⟨0, []⟩) path src.toNat (fl.toNat % 16) l
    let som := fl.getLsbD 7
    let eom := fl.getLsbD 6
    bs ≠ [] → ver.toNat % 16 = 1 → (dst = 0 ∨ dst.toNat = d.drk.eid) → (path = 0 → bs.length ≤ d.drk.i3c.mwl) →
    (som = true → eom = false → got = put ⟨(seq + 1) % 4, bs⟩) ∧
    (som = true → eom = true → got = whole bs) ∧
    (som = false → x.bs ≠ [] → x.seq = seq → eom = false → got = put ⟨(seq + 1) % 4, x.bs ++ bs⟩) ∧
    (som = false → x.bs ≠ [] → x.seq = seq → eom = true → got = whole (x.bs ++ bs)) ∧
    (som = false → x.bs = [] ∨ x.seq ≠ seq → got = put ⟨0, []⟩)) ∧
  -- an answer of an expander, to which the darkroom is the requester
  (∀ (s : State) (path : Fin 97) (ver dst src fl : Byte) (bs : List Byte), s.dev.pwr.dark = true → path ≠ 0 →
    s.dev.expPort (path - 1) = true → fl.getLsbD 7 = true → fl.getLsbD 6 = true → ver.toNat % 16 = 1 →
    (dst = 0 ∨ dst.toNat = s.dev.drk.eid) → ((bs.headD 0).toNat % 128 = 5 ∨ (bs.headD 0).toNat % 128 = 6) →
    ∃ u, exec (.mctpPacket path (ver :: dst :: src :: fl :: bs)) s = .next u ∧ Tbl.get [] u.dev.drk.answers (path - 1) = bs) ∧
  (∀ (s : State) (path : Fin 97) (src : Byte) (fl : BitVec 4), s.dev.pwr.dark = true →
    ∃ u, exec (.mctpMessageTimeout path src fl) s = .next u ∧
      u.dev.drk.asm = Tbl.erase s.dev.drk.asm (path.val * 4096 + src.toNat * 16 + fl.toNat)) ∧
  (∀ (s : State) (q : MctpReq), s.dev.reached q.path = true →
    let answers := fun (c : Instr) (d : Dev) (cmd : Byte) (data : List Byte) =>
      exec c s = .next (s.after (d.mctpOut q.path q.src.toNat q.tag.toNat ([0, BitVec.ofNat 8 q.inst.toNat, cmd, 0] ++ data)))
    let d := s.dev
    (∀ o e : Byte, q.data = [o, e] → o.toNat ≤ 1 → e ≠ 0 → e ≠ 255 →
      answers (.setEndpointId q) { d with drk := { d.drk with eid := e.toNat } } 1 [0, e, 0]) ∧
    (q.data = [] → answers (.getEndpointId q) d 2 [BitVec.ofNat 8 d.drk.eid, 0, 0]) ∧
    (q.data = [] → answers (.getEndpointUuid q) d 3 (cryptBytes uUUID s.fuse.cert 16)) ∧
    (q.data = [0xFF] ∨ q.data = [0] → answers (.getMctpVersionSupport q) d 4 [1, 0xF1, 0xF3, 0xF1, 0]) ∧
    (q.data = [5] ∨ q.data = [6] ∨ q.data = [0x7E] → answers (.getMctpVersionSupport q) d 4 (1 :: cryptBytes uVERSION q.data 4)) ∧
    (q.data = [] → answers (.getMessageTypeSupport q) d 5 [3, 5, 6, 0x7E]) ∧
    (q.data = [0] → answers (.getVendorDefinedMsgSupport q) d 6 ([0xFF, 0, 0x15, 0xC7] ++ cryptBytes uVENDOR [] 2))) ∧
  (∀ (fz : Fuse) (d : Dev) (data : List Byte),
    (∀ c n, (c, n) ∈ [(1, 2), (2, 0), (3, 0), (4, 1), (5, 0), (6, 1)] → data.length ≠ n → Dev.ctlDo fz d c data = ((3, []), d)) ∧
    (∀ o e : Byte, data = [o, e] → 1 < o.toNat ∨ e = 0 ∨ e = 255 → Dev.ctlDo fz d 1 data = ((2, []), d)) ∧
    (∀ y : Byte, data = [y] →
      (y ≠ 0xFF → y ≠ 0 → y ≠ 5 → y ≠ 6 → y ≠ 0x7E → Dev.ctlDo fz d 4 data = ((0x80, []), d)) ∧
      (y ≠ 0 → Dev.ctlDo fz d 6 data = ((2, []), d)))) ∧
  -- the I3C target
  (∀ (s : State), s.dev.pwr.dark = true →
    let d := s.dev
    let x := d.drk.i3c
    let set := fun (y : I3c) => ({ d with drk := { d.drk with i3c := y } } : Dev)
    let acks := fun (c : Instr) (bs : List Byte) => exec c s = .next (s.after (d.emit (.i3c true bs)))
    (x.addr = none → ∀ a : BitVec 7,
      let takes := fun (c : Instr) (n : Nat) (bs : List Byte) =>
        exec c s = .next (s.after (((set { x with addr := some n, due := 0 }).emit (.i3c true bs)).askIbi))
      takes (.entdaa a) a.toNat (beBytes 6 d.pid ++ [0x06, 0]) ∧ takes (.setdasa (BitVec.ofNat 7 d.i3cStatic) a) a.toNat [] ∧
      takes .setaasa d.i3cStatic []) ∧
    (x.addr ≠ none → ∀ st a : BitVec 7, ∀ c ∈ [Instr.entdaa a, .setdasa st a, .setaasa], exec c s = .next (s.after d)) ∧
    (∀ st a : BitVec 7, st.toNat ≠ d.i3cStatic → exec (.setdasa st a) s = .next (s.after d)) ∧
    (∃ u, exec .rstdaa s = .next u ∧ u.dev.drk.i3c = (if x.addr = none then x else { x with addr := none, due := d.drk.tx.length }) ∧ u.dev.drk.tx = d.drk.tx) ∧
    (∀ old a : BitVec 7, (x.addr = some old.toNat →
      exec (.setnewda old a) s = .next (s.after (set { x with addr := some a.toNat }))) ∧
      (x.addr ≠ some old.toNat → exec (.setnewda old a) s = .next (s.after d))) ∧
    (∀ ev : Byte, ev.getLsbD 0 = false → ∀ c ∈ [Instr.enec ev, .disec ev], exec c s = .next (s.after d)) ∧
    (x.addr = none → (∀ c ∈ [Instr.getpid, .getbcr, .getdcr, .getmwl, .getmrl, .getmxds],
      exec c s = .next (s.after (d.emit (.i3c false []))))) ∧
    (∀ ev : Byte, ev.getLsbD 0 = true →
      exec (.enec ev) s = .next (s.after (set { x with ibi := true }).askIbi) ∧
      exec (.disec ev) s = .next (s.after (set { x with ibi := false }))) ∧
    (x.addr ≠ none → acks .getpid (beBytes 6 d.pid) ∧ acks .getbcr [0x06] ∧ acks .getdcr [0] ∧
      acks .getmwl (beBytes 2 x.mwl) ∧ acks .getmrl (beBytes 2 x.mrl ++ [1]) ∧ acks .getmxds [0, 0] ∧
      ∃ u b c, exec .getstatus s = .next u ∧ u.dev.out = d.out ++ [.i3c true [b, c]]) ∧
    (d.drk.tx.drop x.due = [] → exec .i3cPrivateRead s = .next (s.after (d.emit (.i3c false [])))) ∧
    (∀ p ps, d.drk.tx.drop x.due = p :: ps → exec .i3cPrivateRead s =
      .next (s.after ((({ d with drk := { d.drk with tx := d.drk.tx.take x.due ++ ps } } : Dev).emit
        (.mctp (p ++ [d.pec true p]))).askIbi))) ∧
    (∀ n : BitVec 16, (64 ≤ n.toNat → n.toNat ≤ 256 →
      exec (.setmwl n) s = .next (s.after (set { x with mwl := n.toNat })) ∧
      exec (.setmrl n) s = .next (s.after (set { x with mrl := n.toNat }))) ∧
      (n.toNat < 64 ∨ 256 < n.toNat → ∀ c ∈ [Instr.setmwl n, .setmrl n], exec c s = .next (s.after d)))) ∧
  -- SPDM
  (∀ (s : State) (q : SpdmReq) (ses : Option SpdmS), s.dev.reached q.path = true → s.dev.spdmOn = true →
    (q.ses = none ∧ ses = none ∨
      ∃ id x, q.ses = some id ∧ (s.dev.drk.sess.find? fun y => y.id == id.toNat) = some x ∧ ses = some x) →
    let d := s.dev
    let fz := s.fuse
    let conn := q.path.val * 256 + q.src.toNat
    let st := (d.conn conn).st
    let w := fun (code : Nat) => (⟨q.ver.toNat, code, q.p1.toNat, q.p2.toNat, q.body⟩ : SpdmIn)
    let f := (w 0).f
    let msg := fun (r : List Byte) => match ses with
      | none => 5 :: r
      | some x => 6 :: leBytes 4 x.id ++ cryptBytes uSEAL (leBytes 4 x.id ++ leBytes 8 x.keys ++ r) (r.length + 20)
    let tells := fun (c : Instr) (r : List Byte) (e : Dev) =>
      exec c s = .next (s.after ((e.emit (.spdm r)).mctpOut q.path q.src.toNat q.tag.toNat (msg r)))
    -- the response that ends in a signature with the identity key
    let signs := fun (code : Nat) (purpose : String) (r : List Byte) => ∃ k pre, 0 < k ∧ k < p384n ∧
      let y := ecdsaSign (identityKey fz.uds) k
        (sha384 (spdmPrefix purpose ++ sha384 ((d.conn conn).tr ++ (w code).bytes ++ pre)))
      r = pre ++ beBytes 48 y.1 ++ beBytes 48 y.2
    (∀ (code : Nat) (c : Instr), (code, c) ∈ [(0x84, Instr.getVersion q), (0xE1, .getCapabilities q),
        (0xE3, .negotiateAlgorithms q), (0x81, .getDigests q), (0x82, .getCertificate q), (0x83, .challenge q),
        (0xE0, .getMeasurements q), (0xE4, .keyExchange q), (0xE5, .finish q), (0xEC, .endSession q), (0xE8, .heartbeat q),
        (0xE9, .keyUpdate q), (0xFE, .cxlIdeKm q)] →
      tells c (Dev.spdmDo fz d conn ses (w code)).1 (Dev.spdmDo fz d conn ses (w code)).2) ∧
    (q.ver = 0x10 → ∃ e, tells (.getVersion q) [0x10, 0x04, 0, 0, 0, 1, 0x00, 0x13] e ∧ (e.conn conn).st = 1) ∧
    (q.ver = 0x13 →
      (st = 1 → q.body.length = 16 →
        ∃ r e, tells (.getCapabilities q) r e ∧ r.take 2 = [0x13, 0x61] ∧ (e.conn conn).st = 2) ∧
      (st = 2 → q.body.length = 28 + 4 * (f 24 1 + f 25 1) + 4 * q.p1.toNat → f 0 2 = q.body.length + 4 →
        ∃ r e, tells (.negotiateAlgorithms q) r e ∧ r.take 2 = [0x13, 0x63] ∧ (e.conn conn).st = 3) ∧
      (st = 3 → tells (.getDigests q) ([0x13, 0x01, 1, 1] ++ sha384 (certChain fz)) d) ∧
      (st = 3 → q.p1.toNat % 16 = 0 → q.body.length = 4 → f 0 2 < (certChain fz).length →
        let part := ((certChain fz).drop (f 0 2)).take (f 2 2)
        tells (.getCertificate q) ([0x13, 0x02, 0, 0] ++ leBytes 2 part.length ++
          leBytes 2 ((certChain fz).length - f 0 2 - part.length) ++ part) d) ∧
      (st = 3 → q.p1.toNat % 16 = 0 → q.body.length = 40 → (q.p2 = 0 ∨ q.p2 = 1 ∨ q.p2 = 0xFF) →
        ∃ r e, tells (.challenge q) r e ∧ r.take 2 = [0x13, 0x03] ∧ signs 0x83 "responder-challenge_auth signing" r) ∧
      (st = 3 → (q.p2.toNat ≤ 16 ∨ q.p2 = 0xFF) →
        (q.p1.getLsbD 0 = false → q.body.length = 8 →
          ∃ r e, tells (.getMeasurements q) r e ∧ r.take 2 = [0x13, 0x60]) ∧
        (q.p1.getLsbD 0 = true → q.body.length = 41 → f 32 1 % 16 = 0 →
          ∃ r e, tells (.getMeasurements q) r e ∧ r.take 2 = [0x13, 0x60] ∧ signs 0xE0 "responder-measurements signing" r)) ∧
      (st = 3 → q.p2.toNat % 16 = 0 → 134 ≤ q.body.length → q.body.length = 134 + f 132 2 →
        (q.p1 = 0 ∨ q.p1 = 1 ∨ q.p1 = 0xFF) → d.drk.sess.length < 8 →
        ∃ r e, tells (.keyExchange q) r e ∧ r.take 2 = [0x13, 0x64] ∧ e.drk.sess.length = d.drk.sess.length + 1) ∧
      (∀ x, ses = some x → x.up = false → q.p1 = 0 → q.body = finishData x.id →
        tells (.finish q) [0x13, 0x65, 0, 0] (d.setSess x.id fun y => { y with up := true })) ∧
      (∀ x, ses = some x → x.up = true →
        tells (.endSession q) [0x13, 0x6C, 0, 0] (d.endSess x.id) ∧
        tells (.heartbeat q) [0x13, 0x68, 0, 0] d ∧
        (1 ≤ q.p1.toNat → q.p1.toNat ≤ 3 → tells (.keyUpdate q) [0x13, 0x69, q.p1, q.p2]
          (if q.p1 = 3 then d else d.setSess x.id fun y => { y with keys := y.keys + 1 })) ∧
        (let p := q.body.drop (5 + f 2 1)
          let b := fun i => (p.getD i 0).toNat
          5 + f 2 1 ≤ q.body.length → p.length = f (3 + f 2 1) 2 →
          ∃ r e, tells (.cxlIdeKm q) r e ∧ r.take 2 = [0x13, 0x7E] ∧
            (b 1 ≠ 2 → e = d) ∧
            (b 1 = 2 → p.length = 52 → b 7 < 96 → d.fdUp = true →
              Tbl.get [] e.drk.ide (((b 7 * 256 + b 4) * 2 + b 6 / 2 % 2) * 256 + b 6 / 4) = p.drop 8)))))
end

