-- ==== Sys2Proof/Laws/Exec.lean ====
section
/-! SUPPORT. The meaning that each command calls, as a rewriting rule: no proof has to unfold the dispatch. -/

namespace Sys2Proof.Machine

variable (s : State)

@[simp] theorem exec_pwrokDeassert : exec .pwrokDeassert s = execPwrokDeassert s := rfl
@[simp] theorem exec_pwrokAssert {strap} : exec (.pwrokAssert strap) s = execPwrokAssert strap s := rfl
@[simp] theorem exec_standbyRailsValid {strap} : exec (.standbyRailsValid strap) s = execStandbyRailsValid strap s := rfl
@[simp] theorem exec_vauxLost : exec .vauxLost s = execVauxLost s := rfl
@[simp] theorem exec_railValid {r v} : exec (.railValid r v) s = execRailValid r v s := rfl
@[simp] theorem exec_railFault {r v} : exec (.railFault r v) s = execRailFault r v s := rfl
@[simp] theorem exec_fdRelease : exec .fdRelease s = execFdRelease s := rfl
@[simp] theorem exec_hbmReady {k} : exec (.hbmReady k) s = execHbmReady k s := rfl
@[simp] theorem exec_bootStart : exec .bootStart s = execBootStart s := rfl
@[simp] theorem exec_resetNAssert : exec .resetNAssert s = execResetNAssert s := rfl
@[simp] theorem exec_warmResetRelease {safeLow} : exec (.warmResetRelease safeLow) s = execWarmResetRelease safeLow s := rfl
@[simp] theorem exec_darkroomWatchdog : exec .darkroomWatchdog s = execDarkroomWatchdog s := rfl
@[simp] theorem exec_thermalCritical {k tj} : exec (.thermalCritical k tj) s = execThermalCritical k tj s := rfl
@[simp] theorem exec_thermalTrip {k tj} : exec (.thermalTrip k tj) s = execThermalTrip k tj s := rfl
@[simp] theorem exec_throttleStep {tj} : exec (.throttleStep tj) s = execThrottleStep tj s := rfl
@[simp] theorem exec_safeNExternalLow : exec .safeNExternalLow s = execSafeNExternalLow s := rfl
@[simp] theorem exec_timePpsEdge : exec .timePpsEdge s = execTimePpsEdge s := rfl
@[simp] theorem exec_ppsLoss : exec .ppsLoss s = execPpsLoss s := rfl
@[simp] theorem exec_shutterInEdge {delay} : exec (.shutterInEdge delay) s = execShutterInEdge delay s := rfl
@[simp] theorem exec_shutterTimer : exec .shutterTimer s = execShutterTimer s := rfl
@[simp] theorem exec_snapshotComplete : exec .snapshotComplete s = execSnapshotComplete s := rfl
@[simp] theorem exec_sheetDump {k} : exec (.sheetDump k) s = execSheetDump k s := rfl
@[simp] theorem exec_eventDelivery {k} : exec (.eventDelivery k) s = execEventDelivery k s := rfl
@[simp] theorem exec_cspRegisterWrite {a v} : exec (.cspRegisterWrite a v) s = execCspRegisterWrite a v s := rfl
@[simp] theorem exec_csprd {t f} : exec (.csprd t f) s = execCsprd t f s := rfl
@[simp] theorem exec_cspwr {t f} : exec (.cspwr t f) s = execCspwr t f s := rfl
@[simp] theorem exec_bar0Read {p off n} : exec (.bar0Read p off n) s = execBar0Read p off n s := rfl
@[simp] theorem exec_bar0Write {p off bs} : exec (.bar0Write p off bs) s = execBar0Write p off bs s := rfl
@[simp] theorem exec_msixTableWrite {p k x} : exec (.msixTableWrite p k x) s = execMsixTableWrite p k x s := rfl
@[simp] theorem exec_biDecoderCommit {p k} : exec (.biDecoderCommit p k) s = execBiDecoderCommit p k s := rfl
@[simp] theorem exec_biDecoderUncommit {p k} : exec (.biDecoderUncommit p k) s = execBiDecoderUncommit p k s := rfl
@[simp] theorem exec_memrd {p r} : exec (.memrd p r) s = execMemrd p r s := rfl
@[simp] theorem exec_memrddata {p r} : exec (.memrddata p r) s = execMemrddata p r s := rfl
@[simp] theorem exec_memwr {p r} : exec (.memwr p r) s = execMemwr p r s := rfl
@[simp] theorem exec_memwrptl {p r} : exec (.memwrptl p r) s = execMemwrptl p r s := rfl
@[simp] theorem exec_memclnevct {p r} : exec (.memclnevct p r) s = execMemclnevct p r s := rfl
@[simp] theorem exec_birspi {p ln} : exec (.birspi p ln) s = execBirspi p ln s := rfl
@[simp] theorem exec_birsps {p ln} : exec (.birsps p ln) s = execBirsps p ln s := rfl
@[simp] theorem exec_birspe {p ln} : exec (.birspe p ln) s = execBirspe p ln s := rfl
@[simp] theorem exec_pcieMemoryRead {p r} : exec (.pcieMemoryRead p r) s = execPcieMemoryRead p r s := rfl
@[simp] theorem exec_pcieMemoryWrite {p off bs} : exec (.pcieMemoryWrite p off bs) s = execPcieMemoryWrite p off bs s := rfl
@[simp] theorem exec_pcieAtomicop {p tag o sz off a b} : exec (.pcieAtomicop p tag o sz off a b) s = execPcieAtomicop p tag o sz off a b s := rfl
@[simp] theorem exec_bisnpTimeout {p ln} : exec (.bisnpTimeout p ln) s = execBisnpTimeout p ln s := rfl
@[simp] theorem exec_rds {m err} : exec (.rds m err) s = execRds m err s := rfl
@[simp] theorem exec_rdx {m err} : exec (.rdx m err) s = execRdx m err s := rfl
@[simp] theorem exec_upg {m err} : exec (.upg m err) s = execUpg m err s := rfl
@[simp] theorem exec_rdu {m err} : exec (.rdu m err) s = execRdu m err s := rfl
@[simp] theorem exec_wru {m} : exec (.wru m) s = execWru m s := rfl
@[simp] theorem exec_wrp {m err} : exec (.wrp m err) s = execWrp m err s := rfl
@[simp] theorem exec_atom {m err} : exec (.atom m err) s = execAtom m err s := rfl
@[simp] theorem exec_homeRequestDequeue {ln err} : exec (.homeRequestDequeue ln err) s = execHomeRequestDequeue ln err s := rfl
@[simp] theorem exec_sfWayFree {ln err} : exec (.sfWayFree ln err) s = execSfWayFree ln err s := rfl
@[simp] theorem exec_predictorEntryExpire {n k} : exec (.predictorEntryExpire n k) s = execPredictorEntryExpire n k s := rfl
@[simp] theorem exec_gntm {m} : exec (.gntm m) s = execGntm m s := rfl
@[simp] theorem exec_cmpMessage {m} : exec (.cmpMessage m) s = execCmpMessage m s := rfl
@[simp] theorem exec_cmpp {m} : exec (.cmpp m) s = execCmpp m s := rfl
@[simp] theorem exec_wback {m} : exec (.wback m) s = execWback m s := rfl
@[simp] theorem exec_datas {m} : exec (.datas m) s = execDatas m s := rfl
@[simp] theorem exec_datae {m} : exec (.datae m) s = execDatae m s := rfl
@[simp] theorem exec_datam {m} : exec (.datam m) s = execDatam m s := rfl
@[simp] theorem exec_datau {m} : exec (.datau m) s = execDatau m s := rfl
@[simp] theorem exec_dataa {m} : exec (.dataa m) s = execDataa m s := rfl
@[simp] theorem exec_wbm {m} : exec (.wbm m) s = execWbm m s := rfl
@[simp] theorem exec_wbo {m} : exec (.wbo m) s = execWbo m s := rfl
@[simp] theorem exec_evictc {m} : exec (.evictc m) s = execEvictc m s := rfl
@[simp] theorem exec_snps {m} : exec (.snps m) s = execSnps m s := rfl
@[simp] theorem exec_snpi {m} : exec (.snpi m) s = execSnpi m s := rfl
@[simp] theorem exec_snpc {m} : exec (.snpc m) s = execSnpc m s := rfl
@[simp] theorem exec_rspi {m} : exec (.rspi m) s = execRspi m s := rfl
@[simp] theorem exec_rsps {m} : exec (.rsps m) s = execRsps m s := rfl
@[simp] theorem exec_rspo {m} : exec (.rspo m) s = execRspo m s := rfl
@[simp] theorem exec_rspd {m} : exec (.rspd m) s = execRspd m s := rfl
@[simp] theorem exec_rspiwb {m} : exec (.rspiwb m) s = execRspiwb m s := rfl
@[simp] theorem exec_snpcnt {m} : exec (.snpcnt m) s = execSnpcnt m s := rfl
@[simp] theorem exec_cohReservedCode {m} : exec (.cohReservedCode m) s = execCohReservedCode m s := rfl
@[simp] theorem exec_fbind {t f} : exec (.fbind t f) s = execFbind t f s := rfl
@[simp] theorem exec_fbindKeep {t f} : exec (.fbindKeep t f) s = execFbindKeep t f s := rfl
@[simp] theorem exec_zeroingComplete {k} : exec (.zeroingComplete k) s = execZeroingComplete k s := rfl
@[simp] theorem exec_funbind {t f} : exec (.funbind t f) s = execFunbind t f s := rfl
@[simp] theorem exec_unbindComplete {k} : exec (.unbindComplete k) s = execUnbindComplete k s := rfl
@[simp] theorem exec_slsetCreate {t f} : exec (.slsetCreate t f) s = execSlsetCreate t f s := rfl
@[simp] theorem exec_slsetDestroy {t f} : exec (.slsetDestroy t f) s = execSlsetDestroy t f s := rfl
@[simp] theorem exec_slsetRoot {t f} : exec (.slsetRoot t f) s = execSlsetRoot t f s := rfl
@[simp] theorem exec_slsetHostopen {t f} : exec (.slsetHostopen t f) s = execSlsetHostopen t f s := rfl
@[simp] theorem exec_slsetHostclose {t f} : exec (.slsetHostclose t f) s = execSlsetHostclose t f s := rfl
@[simp] theorem exec_slquiesce {t f} : exec (.slquiesce t f) s = execSlquiesce t f s := rfl
@[simp] theorem exec_slquiesceAbort {t f} : exec (.slquiesceAbort t f) s = execSlquiesceAbort t f s := rfl
@[simp] theorem exec_sliceQuiesced {n} : exec (.sliceQuiesced n) s = execSliceQuiesced n s := rfl
@[simp] theorem exec_quiesceTimeout {t} : exec (.quiesceTimeout t) s = execQuiesceTimeout t s := rfl
@[simp] theorem exec_slresume {t f} : exec (.slresume t f) s = execSlresume t f s := rfl
@[simp] theorem exec_slreset {t f} : exec (.slreset t f) s = execSlreset t f s := rfl
@[simp] theorem exec_xinvGo {v} : exec (.xinvGo v) s = execXinvGo v s := rfl
@[simp] theorem exec_xinvDone : exec .xinvDone s = execXinvDone s := rfl
@[simp] theorem exec_hgenReq {h} : exec (.hgenReq h) s = execHgenReq h s := rfl
@[simp] theorem exec_genSwap {h} : exec (.genSwap h) s = execGenSwap h s := rfl
@[simp] theorem exec_genDrained {h} : exec (.genDrained h) s = execGenDrained h s := rfl
@[simp] theorem exec_exttblWrite {v} : exec (.exttblWrite v) s = execExttblWrite v s := rfl
@[simp] theorem exec_dlogBump {n} : exec (.dlogBump n) s = execDlogBump n s := rfl
@[simp] theorem exec_dlogEpochAdopted {n} : exec (.dlogEpochAdopted n) s = execDlogEpochAdopted n s := rfl
@[simp] theorem exec_homeRecallGo {n v} : exec (.homeRecallGo n v) s = execHomeRecallGo n v s := rfl
@[simp] theorem exec_homeRecallDone {n} : exec (.homeRecallDone n) s = execHomeRecallDone n s := rfl
@[simp] theorem exec_hgmapWrite {n g v} : exec (.hgmapWrite n g v) s = execHgmapWrite n g v s := rfl
@[simp] theorem exec_predClr {n} : exec (.predClr n) s = execPredClr n s := rfl
@[simp] theorem exec_hbmRecal {k pc} : exec (.hbmRecal k pc) s = execHbmRecal k pc s := rfl
@[simp] theorem exec_hbmCalNow {k} : exec (.hbmCalNow k) s = execHbmCalNow k s := rfl
@[simp] theorem exec_hbmRecalDone {k pc ns} : exec (.hbmRecalDone k pc ns) s = execHbmRecalDone k pc ns s := rfl
@[simp] theorem exec_hbmInterfaceFault {k pc} : exec (.hbmInterfaceFault k pc) s = execHbmInterfaceFault k pc s := rfl
@[simp] theorem exec_hbmRetrainDone {k pc ok} : exec (.hbmRetrainDone k pc ok) s = execHbmRetrainDone k pc ok s := rfl
@[simp] theorem exec_retireAuto {k page} : exec (.retireAuto k page) s = execRetireAuto k page s := rfl
@[simp] theorem exec_retcfgGo {k v} : exec (.retcfgGo k v) s = execRetcfgGo k v s := rfl
@[simp] theorem exec_retireDone {r} : exec (.retireDone r) s = execRetireDone r s := rfl
@[simp] theorem exec_scrubRead {ln err err2} : exec (.scrubRead ln err err2) s = execScrubRead ln err err2 s := rfl
@[simp] theorem exec_expanderResponse {e epoch ln data psn wr} : exec (.expanderResponse e epoch ln data psn wr) s = execExpanderResponse e epoch ln data psn wr s := rfl
@[simp] theorem exec_hedgeTimeout {ln} : exec (.hedgeTimeout ln) s = execHedgeTimeout ln s := rfl
@[simp] theorem exec_expanderNoResponse {e} : exec (.expanderNoResponse e) s = execExpanderNoResponse e s := rfl
@[simp] theorem exec_pair {xp xs} : exec (.pair xp xs) s = execPair xp xs s := rfl
@[simp] theorem exec_unpair {xp} : exec (.unpair xp) s = execUnpair xp s := rfl
@[simp] theorem exec_verifyOn {xp} : exec (.verifyOn xp) s = execVerifyOn xp s := rfl
@[simp] theorem exec_verifyOff {xp} : exec (.verifyOff xp) s = execVerifyOff xp s := rfl
@[simp] theorem exec_admitExtent {e} : exec (.admitExtent e) s = execAdmitExtent e s := rfl
@[simp] theorem exec_release {e} : exec (.release e) s = execRelease e s := rfl
@[simp] theorem exec_partLock {v} : exec (.partLock v) s = execPartLock v s := rfl
@[simp] theorem exec_mirtblWrite {v} : exec (.mirtblWrite v) s = execMirtblWrite v s := rfl
@[simp] theorem exec_resilGo {v} : exec (.resilGo v) s = execResilGo v s := rfl
@[simp] theorem exec_resilLineCopy {kind k err} : exec (.resilLineCopy kind k err) s = execResilLineCopy kind k err s := rfl
@[simp] theorem exec_resilDone {kind k} : exec (.resilDone kind k) s = execResilDone kind k s := rfl
@[simp] theorem exec_portEnable {p v} : exec (.portEnable p v) s = execPortEnable p v s := rfl
@[simp] theorem exec_portDisable {p v} : exec (.portDisable p v) s = execPortDisable p v s := rfl
@[simp] theorem exec_portReset {p v} : exec (.portReset p v) s = execPortReset p v s := rfl
@[simp] theorem exec_linkUp {p w rate rev pol lact lwc partner} : exec (.linkUp p w rate rev pol lact lwc partner) s = execLinkUp p w rate rev pol lact lwc partner s := rfl
@[simp] theorem exec_linkDown {p noLanes} : exec (.linkDown p noLanes) s = execLinkDown p noLanes s := rfl
@[simp] theorem exec_l0Timeout {p} : exec (.l0Timeout p) s = execL0Timeout p s := rfl
@[simp] theorem exec_laneFail {p l} : exec (.laneFail p l) s = execLaneFail p l s := rfl
@[simp] theorem exec_signalLoss {p} : exec (.signalLoss p) s = execSignalLoss p s := rfl
@[simp] theorem exec_ts1 {p x} : exec (.ts1 p x) s = execTs1 p x s := rfl
@[simp] theorem exec_ts2 {p x} : exec (.ts2 p x) s = execTs2 p x s := rfl
@[simp] theorem exec_rts {p x} : exec (.rts p x) s = execRts p x s := rfl
@[simp] theorem exec_addOrderedSet {p x} : exec (.addOrderedSet p x) s = execAddOrderedSet p x s := rfl
@[simp] theorem exec_flitReceive {p x} : exec (.flitReceive p x) s = execFlitReceive p x s := rfl
@[simp] theorem exec_credit {p vc n} : exec (.credit p vc n) s = execCredit p vc n s := rfl
@[simp] theorem exec_lreq {p c} : exec (.lreq p c) s = execLreq p c s := rfl
@[simp] theorem exec_lack {p c} : exec (.lack p c) s = execLack p c s := rfl
@[simp] theorem exec_lswitch {p c} : exec (.lswitch p c) s = execLswitch p c s := rfl
@[simp] theorem exec_creditCtrlSend {p} : exec (.creditCtrlSend p) s = execCreditCtrlSend p s := rfl
@[simp] theorem exec_ackTimeout {p} : exec (.ackTimeout p) s = execAckTimeout p s := rfl
@[simp] theorem exec_creditTimeout {p vc} : exec (.creditTimeout p vc) s = execCreditTimeout p vc s := rfl
@[simp] theorem exec_retrainTimeout {p} : exec (.retrainTimeout p) s = execRetrainTimeout p s := rfl
@[simp] theorem exec_retrainWatchExpire {p} : exec (.retrainWatchExpire p) s = execRetrainWatchExpire p s := rfl
@[simp] theorem exec_widthChangeTimeout {p} : exec (.widthChangeTimeout p) s = execWidthChangeTimeout p s := rfl
@[simp] theorem exec_linkCalPeriod {p} : exec (.linkCalPeriod p) s = execLinkCalPeriod p s := rfl
@[simp] theorem exec_linkCalNow {p} : exec (.linkCalNow p) s = execLinkCalNow p s := rfl
@[simp] theorem exec_eyeSweep {p l hm vm} : exec (.eyeSweep p l hm vm) s = execEyeSweep p l hm vm s := rfl
@[simp] theorem exec_halfRecalDone {p} : exec (.halfRecalDone p) s = execHalfRecalDone p s := rfl
@[simp] theorem exec_pathReissue {v} : exec (.pathReissue v) s = execPathReissue v s := rfl
@[simp] theorem exec_pathLost {m} : exec (.pathLost m) s = execPathLost m s := rfl
@[simp] theorem exec_dupEntryExpire {src tag} : exec (.dupEntryExpire src tag) s = execDupEntryExpire src tag s := rfl
@[simp] theorem exec_dispatchManager {t} : exec (.dispatchManager t) s = execDispatchManager t s := rfl
@[simp] theorem exec_dispatchWindow {n w t} : exec (.dispatchWindow n w t) s = execDispatchWindow n w t s := rfl
@[simp] theorem exec_dispatchStartChannel {n c t} : exec (.dispatchStartChannel n c t) s = execDispatchStartChannel n c t s := rfl
@[simp] theorem exec_dispatchSq {n q t} : exec (.dispatchSq n q t) s = execDispatchSq n q t s := rfl
@[simp] theorem exec_load {n index dest loc slo shi} : exec (.load n index dest loc slo shi) s = execLoad n index dest loc slo shi s := rfl
@[simp] theorem exec_loadComplete {n} : exec (.loadComplete n) s = execLoadComplete n s := rfl
@[simp] theorem exec_loadMeasureTimeout {n} : exec (.loadMeasureTimeout n) s = execLoadMeasureTimeout n s := rfl
@[simp] theorem exec_unload {n index} : exec (.unload n index) s = execUnload n index s := rfl
@[simp] theorem exec_chcfgWrite {n c v} : exec (.chcfgWrite n c v) s = execChcfgWrite n c v s := rfl
@[simp] theorem exec_chput {t f ind} : exec (.chput t f ind) s = execChput t f ind s := rfl
@[simp] theorem exec_chputCreditResume {t} : exec (.chputCreditResume t) s = execChputCreditResume t s := rfl
@[simp] theorem exec_chtry {t f ind} : exec (.chtry t f ind) s = execChtry t f ind s := rfl
@[simp] theorem exec_chget {t f ind} : exec (.chget t f ind) s = execChget t f ind s := rfl
@[simp] theorem exec_chgetW {t f ind} : exec (.chgetW t f ind) s = execChgetW t f ind s := rfl
@[simp] theorem exec_chgetWTimeout {t} : exec (.chgetWTimeout t) s = execChgetWTimeout t s := rfl
@[simp] theorem exec_chmark {t f ind} : exec (.chmark t f ind) s = execChmark t f ind s := rfl
@[simp] theorem exec_chrewind {t f ind} : exec (.chrewind t f ind) s = execChrewind t f ind s := rfl
@[simp] theorem exec_chrelease {t f ind} : exec (.chrelease t f ind) s = execChrelease t f ind s := rfl
@[simp] theorem exec_chskip {t f ind} : exec (.chskip t f ind) s = execChskip t f ind s := rfl
@[simp] theorem exec_chcnt {t f ind} : exec (.chcnt t f ind) s = execChcnt t f ind s := rfl
@[simp] theorem exec_watchdogHung {t} : exec (.watchdogHung t) s = execWatchdogHung t s := rfl
@[simp] theorem exec_fenceComplete {n ix} : exec (.fenceComplete n ix) s = execFenceComplete n ix s := rfl
@[simp] theorem exec_fencedSendAttempt {n ix} : exec (.fencedSendAttempt n ix) s = execFencedSendAttempt n ix s := rfl
@[simp] theorem exec_fswap {t f} : exec (.fswap t f) s = execFswap t f s := rfl
@[simp] theorem exec_swapComplete {n} : exec (.swapComplete n) s = execSwapComplete n s := rfl
@[simp] theorem exec_trotate {t f} : exec (.trotate t f) s = execTrotate t f s := rfl
@[simp] theorem exec_selftestComplete {n pass} : exec (.selftestComplete n pass) s = execSelftestComplete n pass s := rfl
@[simp] theorem exec_halt {t f} : exec (.halt t f) s = execHalt t f s := rfl
@[simp] theorem exec_haltClr {t f} : exec (.haltClr t f) s = execHaltClr t f s := rfl
@[simp] theorem exec_add {t f} : exec (.add t f) s = execAdd t f s := rfl
@[simp] theorem exec_sub {t f} : exec (.sub t f) s = execSub t f s := rfl
@[simp] theorem exec_and {t f} : exec (.and t f) s = execAnd t f s := rfl
@[simp] theorem exec_or {t f} : exec (.or t f) s = execOr t f s := rfl
@[simp] theorem exec_xor {t f} : exec (.xor t f) s = execXor t f s := rfl
@[simp] theorem exec_andn {t f} : exec (.andn t f) s = execAndn t f s := rfl
@[simp] theorem exec_slt {t f} : exec (.slt t f) s = execSlt t f s := rfl
@[simp] theorem exec_sltu {t f} : exec (.sltu t f) s = execSltu t f s := rfl
@[simp] theorem exec_min {t f} : exec (.min t f) s = execMin t f s := rfl
@[simp] theorem exec_max {t f} : exec (.max t f) s = execMax t f s := rfl
@[simp] theorem exec_minu {t f} : exec (.minu t f) s = execMinu t f s := rfl
@[simp] theorem exec_maxu {t f} : exec (.maxu t f) s = execMaxu t f s := rfl
@[simp] theorem exec_cmp {t f} : exec (.cmp t f) s = execCmp t f s := rfl
@[simp] theorem exec_cmpu {t f} : exec (.cmpu t f) s = execCmpu t f s := rfl
@[simp] theorem exec_selv {t f} : exec (.selv t f) s = execSelv t f s := rfl
@[simp] theorem exec_getcf {t f} : exec (.getcf t f) s = execGetcf t f s := rfl
@[simp] theorem exec_setcf {t f} : exec (.setcf t f) s = execSetcf t f s := rfl
@[simp] theorem exec_rdtime {t f} : exec (.rdtime t f) s = execRdtime t f s := rfl
@[simp] theorem exec_rdcyc {t f} : exec (.rdcyc t f) s = execRdcyc t f s := rfl
@[simp] theorem exec_rdpmc {t f} : exec (.rdpmc t f) s = execRdpmc t f s := rfl
@[simp] theorem exec_rdrand {t f} : exec (.rdrand t f) s = execRdrand t f s := rfl
@[simp] theorem exec_rdid {t f} : exec (.rdid t f) s = execRdid t f s := rfl
@[simp] theorem exec_addi {t f} : exec (.addi t f) s = execAddi t f s := rfl
@[simp] theorem exec_andi {t f} : exec (.andi t f) s = execAndi t f s := rfl
@[simp] theorem exec_ori {t f} : exec (.ori t f) s = execOri t f s := rfl
@[simp] theorem exec_xori {t f} : exec (.xori t f) s = execXori t f s := rfl
@[simp] theorem exec_cmpi {t f} : exec (.cmpi t f) s = execCmpi t f s := rfl
@[simp] theorem exec_lui {t f} : exec (.lui t f) s = execLui t f s := rfl
@[simp] theorem exec_sll {t f} : exec (.sll t f) s = execSll t f s := rfl
@[simp] theorem exec_srl {t f} : exec (.srl t f) s = execSrl t f s := rfl
@[simp] theorem exec_sra {t f} : exec (.sra t f) s = execSra t f s := rfl
@[simp] theorem exec_ror {t f} : exec (.ror t f) s = execRor t f s := rfl
@[simp] theorem exec_slli {t f} : exec (.slli t f) s = execSlli t f s := rfl
@[simp] theorem exec_srli {t f} : exec (.srli t f) s = execSrli t f s := rfl
@[simp] theorem exec_srai {t f} : exec (.srai t f) s = execSrai t f s := rfl
@[simp] theorem exec_rori {t f} : exec (.rori t f) s = execRori t f s := rfl
@[simp] theorem exec_extu {t f} : exec (.extu t f) s = execExtu t f s := rfl
@[simp] theorem exec_exts {t f} : exec (.exts t f) s = execExts t f s := rfl
@[simp] theorem exec_ins {t f} : exec (.ins t f) s = execIns t f s := rfl
@[simp] theorem exec_clz {t f} : exec (.clz t f) s = execClz t f s := rfl
@[simp] theorem exec_ctz {t f} : exec (.ctz t f) s = execCtz t f s := rfl
@[simp] theorem exec_popc {t f} : exec (.popc t f) s = execPopc t f s := rfl
@[simp] theorem exec_bswap {t f} : exec (.bswap t f) s = execBswap t f s := rfl
@[simp] theorem exec_mul {t f} : exec (.mul t f) s = execMul t f s := rfl
@[simp] theorem exec_mulh {t f} : exec (.mulh t f) s = execMulh t f s := rfl
@[simp] theorem exec_mulhu {t f} : exec (.mulhu t f) s = execMulhu t f s := rfl
@[simp] theorem exec_div {t f} : exec (.div t f) s = execDiv t f s := rfl
@[simp] theorem exec_divu {t f} : exec (.divu t f) s = execDivu t f s := rfl
@[simp] theorem exec_rem {t f} : exec (.rem t f) s = execRem t f s := rfl
@[simp] theorem exec_remu {t f} : exec (.remu t f) s = execRemu t f s := rfl
@[simp] theorem exec_ld {t f} : exec (.ld t f) s = execLd t f s := rfl
@[simp] theorem exec_st {t f} : exec (.st t f) s = execSt t f s := rfl
@[simp] theorem exec_ldl {t f} : exec (.ldl t f) s = execLdl t f s := rfl
@[simp] theorem exec_pref {t f} : exec (.pref t f) s = execPref t f s := rfl
@[simp] theorem exec_br {t f} : exec (.br t f) s = execBr t f s := rfl
@[simp] theorem exec_bz {t f} : exec (.bz t f) s = execBz t f s := rfl
@[simp] theorem exec_bnz {t f} : exec (.bnz t f) s = execBnz t f s := rfl
@[simp] theorem exec_bneg {t f} : exec (.bneg t f) s = execBneg t f s := rfl
@[simp] theorem exec_call {t f} : exec (.call t f) s = execCall t f s := rfl
@[simp] theorem exec_jr {t f} : exec (.jr t f) s = execJr t f s := rfl
@[simp] theorem exec_amoAdd {t f} : exec (.amoAdd t f) s = execAmoAdd t f s := rfl
@[simp] theorem exec_amoCas {t f} : exec (.amoCas t f) s = execAmoCas t f s := rfl
@[simp] theorem exec_amoSwap {t f} : exec (.amoSwap t f) s = execAmoSwap t f s := rfl
@[simp] theorem exec_amoMin {t f} : exec (.amoMin t f) s = execAmoMin t f s := rfl
@[simp] theorem exec_amoMax {t f} : exec (.amoMax t f) s = execAmoMax t f s := rfl
@[simp] theorem exec_amoMinu {t f} : exec (.amoMinu t f) s = execAmoMinu t f s := rfl
@[simp] theorem exec_amoMaxu {t f} : exec (.amoMaxu t f) s = execAmoMaxu t f s := rfl
@[simp] theorem exec_amoAnd {t f} : exec (.amoAnd t f) s = execAmoAnd t f s := rfl
@[simp] theorem exec_amoOr {t f} : exec (.amoOr t f) s = execAmoOr t f s := rfl
@[simp] theorem exec_amoXor {t f} : exec (.amoXor t f) s = execAmoXor t f s := rfl
@[simp] theorem exec_fence {t f} : exec (.fence t f) s = execFence t f s := rfl
@[simp] theorem exec_fenceR {t f} : exec (.fenceR t f) s = execFenceR t f s := rfl
@[simp] theorem exec_fenceW {t f} : exec (.fenceW t f) s = execFenceW t f s := rfl
@[simp] theorem exec_rulesync {t f} : exec (.rulesync t f) s = execRulesync t f s := rfl
@[simp] theorem exec_rulesyncComplete {t} : exec (.rulesyncComplete t) s = execRulesyncComplete t s := rfl
@[simp] theorem exec_hashCrc32c {t f sz} : exec (.hashCrc32c t f sz) s = execHashCrc32c t f sz s := rfl
@[simp] theorem exec_hashCrc64 {t f sz} : exec (.hashCrc64 t f sz) s = execHashCrc64 t f sz s := rfl
@[simp] theorem exec_hashToep {t f wide} : exec (.hashToep t f wide) s = execHashToep t f wide s := rfl
@[simp] theorem exec_hashSip8 {t f} : exec (.hashSip8 t f) s = execHashSip8 t f s := rfl
@[simp] theorem exec_hashSip16 {t f} : exec (.hashSip16 t f) s = execHashSip16 t f s := rfl
@[simp] theorem exec_hashSip64 {t f} : exec (.hashSip64 t f) s = execHashSip64 t f s := rfl
@[simp] theorem exec_trieStep {t f} : exec (.trieStep t f) s = execTrieStep t f s := rfl
@[simp] theorem exec_exmProbe {t f} : exec (.exmProbe t f) s = execExmProbe t f s := rfl
@[simp] theorem exec_rangeCmp {t f} : exec (.rangeCmp t f) s = execRangeCmp t f s := rfl
@[simp] theorem exec_rangeCmpS {t f} : exec (.rangeCmpS t f) s = execRangeCmpS t f s := rfl
@[simp] theorem exec_cinc {t f k} : exec (.cinc t f k) s = execCinc t f k s := rfl
@[simp] theorem exec_cincA {t f k} : exec (.cincA t f k) s = execCincA t f k s := rfl
@[simp] theorem exec_sketchAdd {t f k} : exec (.sketchAdd t f k) s = execSketchAdd t f k s := rfl
@[simp] theorem exec_sketchEst {t f k} : exec (.sketchEst t f k) s = execSketchEst t f k s := rfl
@[simp] theorem exec_meter {t f} : exec (.meter t f) s = execMeter t f s := rfl
@[simp] theorem exec_enq {t f} : exec (.enq t f) s = execEnq t f s := rfl
@[simp] theorem exec_deq {t f} : exec (.deq t f) s = execDeq t f s := rfl
@[simp] theorem exec_qrel {t f} : exec (.qrel t f) s = execQrel t f s := rfl
@[simp] theorem exec_qstat {t f} : exec (.qstat t f) s = execQstat t f s := rfl
@[simp] theorem exec_move {t f} : exec (.move t f) s = execMove t f s := rfl
@[simp] theorem exec_moveP {t f} : exec (.moveP t f) s = execMoveP t f s := rfl
@[simp] theorem exec_fill {t f} : exec (.fill t f) s = execFill t f s := rfl
@[simp] theorem exec_fillP {t f} : exec (.fillP t f) s = execFillP t f s := rfl
@[simp] theorem exec_moveEngineComplete {n k lines} : exec (.moveEngineComplete n k lines) s = execMoveEngineComplete n k lines s := rfl
@[simp] theorem exec_lcomp {t f} : exec (.lcomp t f) s = execLcomp t f s := rfl
@[simp] theorem exec_ldecomp {t f} : exec (.ldecomp t f) s = execLdecomp t f s := rfl
@[simp] theorem exec_cqpost {t f} : exec (.cqpost t f) s = execCqpost t f s := rfl
@[simp] theorem exec_cqpostEnd {t f} : exec (.cqpostEnd t f) s = execCqpostEnd t f s := rfl
@[simp] theorem exec_evraiseSrc {t f} : exec (.evraiseSrc t f) s = execEvraiseSrc t f s := rfl
@[simp] theorem exec_evraiseVec {t f} : exec (.evraiseVec t f) s = execEvraiseVec t f s := rfl
@[simp] theorem exec_waitT {t f} : exec (.waitT t f) s = execWaitT t f s := rfl
@[simp] theorem exec_waitUntil {t f} : exec (.waitUntil t f) s = execWaitUntil t f s := rfl
@[simp] theorem exec_waitCh {t f} : exec (.waitCh t f) s = execWaitCh t f s := rfl
@[simp] theorem exec_waitExpire {t} : exec (.waitExpire t) s = execWaitExpire t s := rfl
@[simp] theorem exec_mpuset {t f} : exec (.mpuset t f) s = execMpuset t f s := rfl
@[simp] theorem exec_mpulock {t f} : exec (.mpulock t f) s = execMpulock t f s := rfl
@[simp] theorem exec_shutter {t f} : exec (.shutter t f) s = execShutter t f s := rfl
@[simp] theorem exec_sheetcfg {t f} : exec (.sheetcfg t f) s = execSheetcfg t f s := rfl
@[simp] theorem exec_sqTailDoorbell {p f q v} : exec (.sqTailDoorbell p f q v) s = execSqTailDoorbell p f q v s := rfl
@[simp] theorem exec_cqHeadDoorbell {p f q v} : exec (.cqHeadDoorbell p f q v) s = execCqHeadDoorbell p f q v s := rfl
@[simp] theorem exec_sqRestart {p f q} : exec (.sqRestart p f q) s = execSqRestart p f q s := rfl
@[simp] theorem exec_sqSkip {p f q} : exec (.sqSkip p f q) s = execSqSkip p f q s := rfl
@[simp] theorem exec_sqaWrite {n q v} : exec (.sqaWrite n q v) s = execSqaWrite n q v s := rfl
@[simp] theorem exec_cqaWrite {n q v} : exec (.cqaWrite n q v) s = execCqaWrite n q v s := rfl
@[simp] theorem exec_windowCommand {p f w x} : exec (.windowCommand p f w x) s = execWindowCommand p f w x s := rfl
@[simp] theorem exec_resultSlotRead {p f w off n} : exec (.resultSlotRead p f w off n) s = execResultSlotRead p f w off n s := rfl
@[simp] theorem exec_notReady {p off} : exec (.notReady p off) s = execNotReady p off s := rfl
@[simp] theorem exec_enqueueCommand {p f w x} : exec (.enqueueCommand p f w x) s = execEnqueueCommand p f w x s := rfl
@[simp] theorem exec_releaseCommand {p f w x} : exec (.releaseCommand p f w x) s = execReleaseCommand p f w x s := rfl
@[simp] theorem exec_fringHeadDoorbell {p f r v} : exec (.fringHeadDoorbell p f r v) s = execFringHeadDoorbell p f r v s := rfl
@[simp] theorem exec_egressHeadDoorbell {p f e v} : exec (.egressHeadDoorbell p f e v) s = execEgressHeadDoorbell p f e v s := rfl
@[simp] theorem exec_fringRefill {n r c} : exec (.fringRefill n r c) s = execFringRefill n r c s := rfl
@[simp] theorem exec_scheduledDequeue : exec .scheduledDequeue s = execScheduledDequeue s := rfl
@[simp] theorem exec_shaperCredit : exec .shaperCredit s = execShaperCredit s := rfl
@[simp] theorem exec_spillStep {start} : exec (.spillStep start) s = execSpillStep start s := rfl
@[simp] theorem exec_refill {q ue} : exec (.refill q ue) s = execRefill q ue s := rfl
@[simp] theorem exec_qmTableRead {tbl ix} : exec (.qmTableRead tbl ix) s = execQmTableRead tbl ix s := rfl
@[simp] theorem exec_qmTableWrite {tbl ix} : exec (.qmTableWrite tbl ix) s = execQmTableWrite tbl ix s := rfl
@[simp] theorem exec_flush {tbl ix} : exec (.flush tbl ix) s = execFlush tbl ix s := rfl
@[simp] theorem exec_qmSpillWrite {v} : exec (.qmSpillWrite v) s = execQmSpillWrite v s := rfl
@[simp] theorem exec_qmGthWrite {v} : exec (.qmGthWrite v) s = execQmGthWrite v s := rfl
@[simp] theorem exec_slotModeOff {n port} : exec (.slotModeOff n port) s = execSlotModeOff n port s := rfl
@[simp] theorem exec_slotModeDirect {n port} : exec (.slotModeDirect n port) s = execSlotModeDirect n port s := rfl
@[simp] theorem exec_slotModeSeq {n port} : exec (.slotModeSeq n port) s = execSlotModeSeq n port s := rfl
@[simp] theorem exec_slotLimWrite {n vth v} : exec (.slotLimWrite n vth v) s = execSlotLimWrite n vth v s := rfl
@[simp] theorem exec_slotPresenceChange {n} : exec (.slotPresenceChange n) s = execSlotPresenceChange n s := rfl
@[simp] theorem exec_slotSample {n ix vin vout vgate} : exec (.slotSample n ix vin vout vgate) s = execSlotSample n ix vin vout vgate s := rfl
@[simp] theorem exec_fastTrip {n} : exec (.fastTrip n) s = execFastTrip n s := rfl
@[simp] theorem exec_faultTmr {n} : exec (.faultTmr n) s = execFaultTmr n s := rfl
@[simp] theorem exec_rampTmr {n} : exec (.rampTmr n) s = execRampTmr n s := rfl
@[simp] theorem exec_pgqualDone {n} : exec (.pgqualDone n) s = execPgqualDone n s := rfl
@[simp] theorem exec_perstRelease {n} : exec (.perstRelease n) s = execPerstRelease n s := rfl
@[simp] theorem exec_insertDone {n} : exec (.insertDone n) s = execInsertDone n s := rfl
@[simp] theorem exec_retryDone {n} : exec (.retryDone n) s = execRetryDone n s := rfl
@[simp] theorem exec_absenceDone {n} : exec (.absenceDone n) s = execAbsenceDone n s := rfl
@[simp] theorem exec_stoppingDone {n} : exec (.stoppingDone n) s = execStoppingDone n s := rfl
@[simp] theorem exec_bypass {tdi} : exec (.bypass tdi) s = execBypass tdi s := rfl
@[simp] theorem exec_idcode : exec .idcode s = execIdcode s := rfl
@[simp] theorem exec_samplePreload {tdi} : exec (.samplePreload tdi) s = execSamplePreload tdi s := rfl
@[simp] theorem exec_extest {tdi} : exec (.extest tdi) s = execExtest tdi s := rfl
@[simp] theorem exec_scan : exec .scan s = execScan s := rfl
@[simp] theorem exec_debugMemoryAccess {wr fpa n bs} : exec (.debugMemoryAccess wr fpa n bs) s = execDebugMemoryAccess wr fpa n bs s := rfl
@[simp] theorem exec_trstNAssert : exec .trstNAssert s = execTrstNAssert s := rfl
@[simp] theorem exec_getInfo {m} : exec (.getInfo m) s = execGetInfo m s := rfl
@[simp] theorem exec_cspRead {m} : exec (.cspRead m) s = execCspRead m s := rfl
@[simp] theorem exec_sysReset {m} : exec (.sysReset m) s = execSysReset m s := rfl
@[simp] theorem exec_safelight {m} : exec (.safelight m) s = execSafelight m s := rfl
@[simp] theorem exec_selftest {m pass} : exec (.selftest m pass) s = execSelftest m pass s := rfl
@[simp] theorem exec_timeCfg {m} : exec (.timeCfg m) s = execTimeCfg m s := rfl
@[simp] theorem exec_timeGet {m} : exec (.timeGet m) s = execTimeGet m s := rfl
@[simp] theorem exec_event {m} : exec (.event m) s = execEvent m s := rfl
@[simp] theorem exec_eventAck {m} : exec (.eventAck m) s = execEventAck m s := rfl
@[simp] theorem exec_imgData {m} : exec (.imgData m) s = execImgData m s := rfl
@[simp] theorem exec_imgEnd {m} : exec (.imgEnd m) s = execImgEnd m s := rfl
@[simp] theorem exec_slotRead {m} : exec (.slotRead m) s = execSlotRead m s := rfl
@[simp] theorem exec_slotOff {m} : exec (.slotOff m) s = execSlotOff m s := rfl
@[simp] theorem exec_extend {m} : exec (.extend m) s = execExtend m s := rfl
@[simp] theorem exec_sigchk {m} : exec (.sigchk m) s = execSigchk m s := rfl
@[simp] theorem exec_logRead {m} : exec (.logRead m) s = execLogRead m s := rfl
@[simp] theorem exec_dbgChal {m} : exec (.dbgChal m) s = execDbgChal m s := rfl
@[simp] theorem exec_dbgAuth {m} : exec (.dbgAuth m) s = execDbgAuth m s := rfl
@[simp] theorem exec_dbgRevoke {m} : exec (.dbgRevoke m) s = execDbgRevoke m s := rfl
@[simp] theorem exec_dbgCsp {m} : exec (.dbgCsp m) s = execDbgCsp m s := rfl
@[simp] theorem exec_memRead {m} : exec (.memRead m) s = execMemRead m s := rfl
@[simp] theorem exec_memWrite {m} : exec (.memWrite m) s = execMemWrite m s := rfl
@[simp] theorem exec_imgWrite {m} : exec (.imgWrite m) s = execImgWrite m s := rfl
@[simp] theorem exec_bootCommit {m} : exec (.bootCommit m) s = execBootCommit m s := rfl
@[simp] theorem exec_ckpt {m} : exec (.ckpt m) s = execCkpt m s := rfl
@[simp] theorem exec_ckptRestore {m} : exec (.ckptRestore m) s = execCkptRestore m s := rfl
@[simp] theorem exec_ideKey {m} : exec (.ideKey m) s = execIdeKey m s := rfl
@[simp] theorem exec_doePkt {m} : exec (.doePkt m) s = execDoePkt m s := rfl
@[simp] theorem exec_fmMsg {m} : exec (.fmMsg m) s = execFmMsg m s := rfl
@[simp] theorem exec_fmPeer {m} : exec (.fmPeer m) s = execFmPeer m s := rfl
@[simp] theorem exec_empRelayTimeout {tag} : exec (.empRelayTimeout tag) s = execEmpRelayTimeout tag s := rfl
@[simp] theorem exec_empFragmentTimeout {p} : exec (.empFragmentTimeout p) s = execEmpFragmentTimeout p s := rfl
@[simp] theorem exec_mbxtxGo {v taken} : exec (.mbxtxGo v taken) s = execMbxtxGo v taken s := rfl
@[simp] theorem exec_mbxtxTimeout : exec .mbxtxTimeout s = execMbxtxTimeout s := rfl
@[simp] theorem exec_mbxrxDone {v} : exec (.mbxrxDone v) s = execMbxrxDone v s := rfl
@[simp] theorem exec_mctpPacket {path bs} : exec (.mctpPacket path bs) s = execMctpPacket path bs s := rfl
@[simp] theorem exec_mctpMessageTimeout {path src fl} : exec (.mctpMessageTimeout path src fl) s = execMctpMessageTimeout path src fl s := rfl
@[simp] theorem exec_setEndpointId {q} : exec (.setEndpointId q) s = execSetEndpointId q s := rfl
@[simp] theorem exec_getEndpointId {q} : exec (.getEndpointId q) s = execGetEndpointId q s := rfl
@[simp] theorem exec_getEndpointUuid {q} : exec (.getEndpointUuid q) s = execGetEndpointUuid q s := rfl
@[simp] theorem exec_getMctpVersionSupport {q} : exec (.getMctpVersionSupport q) s = execGetMctpVersionSupport q s := rfl
@[simp] theorem exec_getMessageTypeSupport {q} : exec (.getMessageTypeSupport q) s = execGetMessageTypeSupport q s := rfl
@[simp] theorem exec_getVendorDefinedMsgSupport {q} : exec (.getVendorDefinedMsgSupport q) s = execGetVendorDefinedMsgSupport q s := rfl
@[simp] theorem exec_entdaa {a} : exec (.entdaa a) s = execEntdaa a s := rfl
@[simp] theorem exec_setdasa {static_ a} : exec (.setdasa static_ a) s = execSetdasa static_ a s := rfl
@[simp] theorem exec_setaasa : exec .setaasa s = execSetaasa s := rfl
@[simp] theorem exec_rstdaa : exec .rstdaa s = execRstdaa s := rfl
@[simp] theorem exec_setnewda {old a} : exec (.setnewda old a) s = execSetnewda old a s := rfl
@[simp] theorem exec_enec {ev} : exec (.enec ev) s = execEnec ev s := rfl
@[simp] theorem exec_disec {ev} : exec (.disec ev) s = execDisec ev s := rfl
@[simp] theorem exec_getpid : exec .getpid s = execGetpid s := rfl
@[simp] theorem exec_getbcr : exec .getbcr s = execGetbcr s := rfl
@[simp] theorem exec_getdcr : exec .getdcr s = execGetdcr s := rfl
@[simp] theorem exec_getstatus : exec .getstatus s = execGetstatus s := rfl
@[simp] theorem exec_getmwl : exec .getmwl s = execGetmwl s := rfl
@[simp] theorem exec_getmrl : exec .getmrl s = execGetmrl s := rfl
@[simp] theorem exec_setmwl {n} : exec (.setmwl n) s = execSetmwl n s := rfl
@[simp] theorem exec_setmrl {n} : exec (.setmrl n) s = execSetmrl n s := rfl
@[simp] theorem exec_getmxds : exec .getmxds s = execGetmxds s := rfl
@[simp] theorem exec_getVersion {q} : exec (.getVersion q) s = execGetVersion q s := rfl
@[simp] theorem exec_getCapabilities {q} : exec (.getCapabilities q) s = execGetCapabilities q s := rfl
@[simp] theorem exec_negotiateAlgorithms {q} : exec (.negotiateAlgorithms q) s = execNegotiateAlgorithms q s := rfl
@[simp] theorem exec_getDigests {q} : exec (.getDigests q) s = execGetDigests q s := rfl
@[simp] theorem exec_getCertificate {q} : exec (.getCertificate q) s = execGetCertificate q s := rfl
@[simp] theorem exec_challenge {q} : exec (.challenge q) s = execChallenge q s := rfl
@[simp] theorem exec_getMeasurements {q} : exec (.getMeasurements q) s = execGetMeasurements q s := rfl
@[simp] theorem exec_keyExchange {q} : exec (.keyExchange q) s = execKeyExchange q s := rfl
@[simp] theorem exec_finish {q} : exec (.finish q) s = execFinish q s := rfl
@[simp] theorem exec_endSession {q} : exec (.endSession q) s = execEndSession q s := rfl
@[simp] theorem exec_heartbeat {q} : exec (.heartbeat q) s = execHeartbeat q s := rfl
@[simp] theorem exec_keyUpdate {q} : exec (.keyUpdate q) s = execKeyUpdate q s := rfl
@[simp] theorem exec_cxlIdeKm {q} : exec (.cxlIdeKm q) s = execCxlIdeKm q s := rfl
@[simp] theorem exec_evtRouteWrite {k v} : exec (.evtRouteWrite k v) s = execEvtRouteWrite k v s := rfl
@[simp] theorem exec_fselClr {p v} : exec (.fselClr p v) s = execFselClr p v s := rfl
@[simp] theorem exec_peerLost {v} : exec (.peerLost v) s = execPeerLost v s := rfl
@[simp] theorem exec_loadSignatureTimeout {n} : exec (.loadSignatureTimeout n) s = execLoadSignatureTimeout n s := rfl
@[simp] theorem exec_standbyRailsLost : exec .standbyRailsLost s = execStandbyRailsLost s := rfl
@[simp] theorem exec_darkroomAllChannelOff : exec .darkroomAllChannelOff s = execDarkroomAllChannelOff s := rfl
@[simp] theorem exec_hbmDoubleRefresh {k tj} : exec (.hbmDoubleRefresh k tj) s = execHbmDoubleRefresh k tj s := rfl
@[simp] theorem exec_i3cPrivateRead : exec .i3cPrivateRead s = execI3cPrivateRead s := rfl

end Sys2Proof.Machine
end

