-- ==== Sys2Proof/Laws/Bits.lean ====
section
/-! SUPPORT. Bit fields: what a field reads as after a field was replaced; byte lists. -/

namespace Sys2Proof.Machine

theorem bitsN_lt (x lo w : Nat) : bitsN x lo w < 2 ^ w := Nat.mod_lt _ (Nat.two_pow_pos w)

theorem getBits_lt {n : Nat} (x : BitVec n) (lo w : Nat) : getBits x lo w < 2 ^ w := bitsN_lt _ _ _

theorem testBit_getBits {n : Nat} (x : BitVec n) (lo w i : Nat) :
    (getBits x lo w).testBit i = (decide (i < w) && x.getLsbD (lo + i)) := by
  simp [getBits, bitsN, Nat.testBit_mod_two_pow, Nat.testBit_shiftRight, BitVec.testBit_toNat]

theorem getLsbD_putBits {n : Nat} (x : BitVec n) (lo w v i : Nat) (h : lo + w ≤ n) :
    (putBits x lo w v).getLsbD i =
      if lo ≤ i ∧ i < lo + w then v.testBit (i - lo) else x.getLsbD i := by
  have hm : (BitVec.ofNat n (2 ^ w - 1)).getLsbD (i - lo) = decide (i - lo < n ∧ i - lo < w) := by
    simp [BitVec.getLsbD_ofNat, Nat.testBit_two_pow_sub_one]
  have hv : (BitVec.ofNat n (v % 2 ^ w)).getLsbD (i - lo) = (decide (i - lo < n ∧ i - lo < w) && v.testBit (i - lo)) := by
    simp [BitVec.getLsbD_ofNat, Nat.testBit_mod_two_pow, Bool.and_assoc]
  simp only [putBits, BitVec.getLsbD_or, BitVec.getLsbD_and, BitVec.getLsbD_not, BitVec.getLsbD_shiftLeft, hm, hv]
  by_cases hn : i < n
  · by_cases hl : i < lo
    · have : ¬ (lo ≤ i ∧ i < lo + w) := by omega
      simp [hn, hl, this]
    · by_cases hw : i < lo + w
      · have h1 : lo ≤ i ∧ i < lo + w := by omega
        have h2 : i - lo < n ∧ i - lo < w := by omega
        simp [hn, hl, h1, h2]
      · have h1 : ¬ (lo ≤ i ∧ i < lo + w) := by omega
        have h2 : ¬ (i - lo < n ∧ i - lo < w) := by omega
        simp [hn, hl, h1, h2]
  · have h1 : ¬ (lo ≤ i ∧ i < lo + w) := by omega
    simp [hn, h1, BitVec.getLsbD_of_ge x i (Nat.le_of_not_lt hn)]

/-- A field replaced reads as the low bits of what was put there. -/
@[simp] theorem getBits_putBits_same {n : Nat} (x : BitVec n) (lo w v : Nat) (h : lo + w ≤ n) :
    getBits (putBits x lo w v) lo w = v % 2 ^ w := by
  apply Nat.eq_of_testBit_eq
  intro i
  rw [testBit_getBits, getLsbD_putBits _ _ _ _ _ h, Nat.testBit_mod_two_pow]
  by_cases hi : i < w
  · simp [hi]
  · simp [hi]

/-- A field apart from the one replaced reads as before. -/
theorem getBits_putBits_other {n : Nat} (x : BitVec n) (lo w v lo' w' : Nat) (h : lo + w ≤ n)
    (hd : lo' + w' ≤ lo ∨ lo + w ≤ lo') : getBits (putBits x lo w v) lo' w' = getBits x lo' w' := by
  apply Nat.eq_of_testBit_eq
  intro i
  rw [testBit_getBits, testBit_getBits, getLsbD_putBits _ _ _ _ _ h]
  by_cases hi : i < w'
  · rw [if_neg (by omega)]
  · simp [hi]

theorem b2n_lt (b : Bool) : b2n b < 2 ^ 1 := by cases b <;> decide

@[simp] theorem b2n_mod (b : Bool) : b2n b % 2 = b2n b := by cases b <;> rfl

@[simp] theorem length_leBytes (n x : Nat) : (leBytes n x).length = n := by
  induction n generalizing x with
  | zero => rfl
  | succ n ih => simp [leBytes, ih]

/-- The bytes of a number give it back. -/
theorem leNat_leBytes (n x : Nat) : leNat (leBytes n x) = x % 256 ^ n := by
  induction n generalizing x with
  | zero => simp [leBytes, leNat, Nat.mod_one]
  | succ n ih =>
    simp only [leBytes, leNat, ih, BitVec.toNat_ofNat]
    rw [show (256 : Nat) ^ (n + 1) = 256 * 256 ^ n by rw [Nat.pow_succ, Nat.mul_comm], Nat.mod_mul]

end Sys2Proof.Machine
end

