-- ==== Sys2Proof/Laws/Table.lean ====
section
/-! SUPPORT. Sparse tables: what an entry reads as after a write, and that every operation keeps the canonical form. -/

namespace Sys2Proof.Machine

variable {α : Type}

@[simp] theorem Tbl.get_nil (d : α) (k : Nat) : Tbl.get d [] k = d := rfl

theorem Tbl.get_erase (d : α) (t : Tbl α) (k j : Nat) :
    Tbl.get d (Tbl.erase t k) j = if j = k then d else Tbl.get d t j := by
  induction t with
  | nil => simp [Tbl.erase, Tbl.get]
  | cons e t ih =>
    obtain ⟨i, v⟩ := e
    by_cases h : i = k
    · subst h
      rw [Tbl.erase, if_pos rfl, ih, Tbl.get]
      by_cases hj : j = i
      · simp [hj]
      · simp [hj, Ne.symm hj]
    · rw [Tbl.erase, if_neg h, Tbl.get, ih, Tbl.get]
      by_cases hi : i = j
      · subst hi; simp [h]
      · simp [hi]

theorem Tbl.get_insert (d : α) (t : Tbl α) (k j : Nat) (v : α) :
    Tbl.get d (Tbl.insert t k v) j = if j = k then v else Tbl.get d t j := by
  induction t with
  | nil => simp [Tbl.insert, Tbl.get, eq_comm]
  | cons e t ih =>
    obtain ⟨i, w⟩ := e
    rw [Tbl.insert]
    by_cases h : i = k
    · subst h
      rw [if_pos rfl, Tbl.get, Tbl.get]
      by_cases hj : i = j
      · simp [hj]
      · simp [hj, Ne.symm hj]
    · rw [if_neg h]
      by_cases hk : k < i
      · rw [if_pos hk, Tbl.get]
        simp only [eq_comm]
      · rw [if_neg hk, Tbl.get, ih, Tbl.get]
        by_cases hj : i = j
        · subst hj; simp [h]
        · simp [hj]

/-- An entry reads as what was last written to it, every other entry as before. -/
theorem Tbl.get_put [DecidableEq α] (d : α) (t : Tbl α) (k j : Nat) (v : α) :
    Tbl.get d (Tbl.put d t k v) j = if j = k then v else Tbl.get d t j := by
  rw [Tbl.put]
  split
  · subst_vars; exact Tbl.get_erase _ t k j
  · exact Tbl.get_insert d t k j v

@[simp] theorem Tbl.get_put_same [DecidableEq α] (d : α) (t : Tbl α) (k : Nat) (v : α) :
    Tbl.get d (Tbl.put d t k v) k = v := by simp [Tbl.get_put]

/-- Another entry reads as before, whatever default it is read with. -/
theorem Tbl.get_put_other [DecidableEq α] (d e : α) (t : Tbl α) {k j : Nat} (v : α) (h : j ≠ k) :
    Tbl.get e (Tbl.put d t k v) j = Tbl.get e t j := by
  rw [Tbl.put]
  split
  · rw [Tbl.get_erase, if_neg h]
  · rw [Tbl.get_insert, if_neg h]

/-- Reading a range back after it was written, and outside it. -/
theorem Tbl.get_putRange [DecidableEq α] (d : α) (vs : List α) (t : Tbl α) (k j : Nat) :
    Tbl.get d (Tbl.putRange d t k vs) j =
      if k ≤ j ∧ j < k + vs.length then vs.getD (j - k) d else Tbl.get d t j := by
  induction vs generalizing t k with
  | nil => simp [Tbl.putRange] <;> omega
  | cons v vs ih =>
    rw [Tbl.putRange, ih, Tbl.get_put]
    by_cases h : j = k
    · subst h; simp [show ¬ (j + 1 ≤ j ∧ j < j + 1 + vs.length) by omega]
    · by_cases h1 : k + 1 ≤ j ∧ j < k + 1 + vs.length
      · obtain ⟨i, rfl⟩ : ∃ i, j = k + (i + 1) := ⟨j - k - 1, by omega⟩
        rw [if_pos h1, if_pos (by simp only [List.length_cons]; omega),
          show k + (i + 1) - (k + 1) = i by omega, show k + (i + 1) - k = i + 1 by omega]
        rfl
      · rw [if_neg h1, if_neg h, if_neg (by simp only [List.length_cons]; omega)]

/-! ## The canonical form -/

/-- The keys of a table in its canonical form lie above `lo`. -/
def Tbl.above (lo : Nat) (t : Tbl α) : Prop := ∀ e ∈ t, lo < e.1

theorem Tbl.wf_cons [DecidableEq α] (d : α) (k : Nat) (v : α) (t : Tbl α) :
    Tbl.wf d ((k, v) :: t) = true ↔ v ≠ d ∧ Tbl.above k t ∧ Tbl.wf d t = true := by
  induction t generalizing k v with
  | nil => simp [Tbl.wf, Tbl.above]
  | cons e t ih =>
    obtain ⟨j, w⟩ := e
    rw [Tbl.wf]
    simp only [Bool.and_eq_true, decide_eq_true_eq, Tbl.above, List.mem_cons, forall_eq_or_imp]
    constructor
    · rintro ⟨⟨hv, hk⟩, hw⟩
      have := (ih j w).1 hw
      exact ⟨hv, ⟨hk, fun e he => Nat.lt_trans hk (this.2.1 e he)⟩, hw⟩
    · rintro ⟨hv, ⟨hk, -⟩, hw⟩
      exact ⟨⟨hv, hk⟩, hw⟩

theorem Tbl.above_erase (lo : Nat) (t : Tbl α) (k : Nat) (h : Tbl.above lo t) : Tbl.above lo (Tbl.erase t k) := by
  induction t with
  | nil => exact h
  | cons e t ih =>
    obtain ⟨j, v⟩ := e
    have ht : Tbl.above lo t := fun e he => h e (List.mem_cons_of_mem _ he)
    rw [Tbl.erase]
    split
    · exact ih ht
    · intro e he
      rcases List.mem_cons.1 he with rfl | he
      · exact h _ List.mem_cons_self
      · exact ih ht e he

theorem Tbl.wf_erase [DecidableEq α] (d : α) (t : Tbl α) (k : Nat) (h : Tbl.wf d t = true) :
    Tbl.wf d (Tbl.erase t k) = true := by
  induction t with
  | nil => rfl
  | cons e t ih =>
    obtain ⟨j, v⟩ := e
    obtain ⟨hv, ha, hw⟩ := (Tbl.wf_cons d j v t).1 h
    rw [Tbl.erase]
    split
    · exact ih hw
    · exact (Tbl.wf_cons d j v _).2 ⟨hv, Tbl.above_erase j t k ha, ih hw⟩

theorem Tbl.above_insert (lo : Nat) (t : Tbl α) (k : Nat) (v : α) (h : Tbl.above lo t) (hk : lo < k) :
    Tbl.above lo (Tbl.insert t k v) := by
  induction t with
  | nil => intro e he; simp only [Tbl.insert, List.mem_singleton] at he; subst he; exact hk
  | cons e t ih =>
    obtain ⟨j, w⟩ := e
    have ht : Tbl.above lo t := fun e he => h e (List.mem_cons_of_mem _ he)
    have hj : lo < j := h (j, w) List.mem_cons_self
    rw [Tbl.insert]
    split
    · intro e he
      rcases List.mem_cons.1 he with rfl | he
      · exact hk
      · exact ht e he
    · split
      · intro e he
        rcases List.mem_cons.1 he with rfl | he
        · exact hk
        · exact h e he
      · intro e he
        rcases List.mem_cons.1 he with rfl | he
        · exact hj
        · exact ih ht e he

theorem Tbl.wf_insert [DecidableEq α] (d : α) (t : Tbl α) (k : Nat) (v : α) (h : Tbl.wf d t = true) (hv : v ≠ d) :
    Tbl.wf d (Tbl.insert t k v) = true := by
  induction t with
  | nil => simp [Tbl.insert, Tbl.wf, hv]
  | cons e t ih =>
    obtain ⟨j, w⟩ := e
    obtain ⟨hw, ha, ht⟩ := (Tbl.wf_cons d j w t).1 h
    rw [Tbl.insert]
    split
    · subst_vars; exact (Tbl.wf_cons d _ v t).2 ⟨hv, ha, ht⟩
    · split
      · refine (Tbl.wf_cons d k v _).2 ⟨hv, ?_, h⟩
        intro e he
        rcases List.mem_cons.1 he with rfl | he
        · assumption
        · exact Nat.lt_trans ‹k < j› (ha e he)
      · exact (Tbl.wf_cons d j w _).2 ⟨hw, Tbl.above_insert j t k v ha (by omega), ih ht⟩

/-- A write keeps the canonical form. -/
theorem Tbl.wf_put [DecidableEq α] (d : α) (t : Tbl α) (k : Nat) (v : α) (h : Tbl.wf d t = true) :
    Tbl.wf d (Tbl.put d t k v) = true := by
  rw [Tbl.put]
  split
  · exact Tbl.wf_erase d t k h
  · exact Tbl.wf_insert d t k v h ‹_›

theorem Tbl.wf_putRange [DecidableEq α] (d : α) (vs : List α) (t : Tbl α) (k : Nat) (h : Tbl.wf d t = true) :
    Tbl.wf d (Tbl.putRange d t k vs) = true := by
  induction vs generalizing t k with
  | nil => exact h
  | cons v vs ih => exact ih _ _ (Tbl.wf_put d t k v h)

theorem Tbl.wf_filter [DecidableEq α] (d : α) (p : Nat × α → Bool) (t : Tbl α) (h : Tbl.wf d t = true) :
    Tbl.wf d (t.filter p) = true := by
  induction t with
  | nil => rfl
  | cons e t ih =>
    obtain ⟨j, v⟩ := e
    obtain ⟨hv, ha, hw⟩ := (Tbl.wf_cons d j v t).1 h
    rw [List.filter_cons]
    split
    · exact (Tbl.wf_cons d j v _).2 ⟨hv, fun e he => ha e (List.mem_filter.1 he).1, ih hw⟩
    · exact ih hw

theorem Tbl.wf_drop [DecidableEq α] (d : α) (p : Nat → Bool) (t : Tbl α) (h : Tbl.wf d t = true) :
    Tbl.wf d (Tbl.drop p t) = true := Tbl.wf_filter d _ t h

theorem Tbl.wf_upd [DecidableEq α] (d : α) (t : Tbl α) (k : Nat) (f : α → α) (h : Tbl.wf d t = true) :
    Tbl.wf d (Tbl.upd d t k f) = true := Tbl.wf_put d t k _ h

end Sys2Proof.Machine
end

