-- ==== Sys2Proof/Laws/State.lean ====
section
/-! SUPPORT. The state: one lemma per field per update, and what registers, fields, strands and counters read as after them. -/

namespace Sys2Proof.Machine

variable (d : Dev)

/-! ## Fields that an update leaves alone -/

@[simp] theorem Dev.setReg_time (r : FRef) (v : Word) : (d.setReg r v).time = d.time := rfl
@[simp] theorem Dev.setReg_fresh (r : FRef) (v : Word) : (d.setReg r v).fresh = d.fresh := rfl
@[simp] theorem Dev.setReg_out (r : FRef) (v : Word) : (d.setReg r v).out = d.out := rfl
@[simp] theorem Dev.setReg_pwr (r : FRef) (v : Word) : (d.setReg r v).pwr = d.pwr := rfl
@[simp] theorem Dev.setReg_ctr (r : FRef) (v : Word) : (d.setReg r v).ctr = d.ctr := rfl
@[simp] theorem Dev.setReg_coh (r : FRef) (v : Word) : (d.setReg r v).coh = d.coh := rfl
@[simp] theorem Dev.setReg_pool (r : FRef) (v : Word) : (d.setReg r v).pool = d.pool := rfl
@[simp] theorem Dev.setReg_bind (r : FRef) (v : Word) : (d.setReg r v).bind = d.bind := rfl
@[simp] theorem Dev.setReg_sor (r : FRef) (v : Word) : (d.setReg r v).sor = d.sor := rfl
@[simp] theorem Dev.setReg_wq (r : FRef) (v : Word) : (d.setReg r v).wq = d.wq := rfl
@[simp] theorem Dev.setReg_host (r : FRef) (v : Word) : (d.setReg r v).host = d.host := rfl
@[simp] theorem Dev.setReg_moves (r : FRef) (v : Word) : (d.setReg r v).moves = d.moves := rfl
@[simp] theorem Dev.setReg_drk (r : FRef) (v : Word) : (d.setReg r v).drk = d.drk := rfl
@[simp] theorem Dev.setReg_link (r : FRef) (v : Word) : (d.setReg r v).link = d.link := rfl
@[simp] theorem Dev.setReg_fpc (r : FRef) (v : Word) : (d.setReg r v).fpc = d.fpc := rfl
@[simp] theorem Dev.setReg_qm (r : FRef) (v : Word) : (d.setReg r v).qm = d.qm := rfl
@[simp] theorem Dev.setReg_tap (r : FRef) (v : Word) : (d.setReg r v).tap = d.tap := rfl

@[simp] theorem Dev.setF_time (r : FRef) (v : Nat) : (d.setF r v).time = d.time := rfl
@[simp] theorem Dev.setF_fresh (r : FRef) (v : Nat) : (d.setF r v).fresh = d.fresh := rfl
@[simp] theorem Dev.setF_out (r : FRef) (v : Nat) : (d.setF r v).out = d.out := rfl
@[simp] theorem Dev.setF_pwr (r : FRef) (v : Nat) : (d.setF r v).pwr = d.pwr := rfl
@[simp] theorem Dev.setF_ctr (r : FRef) (v : Nat) : (d.setF r v).ctr = d.ctr := rfl
@[simp] theorem Dev.setF_coh (r : FRef) (v : Nat) : (d.setF r v).coh = d.coh := rfl
@[simp] theorem Dev.setF_pool (r : FRef) (v : Nat) : (d.setF r v).pool = d.pool := rfl
@[simp] theorem Dev.setF_bind (r : FRef) (v : Nat) : (d.setF r v).bind = d.bind := rfl
@[simp] theorem Dev.setF_sor (r : FRef) (v : Nat) : (d.setF r v).sor = d.sor := rfl
@[simp] theorem Dev.setF_wq (r : FRef) (v : Nat) : (d.setF r v).wq = d.wq := rfl
@[simp] theorem Dev.setF_host (r : FRef) (v : Nat) : (d.setF r v).host = d.host := rfl
@[simp] theorem Dev.setF_moves (r : FRef) (v : Nat) : (d.setF r v).moves = d.moves := rfl
@[simp] theorem Dev.setF_drk (r : FRef) (v : Nat) : (d.setF r v).drk = d.drk := rfl
@[simp] theorem Dev.setF_link (r : FRef) (v : Nat) : (d.setF r v).link = d.link := rfl
@[simp] theorem Dev.setF_fpc (r : FRef) (v : Nat) : (d.setF r v).fpc = d.fpc := rfl
@[simp] theorem Dev.setF_qm (r : FRef) (v : Nat) : (d.setF r v).qm = d.qm := rfl
@[simp] theorem Dev.setF_tap (r : FRef) (v : Nat) : (d.setF r v).tap = d.tap := rfl

@[simp] theorem Dev.updF_time (r : FRef) (g : Nat → Nat) : (d.updF r g).time = d.time := rfl
@[simp] theorem Dev.updF_fresh (r : FRef) (g : Nat → Nat) : (d.updF r g).fresh = d.fresh := rfl
@[simp] theorem Dev.updF_out (r : FRef) (g : Nat → Nat) : (d.updF r g).out = d.out := rfl
@[simp] theorem Dev.updF_pwr (r : FRef) (g : Nat → Nat) : (d.updF r g).pwr = d.pwr := rfl
@[simp] theorem Dev.updF_ctr (r : FRef) (g : Nat → Nat) : (d.updF r g).ctr = d.ctr := rfl
@[simp] theorem Dev.updF_coh (r : FRef) (g : Nat → Nat) : (d.updF r g).coh = d.coh := rfl
@[simp] theorem Dev.updF_pool (r : FRef) (g : Nat → Nat) : (d.updF r g).pool = d.pool := rfl
@[simp] theorem Dev.updF_bind (r : FRef) (g : Nat → Nat) : (d.updF r g).bind = d.bind := rfl
@[simp] theorem Dev.updF_sor (r : FRef) (g : Nat → Nat) : (d.updF r g).sor = d.sor := rfl
@[simp] theorem Dev.updF_wq (r : FRef) (g : Nat → Nat) : (d.updF r g).wq = d.wq := rfl
@[simp] theorem Dev.updF_host (r : FRef) (g : Nat → Nat) : (d.updF r g).host = d.host := rfl
@[simp] theorem Dev.updF_moves (r : FRef) (g : Nat → Nat) : (d.updF r g).moves = d.moves := rfl
@[simp] theorem Dev.updF_drk (r : FRef) (g : Nat → Nat) : (d.updF r g).drk = d.drk := rfl
@[simp] theorem Dev.updF_link (r : FRef) (g : Nat → Nat) : (d.updF r g).link = d.link := rfl
@[simp] theorem Dev.updF_fpc (r : FRef) (g : Nat → Nat) : (d.updF r g).fpc = d.fpc := rfl
@[simp] theorem Dev.updF_qm (r : FRef) (g : Nat → Nat) : (d.updF r g).qm = d.qm := rfl
@[simp] theorem Dev.updF_tap (r : FRef) (g : Nat → Nat) : (d.updF r g).tap = d.tap := rfl

@[simp] theorem Dev.incF_time (r : FRef) : (d.incF r).time = d.time := rfl
@[simp] theorem Dev.incF_fresh (r : FRef) : (d.incF r).fresh = d.fresh := rfl
@[simp] theorem Dev.incF_out (r : FRef) : (d.incF r).out = d.out := rfl
@[simp] theorem Dev.incF_pwr (r : FRef) : (d.incF r).pwr = d.pwr := rfl
@[simp] theorem Dev.incF_ctr (r : FRef) : (d.incF r).ctr = d.ctr := rfl
@[simp] theorem Dev.incF_coh (r : FRef) : (d.incF r).coh = d.coh := rfl
@[simp] theorem Dev.incF_pool (r : FRef) : (d.incF r).pool = d.pool := rfl
@[simp] theorem Dev.incF_bind (r : FRef) : (d.incF r).bind = d.bind := rfl
@[simp] theorem Dev.incF_sor (r : FRef) : (d.incF r).sor = d.sor := rfl
@[simp] theorem Dev.incF_wq (r : FRef) : (d.incF r).wq = d.wq := rfl
@[simp] theorem Dev.incF_host (r : FRef) : (d.incF r).host = d.host := rfl
@[simp] theorem Dev.incF_moves (r : FRef) : (d.incF r).moves = d.moves := rfl
@[simp] theorem Dev.incF_drk (r : FRef) : (d.incF r).drk = d.drk := rfl
@[simp] theorem Dev.incF_link (r : FRef) : (d.incF r).link = d.link := rfl
@[simp] theorem Dev.incF_fpc (r : FRef) : (d.incF r).fpc = d.fpc := rfl
@[simp] theorem Dev.incF_qm (r : FRef) : (d.incF r).qm = d.qm := rfl
@[simp] theorem Dev.incF_tap (r : FRef) : (d.incF r).tap = d.tap := rfl

@[simp] theorem Dev.emit_time (o : Out) : (d.emit o).time = d.time := rfl
@[simp] theorem Dev.emit_csr (o : Out) : (d.emit o).csr = d.csr := rfl
@[simp] theorem Dev.emit_fresh (o : Out) : (d.emit o).fresh = d.fresh := rfl
@[simp] theorem Dev.emit_pwr (o : Out) : (d.emit o).pwr = d.pwr := rfl
@[simp] theorem Dev.emit_ctr (o : Out) : (d.emit o).ctr = d.ctr := rfl
@[simp] theorem Dev.emit_coh (o : Out) : (d.emit o).coh = d.coh := rfl
@[simp] theorem Dev.emit_pool (o : Out) : (d.emit o).pool = d.pool := rfl
@[simp] theorem Dev.emit_bind (o : Out) : (d.emit o).bind = d.bind := rfl
@[simp] theorem Dev.emit_sor (o : Out) : (d.emit o).sor = d.sor := rfl
@[simp] theorem Dev.emit_wq (o : Out) : (d.emit o).wq = d.wq := rfl
@[simp] theorem Dev.emit_host (o : Out) : (d.emit o).host = d.host := rfl
@[simp] theorem Dev.emit_moves (o : Out) : (d.emit o).moves = d.moves := rfl
@[simp] theorem Dev.emit_drk (o : Out) : (d.emit o).drk = d.drk := rfl
@[simp] theorem Dev.emit_link (o : Out) : (d.emit o).link = d.link := rfl
@[simp] theorem Dev.emit_fpc (o : Out) : (d.emit o).fpc = d.fpc := rfl
@[simp] theorem Dev.emit_qm (o : Out) : (d.emit o).qm = d.qm := rfl
@[simp] theorem Dev.emit_tap (o : Out) : (d.emit o).tap = d.tap := rfl

@[simp] theorem Dev.count_time (k n : Nat) : (d.count k n).time = d.time := rfl
@[simp] theorem Dev.count_csr (k n : Nat) : (d.count k n).csr = d.csr := rfl
@[simp] theorem Dev.count_fresh (k n : Nat) : (d.count k n).fresh = d.fresh := rfl
@[simp] theorem Dev.count_out (k n : Nat) : (d.count k n).out = d.out := rfl
@[simp] theorem Dev.count_pwr (k n : Nat) : (d.count k n).pwr = d.pwr := rfl
@[simp] theorem Dev.count_coh (k n : Nat) : (d.count k n).coh = d.coh := rfl
@[simp] theorem Dev.count_pool (k n : Nat) : (d.count k n).pool = d.pool := rfl
@[simp] theorem Dev.count_bind (k n : Nat) : (d.count k n).bind = d.bind := rfl
@[simp] theorem Dev.count_sor (k n : Nat) : (d.count k n).sor = d.sor := rfl
@[simp] theorem Dev.count_wq (k n : Nat) : (d.count k n).wq = d.wq := rfl
@[simp] theorem Dev.count_host (k n : Nat) : (d.count k n).host = d.host := rfl
@[simp] theorem Dev.count_moves (k n : Nat) : (d.count k n).moves = d.moves := rfl
@[simp] theorem Dev.count_drk (k n : Nat) : (d.count k n).drk = d.drk := rfl
@[simp] theorem Dev.count_link (k n : Nat) : (d.count k n).link = d.link := rfl
@[simp] theorem Dev.count_fpc (k n : Nat) : (d.count k n).fpc = d.fpc := rfl
@[simp] theorem Dev.count_qm (k n : Nat) : (d.count k n).qm = d.qm := rfl
@[simp] theorem Dev.count_tap (k n : Nat) : (d.count k n).tap = d.tap := rfl

@[simp] theorem Dev.countSlice_time (n i k : Nat) : (d.countSlice n i k).time = d.time := rfl
@[simp] theorem Dev.countSlice_csr (n i k : Nat) : (d.countSlice n i k).csr = d.csr := rfl
@[simp] theorem Dev.countSlice_fresh (n i k : Nat) : (d.countSlice n i k).fresh = d.fresh := rfl
@[simp] theorem Dev.countSlice_out (n i k : Nat) : (d.countSlice n i k).out = d.out := rfl
@[simp] theorem Dev.countSlice_pwr (n i k : Nat) : (d.countSlice n i k).pwr = d.pwr := rfl
@[simp] theorem Dev.countSlice_coh (n i k : Nat) : (d.countSlice n i k).coh = d.coh := rfl
@[simp] theorem Dev.countSlice_pool (n i k : Nat) : (d.countSlice n i k).pool = d.pool := rfl
@[simp] theorem Dev.countSlice_bind (n i k : Nat) : (d.countSlice n i k).bind = d.bind := rfl
@[simp] theorem Dev.countSlice_sor (n i k : Nat) : (d.countSlice n i k).sor = d.sor := rfl
@[simp] theorem Dev.countSlice_wq (n i k : Nat) : (d.countSlice n i k).wq = d.wq := rfl
@[simp] theorem Dev.countSlice_host (n i k : Nat) : (d.countSlice n i k).host = d.host := rfl
@[simp] theorem Dev.countSlice_moves (n i k : Nat) : (d.countSlice n i k).moves = d.moves := rfl
@[simp] theorem Dev.countSlice_drk (n i k : Nat) : (d.countSlice n i k).drk = d.drk := rfl
@[simp] theorem Dev.countSlice_link (n i k : Nat) : (d.countSlice n i k).link = d.link := rfl
@[simp] theorem Dev.countSlice_fpc (n i k : Nat) : (d.countSlice n i k).fpc = d.fpc := rfl
@[simp] theorem Dev.countSlice_qm (n i k : Nat) : (d.countSlice n i k).qm = d.qm := rfl
@[simp] theorem Dev.countSlice_tap (n i k : Nat) : (d.countSlice n i k).tap = d.tap := rfl

@[simp] theorem Dev.frEvent_time (p c n : Nat) : (d.frEvent p c n).time = d.time := rfl
@[simp] theorem Dev.frEvent_csr (p c n : Nat) : (d.frEvent p c n).csr = d.csr := rfl
@[simp] theorem Dev.frEvent_fresh (p c n : Nat) : (d.frEvent p c n).fresh = d.fresh := rfl
@[simp] theorem Dev.frEvent_out (p c n : Nat) : (d.frEvent p c n).out = d.out := rfl
@[simp] theorem Dev.frEvent_pwr (p c n : Nat) : (d.frEvent p c n).pwr = d.pwr := rfl
@[simp] theorem Dev.frEvent_coh (p c n : Nat) : (d.frEvent p c n).coh = d.coh := rfl
@[simp] theorem Dev.frEvent_pool (p c n : Nat) : (d.frEvent p c n).pool = d.pool := rfl
@[simp] theorem Dev.frEvent_bind (p c n : Nat) : (d.frEvent p c n).bind = d.bind := rfl
@[simp] theorem Dev.frEvent_sor (p c n : Nat) : (d.frEvent p c n).sor = d.sor := rfl
@[simp] theorem Dev.frEvent_wq (p c n : Nat) : (d.frEvent p c n).wq = d.wq := rfl
@[simp] theorem Dev.frEvent_host (p c n : Nat) : (d.frEvent p c n).host = d.host := rfl
@[simp] theorem Dev.frEvent_moves (p c n : Nat) : (d.frEvent p c n).moves = d.moves := rfl
@[simp] theorem Dev.frEvent_drk (p c n : Nat) : (d.frEvent p c n).drk = d.drk := rfl
@[simp] theorem Dev.frEvent_link (p c n : Nat) : (d.frEvent p c n).link = d.link := rfl
@[simp] theorem Dev.frEvent_fpc (p c n : Nat) : (d.frEvent p c n).fpc = d.fpc := rfl
@[simp] theorem Dev.frEvent_qm (p c n : Nat) : (d.frEvent p c n).qm = d.qm := rfl
@[simp] theorem Dev.frEvent_tap (p c n : Nat) : (d.frEvent p c n).tap = d.tap := rfl

@[simp] theorem Dev.putBytes_time (a : Nat) (bs : List Byte) : (d.putBytes a bs).time = d.time := rfl
@[simp] theorem Dev.putBytes_csr (a : Nat) (bs : List Byte) : (d.putBytes a bs).csr = d.csr := rfl
@[simp] theorem Dev.putBytes_fresh (a : Nat) (bs : List Byte) : (d.putBytes a bs).fresh = d.fresh := rfl
@[simp] theorem Dev.putBytes_out (a : Nat) (bs : List Byte) : (d.putBytes a bs).out = d.out := rfl
@[simp] theorem Dev.putBytes_pwr (a : Nat) (bs : List Byte) : (d.putBytes a bs).pwr = d.pwr := rfl
@[simp] theorem Dev.putBytes_ctr (a : Nat) (bs : List Byte) : (d.putBytes a bs).ctr = d.ctr := rfl
@[simp] theorem Dev.putBytes_coh (a : Nat) (bs : List Byte) : (d.putBytes a bs).coh = d.coh := rfl
@[simp] theorem Dev.putBytes_bind (a : Nat) (bs : List Byte) : (d.putBytes a bs).bind = d.bind := rfl
@[simp] theorem Dev.putBytes_sor (a : Nat) (bs : List Byte) : (d.putBytes a bs).sor = d.sor := rfl
@[simp] theorem Dev.putBytes_wq (a : Nat) (bs : List Byte) : (d.putBytes a bs).wq = d.wq := rfl
@[simp] theorem Dev.putBytes_host (a : Nat) (bs : List Byte) : (d.putBytes a bs).host = d.host := rfl
@[simp] theorem Dev.putBytes_moves (a : Nat) (bs : List Byte) : (d.putBytes a bs).moves = d.moves := rfl
@[simp] theorem Dev.putBytes_drk (a : Nat) (bs : List Byte) : (d.putBytes a bs).drk = d.drk := rfl
@[simp] theorem Dev.putBytes_link (a : Nat) (bs : List Byte) : (d.putBytes a bs).link = d.link := rfl
@[simp] theorem Dev.putBytes_fpc (a : Nat) (bs : List Byte) : (d.putBytes a bs).fpc = d.fpc := rfl
@[simp] theorem Dev.putBytes_qm (a : Nat) (bs : List Byte) : (d.putBytes a bs).qm = d.qm := rfl
@[simp] theorem Dev.putBytes_tap (a : Nat) (bs : List Byte) : (d.putBytes a bs).tap = d.tap := rfl

@[simp] theorem Dev.setMeta_time (ln : Nat) (m : LMeta) : (d.setMeta ln m).time = d.time := rfl
@[simp] theorem Dev.setMeta_csr (ln : Nat) (m : LMeta) : (d.setMeta ln m).csr = d.csr := rfl
@[simp] theorem Dev.setMeta_fresh (ln : Nat) (m : LMeta) : (d.setMeta ln m).fresh = d.fresh := rfl
@[simp] theorem Dev.setMeta_out (ln : Nat) (m : LMeta) : (d.setMeta ln m).out = d.out := rfl
@[simp] theorem Dev.setMeta_pwr (ln : Nat) (m : LMeta) : (d.setMeta ln m).pwr = d.pwr := rfl
@[simp] theorem Dev.setMeta_ctr (ln : Nat) (m : LMeta) : (d.setMeta ln m).ctr = d.ctr := rfl
@[simp] theorem Dev.setMeta_coh (ln : Nat) (m : LMeta) : (d.setMeta ln m).coh = d.coh := rfl
@[simp] theorem Dev.setMeta_bind (ln : Nat) (m : LMeta) : (d.setMeta ln m).bind = d.bind := rfl
@[simp] theorem Dev.setMeta_sor (ln : Nat) (m : LMeta) : (d.setMeta ln m).sor = d.sor := rfl
@[simp] theorem Dev.setMeta_wq (ln : Nat) (m : LMeta) : (d.setMeta ln m).wq = d.wq := rfl
@[simp] theorem Dev.setMeta_host (ln : Nat) (m : LMeta) : (d.setMeta ln m).host = d.host := rfl
@[simp] theorem Dev.setMeta_moves (ln : Nat) (m : LMeta) : (d.setMeta ln m).moves = d.moves := rfl
@[simp] theorem Dev.setMeta_drk (ln : Nat) (m : LMeta) : (d.setMeta ln m).drk = d.drk := rfl
@[simp] theorem Dev.setMeta_link (ln : Nat) (m : LMeta) : (d.setMeta ln m).link = d.link := rfl
@[simp] theorem Dev.setMeta_fpc (ln : Nat) (m : LMeta) : (d.setMeta ln m).fpc = d.fpc := rfl
@[simp] theorem Dev.setMeta_qm (ln : Nat) (m : LMeta) : (d.setMeta ln m).qm = d.qm := rfl
@[simp] theorem Dev.setMeta_tap (ln : Nat) (m : LMeta) : (d.setMeta ln m).tap = d.tap := rfl

@[simp] theorem Dev.putStore_time (n a : Nat) (bs : List Byte) : (d.putStore n a bs).time = d.time := rfl
@[simp] theorem Dev.putStore_csr (n a : Nat) (bs : List Byte) : (d.putStore n a bs).csr = d.csr := rfl
@[simp] theorem Dev.putStore_fresh (n a : Nat) (bs : List Byte) : (d.putStore n a bs).fresh = d.fresh := rfl
@[simp] theorem Dev.putStore_out (n a : Nat) (bs : List Byte) : (d.putStore n a bs).out = d.out := rfl
@[simp] theorem Dev.putStore_pwr (n a : Nat) (bs : List Byte) : (d.putStore n a bs).pwr = d.pwr := rfl
@[simp] theorem Dev.putStore_ctr (n a : Nat) (bs : List Byte) : (d.putStore n a bs).ctr = d.ctr := rfl
@[simp] theorem Dev.putStore_coh (n a : Nat) (bs : List Byte) : (d.putStore n a bs).coh = d.coh := rfl
@[simp] theorem Dev.putStore_pool (n a : Nat) (bs : List Byte) : (d.putStore n a bs).pool = d.pool := rfl
@[simp] theorem Dev.putStore_bind (n a : Nat) (bs : List Byte) : (d.putStore n a bs).bind = d.bind := rfl
@[simp] theorem Dev.putStore_wq (n a : Nat) (bs : List Byte) : (d.putStore n a bs).wq = d.wq := rfl
@[simp] theorem Dev.putStore_host (n a : Nat) (bs : List Byte) : (d.putStore n a bs).host = d.host := rfl
@[simp] theorem Dev.putStore_moves (n a : Nat) (bs : List Byte) : (d.putStore n a bs).moves = d.moves := rfl
@[simp] theorem Dev.putStore_drk (n a : Nat) (bs : List Byte) : (d.putStore n a bs).drk = d.drk := rfl
@[simp] theorem Dev.putStore_link (n a : Nat) (bs : List Byte) : (d.putStore n a bs).link = d.link := rfl
@[simp] theorem Dev.putStore_fpc (n a : Nat) (bs : List Byte) : (d.putStore n a bs).fpc = d.fpc := rfl
@[simp] theorem Dev.putStore_qm (n a : Nat) (bs : List Byte) : (d.putStore n a bs).qm = d.qm := rfl
@[simp] theorem Dev.putStore_tap (n a : Nat) (bs : List Byte) : (d.putStore n a bs).tap = d.tap := rfl

@[simp] theorem Dev.setStr_time (t : Nat) (x : Strand) : (d.setStr t x).time = d.time := rfl
@[simp] theorem Dev.setStr_csr (t : Nat) (x : Strand) : (d.setStr t x).csr = d.csr := rfl
@[simp] theorem Dev.setStr_fresh (t : Nat) (x : Strand) : (d.setStr t x).fresh = d.fresh := rfl
@[simp] theorem Dev.setStr_out (t : Nat) (x : Strand) : (d.setStr t x).out = d.out := rfl
@[simp] theorem Dev.setStr_pwr (t : Nat) (x : Strand) : (d.setStr t x).pwr = d.pwr := rfl
@[simp] theorem Dev.setStr_ctr (t : Nat) (x : Strand) : (d.setStr t x).ctr = d.ctr := rfl
@[simp] theorem Dev.setStr_coh (t : Nat) (x : Strand) : (d.setStr t x).coh = d.coh := rfl
@[simp] theorem Dev.setStr_pool (t : Nat) (x : Strand) : (d.setStr t x).pool = d.pool := rfl
@[simp] theorem Dev.setStr_bind (t : Nat) (x : Strand) : (d.setStr t x).bind = d.bind := rfl
@[simp] theorem Dev.setStr_wq (t : Nat) (x : Strand) : (d.setStr t x).wq = d.wq := rfl
@[simp] theorem Dev.setStr_host (t : Nat) (x : Strand) : (d.setStr t x).host = d.host := rfl
@[simp] theorem Dev.setStr_moves (t : Nat) (x : Strand) : (d.setStr t x).moves = d.moves := rfl
@[simp] theorem Dev.setStr_drk (t : Nat) (x : Strand) : (d.setStr t x).drk = d.drk := rfl
@[simp] theorem Dev.setStr_link (t : Nat) (x : Strand) : (d.setStr t x).link = d.link := rfl
@[simp] theorem Dev.setStr_fpc (t : Nat) (x : Strand) : (d.setStr t x).fpc = d.fpc := rfl
@[simp] theorem Dev.setStr_qm (t : Nat) (x : Strand) : (d.setStr t x).qm = d.qm := rfl
@[simp] theorem Dev.setStr_tap (t : Nat) (x : Strand) : (d.setStr t x).tap = d.tap := rfl

@[simp] theorem Dev.updStr_time (t : Nat) (g : Strand → Strand) : (d.updStr t g).time = d.time := rfl
@[simp] theorem Dev.updStr_csr (t : Nat) (g : Strand → Strand) : (d.updStr t g).csr = d.csr := rfl
@[simp] theorem Dev.updStr_fresh (t : Nat) (g : Strand → Strand) : (d.updStr t g).fresh = d.fresh := rfl
@[simp] theorem Dev.updStr_out (t : Nat) (g : Strand → Strand) : (d.updStr t g).out = d.out := rfl
@[simp] theorem Dev.updStr_pwr (t : Nat) (g : Strand → Strand) : (d.updStr t g).pwr = d.pwr := rfl
@[simp] theorem Dev.updStr_ctr (t : Nat) (g : Strand → Strand) : (d.updStr t g).ctr = d.ctr := rfl
@[simp] theorem Dev.updStr_coh (t : Nat) (g : Strand → Strand) : (d.updStr t g).coh = d.coh := rfl
@[simp] theorem Dev.updStr_pool (t : Nat) (g : Strand → Strand) : (d.updStr t g).pool = d.pool := rfl
@[simp] theorem Dev.updStr_bind (t : Nat) (g : Strand → Strand) : (d.updStr t g).bind = d.bind := rfl
@[simp] theorem Dev.updStr_wq (t : Nat) (g : Strand → Strand) : (d.updStr t g).wq = d.wq := rfl
@[simp] theorem Dev.updStr_host (t : Nat) (g : Strand → Strand) : (d.updStr t g).host = d.host := rfl
@[simp] theorem Dev.updStr_moves (t : Nat) (g : Strand → Strand) : (d.updStr t g).moves = d.moves := rfl
@[simp] theorem Dev.updStr_drk (t : Nat) (g : Strand → Strand) : (d.updStr t g).drk = d.drk := rfl
@[simp] theorem Dev.updStr_link (t : Nat) (g : Strand → Strand) : (d.updStr t g).link = d.link := rfl
@[simp] theorem Dev.updStr_fpc (t : Nat) (g : Strand → Strand) : (d.updStr t g).fpc = d.fpc := rfl
@[simp] theorem Dev.updStr_qm (t : Nat) (g : Strand → Strand) : (d.updStr t g).qm = d.qm := rfl
@[simp] theorem Dev.updStr_tap (t : Nat) (g : Strand → Strand) : (d.updStr t g).tap = d.tap := rfl

/-! ## Registers and their fields -/

theorem Dev.reg_setReg (r q : FRef) (v : Word) (h : q.cold = r.cold) :
    (d.setReg r v).reg q = if q.addr = r.addr then v else d.reg q := by
  simp [Dev.reg, Dev.word, Dev.setReg, Tbl.get_put, h]

@[simp] theorem Dev.reg_setReg_same (r : FRef) (v : Word) : (d.setReg r v).reg r = v := by
  rw [Dev.reg_setReg _ _ _ _ rfl, if_pos rfl]

/-- A register at another address reads as before. -/
theorem Dev.reg_setReg_other (r q : FRef) (v : Word) (h : q.addr ≠ r.addr) : (d.setReg r v).reg q = d.reg q :=
  Tbl.get_put_other _ _ _ _ h

/-- A field written reads as the low bits of what was written. -/
@[simp] theorem Dev.f_setF_same (r : FRef) (v : Nat) (h : r.lo + r.w ≤ 64) : (d.setF r v).f r = v % 2 ^ r.w := by
  simp [Dev.f, Dev.setF, getBits_putBits_same _ _ _ _ h]

/-- A field of another register reads as before. -/
theorem Dev.f_setF_reg (r q : FRef) (v : Nat) (h : q.addr ≠ r.addr) : (d.setF r v).f q = d.f q := by
  simp only [Dev.f, Dev.setF, Dev.reg_setReg_other _ _ _ _ h]

/-- Another field of the same register reads as before. -/
theorem Dev.f_setF_field (r q : FRef) (v : Nat) (hr : r.lo + r.w ≤ 64) (ha : q.addr = r.addr) (hc : q.cold = r.cold)
    (hd : q.lo + q.w ≤ r.lo ∨ r.lo + r.w ≤ q.lo) : (d.setF r v).f q = d.f q := by
  simp only [Dev.f, Dev.setF, Dev.reg_setReg _ _ _ _ hc, if_pos ha, getBits_putBits_other _ _ _ _ _ _ hr hd]
  simp only [Dev.reg, ha, hc]

theorem Dev.f_setReg_other (r q : FRef) (v : Word) (h : q.addr ≠ r.addr) : (d.setReg r v).f q = d.f q := by
  simp only [Dev.f, Dev.reg_setReg_other _ _ _ _ h]

/-- Registers and fields of two devices whose control spaces agree. -/
theorem Dev.f_congr {d e : Dev} (h : d.csr = e.csr) (r : FRef) : d.f r = e.f r := by simp [Dev.f, Dev.reg, Dev.word, h]
theorem Dev.reg_congr {d e : Dev} (h : d.csr = e.csr) (r : FRef) : d.reg r = e.reg r := by simp [Dev.reg, Dev.word, h]

/-! ## Strands -/

theorem Dev.str_setStr (t u : Nat) (x : Strand) : (d.setStr t x).str u = if u = t then x else d.str u := by
  simp [Dev.str, Dev.setStr, Tbl.get_put]

@[simp] theorem Dev.str_setStr_same (t : Nat) (x : Strand) : (d.setStr t x).str t = x := by simp [Dev.str_setStr]

/-- A register reads as what was written to it, g0 as zero, every other as before (R162, R192). -/
theorem Strand.g_setG (x : Strand) (r q : Nat) (v : Word) :
    (x.setG r v).g q = if q = r then (if q = 0 then 0 else v) else x.g q := by
  by_cases hr : r = 0
  · subst hr
    by_cases hq : q = 0 <;> simp [Strand.setG, Strand.g, hq]
  · by_cases hq : q = 0
    · subst hq; simp [Strand.setG, Strand.g, hr, Ne.symm hr]
    · simp [Strand.setG, Strand.g, hr, hq, Tbl.get_put]

/-! ## Memory -/

/-- A byte read back after bytes were written. -/
theorem Dev.byte_putBytes (a b : Nat) (bs : List Byte) :
    (d.putBytes a bs).byte b = if a ≤ b ∧ b < a + bs.length then bs.getD (b - a) 0 else d.byte b := by
  simp [Dev.byte, Dev.putBytes, Tbl.get_putRange]

/-- Every byte outside those written is unchanged. -/
theorem Dev.byte_putBytes_other (a b : Nat) (bs : List Byte) (h : b < a ∨ a + bs.length ≤ b) :
    (d.putBytes a bs).byte b = d.byte b := by
  rw [Dev.byte_putBytes, if_neg (by omega)]

/-- Every write of memory keeps the canonical form. -/
theorem Dev.putBytes_memory_wf (a : Nat) (bs : List Byte) (h : Memory.wf d.pool.mem = true) :
    Memory.wf (d.putBytes a bs).pool.mem = true := Tbl.wf_putRange 0 bs _ a h

/-- The sorus stores keep their canonical form as well. -/
theorem Dev.putStore_memory_wf (n a : Nat) (bs : List Byte) (h : Memory.wf d.sor.store = true) :
    Memory.wf (d.putStore n a bs).sor.store = true := Tbl.wf_putRange 0 bs _ _ h

theorem reset_memory_wf : Memory.wf State.reset.dev.pool.mem = true := rfl

end Sys2Proof.Machine
end

