-- ==== Sys2Proof/Laws/Frames.lean ====
section
/-! SUPPORT. What the operations that raise, record and send leave alone: the frames that statements about commands cite. -/

namespace Sys2Proof.Machine

/-- What each step of a fold leaves alone, the fold leaves alone. -/
theorem foldl_frame {α β γ : Type} (p : β → γ) (g : β → α → β) (h : ∀ b a, p (g b a) = p b) (l : List α) (b : β) :
    p (l.foldl g b) = p b := by
  induction l generalizing b with
  | nil => rfl
  | cons a l ih => rw [List.foldl_cons, ih, h]

/-- An entry of a table filtered by key. -/
theorem Tbl.get_filter {α : Type} (e : α) (p : Nat → Bool) (t : Tbl α) (k : Nat) :
    Tbl.get e (t.filter fun c => p c.1) k = if p k then Tbl.get e t k else e := by
  induction t with
  | nil => simp [Tbl.get]
  | cons c t ih =>
    obtain ⟨j, v⟩ := c
    rw [List.filter_cons]
    by_cases hj : j = k
    · subst hj
      by_cases hp : p j = true
      · simp [hp, Tbl.get]
      · simp only [hp, Bool.false_eq_true, if_false] at ih ⊢
        exact ih
    · by_cases hp : p j = true
      · simp [hp, Tbl.get, hj, ih]
      · simp [hp, Tbl.get, hj, ih]

variable (d : Dev)

/-! ## The darkroom's records change its queue and ALERT_N alone -/

/-- A record changes the queue, the count of records lost, and ALERT_N. -/
theorem Dev.drkRecord_eq (k x : Nat) : ∃ al q l, d.drkRecord k x =
    { d with pwr := { d.pwr with alert := al }, drk := { d.drk with evq := q, evLost := l } } := by
  unfold Dev.drkRecord
  dsimp only
  split
  · exact ⟨d.pwr.alert, d.drk.evq, d.drk.evLost, rfl⟩
  · split <;> exact ⟨_, _, _, rfl⟩

@[simp] theorem Dev.drkRecord_time (k x : Nat) : (d.drkRecord k x).time = d.time := by
  obtain ⟨_, _, _, h⟩ := d.drkRecord_eq k x; rw [h]
@[simp] theorem Dev.drkRecord_csr (k x : Nat) : (d.drkRecord k x).csr = d.csr := by
  obtain ⟨_, _, _, h⟩ := d.drkRecord_eq k x; rw [h]
@[simp] theorem Dev.drkRecord_fresh (k x : Nat) : (d.drkRecord k x).fresh = d.fresh := by
  obtain ⟨_, _, _, h⟩ := d.drkRecord_eq k x; rw [h]
@[simp] theorem Dev.drkRecord_out (k x : Nat) : (d.drkRecord k x).out = d.out := by
  obtain ⟨_, _, _, h⟩ := d.drkRecord_eq k x; rw [h]
@[simp] theorem Dev.drkRecord_coh (k x : Nat) : (d.drkRecord k x).coh = d.coh := by
  obtain ⟨_, _, _, h⟩ := d.drkRecord_eq k x; rw [h]
@[simp] theorem Dev.drkRecord_pool (k x : Nat) : (d.drkRecord k x).pool = d.pool := by
  obtain ⟨_, _, _, h⟩ := d.drkRecord_eq k x; rw [h]
@[simp] theorem Dev.drkRecord_sor (k x : Nat) : (d.drkRecord k x).sor = d.sor := by
  obtain ⟨_, _, _, h⟩ := d.drkRecord_eq k x; rw [h]
@[simp] theorem Dev.drkRecord_wq (k x : Nat) : (d.drkRecord k x).wq = d.wq := by
  obtain ⟨_, _, _, h⟩ := d.drkRecord_eq k x; rw [h]
@[simp] theorem Dev.drkRecord_moves (k x : Nat) : (d.drkRecord k x).moves = d.moves := by
  obtain ⟨_, _, _, h⟩ := d.drkRecord_eq k x; rw [h]
@[simp] theorem Dev.drkRecord_link (k x : Nat) : (d.drkRecord k x).link = d.link := by
  obtain ⟨_, _, _, h⟩ := d.drkRecord_eq k x; rw [h]
@[simp] theorem Dev.drkRecord_fpc (k x : Nat) : (d.drkRecord k x).fpc = d.fpc := by
  obtain ⟨_, _, _, h⟩ := d.drkRecord_eq k x; rw [h]
@[simp] theorem Dev.drkRecord_qm (k x : Nat) : (d.drkRecord k x).qm = d.qm := by
  obtain ⟨_, _, _, h⟩ := d.drkRecord_eq k x; rw [h]
@[simp] theorem Dev.drkRecord_host (k x : Nat) : (d.drkRecord k x).host = d.host := by
  obtain ⟨_, _, _, h⟩ := d.drkRecord_eq k x; rw [h]
@[simp] theorem Dev.drkRecord_bind (k x : Nat) : (d.drkRecord k x).bind = d.bind := by
  obtain ⟨_, _, _, h⟩ := d.drkRecord_eq k x; rw [h]
@[simp] theorem Dev.drkRecord_ctr (k x : Nat) : (d.drkRecord k x).ctr = d.ctr := by
  obtain ⟨_, _, _, h⟩ := d.drkRecord_eq k x; rw [h]
@[simp] theorem Dev.drkRecord_tap (k x : Nat) : (d.drkRecord k x).tap = d.tap := by
  obtain ⟨_, _, _, h⟩ := d.drkRecord_eq k x; rw [h]
@[simp] theorem Dev.drkRecord_fdUp (k x : Nat) : (d.drkRecord k x).fdUp = d.fdUp := by
  obtain ⟨_, _, _, h⟩ := d.drkRecord_eq k x; rw [h]; rfl
@[simp] theorem Dev.drkRecord_pps (k x : Nat) : (d.drkRecord k x).drk.pps = d.drk.pps := by
  obtain ⟨_, _, _, h⟩ := d.drkRecord_eq k x; rw [h]
@[simp] theorem Dev.drkRecord_fe (k x : Nat) : (d.drkRecord k x).drk.fe = d.drk.fe := by
  obtain ⟨_, _, _, h⟩ := d.drkRecord_eq k x; rw [h]
@[simp] theorem Dev.drkRecord_rails (k x : Nat) : (d.drkRecord k x).pwr.rails = d.pwr.rails := by
  obtain ⟨_, _, _, h⟩ := d.drkRecord_eq k x; rw [h]
@[simp] theorem Dev.drkRecord_order (k x : Nat) : (d.drkRecord k x).pwr.order = d.pwr.order := by
  obtain ⟨_, _, _, h⟩ := d.drkRecord_eq k x; rw [h]
@[simp] theorem Dev.drkRecord_locked (k x : Nat) : (d.drkRecord k x).pwr.locked = d.pwr.locked := by
  obtain ⟨_, _, _, h⟩ := d.drkRecord_eq k x; rw [h]
@[simp] theorem Dev.drkRecord_pwrok (k x : Nat) : (d.drkRecord k x).pwr.pwrok = d.pwr.pwrok := by
  obtain ⟨_, _, _, h⟩ := d.drkRecord_eq k x; rw [h]
@[simp] theorem Dev.drkRecord_dark (k x : Nat) : (d.drkRecord k x).pwr.dark = d.pwr.dark := by
  obtain ⟨_, _, _, h⟩ := d.drkRecord_eq k x; rw [h]
@[simp] theorem Dev.drkRecord_fdReset (k x : Nat) : (d.drkRecord k x).pwr.fdReset = d.pwr.fdReset := by
  obtain ⟨_, _, _, h⟩ := d.drkRecord_eq k x; rw [h]
@[simp] theorem Dev.drkRecord_warm (k x : Nat) : (d.drkRecord k x).pwr.warm = d.pwr.warm := by
  obtain ⟨_, _, _, h⟩ := d.drkRecord_eq k x; rw [h]

/-- A record entered while the darkroom runs and its queue has room (R382). -/
theorem Dev.drkRecord_evq (k x : Nat) (hd : d.pwr.dark = true) (hq : d.drk.evq.length < 256) :
    (d.drkRecord k x).drk.evq = d.drk.evq ++ [evtRecord k 1 x d.time] := by
  simp [Dev.drkRecord, hd, Nat.not_le.mpr hq, Dev.alertUpd]

/-! ## What changes registers, records, outputs, power and the darkroom alone -/

/-- `e` differs from `d` in registers, free values drawn, outputs, power and the darkroom alone: memory, lines, strands, work,
links and engines stand. -/
def Dev.Outer (d e : Dev) : Prop :=
  e = { d with csr := e.csr, fresh := e.fresh, out := e.out, pwr := e.pwr, drk := e.drk }

theorem Dev.Outer.refl : d.Outer d := rfl
theorem Dev.Outer.trans {a b c : Dev} (h : a.Outer b) (k : b.Outer c) : a.Outer c := by
  unfold Dev.Outer at *; rw [k, h]
theorem Dev.Outer.fold {α : Type} (g : Dev → α → Dev) (h : ∀ d a, Dev.Outer d (g d a)) (l : List α) (d : Dev) :
    d.Outer (l.foldl g d) := by
  induction l generalizing d with
  | nil => rfl
  | cons a l ih => exact (h d a).trans (ih _)
theorem Dev.Outer.setReg (r : FRef) (v : Word) : d.Outer (d.setReg r v) := rfl
theorem Dev.Outer.setF (r : FRef) (v : Nat) : d.Outer (d.setF r v) := rfl
theorem Dev.Outer.csr (t : Tbl Word) : d.Outer { d with csr := t } := rfl
theorem Dev.Outer.drk (k : Drk) : d.Outer { d with drk := k } := rfl
theorem Dev.Outer.emit (o : Out) : d.Outer (d.emit o) := rfl
theorem Dev.Outer.ite (p : Prop) [Decidable p] {a b : Dev} (h : d.Outer a) (k : d.Outer b) : d.Outer (if p then a else b) := by
  split
  · exact h
  · exact k
theorem Dev.Outer.raise (k x : Nat) : d.Outer (d.raise k x) := by
  unfold Dev.raise
  split
  · exact .refl d
  · split
    · exact .setReg _ _ _
    · exact ((Dev.Outer.setReg _ _ _).trans (.setReg _ _ _)).trans (.setF _ _ _)
theorem Dev.Outer.drkRecord (k x : Nat) : d.Outer (d.drkRecord k x) := by
  obtain ⟨_, _, _, h⟩ := d.drkRecord_eq k x
  rw [h]; rfl
theorem Dev.Outer.coh {d e : Dev} (h : d.Outer e) : e.coh = d.coh := by unfold Dev.Outer at h; rw [h]
theorem Dev.Outer.pool {d e : Dev} (h : d.Outer e) : e.pool = d.pool := by unfold Dev.Outer at h; rw [h]
theorem Dev.Outer.sor {d e : Dev} (h : d.Outer e) : e.sor = d.sor := by unfold Dev.Outer at h; rw [h]
theorem Dev.Outer.wq {d e : Dev} (h : d.Outer e) : e.wq = d.wq := by unfold Dev.Outer at h; rw [h]
theorem Dev.Outer.qm {d e : Dev} (h : d.Outer e) : e.qm = d.qm := by unfold Dev.Outer at h; rw [h]
theorem Dev.Outer.moves {d e : Dev} (h : d.Outer e) : e.moves = d.moves := by unfold Dev.Outer at h; rw [h]
theorem Dev.Outer.link {d e : Dev} (h : d.Outer e) : e.link = d.link := by unfold Dev.Outer at h; rw [h]
theorem Dev.Outer.fpc {d e : Dev} (h : d.Outer e) : e.fpc = d.fpc := by unfold Dev.Outer at h; rw [h]
theorem Dev.Outer.host {d e : Dev} (h : d.Outer e) : e.host = d.host := by unfold Dev.Outer at h; rw [h]

end Sys2Proof.Machine
end

