-- ==== Sys2Proof/Laws/After.lean ====
section
/-! SUPPORT. The state that a command leaves: what is read of it is read of its device, fabric time, the fuses and the queue
apart. -/

namespace Sys2Proof.Machine

variable (s : State) (d : Dev)

@[simp] theorem State.after_fuse : (s.after d).fuse = s.fuse := rfl
@[simp] theorem State.after_pending : (s.after d).pending = s.pending := rfl
@[simp] theorem State.after_time : (s.after d).dev.time = s.dev.time := rfl
@[simp] theorem State.after_csr : (s.after d).dev.csr = d.csr := rfl
@[simp] theorem State.after_fresh : (s.after d).dev.fresh = d.fresh := rfl
@[simp] theorem State.after_out : (s.after d).dev.out = d.out := rfl
@[simp] theorem State.after_pwr : (s.after d).dev.pwr = d.pwr := rfl
@[simp] theorem State.after_ctr : (s.after d).dev.ctr = d.ctr := rfl
@[simp] theorem State.after_coh : (s.after d).dev.coh = d.coh := rfl
@[simp] theorem State.after_pool : (s.after d).dev.pool = d.pool := rfl
@[simp] theorem State.after_bind : (s.after d).dev.bind = d.bind := rfl
@[simp] theorem State.after_sor : (s.after d).dev.sor = d.sor := rfl
@[simp] theorem State.after_wq : (s.after d).dev.wq = d.wq := rfl
@[simp] theorem State.after_host : (s.after d).dev.host = d.host := rfl
@[simp] theorem State.after_moves : (s.after d).dev.moves = d.moves := rfl
@[simp] theorem State.after_drk : (s.after d).dev.drk = d.drk := rfl
@[simp] theorem State.after_link : (s.after d).dev.link = d.link := rfl
@[simp] theorem State.after_fpc : (s.after d).dev.fpc = d.fpc := rfl
@[simp] theorem State.after_qm : (s.after d).dev.qm = d.qm := rfl
@[simp] theorem State.after_tap : (s.after d).dev.tap = d.tap := rfl
@[simp] theorem State.after_reg (r : FRef) : (s.after d).dev.reg r = d.reg r := rfl
@[simp] theorem State.after_f (r : FRef) : (s.after d).dev.f r = d.f r := rfl
@[simp] theorem State.after_fb (r : FRef) : (s.after d).dev.fb r = d.fb r := rfl
@[simp] theorem State.after_fdUp : (s.after d).dev.fdUp = d.fdUp := rfl
@[simp] theorem State.after_str (t : Nat) : (s.after d).dev.str t = d.str t := rfl
@[simp] theorem State.after_byte (a : Nat) : (s.after d).dev.byte a = d.byte a := rfl

/-- A command whose meaning acts on the device leaves the state of the device it answers. -/
theorem State.act_eq (g : Fuse → Dev → Dev) : s.act g = .next (s.after (g s.fuse s.dev)) := rfl

/-- Where its condition holds, a conditional effect takes place; where not, nothing changes. -/
@[simp] theorem Dev.when_true (g : Dev → Dev) : d.when true g = g d := rfl
@[simp] theorem Dev.when_false (g : Dev → Dev) : d.when false g = d := rfl

/-! ## Fields of the same register -/

/-- A field written, then another field of the register: the first reads as it was written. -/
theorem Dev.f_setF_setF (r q : FRef) (v w : Nat) (hq : q.lo + q.w ≤ 64) (hr : r.lo + r.w ≤ 64) (ha : r.addr = q.addr)
    (hc : r.cold = q.cold) (hd : r.lo + r.w ≤ q.lo ∨ q.lo + q.w ≤ r.lo) :
    ((d.setF r v).setF q w).f r = v % 2 ^ r.w := by
  rw [Dev.f_setF_field _ q r w hq ha hc hd, Dev.f_setF_same _ r v hr]

end Sys2Proof.Machine
end

