-- ==== Sys2Proof/Laws/Own.lean ====
section
/-! SUPPORT. What an access of the device's own units can do, said once (R54, R57, R330, R331): it is made at once, answered from
its home, refused, or awaited. -/

namespace Sys2Proof.Machine

/-- The device as an attempt sees it: nothing is awaited yet. -/
def Dev.noNeed (d : Dev) : Dev := { d with coh := { d.coh with need := none } }

/-- An attempt's device with what the command awaited before. -/
def Dev.needOf (e d : Dev) : Dev := { e with coh := { e.coh with need := d.coh.need } }

/-- An attempt that awaits nothing is made whole. -/
theorem Dev.tryOwn_done {α : Type} {d : Dev} {g : Dev → α × Dev} (h : (g d.noNeed).2.coh.need = none) :
    d.tryOwn g = (some (g d.noNeed).1, (g d.noNeed).2.needOf d) := by
  simp only [Dev.noNeed] at h
  simp [Dev.tryOwn, Dev.noNeed, Dev.needOf, h]

/-- One that awaits an answer does nothing but ask for it. -/
theorem Dev.tryOwn_wait {α : Type} {d : Dev} {g : Dev → α × Dev} {o : Own} {m : Msg} (h : (g d.noNeed).2.coh.need = some (o, m)) :
    d.tryOwn g = (none, d.ownSend o m) := by
  simp only [Dev.noNeed] at h
  simp [Dev.tryOwn, h]

/-- Every attempt is one or the other. -/
theorem Dev.tryOwn_cases {α : Type} (d : Dev) (g : Dev → α × Dev) :
    d.tryOwn g = (some (g d.noNeed).1, (g d.noNeed).2.needOf d) ∨ ∃ o m, d.tryOwn g = (none, d.ownSend o m) := by
  cases h : (g d.noNeed).2.coh.need with
  | none => exact .inl (Dev.tryOwn_done h)
  | some x => exact .inr ⟨x.1, x.2, Dev.tryOwn_wait h⟩

theorem Dev.attempt_done {d : Dev} {g : Dev → Dev} (h : (g d.noNeed).coh.need = none) : d.attempt g = (g d.noNeed).needOf d := by
  rw [Dev.attempt, Dev.tryOwn_done (g := fun d => ((), g d)) h]

theorem Dev.attempt_wait {d : Dev} {g : Dev → Dev} {o : Own} {m : Msg} (h : (g d.noNeed).coh.need = some (o, m)) :
    d.attempt g = d.ownSend o m := by
  rw [Dev.attempt, Dev.tryOwn_wait (g := fun d => ((), g d)) h]

/-- An attempt at something that asks the homes for nothing is that thing. -/
theorem Dev.attempt_pure {d : Dev} {g : Dev → Dev} (h : (g d.noNeed).needOf d = g d) (hn : (g d.noNeed).coh.need = none) :
    d.attempt g = g d := by
  rw [Dev.attempt_done hn, h]

/-- A store that logs nothing awaits nothing. -/
theorem Dev.tryOwn_storeL1 {d : Dev} {p ln n : Nat} {priv : Bool} (w : OwnFor) (off : Nat) (bs : List Byte) (sa : Nat)
    (h : d.logsStore p ln n priv = false) :
    d.tryOwn (fun d => ((), d.storeL1 w p ln off bs n priv sa)) = (some (), d.storeL1 w p ln off bs n priv sa) := by
  have h' : ({ d with coh := { d.coh with need := none } } : Dev).logsStore p ln n priv = false := h
  unfold Dev.tryOwn
  simp only [Dev.storeL1, h', h]
  rfl

/-- What a unit's request comes to. -/
theorem Dev.ownAsk_cases (d : Dev) (o : Own) (m : Msg) (ready : Bool) (k : Dev → Msg × Dev) :
    (∃ r a, d.ownOf o m = some r ∧ r.ans = some a ∧ d.ownAsk o m ready k = (a, d.dropOwn r)) ∨
    (d.ownAsk o m ready k = ({ op := opCmpP }, d.await o m) ∧ ∀ r, d.ownOf o m = some r → r.ans = none) ∨
    (d.ownOf o m = none ∧ ready = true ∧ d.still m.addr.toNat = true ∧
      d.ownAsk o m ready k = if d.ownRefused m then ({ op := opCmpP, why := 1 }, d) else k d) := by
  unfold Dev.ownAsk
  cases h : d.ownOf o m with
  | some r => cases ha : r.ans with
    | some a => exact .inl ⟨r, a, rfl, ha, by simp [ha]⟩
    | none => exact .inr (.inl ⟨by simp only [ha], by rintro _ ⟨⟩; exact ha⟩)
  | none =>
    by_cases hr : ready = true ∧ d.still m.addr.toNat = true
    · exact .inr (.inr ⟨rfl, hr.1, hr.2, by simp [hr.1, hr.2]⟩)
    · refine .inr (.inl ⟨?_, by simp⟩)
      have : (!ready || !d.still m.addr.toNat) = true := by
        cases hx : ready <;> cases hy : d.still m.addr.toNat <;> simp_all
      simp only [this, if_true]

/-- A unit's request changes nothing but what is asked for, unless its line's home is here and it is made at once. -/
theorem Dev.ownAsk_frame {d : Dev} {o : Own} {m : Msg} {ready : Bool} {k : Dev → Msg × Dev} (h : d.still m.addr.toNat = false) :
    (d.ownAsk o m ready k).2 = { d with coh := (d.ownAsk o m ready k).2.coh } := by
  rcases d.ownAsk_cases o m ready k with ⟨r, a, -, -, e⟩ | ⟨e, -⟩ | ⟨-, -, e, -⟩
  · rw [e]; rfl
  · rw [e]; rfl
  · simp [h] at e

end Sys2Proof.Machine
end

