-- ==== Sys2Proof/Laws/Strand.lean ====
section
/-! SUPPORT. What issuing an instruction and giving its result can do, said once (R191, R192, R195). -/

namespace Sys2Proof.Machine

variable (d : Dev)

/-- An instruction of a strand that issues: PRIV first, then ILLEGAL, then its own effect. -/
theorem Dev.issue_eq {t : Nat} (h : d.issues t = true) (privileged illegal : Bool) (k : Dev → Dev) :
    d.issue t privileged illegal k =
      if privileged && !(d.str t).priv then d.strandFault t cPRIV 0
      else if illegal then d.strandFault t cILLEGAL 0 else k d := by
  simp only [Dev.issues, Bool.and_eq_true, Bool.not_eq_true', beq_iff_eq, Option.isSome_iff_exists] at h
  obtain ⟨⟨⟨⟨h1, h2⟩, h3⟩, l, h4⟩, i, h5⟩ := h
  have hf : d.fetchFill t = d := by simp [Dev.fetchFill, h4]
  simp [Dev.issue, h1, h2, h3, hf, h5]

/-- A strand that does not issue changes nothing. -/
theorem Dev.issue_stuck {t : Nat} (h : d.canIssue t = false) (privileged illegal : Bool) (k : Dev → Dev) :
    d.issue t privileged illegal k = d := by
  simp [Dev.issue, h]

/-- An unprivileged instruction whose fields are legal has its own effect. -/
theorem Dev.issue_legal {t : Nat} (h : d.issues t = true) (k : Dev → Dev) : d.issue t false false k = k d := by
  simp [d.issue_eq h]

/-- An unprivileged instruction whose fields are not legal raises ILLEGAL. -/
theorem Dev.issue_illegal {t : Nat} (h : d.issues t = true) (k : Dev → Dev) :
    d.issue t false true k = d.strandFault t cILLEGAL 0 := by
  simp [d.issue_eq h]

/-- A privileged instruction at fabric privilege whose fields are legal has its own effect. -/
theorem Dev.issue_priv {t : Nat} (h : d.issues t = true) (hp : (d.str t).priv = true) (k : Dev → Dev) :
    d.issue t true false k = k d := by
  simp [d.issue_eq h, hp]

/-! ## Retirement -/

/-- Retirement moves the strand on and counts, and changes nothing else. -/
theorem Dev.retire_eq (t pc : Nat) : ∃ c, d.retire t pc =
    { d.setStr t { d.str t with pc := pc, wait := .none } with ctr := c } ∧ c.unit = d.ctr.unit := by
  unfold Dev.retire
  dsimp only
  split
  · exact ⟨_, rfl, rfl⟩
  · exact ⟨_, rfl, rfl⟩

theorem Dev.retire_str (t u pc : Nat) :
    (d.retire t pc).str u = if u = t then { d.str t with pc := pc, wait := .none } else d.str u := by
  obtain ⟨c, h, _⟩ := d.retire_eq t pc
  rw [h]
  exact d.str_setStr t u _

theorem Dev.next_str (t u : Nat) :
    (d.next t).str u = if u = t then { d.str t with pc := (d.str t).pc + 4, wait := .none } else d.str u :=
  d.retire_str t u _

/-- What a result given to a register leaves of the strands: its own register and pc, every other strand whole. -/
theorem Dev.give_str (t u rd : Nat) (v : Word) :
    (d.give t rd v).str u =
      if u = t then { (d.str t).setG rd v with pc := (d.str t).pc + 4, wait := .none } else d.str u := by
  unfold Dev.give
  rw [Dev.next_str]
  have e : ∀ w, (d.updStr t fun x => x.setG rd v).str w = if w = t then (d.str t).setG rd v else d.str w := fun w => d.str_setStr t w _
  have hp : ((d.str t).setG rd v).pc = (d.str t).pc := by unfold Strand.setG; split <;> rfl
  rw [e, if_pos rfl, hp, e]
  split <;> rfl

@[simp] theorem Dev.retire_time (t pc : Nat) : (d.retire t pc).time = d.time := by
  obtain ⟨_, h, _⟩ := d.retire_eq t pc; rw [h]; rfl
@[simp] theorem Dev.retire_csr (t pc : Nat) : (d.retire t pc).csr = d.csr := by
  obtain ⟨_, h, _⟩ := d.retire_eq t pc; rw [h]; rfl
@[simp] theorem Dev.retire_fresh (t pc : Nat) : (d.retire t pc).fresh = d.fresh := by
  obtain ⟨_, h, _⟩ := d.retire_eq t pc; rw [h]; rfl
@[simp] theorem Dev.retire_out (t pc : Nat) : (d.retire t pc).out = d.out := by
  obtain ⟨_, h, _⟩ := d.retire_eq t pc; rw [h]; rfl
@[simp] theorem Dev.retire_pwr (t pc : Nat) : (d.retire t pc).pwr = d.pwr := by
  obtain ⟨_, h, _⟩ := d.retire_eq t pc; rw [h]; rfl
@[simp] theorem Dev.retire_coh (t pc : Nat) : (d.retire t pc).coh = d.coh := by
  obtain ⟨_, h, _⟩ := d.retire_eq t pc; rw [h]; rfl
@[simp] theorem Dev.retire_pool (t pc : Nat) : (d.retire t pc).pool = d.pool := by
  obtain ⟨_, h, _⟩ := d.retire_eq t pc; rw [h]; rfl
@[simp] theorem Dev.retire_bind (t pc : Nat) : (d.retire t pc).bind = d.bind := by
  obtain ⟨_, h, _⟩ := d.retire_eq t pc; rw [h]; rfl
@[simp] theorem Dev.retire_wq (t pc : Nat) : (d.retire t pc).wq = d.wq := by
  obtain ⟨_, h, _⟩ := d.retire_eq t pc; rw [h]; rfl
@[simp] theorem Dev.retire_host (t pc : Nat) : (d.retire t pc).host = d.host := by
  obtain ⟨_, h, _⟩ := d.retire_eq t pc; rw [h]; rfl
@[simp] theorem Dev.retire_moves (t pc : Nat) : (d.retire t pc).moves = d.moves := by
  obtain ⟨_, h, _⟩ := d.retire_eq t pc; rw [h]; rfl
@[simp] theorem Dev.retire_drk (t pc : Nat) : (d.retire t pc).drk = d.drk := by
  obtain ⟨_, h, _⟩ := d.retire_eq t pc; rw [h]; rfl
@[simp] theorem Dev.retire_link (t pc : Nat) : (d.retire t pc).link = d.link := by
  obtain ⟨_, h, _⟩ := d.retire_eq t pc; rw [h]; rfl
@[simp] theorem Dev.retire_fpc (t pc : Nat) : (d.retire t pc).fpc = d.fpc := by
  obtain ⟨_, h, _⟩ := d.retire_eq t pc; rw [h]; rfl
@[simp] theorem Dev.retire_qm (t pc : Nat) : (d.retire t pc).qm = d.qm := by
  obtain ⟨_, h, _⟩ := d.retire_eq t pc; rw [h]; rfl
@[simp] theorem Dev.retire_tap (t pc : Nat) : (d.retire t pc).tap = d.tap := by
  obtain ⟨_, h, _⟩ := d.retire_eq t pc; rw [h]; rfl
@[simp] theorem Dev.give_time (t rd : Nat) (v : Word) : (d.give t rd v).time = d.time := Dev.retire_time _ _ _
@[simp] theorem Dev.give_csr (t rd : Nat) (v : Word) : (d.give t rd v).csr = d.csr := Dev.retire_csr _ _ _
@[simp] theorem Dev.give_fresh (t rd : Nat) (v : Word) : (d.give t rd v).fresh = d.fresh := Dev.retire_fresh _ _ _
@[simp] theorem Dev.give_out (t rd : Nat) (v : Word) : (d.give t rd v).out = d.out := Dev.retire_out _ _ _
@[simp] theorem Dev.give_pwr (t rd : Nat) (v : Word) : (d.give t rd v).pwr = d.pwr := Dev.retire_pwr _ _ _
@[simp] theorem Dev.give_coh (t rd : Nat) (v : Word) : (d.give t rd v).coh = d.coh := Dev.retire_coh _ _ _
@[simp] theorem Dev.give_pool (t rd : Nat) (v : Word) : (d.give t rd v).pool = d.pool := Dev.retire_pool _ _ _
@[simp] theorem Dev.give_bind (t rd : Nat) (v : Word) : (d.give t rd v).bind = d.bind := Dev.retire_bind _ _ _
@[simp] theorem Dev.give_wq (t rd : Nat) (v : Word) : (d.give t rd v).wq = d.wq := Dev.retire_wq _ _ _
@[simp] theorem Dev.give_host (t rd : Nat) (v : Word) : (d.give t rd v).host = d.host := Dev.retire_host _ _ _
@[simp] theorem Dev.give_moves (t rd : Nat) (v : Word) : (d.give t rd v).moves = d.moves := Dev.retire_moves _ _ _
@[simp] theorem Dev.give_drk (t rd : Nat) (v : Word) : (d.give t rd v).drk = d.drk := Dev.retire_drk _ _ _
@[simp] theorem Dev.give_link (t rd : Nat) (v : Word) : (d.give t rd v).link = d.link := Dev.retire_link _ _ _
@[simp] theorem Dev.give_fpc (t rd : Nat) (v : Word) : (d.give t rd v).fpc = d.fpc := Dev.retire_fpc _ _ _
@[simp] theorem Dev.give_qm (t rd : Nat) (v : Word) : (d.give t rd v).qm = d.qm := Dev.retire_qm _ _ _
@[simp] theorem Dev.give_tap (t rd : Nat) (v : Word) : (d.give t rd v).tap = d.tap := Dev.retire_tap _ _ _
theorem Dev.retire_unit (t pc : Nat) : (d.retire t pc).ctr.unit = d.ctr.unit := by
  obtain ⟨_, h, k⟩ := d.retire_eq t pc; rw [h]; exact k

end Sys2Proof.Machine
end

