-- ==== Sys2Proof/WellFormed.lean ====
section
/-! DEFINITION. Well-formed commands: the bounds of operands that their types do not carry. A command beyond them is none that
the outside can send; its meaning leaves the device unchanged, or takes what the bounds leave of it. -/

namespace Sys2Proof

/-- `n` bytes from `off` on lie within one 4 KiB page, as PCIe asks of a request. -/
def inPage (off n : Nat) : Bool := 0 < n && off % 4096 + n ≤ 4096

/-- The payload of an EMP message fits its 4,096 bytes with the header of 8 (R366, R373). -/
def Emp.wf (m : Emp) : Bool := m.payload.length ≤ 4088

/-- The bounds of a command's operands. Every command not named has operands of types that carry their bounds. -/
def Instr.wf : Instr → Bool
  | .bar0Read _ off n => inPage off.toNat n
  | .bar0Write _ off bs => inPage off.toNat bs.length
  | .resultSlotRead _ _ _ off n => 0 < n.toNat && off.toNat + n.toNat ≤ 64
  | .pcieMemoryRead _ r => inPage r.off.toNat r.len.toNat
  | .pcieMemoryWrite _ off bs => inPage off.toNat bs.length
  | .throttleStep tj => tj.length == 11
  | .shutterInEdge delay => 40 ≤ delay && delay ≤ 200
  | .debugMemoryAccess wr _ n bs => if wr then bs.length == n.toNat else bs.isEmpty
  | .mctpPacket _ bs => 4 < bs.length
  | .getInfo m | .cspRead m | .sysReset m | .safelight m | .timeCfg m | .timeGet m | .event m | .eventAck m | .imgData m
  | .imgEnd m | .slotRead m | .slotOff m | .extend m | .sigchk m | .logRead m | .dbgChal m | .dbgAuth m | .dbgRevoke m
  | .dbgCsp m | .memRead m | .memWrite m | .imgWrite m | .bootCommit m | .ckpt m | .ckptRestore m | .ideKey m | .doePkt m
  | .fmMsg m | .fmPeer m => m.wf
  | .selftest m _ => m.wf
  | _ => true

end Sys2Proof
end

