-- ==== Sys2Proof/Tests/Slice0.lean ====
section
/-! SUPPORT. Tests of the model: the spec's worked examples, ill-formed commands, and states that meet the hypotheses of the
statements. Expected values come from the spec's text, named at each test. -/

open Sys2Proof Sys2Proof.Machine

namespace Sys2Proof.Tests

set_option Elab.async false

/-! ## Small states -/

/-- The device with the FD released. -/
def up (g : Dev → Dev) : State :=
  { State.reset with dev := g { State.reset.dev with pwr := { State.reset.dev.pwr with fdReset := false } } }

/-- Sixteen words ADD r0, r0, r0 (R191). -/
def nops : Line := BitVec.ofNat 512 (0x04000000 * ((2 ^ 512 - 1) / (2 ^ 32 - 1)))
/-- A strand at code offset 0 of a loaded spore, with some registers; its Frond's L1I holds the line of its code. -/
def live (t : Nat) (priv : Bool) (regs : List (Nat × Word)) (d : Dev) : Dev :=
  let d := (d.setF (SORUS.SPTABA.CLEN (t / 32) 0) 0x1000).setStr t { d.str t with live := true, priv := priv, regs := regs, slice := 5 }
  { d with sor := { d.sor with l1i := Tbl.put none d.sor.l1i (l1iKey (d.physOf t) (d.codeLoc t) (d.codeAt t / 64)) (some nops) } }

/-- A field of a register set. -/
def put (r : FRef) (v : Nat) (d : Dev) : Dev := d.setF r v

/-! ## Well-formed commands -/

theorem test_wf_bar0_page : Instr.wf (.bar0Read 0 0x8FFC 8) = false ∧ Instr.wf (.bar0Read 0 0x8FF8 8) = true ∧
    Instr.wf (.bar0Read 0 0x8FF8 0) = false := by decide +kernel
theorem test_wf_bar0_write : Instr.wf (.bar0Write 0 0x8FFF [1, 2]) = false ∧ Instr.wf (.bar0Write 0 0x8FFE [1, 2]) = true := by
  decide +kernel
theorem test_wf_slot : Instr.wf (.resultSlotRead 0 1 0 60 5) = false ∧ Instr.wf (.resultSlotRead 0 1 0 60 4) = true := by
  decide +kernel
theorem test_wf_pcie : Instr.wf (.pcieMemoryWrite 0 4095 [1, 2]) = false ∧ Instr.wf (.pcieMemoryWrite 0 4095 [1]) = true ∧
    Instr.wf (.pcieMemoryRead 0 ⟨0, 4095, 2⟩) = false ∧ Instr.wf (.pcieMemoryRead 0 ⟨0, 4095, 1⟩) = true := by decide +kernel
theorem test_wf_throttle : Instr.wf (.throttleStep []) = false ∧ Instr.wf (.throttleStep (List.replicate 11 0)) = true := by
  decide +kernel
theorem test_wf_shutter_edge : Instr.wf (.shutterInEdge 39) = false ∧ Instr.wf (.shutterInEdge 201) = false ∧
    Instr.wf (.shutterInEdge 200) = true := by decide +kernel
theorem test_wf_debug : Instr.wf (.debugMemoryAccess true 0 2 [1]) = false ∧ Instr.wf (.debugMemoryAccess false 0 2 [1]) = false ∧
    Instr.wf (.debugMemoryAccess true 0 1 [1]) = true := by decide +kernel
theorem test_wf_mctp : Instr.wf (.mctpPacket 0 [1, 2, 3, 4]) = false ∧ Instr.wf (.mctpPacket 0 [1, 2, 3, 4, 5]) = true := by
  decide +kernel

/-! ## Words (R189–R213) -/

theorem test_word_ld : frondWord (.ld 0 ⟨4, 2, 3, 0x10⟩) = some 0x3082C010#32 := by decide +kernel
theorem test_word_lui : frondWord (.lui 0 ⟨7, 1, 0x40⟩) = some 0x20E10040#32 := by decide +kernel
theorem test_word_bnz : frondWord (.bnz 0 ⟨5, -3⟩) = some 0x48BFFFFD#32 := by decide +kernel
theorem test_word_nop : frondWord (.add 0 ⟨0, 0, 0⟩) = some 0x04000000#32 := by decide +kernel
theorem test_word_amo : frondWord (.amoAdd 0 ⟨6, 4, 7, 3, false, true, false, true, false⟩) = some 0x60C43E82#32 := by
  decide +kernel
theorem test_word_amo_far : frondWord (.amoAdd 0 ⟨0, 7, 5, 2, false, false, false, true, false⟩) = some 0x60072C02#32 := by
  decide +kernel
theorem test_word_chget : frondWord (.chget 0 ⟨6, 0, 12⟩ false) = some 0x80C00C03#32 ∧
    frondWord (.chget 0 ⟨6, 0, 9⟩ true) = some 0x80C00983#32 := by decide +kernel
theorem test_word_chrelease : frondWord (.chrelease 0 ⟨0, 0, 12⟩ false) = some 0x80000C07#32 := by decide +kernel
theorem test_word_cqpost : frondWord (.cqpostEnd 0 ⟨0, 16, 0, 0⟩) = some 0x8C100001#32 ∧
    frondWord (.cqpostEnd 0 ⟨0, 0, 3, 0⟩) = some 0x8C001801#32 := by decide +kernel
theorem test_word_trie : frondWord (.trieStep 0 ⟨15, 15, 4, 16⟩) = some 0x75EF2400#32 := by decide +kernel
theorem test_word_bswap : frondWord (.bswap 0 ⟨4, 8, 0, 0⟩) = some 0x08880380#32 := by decide +kernel
theorem test_word_srli : frondWord (.srli 0 ⟨5, 6, 0, 8⟩) = some ((2#6 ++ 5#5 ++ 6#5 ++ 0#5 ++ 0x148#11 : BitVec 32)) := by
  decide +kernel
theorem test_word_addi : frondWord (.addi 0 ⟨3, 0, 1⟩) = some 0x10600001#32 := by decide +kernel
theorem test_word_bz : frondWord (.bz 0 ⟨16, 2⟩) = some 0x46000002#32 ∧ frondWord (.bnz 0 ⟨0, 3⟩) = some 0x48000003#32 := by
  decide +kernel

/-! ## The spec's worked examples -/

/-- R4's example: FAMPARAM0 as a spore reads it. -/
theorem test_famparam0 : State.reset.dev.reg DRK.FAMPARAM0.reg = 0x00400600EC462060#64 := by decide +kernel
/-- R224's example. -/
theorem test_crc32c : crc32c (crc32c 0xFFFFFFFF (leBytes 8 0x3837363534333231)) [0x39] ^^^ 0xFFFFFFFF = 0xE3069283 := by
  decide +kernel
theorem test_crc64 : hashCrc64 (hashCrc64 0 (leBytes 8 0x3837363534333231)) [0x39] = 0x6C40DF5F0B497347 := by decide +kernel
/-- The node of R225's example. -/
def node : Line := BitVec.ofNat 512 (2 ^ 0 + 2 ^ 15 + 2 ^ 32 + 2 ^ 100 + (2 ^ 0 + 2 ^ 3 + 2 ^ 40) * 2 ^ 256 + 0x812000 * 2 ^ 320 +
  0x1000 * 2 ^ 384 + 2 * 2 ^ 448)
theorem test_trie_step : trieStep node 0x20010DB800000000#64 0 0 = (0x812140#64, 0x1002#64) := by decide +kernel
/-- R232's example. -/
theorem test_cinca : cincaNew 0x0FFF 1 0 = 0x1800 ∧ (cincaNew 0x1800 1 0 = 0x1801 ∨ cincaNew 0x1800 1 0 = 0x1800) := by decide +kernel
/-- The packet of R237's example: yellow, with 3,000 + 2,559.80 − 1,500 bytes left in the P bucket. -/
def meter0 : Meter := ⟨0x60A8, 0x64A8, 16384, 32768, 1, 0, 0, 200 * 2 ^ 32, 3000 * 2 ^ 32⟩
theorem test_meter : (meterNew meter0.bytes 1500 0 1024).2 = 1 := by decide +kernel
/-- The ring of chapter 9's first example: 6 entries, then 12, then an overrun of 17. -/
theorem test_ring_used : ringUsed 0xFFF8 0xFFFE = 6 ∧ ringUsed 0xFFF8 4 = 12 ∧ ringUsed 0xFFF8 9 = 17 := by decide +kernel


/-! ## States that meet the statements' hypotheses: power, resets and time -/

/-- A part of the power state changed. -/
def pw (g : Pwr → Pwr) (s : State) : State := { s with dev := { s.dev with pwr := g s.dev.pwr } }
/-- A part of the darkroom's state changed. -/
def dk (g : Drk → Drk) (s : State) : State := { s with dev := { s.dev with drk := g s.dev.drk } }

theorem test_idle : State.reset.pending = [] ∧ State.reset.dev.pwr.pwrok = true ∧ State.reset.dev.drk.pps.slew = 0 ∧
    (pw (fun p => { p with pwrok := false }) State.reset).pending = [] := by decide +kernel
/-- A tick with phase to remove: 3 ns at the low end, 5 ns at the high end. -/
theorem test_tick_slew :
    (dk (fun k => { k with pps := { k.pps with slew := 7, acc := 1249 } }) State.reset).dev.tick.time = 3 ∧
    (dk (fun k => { k with pps := { k.pps with slew := -7, acc := 1249 } }) State.reset).dev.tick.time = 5 ∧
    State.reset.dev.tick.time = 4 := by decide +kernel
theorem test_queue_step : ∃ t, step { State.reset with pending := [.bootStart, .idcode] } = .next t ∧ t.pending = [.idcode] :=
  ⟨_, rfl, rfl⟩
theorem test_lasting : (∀ (strap : BitVec 4) rest, State.reset.pending ≠ .pwrokAssert strap :: rest) ∧
    Lasting Fuse.blank 0 State.reset := ⟨by simp [State.reset], rfl, by decide⟩

theorem test_power_hyps :
    (State.reset.dev.pwr.dark = true ∧ State.reset.dev.pwr.pwrok = true) ∧
    (let s := pw (fun p => { p with pwrok := false }) State.reset; s.dev.pwr.dark = true ∧ s.dev.pwr.pwrok = false) ∧
    (pw (fun p => { p with dark := false }) State.reset).dev.pwr.dark = false ∧
    (dk (fun k => { k with fwOk := true }) State.reset).dev.mayRelease = true ∧
    ((up id).dev.fdUp = true ∧ (up id).dev.pwr.pwrok = true) ∧
    (pw (fun p => { p with warm := some 1 }) State.reset).dev.pwr.warm = some 1 ∧
    (let s := dk (fun k => { k with fwOk := true }) State.reset; s.dev.pwr.dark = true ∧ s.dev.drk.fwOk = true) := by
  decide +kernel
/-- The window of R417: inside at each end, outside a tenth of a millivolt beyond. -/
theorem test_rail_hyps :
    let s := pw (fun p => { p with rails := 0 }) State.reset
    (s.dev.pwr.rails.getLsbD (3 : Fin 11) = false ∧ railInside s.fuse 3 (railWindow s.fuse 3).1 = true ∧
      railInside s.fuse 3 (railWindow s.fuse 3).2 = true) ∧
    (State.reset.dev.pwr.rails.getLsbD (7 : Fin 11) = true ∧ railInside State.reset.fuse 7 ((railWindow State.reset.fuse 7).1 - 1) = false ∧
      railInside State.reset.fuse 7 ((railWindow State.reset.fuse 7).2 + 1) = false ∧ mainRail 7 = true ∧
      State.reset.dev.pwr.pwrok = true ∧ State.reset.dev.drk.evq.length < 256) ∧
    State.reset.dev.pwr.rails.getLsbD 10 = true ∧ inSlotBlock (SLOT.STAT.STATE 0).addr = true ∧
    inSlotBlock (PORT.CFG.MODE 0).addr = false ∧ ((up id).dev.fdUp = true ∧ (up id).dev.f (HBM.STAT.READY 3) ≠ 1) := by
  decide +kernel
theorem test_reset_loss_hyps :
    (736 ≤ (736 : BitVec 11).toNat ∧ State.reset.dev.pwr.pwrok = true) ∧
    (up id).dev.fpaKind 0x10000000 = .opb ∧ (up id).dev.fpaKind 0x12FFFFFF = .opb ∧ (up id).dev.fpaKind 0x0FFFFFFF ≠ .opb ∧
    (up id).dev.fpaKind 0 ≠ .opb := by decide +kernel
theorem test_sensor_hyps :
    (696 ≤ (696 : BitVec 11).toNat) ∧ (up id).dev.pwr.thermCrit = 0 ∧ (List.replicate 11 (0 : BitVec 11)).length = 11 ∧
    596 < (597 : BitVec 11).toNat ∧ (595 : BitVec 11).toNat < 596 ∧
    (let s := dk (fun k => { k with pps := { k.pps with en := true } }) State.reset
     s.dev.drk.pps.en = true ∧ s.dev.drk.pps.accepts s.dev.now = true ∧ s.dev.drk.pps.lost s.dev.now = true) ∧
    (let p : Pps := { Pps.cold with en := true, last := some 1000000000 }
     p.accepts 2000100000 = true ∧ p.accepts 2000100001 = false ∧ p.lost 3999999999 = false ∧ p.lost 4000000000 = true) := by
  decide +kernel

/-! ## Events and control space -/

/-- R376's examples: HUNG of sorus 7, TRIP of SLOT5, RETIRE of channel 9 of stack 2. -/
theorem test_raise_hung :
    (up id).dev.fb (EVT.ROUTE.PEND 427) = false ∧
    (((up id).dev.raise (384 + 6 * 7 + 1) 0).fb (EVT.ROUTE.PEND 427)) = true ∧
    (((up id).dev.raise 427 0).fb (EVT.ROUTE.PEND 427)) = true ∧ 1023 < 1024 ∧ 2 ^ 32 - 1 < 2 ^ 32 := by decide +kernel
/-- A record held, routed to a slice of host 3, to a channel, and nowhere. -/
def held (dest : Nat) : State := up fun d =>
  (((((((d.raise 427 9).setF (EVT.ROUTE.MASK 427) 0).setF (EVT.ROUTE.DEST 427) dest).setF (EVT.ROUTE.SLICE 427) 5).setF (EVT.ROUTE.SORUS 427) 2).setF (EVT.ROUTE.CHAN 427) 7).setF
    (SLICE.HOSTS.MASK 5) 8).setF (SORUS.CHCFG.EN 2 7) 1 |>.setF (SORUS.CHCFG.DEPTH 2 7) 4
theorem test_delivery_hyps :
    (∀ k ∈ [0, 1, 2], (held k).dev.fb (EVT.ROUTE.PEND 427) = true ∧ (held k).dev.fb (EVT.ROUTE.MASK 427) = false ∧
      (held k).dev.f (EVT.ROUTE.DEST 427) = k ∧ (held k).dev.fdUp = true) ∧
    (held 1).dev.f (SLICE.HOSTS.MASK ((held 1).dev.f (EVT.ROUTE.SLICE 427))) ≠ 0 ∧
    (held 2).dev.recordRoom ((held 2).dev.f (EVT.ROUTE.SORUS 427)) ((held 2).dev.f (EVT.ROUTE.CHAN 427)) = true ∧
    ((976 ≤ 976 ∧ 991 < 992) ∧ 975 < 976) := by decide +kernel
/-- Snapshots: none, one waiting for its instant, one whose shadows hold; a timer; and a contact sheet with room and without. -/
def snap (x : Option (Nat × Bool)) : State := up fun d => { d with ctr := { d.ctr with snap := x } }
def sheet (tail : Nat) (held : List Host.Cell) : State := up fun d =>
  let d := { d with pool := { d.pool with mem := held } }
  ((d.setReg (CTR.SHEET0.WORD 3) (w64 (1 + 4 * 2 ^ 3))).setReg (CTR.SHEET2.WORD 3) 0x4000000000#64).setF (CTR.SHEETST.TAIL 3) tail
theorem test_snapshot_hyps :
    (snap none).dev.ctr.snap = none ∧ (snap (some (9, false))).dev.ctr.snap ≠ none ∧ (snap (some (9, true))).dev.ctr.snap = some (9, true) ∧
    ((up (put CTR.SHCTL.PERIOD 1)).dev.f CTR.SHCTL.PERIOD ≠ 0 ∧ (up (put CTR.SHCTL.PERIOD 1)).dev.ctr.snap = none) := by
  decide +kernel
/-- Sixteen entries, a dump of four: an empty ring, a ring with just room, a ring one entry short of it. -/
theorem test_sheet_hyps :
    let used := fun (s : State) => ringUsed ((Dev.sheetHead 3 32768 s.dev).f (CTR.SHEETST.HEAD 3)) ((Dev.sheetHead 3 32768 s.dev).f (CTR.SHEETST.TAIL 3))
    let own : List Host.Cell := [(0x4000000000, 1)]
    getBits ((sheet 0 []).dev.sheet0 3) 0 1 = 1 ∧ dumpLen false 1 = 4 ∧ used (sheet 0 []) = 0 ∧ used (sheet 12 own) + 4 = 2 ^ 4 ∧
    2 ^ 4 < used (sheet 13 own) + 4 ∧
    (Dev.sheetEntries 3 (sheet 12 own).dev.now (sheet 12 own).dev.ctr.slice 4 4 0 (Dev.sheetHead 3 32768 (sheet 12 own).dev)).1 = true := by decide +kernel
/-- Strands that issue, at fabric privilege and at slice privilege. -/
theorem test_issue_hyps :
    (up (live 37 true [(1, 5)])).dev.issues 37 = true ∧ ((up (live 37 true [])).dev.str 37).priv = true ∧
    (up (live 37 false [])).dev.issues 37 = true ∧ ((up (live 37 false [])).dev.str 37).priv = false ∧
    (28 : BitVec 5).toNat ≤ 28 := by decide +kernel
/-- Fields at the ends of a register, and outside and inside their legal range. -/
theorem test_field_hyps :
    (∀ x ∈ ([⟨60, 4, .rw, false, some (1, 3)⟩, ⟨0, 1, .w1c, false, none⟩, ⟨63, 1, .set, false, none⟩, ⟨0, 64, .clr, false, none⟩, ⟨0, 8, .ro, false, none⟩] : List FieldDesc),
      x.lo + x.w ≤ 64) ∧
    (EVT.ROUTE.DEST 0).lo + (EVT.ROUTE.DEST 0).w ≤ 64 ∧
    ((EVT.ROUTE.PEND 0).addr = (EVT.ROUTE.DEST 0).addr ∧ (EVT.ROUTE.PEND 0).cold = (EVT.ROUTE.DEST 0).cold ∧
      (EVT.ROUTE.DEST 0).lo + (EVT.ROUTE.DEST 0).w ≤ (EVT.ROUTE.PEND 0).lo) ∧
    (EVT.ROUTE.PEND 1).addr ≠ (EVT.ROUTE.DEST 0).addr := by decide +kernel
/-- Control-space addresses: misaligned, unmapped, mapped, and with no register. -/
theorem test_csp_hyps :
    4 % 8 ≠ 0 ∧ 0xFFFFFFF8 % 8 = 0 ∧ cspMapped 0xFFFFFFFFF8 = false ∧ cspMapped 0x100000 = true ∧ regAt 0xFFFFFFFFF8 = none ∧
    (up (live 37 true [])).dev.sbOwn 37 = false ∧
    (let s := up (live 37 true [(1, 0x100008), (2, 0)])
     ((Dev.cspWrite s.fuse s.dev 0x100008 0).str 37).live = true) := by decide +kernel

/-! ## Hosts and BAR0 -/

/-- Port 7 carries host 3, in a mode; frame 4 is slice 5, whose address 0 is a page of NTS that a region opens to slices. -/
def port (mode : Nat) (g : Dev → Dev) : State := up fun d =>
  let d := (((d.setF (PORT.CFG.MODE 7) mode).setF (PORT.CFG.EN 7) 1).setF (PORT.STAT.LINK 7) 2).setF (PORT.CFG.HOSTID 7) 3
  let d := ((d.setReg (FPC.REGION0.WORD0 7) 23).setReg (FPC.REGION1.WORD1 7) 0x5FFF000#64).setReg (FPC.REGION2.WORD2 7) 0xFFF0000000F#64
  g { d with bind := { d.bind with
    frA := [(3 * 512 + 4, 6)], decA := [(decKey 3 4 0, ⟨0, 16, 0, true, true, true⟩)]
    tlb := [(tlbKey 0 5 0, 0x1000007#64), (tlbKey 13 5 0, 0x1000007#64)] } }

/-- A generation change pauses host 3's decoding. -/
def pause (d : Dev) : Dev := d.setF (BIND.HGEN.PEND 3) 1

theorem test_frame_hyps :
    ((port 1 id).dev.hostPort 7 = true ∧ (port 1 id).dev.paused 7 = false ∧ (port 1 pause).dev.paused 7 = true) ∧
    (0x8000 ≤ (0x8000 : BitVec 24).toNat ∧ bar0Fits 0x8000 4096 = true ∧ (port 1 id).dev.frameSlice 3 1 = none) ∧
    ((port 1 id).dev.frameSlice ((port 1 id).dev.hostOf 7) (0x20000 / 0x8000) = some 5 ∧
      0x1000 ≤ 0x21000 % 0x8000 ∧ 0x217FF % 0x8000 < 0x1800 ∧ 0x21FFF % 0x8000 < 0x2000 ∧ 0x6000 ≤ 0x26000 % 0x8000 ∧
      (port 1 (put (SLICE.CTL.CTR_USER 5) 0)).dev.fb (SLICE.CTL.CTR_USER 5) = false) := by decide +kernel
/-- A submission queue of sixteen entries with six waiting: a tail that fills it, one beyond, one that goes back. -/
def sq (d : Dev) : Dev := (((d.setF (SLICE.SQA.EN 5 2) 1).setF (SLICE.SQA.LOGSZ 5 2) 4).setF (SLICE.SQB.HEAD 5 2) 0xFFF8).setF (SLICE.SQB.TAIL 5 2) 0xFFFE
theorem test_doorbell_hyps :
    let d := (port 1 sq).dev
    let h := d.f (SLICE.SQB.HEAD 5 2)
    (4 : BitVec 9) ≠ 0 ∧ d.fb (SLICE.SQA.EN 5 2) = true ∧
    (ringUsed h (d.f (SLICE.SQB.TAIL 5 2)) ≤ ringUsed h 8 ∧ ringUsed h 8 ≤ 2 ^ d.f (SLICE.SQA.LOGSZ 5 2)) ∧
    2 ^ d.f (SLICE.SQA.LOGSZ 5 2) < ringUsed h 9 ∧ ringUsed h 0xFFFD < ringUsed h (d.f (SLICE.SQB.TAIL 5 2)) ∧
    d.f (SLICE.SQB.STATE 5 2) ≠ 2 ∧
    (port 1 fun d => ((sq d).setF (SLICE.SQB.STATE 5 2) 2).setF (SLICE.SQB.REASON 5 2) 5).dev.f (SLICE.SQB.STATE 5 2) = 2 ∧
    (port 1 fun d => ((sq d).setF (SLICE.SQB.STATE 5 2) 2).setF (SLICE.SQB.REASON 5 2) 5).dev.f (SLICE.SQB.REASON 5 2) ≠ 6 ∧
    (let d := (port 1 fun d => (d.setF (SLICE.CQA.EN 5 2) 1).setF (SLICE.CQB.TAIL 5 2) 3).dev
     d.fb (SLICE.CQA.EN 5 2) = true ∧ (3 : BitVec 32).getLsbD 31 = false ∧
     ringUsed (d.f (SLICE.CQB.HEAD 5 2)) 3 ≤ ringUsed (d.f (SLICE.CQB.HEAD 5 2)) (d.f (SLICE.CQB.TAIL 5 2))) := by decide +kernel
/-- R264's example: the doorbell that fills the ring is taken, the overrun stops the queue. -/
theorem test_doorbell_overrun :
    (∃ u, exec (.sqTailDoorbell 7 4 2 4) (port 1 sq) = .next u ∧ u.dev.f (SLICE.SQB.TAIL 5 2) = 4 ∧ u.dev.f (SLICE.SQB.STATE 5 2) = 0) ∧
    ∃ u, exec (.sqTailDoorbell 7 4 2 9) (port 1 sq) = .next u ∧ u.dev.f (SLICE.SQB.REASON 5 2) = 6 ∧ u.dev.f (SLICE.SQB.ERRIDX 5 2) = 9 :=
  ⟨⟨_, rfl, by decide +kernel⟩, ⟨_, rfl, by decide +kernel⟩⟩
/-- A window that is idle, and busy with a hold. -/
def win (st : Nat) (d : Dev) : Dev :=
  ((d.setF (SLICE.WIN.EN 5 1) 1).setF (SLICE.STATE.STATE 5) 1).setWin 5 1 { (d.win 5 1) with state := st }
theorem test_window_hyps :
    ((port 1 (win 0)).dev.fb (SLICE.WIN.EN 5 1) = true ∧ ((port 1 (win 0)).dev.win 5 1).state ≠ 1 ∧
      (port 1 (win 0)).dev.f (SLICE.STATE.STATE 5) = 1 ∧ (port 1 (win 0)).dev.safe = false) ∧
    (0 < (1 : BitVec 7).toNat ∧ (63 : BitVec 6).toNat + (1 : BitVec 7).toNat ≤ 64 ∧ (0 : BitVec 6).toNat + (64 : BitVec 7).toNat ≤ 64) ∧
    (((port 1 (win 1)).dev.win 5 1).state = 1 ∧ (port 1 fun d => (win 1 d).setF (SLICE.WIN.HOLD 5 1) 2).dev.f (SLICE.WIN.HOLD 5 1) ≠ 0) ∧
    (let s := port 1 fun d => { win 1 d with wq := { (win 1 d).wq with reads := [⟨7, 0x23040, 8, 5, 1, 0⟩] } }
     s.dev.wq.reads.find? (fun r => r.port == 7 && r.off == 0x23040) = some ⟨7, 0x23040, 8, 5, 1, 0⟩) ∧
    ((0x7FFF : BitVec 24).toNat < 0x8000 ∧ bar0Fits 0x7FFF 1 = true) ∧
    ((port 1 id).dev.hasMsix 7 4 = true ∧ (port 2 id).dev.hasMsix 7 0 = true ∧ ((port 1 id).dev.frameSlice 3 4).isSome = true) := by
  decide +kernel

/-! ## Requests and the homes -/

theorem test_host_hyps :
    let d := (port 1 id).dev
    let r : CxlReq := ⟨9, 4, 64, .s, 0, 0⟩
    (d.cxlPort 7 = true ∧ (port 1 pause).dev.paused 7 = true) ∧
    (d.reach 7 r.ld.toNat r.hpa.toNat .r .r .rd false fun _ => true).1 = .ok 0x1000040 5 ∧
    (d.reach 7 r.ld.toNat r.hpa.toNat .rw .w .wr true fun _ => true).1 = .ok 0x1000040 5 ∧
    (d.reach 7 r.ld.toNat r.hpa.toNat .w .w .wr true fun _ => true).1 = .ok 0x1000040 5 ∧
    (d.reach 7 r.ld.toNat r.hpa.toNat .none .r .rd false fun _ => true).1 = .ok 0x1000040 5 ∧
    (d.reach 7 3 r.hpa.toNat .r .r .rd false fun _ => true).1 = .xlat ∧ (d.reach 7 3 r.hpa.toNat .w .w .wr true fun _ => true).1 = .xlat ∧
    d.hostEM 7 (0x1000040 / 64) = false ∧ r.mv ≠ .a ∧
    ((port 2 id).dev.pciePort 7 = true ∧
      ((port 2 id).dev.reach 7 ((port 2 id).dev.bar2 7 0x20000008).1 ((port 2 id).dev.bar2 7 0x20000008).2 .rw .a .at false fun _ => true).1 = .ok 0x1000008 5) := by
  decide +kernel
/-- R129's example: frame 3 of a BAR2 of 64 GiB. -/
theorem test_bar2 : (port 2 (put (PORT.PCIE.B2LOG 7) 36)).dev.bar2 7 0x1A100040 = (3, 0x2100040) := by decide +kernel
theorem test_back_invalidate_hyps :
    let with_ := fun (w : Option Line) => port 1 fun d => { d with coh := { d.coh with bisnp := [⟨7, 9, true, 0x200, 3, w⟩] } }
    (with_ none).dev.biOf 7 9 = some ⟨7, 9, true, 0x200, 3, none⟩ ∧ (with_ (some 1)).dev.biOf 7 9 = some ⟨7, 9, true, 0x200, 3, some 1⟩ ∧
    ((with_ none).dev.biOf 7 (9 : BitVec 46).toNat).isSome = true := by decide +kernel

/-- A request of Frond 0x012 to the home of line `ln`. -/
def rq (op : BitVec 6) (ln : Nat) : Msg :=
  { op := op, src := 0x012, dst := BitVec.ofNat 13 (0x200 + homeOf ln), addr := BitVec.ofNat 46 ln, tag := 1, priv := true }
/-- A line whose transaction is open. -/
def busy (ln : Nat) : State := up fun d =>
  d.openTxn ⟨ln, .req (rq opRdX ln), 0, [3], 1, [], [], [], [], [], false, 0, false, 0, none, false, [], false, none, 0⟩
theorem test_request_hyps :
    let d := (up id).dev
    let m := rq opRdS 0x40001
    (agDev m.src = d.devId ∧ agDev m.dst = d.devId ∧ isHome (agId m.dst) = true ∧ lnDev 0x40001 = d.devId) ∧
    (d.txn 0x40001 = none ∧ (d.take m).ownEviction m = false) ∧ ((busy 0x40001).dev.txn 0x40001).isSome = true ∧
    (let s := up fun d => { d with coh := { d.coh with hq := [m] } }
     s.dev.coh.hq.find? (fun x => x.addr.toNat == 0x40001) = some m ∧ s.dev.ownEviction m = false) := by decide +kernel
theorem test_unheld_hyps :
    ∀ op ∈ [opRdS, opRdX, opRdU, opWrU, opWrP],
      let m := rq op 0x40001
      let d := (up id).dev.take m
      d.ownEviction m = false ∧ d.turnsAway m = false ∧ d.sfe 0x40001 = SfE.empty ∧ d.coh.waits = [] ∧ d.present 0x40001 = true ∧
        d.needsMsc 0x40001 = false ∧ d.lostExp 0x40001 = false ∧ (d.sfRoom 0x40001).1 = true ∧ (d.sfRoom 0x40001).2 = d ∧
        ((d.train m).sfRoom 0x40001).2 = d.train m ∧ m.new = 0 := by decide +kernel
/-- R73's example, its two requests: the first is granted the line in M, the second waits in the home's queue. -/
theorem test_two_owners :
    ∃ u, exec (.rdx (rq opRdX 0x40001) 0) (up id) = .next u ∧ (u.dev.coh.net.map (·.op)) = [opDataM] ∧
      (u.dev.sfe 0x40001).own = 1 + 2 :=
  ⟨_, rfl, by decide +kernel⟩

/-! ## Responses and snoops -/

/-- A message from the home of line `ln` to an agent. -/
def rsp (op : BitVec 6) (a ln : Nat) : Msg :=
  { op := op, src := BitVec.ofNat 13 (0x200 + homeOf ln), dst := BitVec.ofNat 13 a, addr := BitVec.ofNat 46 ln, tag := 1 }
/-- Frond 0x012 holds line `ln` in a state. -/
def holds (st : L1St) (ln : Nat) (d : Dev) : Dev := d.setL1 0x12 ln { st := some st, data := 0xABCD, psn := false, log := 0 }
theorem test_response_hyps :
    (agDev (rsp opDataS 0x12 9).src = (up id).dev.devId ∧ agDev (rsp opDataS 0x12 9).dst = (up id).dev.devId ∧ isFrond 0x11F = true ∧
      isFrond (agId (rsp opDataS 0x12 9).dst) = true) ∧
    (∀ st ∈ [L1St.is, .im, .sm, .mi, .oi, .ei], ((up (holds st 9)).dev.l1 0x12 9).st = some st) ∧
    (up id).dev.postOf { rsp opCmpP 0x12 9 with op := opCmpP } = none ∧
    (let e : PostE := ⟨0x12, 64, 576, 16, 5, true, 0, 0, upCINC, 1, 3, true, 0⟩
     (up fun d => { d with sor := { d.sor with posts := [e] } }).dev.postOf { rsp opDataA 0x12 9 with tag := 2051 } = some e) ∧
    (let r : PortReq := { PortReq.blank with port := 7, ptag := 1, kind := 1 }
     isPort 0x287 = true ∧ (up fun d => { d with host := { d.host with reqs := [r] } }).dev.portReqOf (0x287 - 0x280) 1 = some r) ∧
    (isHome (agId (rq opWbM 9).dst) = true ∧ lnDev 9 = 0 ∧ (up id).dev.txn 9 = none) ∧
    ((0x3F : BitVec 6) ∉ msgCodes ∧ isHome 0x23F = true) := by decide +kernel
theorem test_snoop_hyps :
    isUnit 0x25F = true ∧
    (∀ st ∈ [L1St.m, .o, .e, .s], ((up (holds st 9)).dev.l1 0x12 9).st = some st) ∧ ((up id).dev.l1 0x12 9).st = none ∧
    (let t : Txn := ⟨9, .req (rq opRdX 9), 0, [3], 1, [], [], [], [0x12], [], false, 0, false, 0, none, false, [], false, none, 0⟩
     let s := up fun d => d.openTxn t
     s.dev.txn 9 = some t ∧ t.ownNew ≠ 7 ∧ (rq opRspI 9).src.toNat ∈ [0x12] ∧ (rq opRspI 9).src.toNat ∉ ([] : List Nat)) := by
  decide +kernel
/-- A snoop for sharing of a line in M: the data goes out, and the Frond keeps the line in O (R54, R67). -/
theorem test_snoop_m :
    ∃ u, exec (.snps { rsp opSnpS 0x12 9 with req := 0x20 }) (up (holds .m 9)) = .next u ∧ (u.dev.l1 0x12 9).st = some .o ∧
      u.dev.coh.net.map (fun m => (m.op, m.data, m.new)) = [(opRspD, 0xABCD, 2)] := ⟨_, rfl, by decide +kernel⟩

/-! ## Binding, slices and the pool -/

/-- The extent table in use with one entry, and strand 37 of the fabric manager with an extent and a slice in g1 and g2. -/
def ext (w : Nat) (g : Dev → Dev) : State := up fun d =>
  g (live 37 true [(1, 0x4800000000), (2, 5)] (((d.setF BIND.EXTTBL.EN 1).setF BIND.EXTTBL.BASE 0x20000).setExt 288 w))
theorem test_bind_hyps :
    (∀ st ∈ [1, 2, 3], (ext (extWord 5 st 5) id).dev.issues 37 = true ∧ extState ((ext (extWord 5 st 5) id).dev.extEntry 288) = st ∧
      extOwner ((ext (extWord 5 st 5) id).dev.extEntry 288) = 5) ∧
    extState ((ext 0 id).dev.extEntry 288) = 0 ∧ extLast ((ext (extWord 0 0 5) id).dev.extEntry 288) = 5 ∧
    extLast ((ext (extWord 0 0 0xFFF) id).dev.extEntry 288) ≠ 5 ∧ extOwner ((ext (extWord 6 1 5) id).dev.extEntry 288) ≠ 5 ∧
    (0x4800000000 < 2 ^ 52 ∧ 0x4800000000 % 2 ^ 30 = 0 ∧ 0x4800000000 / 2 ^ 49 = (ext 0 id).dev.devId ∧
      0x4800000000 / 2 ^ 30 % 2 ^ 19 = 288 ∧ (ext 0 id).dev.fb BIND.EXTTBL.EN = true ∧ (4095 : Nat) < 4096) ∧
    ((ext 0 (put (SLICE.STATE.STATE 5) 1)).dev.sliceState 5 ≠ 0 ∧ (ext 0 id).dev.sliceState 5 = 0) ∧
    (let d := (ext 0 (put (SLICE.STATE.STATE 5) 3)).dev
     d.sliceState 5 = 3 ∧ d.extents 5 = 0 ∧ d.bind.frA.any (·.2 == 6) = false ∧ d.bind.frS.any (·.2 == 6) = false) ∧
    ((0xFFFFFFFE0001 : Nat) < 2 ^ 52 ∧ 0xFFFFFFFE0001 % 2 ^ 17 = 0xFFFFFFFE0001 % 2) ∧
    ((0x7FFF : Nat) < 2 ^ 15 ∧ 0x7FFF / 64 ≠ 0 ∧ (ext 0 id).dev.fb (BIND.HGEN.PEND 63) = false ∧
      framesOf (ext 0 id).dev.bind.frS 63 5 = [] ∧ Tbl.get 0 (ext 0 id).dev.bind.frS (frameKey 63 511) = 0) ∧
    (let d : Dev := (ext 0 fun d => { d with bind := { d.bind with frS := [(frameKey 63 511, 6)] } }).dev
     (63 : Nat) < 64 ∧ framesOf d.bind.frS 63 5 = [511]) := by decide +kernel
theorem test_slice_hyps :
    ((ext 0 (put (SLICE.STATE.STATE 5) 1)).dev.sliceState 5 = 1 ∧ (0xFFFF : Nat) < 2 ^ 16) ∧
    (let d := (up (put (SLICE.STATE.STATE 5) 2)).dev; d.sliceState 5 = 2 ∧ d.sliceIdle 5 = true) ∧
    (let s := up fun d => (live 37 true [] d).setStr 37 { ((live 37 true [] d).str 37) with wait := .slq 3 5 9 }
     (s.dev.str 37).wait = .slq 3 5 9 ∧ (s.dev.str 37).stop = 0) ∧
    (∀ st ∈ [2, 3], let d := (ext (extWord 5 st 5) id).dev
      d.fb BIND.EXTTBL.EN = true ∧ d.extQuiet 288 = true ∧ extState (d.extEntry 288) = st) ∧
    ((2 ^ 19 - 1 < 2 ^ 19) ∧ mirState ((ext 0 id).dev.mirEntry 524287) = 0 ∧ Tbl.wf (0 : Byte) (ext 5 id).dev.pool.mem = true) := by
  decide +kernel
theorem test_binding_unit_hyps :
    ((up id).dev.fb BIND.XINV.BUSY = false ∧ (BitVec.twoPow 64 62 : Word).getLsbD 62 = true) ∧
    ((up (put BIND.XINV.BUSY 1)).dev.fb BIND.XINV.BUSY = true ∧ (up (put BIND.XINV.BUSY 1)).dev.sor.strand = [] ∧
      (up (put BIND.XINV.BUSY 1)).dev.pagesBusy 5 [] = false ∧
      (up fun d => { d with sor := { d.sor with sb := [⟨0x12, 37, 64, [1], 5, false, 64, 0, 0⟩] } }).dev.pagesBusy 5 [0] = true) ∧
    (let s := port 2 fun d => { d with bind := { d.bind with decS := [(decKey 3 4 0, ⟨0, 1, 2 ^ 27 - 1, true, true, true⟩)] } }
     s.dev.fb (BIND.HGEN.PEND 3) = false ∧ Dev.overlaps (s.dev.staged 3) = false ∧
     (s.dev.staged 3).any (fun e => e.2.sa + e.2.size > 2 ^ 27) = false ∧ s.dev.portOfHost 3 = some 7 ∧ s.dev.f (PORT.CFG.MODE 7) = 2) ∧
    (let d := (port 1 pause).dev
     d.fb (BIND.HGEN.PEND 3) = true ∧ Tbl.get 0 d.bind.swapped 3 = 0 ∧ d.bind.held.all (fun r => d.hostOf (heldPort r) != 3) = true) ∧
    ((up (put BIND.EXTTBL.EN 1)).dev.fb BIND.EXTTBL.EN = true ∧ (0 : Word).getLsbD 0 = false ∧ (up id).dev.fb BIND.EXTTBL.EN = false) ∧
    (up id).dev.fb (SLICE.DLOG_CTL.BUSY 4095) = false ∧
    (port 1 fun d => { pause d with bind := { (pause d).bind with swapped := [(3, 1)] } }).dev.genDrained 3 = true := by decide +kernel
theorem test_home_hyps :
    let d := (up id).dev
    (d.fb (HOME.RECALL.BUSY 63) = false ∧ getBits (BitVec.twoPow 64 62 : Word) 5 2 ≠ 3) ∧
    (let d := (up (put (HOME.RECALL.BUSY 63) 1)).dev
     d.fb (HOME.RECALL.BUSY 63) = true ∧ d.recallLeft 63 = [] ∧ d.recalls 63 = 0) ∧
    d.groupNamed 9 23 = false ∧
    (let d := (up fun d => (d.setSf 9 { SfE.empty with own := 65 + 23 }).setF (HOME.HGMAP.HOSTS 9 23) 3).dev
     d.groupNamed 9 23 = true ∧ d.f (HOME.HGMAP.HOSTS 9 23) &&& 1 ≠ d.f (HOME.HGMAP.HOSTS 9 23)) ∧
    (d.pcState 3 31 = 0 ∧ (d.f (HBM.STAT.PCFAIL 3)).testBit 31 = false ∧ d.pcState 3 (pairPc 31) ≠ 1 ∧ d.pcState 3 (pairPc 31) ≠ 3) ∧
    (∀ v ∈ [1, 2], (up fun d => d.setPc 3 31 v).dev.pcState 3 31 = v) ∧
    (let d := (up fun d => { d.setF (HBM.RETCFG.AUTO 3) 1 with pool := { d.pool with cand := [(3 * 2 ^ 24 + 7, 1000, 0)] } }).dev
     d.fb (HBM.RETCFG.BUSY 3) = false ∧ d.f (HBM.STAT.RET_USED 3) < 1024 ∧ d.fb (HBM.RETCFG.AUTO 3) = true ∧
     d.f (HBM.RETCFG.THRESH 3) ≤ (Tbl.get (0, 0) d.pool.cand (3 * 2 ^ 24 + 7)).1) ∧
    (let d := (up fun d => { d with pool := { d.pool with retire := [(3, 8)] } }).dev
     Tbl.get 0 d.pool.retire 3 = 7 + 1 ∧ d.fb (HBM.RETMAP.V 3 0) = false) ∧
    (let ln := 0x4800000000 / 64
     d.txn ln = none ∧ d.lnKind ln = .hbm ∧ d.remote ln = false ∧ (d.readOne (d.readCopy ln) 0).1.isSome = true ∧
     (d.readOne (d.readCopy ln) 0).2.spareCopy ln = none) := by decide +kernel
/-- Two extents of different stacks, the mirror table in use, and an expander window. -/
def mir (w : Nat) : State := ext 0 fun d => (((d.setF HBM.MIRTBL.EN 1).setF HBM.MIRTBL.BASE 0x20001).setMir 288 w).setMir 352 (if w = 0 then 0 else mirWord 288 1 4 false)
theorem test_pool_hyps :
    let d := (up id).dev
    (d.f (HBM.EXP.STATE 63) = 0 ∧
      (let d := (up fun d => (((d.setF (HBM.EXP.CAP_GIB 63) 2048).setF (HBM.EXP.PORT 63) 95).setF (PORT.CFG.MODE 95) 3).setF HBM.PART.M 1).dev
       0 < d.f (HBM.EXP.CAP_GIB 63) ∧ d.f (HBM.EXP.CAP_GIB 63) ≤ 2048 ∧ d.f HBM.PART.M ≠ 0 ∧
       ((List.range 64).map fun i => if i ≠ 63 ∧ d.f (HBM.EXP.STATE i) ≠ 0 then d.f (HBM.EXP.CAP_GIB i) else 0).sum + d.f (HBM.EXP.CAP_GIB 63) ≤ 32768 ∧
       d.f (HBM.EXP.PORT 63) < 96 ∧ d.f (PORT.CFG.MODE (d.f (HBM.EXP.PORT 63))) = 3 ∧ d.windowPairs 63 = [] ∧
       d.extTable.all (fun x => decide (extState x.2 < 1 ∨ 3 < extState x.2)) = true)) ∧
    (let d : Dev := (up fun d => { d with pool := { d.pool with exps := [⟨3, 9, 9, false, 0, false, none⟩, ⟨3, 9, 9, true, 0, false, none⟩] } }).dev
     d.pool.exps.any (fun r => r.e == 3 && !r.hedged) = true ∧ d.f (HBM.EXP.EPOCH 3) = 0 ∧
     d.pool.exps.find? (fun r => r.e == 3 && r.ln == 9 && r.wr == true) = some ⟨3, 9, 9, true, 0, false, none⟩) ∧
    ((mir 0).dev.fb HBM.MIRTBL.EN = true ∧ (mir 0).dev.extKind 288 = .hbm ∧ (mir 0).dev.extKind 352 = .hbm ∧
      (mir 0).dev.extUnit 288 ≠ (mir 0).dev.extUnit 352 ∧ mirState ((mir 0).dev.mirEntry 288) = 0 ∧ mirState ((mir 0).dev.mirEntry 352) = 0 ∧
      extState ((mir 0).dev.extEntry 352) = 0 ∧ extState ((mir 0).dev.extEntry 288) ≠ 4) ∧
    (mirState ((mir (mirWord 352 0 4 false)).dev.mirEntry 288) ≠ 0 ∧ mirState ((mir (mirWord 352 0 4 false)).dev.mirEntry 288) ≠ 3) ∧
    (let v : Word := w64 (3 + 2 ^ 6 + 2 ^ 62); getBits v 6 2 = 1 ∧ getBits v 0 6 < 4 ∧ v.getLsbD 62 = true) ∧
    ((up (put (HBM.STAT.RSTATE 3) 2)).dev.rstate 67 = 2 ∧ (up (put (HBM.EXP.RSTATE 63) 2)).dev.rstate 63 = 2 ∧ d.pool.await = false) ∧
    (let v := fun (f m q : Nat) => w64 (f + m * 2 ^ 6 + q * 2 ^ 11 + 2 ^ 63)
     d.fb HBM.PART.LOCK = false ∧ (v 9 24 0).getLsbD 63 = true ∧ getBits (v 9 24 0) 0 6 + getBits (v 9 24 0) 6 5 + getBits (v 9 24 0) 11 5 ≤ 33 ∧
     getBits (v 9 24 0) 6 5 ≤ 24 ∧ getBits (v 9 0 24) 11 5 ≤ 24 ∧
     33 < getBits (v 10 24 0) 0 6 + getBits (v 10 24 0) 6 5 + getBits (v 10 24 0) 11 5) ∧
    (1 ≤ getBits (2 : Word) 1 3 ∧ getBits (12 : Word) 1 3 ≤ 6) := by decide +kernel
/-- A hedged read: the pair's other copy lies in the window of a live expander. -/
theorem test_hedge_hyps :
    let ln := 0x800000000000 / 64
    let home := ln
    let s := up fun d =>
      let d := (((d.setF HBM.MIRTBL.EN 1).setF HBM.MIRTBL.BASE 0x20001).setMir (extOf ln) (mirWord (extOf ln + 2 ^ 11) 0 1 false))
      let d := (d.setMir (extOf ln + 2 ^ 11) (mirWord (extOf ln) 1 1 false)).setF (HBM.EXP.STATE (winOf ln + 1)) 1
      { d with pool := { d.pool with exps := [⟨winOf ln, ln, home, false, 0, false, none⟩] } }.openTxn
        ⟨home, .req (rq opRdS home), 0, [], 0, [], [], [], [], [winOf ln], false, 0, false, 0, none, false, [], false, none, 0⟩
    (s.dev.spareCopy home).isSome = true ∧ (s.dev.txn home).isSome = true ∧
    ((s.dev.txn home).map (·.both)) = some false ∧
    (match s.dev.spareCopy home with | some q => s.dev.expLive (winOf q) && winOf q != winOf ln | none => false) = true ∧
    s.dev.pool.exps.find? (fun r => r.ln == ln && !r.wr && !r.hedged) = some ⟨winOf ln, ln, home, false, 0, false, none⟩ := by decide +kernel

/-! ## Instructions of a strand -/

/-- Strand 37 with registers; at slice privilege its address 0 is the page of `port`. -/
def run (regs : List (Nat × Word)) (g : Dev → Dev) : State := port 1 fun d => g (live 37 false regs d)
/-- Its Frond's state of the line of address 64. -/
def l1 (st : L1St) (d : Dev) : Dev := d.setL1 (d.physOf 37) (0x1000040 / 64) { st := some st, data := 0x0807060504030201, psn := false, log := 0 }

theorem test_integer_hyps :
    (run [(1, 5)] id).dev.issues 37 = true ∧ ((run [(1, 5)] id).dev.str 37).g 1 = 5 ∧
    ((0 : BitVec 5) = 0 ∧ (7 : BitVec 5).toNat ≤ 7 ∧ 8 ≤ (8 : BitVec 5).toNat ∧ (7 : BitVec 5).toNat < 8) ∧
    (let f : FS := ⟨1, 2, 31, 32⟩; f.amt.toNat + (f.rb.toNat + 1) ≤ 64) ∧ (let f : FS := ⟨1, 2, 31, 33⟩; 64 < f.amt.toNat + (f.rb.toNat + 1)) ∧
    ((0x8000000000000000#64).toInt = -(2 ^ 63) ∧ (0xFFFFFFFFFFFFFFFF#64).toInt = -1 ∧ (1 : Word) ≠ 0) := by decide +kernel
/-- R200: −2⁶³ by −1. -/
theorem test_div_overflow :
    ∃ u, exec (.div 37 ⟨3, 1, 2⟩) (run [(1, 0x8000000000000000#64), (2, 0xFFFFFFFFFFFFFFFF#64)] id) = .next u ∧
      (u.dev.str 37).g 3 = 0x8000000000000000#64 ∧ (u.dev.str 37).pc = 4 := ⟨_, rfl, by decide +kernel⟩
theorem test_div_zero :
    ∃ u, exec (.divu 37 ⟨3, 1, 2⟩) (run [(1, 9)] id) = .next u ∧ u.dev.f (SORUS.FRECA.CAUSE 1 5) = cDIVZERO ∧
      (u.dev.str 37).live = false := ⟨_, rfl, by decide +kernel⟩
/-- R193: a carry out of bit 63 without signed overflow, and a borrow with one. -/
theorem test_flags :
    cfAdd 0 0xFFFFFFFFFFFFFFFF#64 1 = 0b00101#5 ∧ cfSub 0 0x8000000000000000#64 1 = 0b01100#5 ∧ cfSub 0x10 3 5 = 0b10010#5 := by
  decide +kernel
theorem test_srli_example : ∃ u, exec (.srli 37 ⟨5, 6, 0, 8⟩) (run [(6, 0x1234)] id) = .next u ∧ (u.dev.str 37).g 5 = 0x12 :=
  ⟨_, rfl, by decide +kernel⟩
/-- R198's constant, its last step. -/
theorem test_lui_k : ∃ u, exec (.lui 37 ⟨4, 4, 0x89AB⟩) (run [(4, 0x0004012345670000#64)] id) = .next u ∧
    (u.dev.str 37).g 4 = 0x00040123456789AB#64 := ⟨_, rfl, by decide +kernel⟩
/-- R206's example: a branch 12 bytes back from 0x24. -/
theorem test_bnz_back :
    ∃ u, exec (.bnz 37 ⟨5, -3⟩) (run [(5, 1)] fun d => d.setStr 37 { d.str 37 with pc := 0x24 }) = .next u ∧ (u.dev.str 37).pc = 0x18 :=
  ⟨_, rfl, by decide +kernel⟩
theorem test_branch_hyps :
    ((run [] id).dev.str 37).cf.getLsbD 4 = false ∧ ((run [] fun d => d.setStr 37 { d.str 37 with cf := 16 }).dev.str 37).cf.getLsbD 4 = true ∧
    (((run [(1, 0x8000000000000000#64)] id).dev.str 37).g 1).getLsbD 63 = true := by decide +kernel

/-! ## Loads, stores and atomics -/

theorem test_load_hyps :
    let s := run [(2, 64)] (l1 .e)
    let a := s.dev.eaM 37 ⟨8, 2, 3, 0⟩
    s.dev.issues 37 = true ∧ a % 8 = 0 ∧ (∀ q ∈ [Want.r, .w, .a], (s.dev.eaOf 37 a q).1 = .ok 0x1000040) ∧ (s.dev.eaOf 37 a .r).2 = s.dev ∧
    (run [(2, 65)] id).dev.eaM 37 ⟨8, 2, 3, 0⟩ % 8 ≠ 0 := by decide +kernel
theorem test_load_line_hyps :
    let d := (run [(2, 64)] (l1 .e)).dev
    let l := d.l1 (d.physOf 37) (0x1000040 / 64)
    l.st = some .e ∧ l.psn = false ∧ d.sor.sb = [] ∧ d.postOn 37 (0x1000040 / 64) = false ∧ (d.str 37).stop = 0 ∧
    (d.sbLines (d.physOf 37)).length < 16 := by decide +kernel
theorem test_load_fault_hyps : ∃ c, ((run [(2, 2 ^ 48)] id).dev.eaOf 37 (2 ^ 48) .r).1 = .fault c := ⟨cXLAT, by decide +kernel⟩
theorem test_held_line : (run [(2, 64)] (l1 .e)).dev.holdsFor 37 0x1000040 :=
  ⟨⟨.e, by decide +kernel, by decide⟩, by decide +kernel, by decide +kernel, by decide +kernel, by decide +kernel⟩
/-- A store buffer with its sixteen lines, one of them the line stored to. -/
theorem test_store_full_hyps :
    let s := run [] fun d => { d with sor := { d.sor with sb := (List.range 16).map fun i => ⟨d.physOf 37, 37, 0x1000000 + 64 * i, [1], 5, false, 64 * i, 0, 0⟩ } }
    (s.dev.sbLines (s.dev.physOf 37)).contains (0x1000040 / 64) = true ∧ (s.dev.sbLines (s.dev.physOf 37)).length = 16 := by
  decide +kernel
/-- A four-byte load reads the line's bytes, the lowest address lowest (R5, R201). -/
theorem test_ld :
    ∃ u, exec (.ld 37 ⟨3, 2, 2, 4⟩) (run [(2, 64)] (l1 .s)) = .next u ∧ (u.dev.str 37).g 3 = 0x08070605 ∧ (u.dev.str 37).pc = 4 :=
  ⟨_, rfl, by decide +kernel⟩
/-- R209: a near four-byte maximum compares as 32-bit signed values and returns the old value zero-extended. -/
theorem test_amo_max :
    ∃ u, exec (.amoMax 37 ⟨6, 2, 7, 1, false, false, false, false, false⟩) (run [(2, 68), (7, 0xFFFFFFFF)] (l1 .m)) = .next u ∧
      (u.dev.str 37).g 6 = 0x08070605 ∧ (u.dev.l1 (u.dev.physOf 37) (0x1000040 / 64)).data = 0x0807060504030201 :=
  ⟨_, rfl, by decide +kernel⟩
theorem test_amo_hyps :
    let f : FAt := ⟨6, 2, 7, 1, false, false, false, true, false⟩
    (f.place ≠ 0 ∧ f.z6 = false ∧ f.z0 = false) ∧
    (let s := run [(2, 64), (6, 0x0807060504030201)] (l1 .m)
     leNat (lineSlice (s.dev.l1 (s.dev.physOf 37) (0x1000040 / 64)).data 0 8) = ((s.dev.str 37).g 6).toNat % 2 ^ 64) ∧
    (let s := run [(2, 64), (6, 0)] (l1 .m)
     leNat (lineSlice (s.dev.l1 (s.dev.physOf 37) (0x1000040 / 64)).data 0 8) ≠ ((s.dev.str 37).g 6).toNat % 2 ^ 64) := by decide +kernel
theorem test_fence_hyps :
    (run [] id).dev.sbOwn 37 = false ∧
    (let s := port 1 (live 37 true []); s.dev.admitted = [] ∧ (s.dev.str 37).priv = true ∧ s.dev.issues 37 = true) ∧
    (let s := run [] fun d => d.setStr 37 { d.str 37 with wait := .rsync [1] [] (some []) }
     (s.dev.str 37).wait = .rsync [1] [] (some []) ∧ s.dev.sbOwn 37 = false ∧ (s.dev.str 37).stop = 0) := by decide +kernel

/-! ## Primitives -/

theorem test_primitive_hyps :
    ((30 : BitVec 5).toNat ≤ 30 ∧ 0 < (1 : BitVec 5).toNat ∧ (31 : BitVec 5) = 31 ∧ (10 : BitVec 4).toNat ≤ 10) ∧
    (let s := run [(1, 0), (2, 3)] fun d => d
     ((s.dev.cells 37 .r ([0, 1, 2, 3].map fun j => sketchCell 0 3 10 j % 2 ^ 64)).1.isLeft = true ∧
      (s.dev.cells 37 .a ([0, 1, 2, 3].map fun j => sketchCell 0 3 10 j % 2 ^ 64)).1.isLeft = true ∧
      (s.dev.cells 37 .a ([0, 1, 2, 3].map fun j => sketchCell 0 3 20 j % 2 ^ 64)).1.isLeft = false)) ∧
    ((run [] id).dev.l1 ((run [] id).dev.physOf 37) (0x1000040 / 64)).st = none ∧
    (run [] id).dev.check 0x1000040 (strDom false) .up 5 = .ok ∧
    (run [] id).dev.inTables (0x1000040 / 64) = false ∧
    (((run [] id).dev.setF BIND.EXTTBL.EN 1).setF BIND.EXTTBL.BASE 8).inTables (0x1000040 / 64) = true := by decide +kernel
/-- The four cells of a sketch held in the Frond's L1D. -/
theorem test_sketch_cells_held :
    let s := run [] fun d => ([0, 1, 2, 3].foldl (fun d j => d.setL1 (d.physOf 37) ((0x1000000 + sketchCell 0 3 10 j) / 64)
      { st := some .s, data := 7, psn := false, log := 0 }) d)
    ∀ j ∈ [0, 1, 2, 3], (s.dev.l1 (s.dev.physOf 37) ((0x1000000 + sketchCell 0 3 10 j) / 64)).st = some .s := by decide +kernel
/-- Nodes for the lookups: the byte of the key has a recorded prefix of length 5 and none longer, and has none. -/
theorem test_lookup_hyps :
    let hit := fun (x : Line) (l : Nat) => (lineField x 0 32).testBit (ibmIx 0x0D l)
    (hit node 5 = true ∧ hit node 6 = false ∧ hit node 7 = false) ∧ (∀ l, l ≤ 7 → hit 0 l = false) ∧
    ((lineField node 32 8).testBit (0x0D / 4) = true ∧ (lineField (0 : Line) 32 8).testBit (0x0D / 4) = false) := by decide +kernel
theorem test_exm :
    exmProbe (BitVec.ofNat 512 (((5 ^^^ 3) * 2 ^ 64 + 9 + 0x77 * 2 ^ 96) * 2 ^ 384)) 0x0000000500000003#64 9 = (0x300000077#64, true) ∧
    exmProbe 0 0 0 = (0, false) := by decide +kernel
/-- R230: boundaries 0 and −1; at −1 the signed count is one of the zeros fewer, at 0 it is all. -/
theorem test_range :
    rangeCmp (BitVec.ofNat 512 (2 ^ 64 - 1)) false 5 = (7, false) ∧ rangeCmp (BitVec.ofNat 512 (2 ^ 64 - 1)) true 5 = (8, false) ∧
    rangeCmp (BitVec.ofNat 512 (2 ^ 64 - 1)) true 0xFFFFFFFFFFFFFFFF#64 = (1, true) := by decide +kernel
/-- R248: a line of zeros, a repeated word, and a line that nothing shortens. -/
theorem test_lcomp : (lcomp 0).1 = 32 ∧ (lcomp (BitVec.ofNat 512 ((2 ^ 512 - 1) / (2 ^ 64 - 1) * 0x1234567890ABCDEF))).1 = 32 ∧
    ldecomp (lcomp 5).2 (lcomp 5).1 = some 5 := by decide +kernel
theorem test_move_hyps :
    let s := run [(1, 64), (2, 128), (3, 2 ^ 36), (4, 8)] id
    s.dev.issues 37 = true ∧ 64 % 64 = 0 ∧ (2 ^ 36) % 64 = 0 ∧ 2 ^ 36 ≤ 2 ^ 36 ∧ (s.dev.movesOf (37 / 32)).length < 16 ∧
    (let m : MoveOp := ⟨1, 37, 1, 5, false, true, false, 0, 64, 64, 7, 0, 3, false, 0, none⟩
     (run [] fun d => { d with moves := [m] }).dev.movesOf 1 = [m]) ∧
    ldecomp (s.dev.grLine 37 8) 33 = none ∧ (ldecomp ((run [] id).dev.grLine 37 8) 32).isSome = true := by decide +kernel

/-! ## Ports and links -/

/-- Port 12 in a mode with its link in a state, lanes 0 and 1 active. -/
def lk (mode link : Nat) (g : Dev → Dev) : State := up fun d =>
  g ((((d.setF (PORT.CFG.MODE 12) mode).setF (PORT.CFG.EN 12) 1).setF (PORT.STAT.LINK 12) link).setF (PORT.LANE.LACT 12) 3)
def ln (x : Link) (d : Dev) : Dev := d.setLnk 12 x
theorem test_port_hyps :
    (let d := (up id).dev
     d.f (PORT.STAT.LINK 12) ≠ 5 ∧ d.fb (PORT.CFG.EN 12) = false ∧
     (let v : Word := w64 (3 + 2 * 8 + 2 * 2 ^ 6 + 63 * 2 ^ 8); v.getLsbD 17 = false ∧ 1 ≤ getBits v 0 3 ∧ getBits v 0 3 ≤ 3 ∧
       getBits v 3 3 ≤ 2 ∧ getBits v 6 2 ≤ 2 ∧ getBits v 8 6 = 63) ∧
     12 ≠ d.mgrPort ∧ (∀ q, q < 96 → q ≠ 12 → d.fb (PORT.CFG.EN q) = true → d.f (PORT.CFG.HOSTID q) ≠ 63)) ∧
    ((lk 1 2 id).dev.fb (PORT.CFG.EN 12) = true ∧ (lk 1 1 id).dev.f (PORT.STAT.LINK 12) = 1) ∧
    (let q : LinkPeer := ⟨7, 2, 2, 3, 7, false, [64, 32, 96, 32, 32, 48, 8, 0]⟩
     let s := lk 4 1 (ln { Link.none with peer := some q })
     (s.dev.lnk 12).peer = some q ∧ q.cred ≠ [] ∧ q.dev ≠ s.dev.devId ∧ s.dev.f (PORT.CFG.MODE 12) = 4) ∧
    (let s := lk 4 2 (ln { Link.none with txq := [(6, [1])] })
     s.dev.linkRuns 12 = true ∧ Tbl.get 0 (s.dev.lnk 12).cred 6 = 0 ∧ (s.dev.lnk 12).txq.any (·.1 == 6) = true) ∧
    ((lk 4 3 id).dev.f (PORT.STAT.LINK 12) = 3 ∧ (lk 4 4 (put (PORT.CFG.EN 12) 0)).dev.fb (PORT.CFG.EN 12) = false) ∧
    ((((lk 1 2 id).dev.f (PORT.LANE.LACT 12)).testBit 1 = true) ∧ laneSet 3 (setBitN 0 1) ≠ 0 ∧ laneSet 1 (setBitN 0 0) = 0) := by
  decide +kernel
def tos1 : Tos := { kind := 0x1E, devid := 3, port := 7, cred := [64, 32, 96, 32, 32, 48, 8, 0] }
theorem test_tos_hyps :
    (∀ k ∈ tosKinds, tosRead (tosMake { tos1 with kind := k }) = some { tos1 with kind := k }) ∧ tos1.devid ≠ (lk 4 1 id).dev.devId ∧
    (let t : Tos := { tos1 with lane := 15, rates := 7, rate := 2, width := 4, devid := 7, port := 127, action := 5, aseq := 255
                                cred := List.replicate 8 65535, lmask := 65535, nextrx := 4095, preset := 10 }
     tosRead (tosMake t) = some t) ∧
    (let a : LinkAct := ⟨2, 5, 3, false, false, false, false, none⟩
     ((lk 4 3 (ln { Link.none with act := some a })).dev.lnk 12).act = some a) := by decide +kernel
theorem test_path_hyps :
    let m : Msg := { op := opRdS, src := 0x12, dst := BitVec.ofNat 13 (3 * 1024 + 0x200), addr := 9, tag := 4 }
    let s := lk 4 2 fun d => { (d.setF (PORT.STAT.REMDEV 12) 3) with coh := { d.coh with rem := [(96, m)] } }
    s.dev.coh.rem = [(96, m)] ∧ agDev m.dst = 3 ∧ agDev m.src = s.dev.devId ∧ msgAnswered m = true ∧
    s.dev.peerPort m 96 = some 12 ∧ m.op = opRdS := by decide +kernel
/-- An empty MSG flit of VC 5 with sequence number 0, as R139 to R141 lay it out: its 128 bytes. -/
def flitNums : List Nat :=
  0x0D :: List.replicate 113 0 ++ [0x75, 0x3F, 0x0C, 0xF3, 0xC2, 0xC5, 0x93, 0x79, 0x76, 0x14, 0xA7, 0xBF, 0x0C, 0x23]
def flitBytes : List Byte := flitNums.map (BitVec.ofNat 8)
def flitWord : BitVec 1024 := BitVec.ofNat 1024 (leNat flitBytes)
def flitRow (i : Nat) : List Nat := (fecPos i).map fun j => flitNums.getD j 0
theorem flit_rows : fecFix (flitRow 0) = (flitRow 0, false) ∧ fecFix (flitRow 1) = (flitRow 1, false) ∧ fecFix (flitRow 2) = (flitRow 2, false) := by
  refine ⟨?_, ?_, ?_⟩ <;> decide_cbv
theorem flit_nums : (leBytes 128 flitWord.toNat).map (·.toNat) = flitNums := by decide +kernel
theorem flit_put : ∀ i < 3, ((fecPos i).zip (flitRow i)).foldl (fun l pw => l.set pw.1 pw.2) flitNums = flitNums := by decide +kernel
theorem flit_fix : flitFix flitWord = (flitBytes, 0) := by
  have r : ∀ i, (fecPos i).map (fun j => flitNums.getD j 0) = flitRow i := fun _ => rfl
  simp only [flitFix, flit_nums, show List.range 3 = [0, 1, 2] from rfl, List.foldl_cons, List.foldl_nil, r, flit_rows.1, flit_rows.2.1,
    flit_rows.2.2, flit_put 0 (by decide), flit_put 1 (by decide), flit_put 2 (by decide)]
  rfl
theorem flit_crc : crc64 (leBytes 4 0 ++ flitBytes.take 114) = leNat ((flitBytes.drop 114).take 8) := by decide_cbv
theorem flit_crc_next : crc64 (leBytes 4 1 ++ flitBytes.take 114) = 14509588010248266108 := by decide_cbv
theorem test_flit_hyps :
    (let b := (flitFix flitWord).1
     crc64 (leBytes 4 0 ++ b.take 114) = leNat ((b.drop 114).take 8) ∧ bitsN (leNat (b.take 4)) 3 3 = 1 ∧
     (leNat (b.take 4)).testBit 17 = false ∧ (leNat (b.take 4)).testBit 18 = false ∧
     crc64 (leBytes 4 1 ++ b.take 114) ≠ leNat ((b.drop 114).take 8)) := by
  rw [flit_fix]; exact ⟨flit_crc, by decide +kernel, by decide +kernel, by decide +kernel, flit_crc_next ▸ by decide +kernel⟩
theorem test_link_layer_hyps :
    (let l := ((lk 4 2 (ln { Link.none with replay := [(0, 1, 0, [])] })).dev.lnk 12)
     l.replay ≠ [] ∧ l.rep < (lk 4 2 id).dev.f (PORT.TMR.NREPLAY 12) ∧ l.watch = false ∧ l.disc = false ∧ l.act = none) ∧
    (let a : LinkAct := ⟨1, 5, 1, true, false, false, false, none⟩
     ((lk 4 2 (ln { Link.none with act := some a })).dev.lnk 12).act = some a ∧ a.code ≠ 3) ∧
    ((lk 4 2 (ln { Link.none with owed := [(1, 3)] })).dev.lnk 12).owed ≠ [] ∧
    tosRead (tosMake { tos1 with kind := 0x78, aseq := 5, lane := 1 }) = some { tos1 with kind := 0x78, aseq := 5, lane := 1 } ∧
    (let d := (lk 1 2 fun d => put (PORT.CAL.DRIFT 12) 0 (put (PORT.STAT.LWC 12) 1 d)).dev
     2 ≤ (onesN 16 (d.f (PORT.LANE.LACT 12))).length ∧ d.f (PORT.LANE.LFAIL 12) = 0 ∧ d.fb (PORT.STAT.LWC 12) = true ∧ d.f (PORT.CAL.DRIFT 12) = 0) ∧
    ((lk 1 4 (ln { Link.none with cal := 2 })).dev.lnk 12).cal = 2 := by decide +kernel
/-- The field of R98 and R141: α⁸ is 0x1D, and the checks of the byte 1 are the generator's coefficients. -/
theorem test_gf : gfMul 0x80 2 = 0x1D ∧ gfPow 8 = 0x1D ∧ fecCheck [1] = (3, 2) := by decide +kernel
/-- The bytes of a SnpI by R72's layout: code, device and agent of source and destination, tag, address, device and agent of REQ. -/
theorem test_msg_pack :
    msgPack { op := opSnpI, src := 0x1FFF, dst := 0x0200, tag := 0xABC, addr := 0x123456789AB, req := 5 * 1024 + 0x155 } =
      [241, 255, 7, 128, 188, 186, 154, 120, 86, 52, 18, 180, 42] := by decide +kernel

/-! ## Work -/

/-- Sorus 1 with a spore at index 2, entry 0, for slices 0 to 4095 and one for the fabric manager at index 3; slice 5 open. -/
def work (g : Dev → Dev) : State := up fun d =>
  let d := (((d.setF (SORUS.SPTABA.V 1 2) 1).setF (SORUS.SPTABA.SHI 1 2) 4095).setF (SORUS.SPTABA.CLEN 1 2) 0x100).setF (SLICE.STATE.STATE 5) 1
  g { d.setReg (SORUS.SLSERVE.reg 1 0) (BitVec.allOnes 64) with sor := { d.sor with spore := [(1026, ⟨[0, 4, 8, 12, 16, 20, 24, 28], []⟩)] } }
theorem test_window_work_hyps :
    let cmd (g : Dev → Dev) := work fun d => g ((((d.setF (SLICE.WIN.EN 5 63) 1).setF (SLICE.WIN.SPORE 5 63) 2)).setWin 5 63
      { (d.win 5 63) with state := 1, cmd := some 7 })
    ((cmd id).dev.win 5 63).cmd = some 7 ∧ (cmd id).dev.safe = false ∧ (cmd (put SYS.SAFE.ACTIVE 1)).dev.safe = true ∧
    (cmd id).dev.winSorus 5 = some (sorusOf 37) ∧ 37 ∈ (cmd id).dev.freeStrands 1 ∧ (cmd id).dev.sporeOk 1 2 0 5 false = true ∧
    (cmd id).dev.sporeFull 1 2 = false ∧ (cmd id).dev.sporeOk 1 3 0 5 false = false := by decide +kernel
theorem test_channel_work_hyps :
    let s := work fun d => ((((((d.setF (SORUS.CHCFG.EN 1 255) 1).setF (SORUS.CHCFG.START 1 255) 1).setF (SORUS.CHCFG.DEPTH 1 255) 4).setF
      (SORUS.CHCFG.SPORE 1 255) 2).setF (SORUS.CHCFG.SLICE 1 255) 5).setCh 1 255 ⟨1, 0, 0, 0, 0⟩)
    s.dev.chDue 1 255 = true ∧ s.dev.chSporeOk 1 255 = true ∧ s.dev.hasStrand 1 2 = true ∧ 37 ∈ s.dev.freeStrands 1 ∧
    s.dev.windowWaits 1 = false ∧ s.dev.sporeFull 1 (s.dev.f (SORUS.CHCFG.SPORE 1 255)) = false ∧ sorusOf 37 = 1 := by decide +kernel
/-- The manager queue with an entry that is whole (R278), one without OWN, and strand 0 for it. -/
def mgrEntry (w0 : Byte) : State := up fun d =>
  let d := ((d.setF (SORUS.SPTABA.V 0 2) 1).setF (SORUS.SPTABA.PRIV 0 2) 1).setF (SLICE.SQB.TAIL mgrN 0) 1
  { d with wq := { d.wq with mgr := [(0x4000, w0), (0x4002, 2)] }, sor := { d.sor with spore := [(2, ⟨[0, 4, 8, 12, 16, 20, 24, 28], []⟩)] } }
theorem test_queue_work_hyps :
    let s := mgrEntry 1
    s.dev.sqEn mgrN 0 = true ∧ s.dev.sqState mgrN 0 = 1 ∧ s.dev.f (SLICE.SQB.HEAD mgrN 0) ≠ s.dev.f (SLICE.SQB.TAIL mgrN 0) ∧
    (∃ bs, (s.dev.sqRead mgrN 0 (sorusUnit 0)).1 = some bs ∧ (s.dev.sqRead mgrN 0 (sorusUnit 0)).2 = s.dev ∧ s.dev.sqCheck mgrN (leNat bs) = 0 ∧
      s.dev.sqStrand mgrN 0 0 = true ∧ s.dev.sporeOk 0 (bitsN (leNat bs) 16 10) (bitsN (leNat bs) 1 3) mgrN true = true ∧
      s.dev.sporeFull 0 (bitsN (leNat bs) 16 10) = false ∧ bitsN (leNat bs) 9 1 = 0) ∧
    (∃ bs, ((mgrEntry 0).dev.sqRead mgrN 0 (sorusUnit 0)).1 = some bs ∧ (mgrEntry 0).dev.sqCheck mgrN (leNat bs) ≠ 0) ∧
    ((work (fun d => (((d.setF (SLICE.SQA.EN 5 7) 1).setF (SLICE.SQB.STATE 5 7) 1).setF (SLICE.SQB.TAIL 5 7) 1))).dev.sqRead 5 7 13).1 = none :=
  ⟨by decide +kernel, by decide +kernel, by decide +kernel, ⟨_, rfl, by decide +kernel⟩, ⟨_, rfl, by decide +kernel⟩, by decide +kernel⟩
theorem test_queue_write_hyps :
    (up id).dev.fb (SLICE.SQA.EN 4095 7) = false ∧ (up id).dev.queuesOn 0x100 < 16384 ∧ (1 : Word).getLsbD 0 = true ∧
    (up (put (SLICE.SQA.EN 4095 7) 1)).dev.fb (SLICE.SQA.EN 4095 7) = true ∧ 4 ≤ getBits (8 : Word) 1 4 := by decide +kernel

/-! ## Posts, waits and regions -/

theorem test_post_hyps :
    (let s := run [(1, 3)] (fun d => d.setStr 37 { d.str 37 with work := { (d.str 37).work with slot := .cq 5 1 } })
     (s.dev.str 37).work.slot ≠ .none ∧ (s.dev.str 37).posted = false ∧ s.dev.sbOwn 37 = false ∧ s.dev.issues 37 = true) ∧
    (let s := run [] (fun d => d.setStr 37 { d.str 37 with work := { (d.str 37).work with slot := .win 5 63 }, posted := true })
     (s.dev.str 37).work.slot ≠ .none ∧ (s.dev.str 37).posted = true) ∧
    ((run [] id).dev.str 37).work.slot = .none := by decide +kernel
theorem test_wait_hyps :
    (let s := run [(1, 2 ^ 7), (2, 9)] fun d => ((d.setF (SORUS.CHCFG.EN 1 199) 1).setF (SORUS.CHCFG.SLICE 1 199) 5).setF (SORUS.CHCFG.DEPTH 1 199) 4
     let cs := ((onesN 64 (((s.dev.str 37).g 1)).toNat).map (64 * 3 + ·)).filter fun c => s.dev.fb (SORUS.CHCFG.EN 1 c)
     cs = [199] ∧ (∀ c ∈ cs, s.dev.f (SORUS.CHCFG.SLICE 1 c) = (s.dev.str 37).slice) ∧ (∀ c ∈ cs, s.dev.chUnread 1 c = false) ∧
     ({ s.dev with sor := { s.dev.sor with chan := [(1 * 256 + 199, ⟨1, 0, 0, 0, 0⟩)] } } : Dev).chUnread 1 199 = true) ∧
    (let s := run [] fun d => d.setStr 37 { d.str 37 with wait := .waitCh 3 [199] 9 }
     (s.dev.str 37).wait = .waitCh 3 [199] 9 ∧ (9 : Nat) ≠ 0 ∧ s.dev.fdUp = true) ∧
    ((run [] fun d => d.setStr 37 { d.str 37 with wait := .until 8 }).dev.str 37).wait = .until 8 := by decide +kernel
/-- Words of a region of FPA pages 0 and 1; the region of `port` holds page 0x1000000 / 4096 on. -/
theorem test_mpu_hyps :
    let s := port 1 (live 37 true [(1, 255), (2, 23), (3, 0x1000#64), (5, 9)])
    let w2 : Word := 0
    ((s.dev.str 37).priv = true ∧ ((s.dev.str 37).g 1).toNat < 256 ∧ s.dev.regBad 23 0x1000 w2 = false ∧ s.dev.regionLocked 255 = false ∧
      s.dev.regMeets 255 (regLo 23) (regHi 0x1000#64) = some 7) ∧
    s.dev.regBad 23 0x1000 0x10 = true ∧ s.dev.regMeets 7 (regLo 23) (regHi 0x5FFF000#64) = none ∧
    (s.dev.setF (FPC.REGIONL.LOCK 254) 1).regionLocked 254 = true ∧ (22 : Word).getLsbD 0 = false := by decide +kernel

/-! ## Loads and channels -/

/-- A spore of one word for slices 0 to 4095, its digest computed, at FPA 0x1000000. -/
def image : List Byte :=
  let h : List Byte := [0x4D, 0x53, 0x50, 0x4F, 1, 0, 0, 1, 4, 0, 0, 0, 0, 0, 0, 0, 0, 0, 0, 0] ++ List.replicate 28 0xFF ++
    [0, 0, 0xFF, 0x0F, 1, 0, 0, 0] ++ List.replicate 8 0
  h ++ sha384 (h ++ [0, 0, 0, 4]) ++ List.replicate 144 0 ++ [0, 0, 0, 4] ++ List.replicate 60 0
/-- LOAD of index 5 of sorus 1 for slices 5 to 6 to offset 0x10000 of its store. -/
def load (bs : List Byte) : Dev :=
  let d := ((port 1 id).dev.setReg (SORUS.LSRC.FPA 1) 0x1000000).putBytes 0x1000000 bs
  let v := 5 + 1024 * 2 ^ 10 + 5 * 2 ^ 25 + 6 * 2 ^ 37
  (d.setReg (SORUS.LCTL.OP 1) (putBits (putBits (d.reg (SORUS.LCTL.OP 1)) 2 49 v) 0 2 1)).setF (SORUS.LCTL.BUSY 1) 1
theorem test_load_go_hyps :
    let g := load image
    let r := Dev.loadRead 1 4 (g.f (SORUS.LSRC.FPA 1)) g
    let c := Dev.loadRead 1 1 (g.f (SORUS.LSRC.FPA 1) + 4) r.2
    let h := image.take 256
    (port 1 id).dev.fb (SORUS.LCTL.BUSY 1) = false ∧ g.fb (SORUS.SPTABA.V 1 5) = false ∧ r.1 = some h ∧ c.1 = some (image.drop 256) ∧
    sporeHdrOk h false = true ∧ (imgF h 48 2 ≤ r.2.f (SORUS.LCTL.SLO 1) ∧ r.2.f (SORUS.LCTL.SHI 1) ≤ imgF h 50 2) ∧
    (imgClen h + 63) / 64 = 1 ∧ imgHash h ((image.drop 256).take (imgClen h)) = imgDigest h ∧
    policyAsks (port 1 id).fuse (imgPriv h) = false := by decide +kernel
theorem test_load_wait_hyps :
    let s (x : LoadOp) := up fun d => ((d.setLoad 1 x).setF (SORUS.LCTL.BUSY 1) 1).setF (SORUS.LCTL.OP 1) 1
    (s ⟨[], [], 1, 0⟩).dev.fb (SORUS.LCTL.BUSY 1) = true ∧ ((s ⟨[], [], 0, 0⟩).dev.loadOp 1).wait = 0 ∧
    ((s ⟨[], [], 1, 0⟩).dev.loadOp 1).wait = 1 ∧ ((s ⟨[], [], 2, 0⟩).dev.loadOp 1).wait = 2 ∧
    (work id).dev.fb (SORUS.SPTABA.V 1 2) = true ∧ (work id).dev.sporeRun 1 2 = 0 ∧
    (work fun d => d.setStr 37 { d.str 37 with live := true, work := { (d.str 37).work with spore := 2 } }).dev.sporeRun 1 2 ≠ 0 := by
  decide +kernel
/-- CHCFG values for a buffer of 128 bytes at 0x10000, and for one below it. -/
theorem test_chcfg_hyps :
    let d := (up id).dev
    let v (base : Nat) : Word := w64 (1 + 4 * 2 ^ 4 + base * 2 ^ 8)
    d.fb (SORUS.CHCFG.EN 31 255) = false ∧ (v 0).getLsbD 0 = true ∧
    (let e := d.chFields 31 255 (v 1024); e.storeFree 31 (e.chBuf 31 255).1 (e.chBuf 31 255).2 = true) ∧
    (let e := d.chFields 31 255 (v 0); e.storeFree 31 (e.chBuf 31 255).1 (e.chBuf 31 255).2 = false) := by decide +kernel
/-- A channel of strand 37's slice with four words' room and some counts. -/
def chan (c : Nat) (q : Chan) (regs : List (Nat × Word)) : State := run regs fun d =>
  ((((d.setF (SORUS.CHCFG.EN 1 c) 1).setF (SORUS.CHCFG.SLICE 1 c) 5).setF (SORUS.CHCFG.DEPTH 1 c) 4).setF (SORUS.CHCFG.BASE 1 c) 1024).setCh 1 c q
theorem test_channel_hyps :
    ((chan 255 ⟨0, 0, 0, 0, 0⟩ []).dev.fb (SORUS.CHCFG.EN 1 255) = true ∧ (chan 255 ⟨0, 0, 0, 0, 0⟩ []).dev.chFull 1 255 = false ∧
      (chan 255 ⟨16, 0, 0, 0, 0⟩ []).dev.chFull 1 255 = true ∧ (chan 255 ⟨15, 0, 0, 0, 0⟩ []).dev.chFull 1 255 = false ∧
      (chan 255 ⟨15, 0, 0, 0, 0⟩ []).dev.chSpill 1 255 = false) ∧
    (let f : FQ := ⟨3, 1, 31⟩; f.ch.toNat < 32) ∧ ((run [] id).dev.fb (SORUS.CHCFG.EN 1 12) = false) ∧
    ((chan 255 ⟨0, 0, 0, 0, 0⟩ []).dev.updStr 37 fun x => { x with wait := .chput 255 7 }).chFull 1 255 = false := by decide +kernel
/-- R177's example. -/
theorem test_chskip :
    ∃ u, exec (.chskip 37 ⟨0, 4, 12⟩ false)
        (let s := chan 12 ⟨108, 103, 100, 100, 0⟩ [(4, 3)]; { s with dev := s.dev.putStore 1 (0x10000 + 100 % 16 * 8) [9] }) = .next u ∧
      u.dev.ch 1 12 = ⟨108, 108, 108, 108, 1⟩ := ⟨_, rfl, by decide +kernel⟩

/-! ## Fencing and rotation -/

theorem test_fencing_hyps :
    (run [] id).dev.canHang 37 = true ∧
    (let d := { (up id).dev with sor := { (up id).dev.sor with fencing := [(9 * 1 + 3, 1)] } }
     let d : Dev := (d.setF (SORUS.LFMAP.PHYS 1 2) 3).setF (SORUS.STAT.SPARE 1) 8
     Tbl.get 0 d.sor.fencing 12 ≠ 0 ∧ Tbl.get 0 d.sor.swap 1 = 0 ∧ (∃ l, d.lfOn 1 3 = some l ∧ d.lfStrands 1 l = []) ∧ d.l1Lines 12 = [] ∧
     d.f (SORUS.STAT.SPARE 1) ≠ 0xF) ∧
    bitN ((up (put (SORUS.STAT.FENCED 31) 256)).dev.f (SORUS.STAT.FENCED 31)) (8 : Fin 9) = true :=
  ⟨by decide +kernel, ⟨by decide +kernel, by decide +kernel, ⟨_, rfl, by decide +kernel⟩, by decide +kernel, by decide +kernel⟩, by decide +kernel⟩
theorem test_rotation_hyps :
    (let s := port 1 (live 37 true [(1, 31), (2, 7)])
     (s.dev.str 37).priv = true ∧ s.dev.issues 37 = true ∧ (s.dev.gr 37 1).toNat < 32 ∧ (s.dev.gr 37 2).toNat < 8 ∧ s.dev.rotBusy 31 = false ∧
     s.dev.f (SORUS.STAT.SPARE 31) ≠ 0xF ∧ (put (SORUS.STAT.SPARE 31) 15 s.dev).f (SORUS.STAT.SPARE 31) = 0xF) ∧
    ({ (up id).dev with sor := { (up id).dev.sor with rot := [(31, 1)] } } : Dev).rotBusy 31 = true ∧
    (let d : Dev := { (up id).dev with sor := { (up id).dev.sor with swap := [(31, 8)] } }
     Tbl.get 0 d.sor.swap 31 = 7 + 1 ∧ d.migratable 31 7 (31 * 9 + d.f (SORUS.LFMAP.PHYS 31 7)) = true ∧ d.f (SORUS.LFMAP.PHYS 31 7) < 9 ∧
     d.l1Lines (31 * 9 + d.f (SORUS.LFMAP.PHYS 31 7)) = [] ∧ d.sor.strand = []) ∧
    (let d : Dev := { (up id).dev with sor := { (up id).dev.sor with rot := [(31, 9)], test := [(31, 9)] } }
     Tbl.get 0 d.sor.test 31 = 8 + 1 ∧ Tbl.get 0 d.sor.rot 31 = 8 + 1) := by decide +kernel

/-! ## The queue manager -/

/-- Table words set. -/
def tabs (l : List (Nat × Nat × Nat × Word)) (d : Dev) : Dev :=
  { d with qm := { d.qm with tab := l.foldl (fun t e => Tbl.put 0 t ((e.1 * 2 ^ 17 + e.2.1) * 4 + e.2.2.1) e.2.2.2) d.qm.tab } }
/-- Packet 1 of one cell in queue 9 of slice 5: class 2, group 3, output 4, whose egress ring lies at address 0. -/
def pkt : Pkt := { id := 1, cell := 64, n := 1, len := 60, colour := 0, info := 7, tin := 0, psn := false, sp := [] }
def qm (g : Dev → Dev) : State := run [(1, 9)] fun d =>
  let d := tabs [(tQUEUE, 9, 0, w64 (1 + 5 * 2 + 2 * 2 ^ 14 + 2 ^ 29)), (tCLASS, 2, 0, w64 (1 + 3 * 2 + 2 ^ 13)),
    (tGROUP, 3, 0, w64 (1 + 4 * 2 + 2 ^ 9)), (tOUTPUT, 4, 0, w64 (1 + 5 * 2 + 4 * 2 ^ 18))] (d.setF QM.CTL.EN 1)
  g { d with qm := { d.qm with q := [(9, [pkt])], cells := [(64, ⟨2, 5, 1⟩)], pid := 1 } }
theorem test_enqueue_hyps :
    (run [] id).dev.enqStatus (some 5) 0 ≠ 0 ∧ (run [] id).dev.relStatus (some 5) 0 ≠ 0 ∧ (run [] id).dev.sbOwn 37 = false ∧
    (run [] id).dev.issues 37 = true ∧ ((24 : BitVec 5) = 8 ∨ (24 : BitVec 5) = 16 ∨ (24 : BitVec 5) = 24) := by decide +kernel
/-- A command of R286 with one packet of one whole cell; the same again with the count 5, and with the queue of another slice. -/
theorem test_enq_status :
    let d := tabs [(tQUEUE, 131071, 0, w64 (1 + 5 * 2 + 2 ^ 13))] (work (put QM.CTL.EN 1)).dev
    let d : Dev := { d with qm := { d.qm with cells := [(196607, ⟨1, 5, 0⟩)] } }
    let x := 1 + (131071 + 196607 * 2 ^ 40 + 256 * 2 ^ 58) * 2 ^ 64
    d.enqStatus (some 5) x = 0 ∧ d.enqStatus (some 5) (x + 4) = 1 ∧ d.enqStatus (some 6) x = 2 ∧
    (tabs [(tQUEUE, 131071, 0, w64 (5 * 2 + 2 ^ 13))] d).enqStatus (some 5) x = 3 ∧ d.enqStatus (some 5) (x - 2 ^ 104) = 5 ∧
    (put QM.CTL.EN 0 d).enqStatus (some 5) x = 6 ∧ (d.enqueue (some 5) x).2.coh.need = none ∧ (d.enqueue (some 5) x).1 / 2 ^ 16 = 0 := by
  decide +kernel
theorem test_dequeue_hyps :
    (131071 < 131072 ∧ 131072 ≤ ((run [(1, 131072)] id).dev.gr 37 1).toNat) ∧
    ((qm id).dev.qSlice 9 = ((qm id).dev.str 37).slice ∧ (qm id).dev.qSched 9 = true ∧ (qm id).dev.pkts 8 = [] ∧
      (qm id).dev.qSlice 8 ≠ ((qm id).dev.str 37).slice) ∧
    (let d := (qm (tabs [(tQUEUE, 9, 0, w64 (1 + 5 * 2 + 2 ^ 13))])).dev
     (d.pkts 9).head? = some pkt ∧ pkt.sp = [] ∧ d.qSched 9 = false) ∧
    ((qm id).dev.pkts 9).length < 2 ^ 32 ∧ cellsOf ((qm id).dev.pkts 9) < 2 ^ 32 ∧ (4 : BitVec 5).toNat % 4 = 0 := by decide +kernel
theorem test_scheduler_hyps : (qm id).dev.nextOutput = some 4 := by decide +kernel
/-- R304's layout of an egress descriptor, yellow, not poisoned. -/
theorem test_descriptor :
    (qm id).dev.descriptor 9 { pkt with colour := 1, tin := 0x55 } = [1, 1, 60, 0, 64, 0, 0, 0, 9, 0, 0, 0, 7, 0, 0, 0,
      0x55, 0, 0, 0, 0, 0, 0, 0, 0, 0, 0, 0, 5, 0, 0, 0] := by decide +kernel
theorem test_fring_hyps :
    let s := run [] fun d => tabs [(tFRING, 47, 0, w64 (1 + 4 * 2 + 32)), (tSLICE, 5, 0, w64 (1 + 2 * 1000))] (d.setF QM.CTL.EN 1)
    s.dev.refillOk (8 * 5 + 7) 4 = true ∧ s.dev.runClean 4 (2 ^ s.dev.qf tFRING 47 0 5 3) = true ∧
    (s.dev.sliceWrite (.unit 6) 0 5 (s.dev.qf tFRING 47 1 0 48 + (s.dev.qring 47).tail % 2 ^ s.dev.frLog 47 * 8) 0x301 (leBytes 8 (1 + 4 * 2 ^ 8 + 2 * 2 ^ 32))).1 =
      true := by decide +kernel
theorem test_spill_hyps :
    (let d := (qm (fun d => ((d.setF QM.CTL.HEADW 0).setF QM.STAT.SPILLING 1).setF HBM.PART.Q 1)).dev
     d.fb QM.STAT.SPILLING = true ∧ d.spillQueue = some 9 ∧ (d.spillable 9).getLast? = some pkt ∧ pkt.n ≤ d.spFree) ∧
    (let d := (qm (fun d => { d.setF QM.CTL.HEADW 1 with qm := { d.qm with q := [(9, [{ pkt with sp := [3] }])] } })).dev
     d.refillPkt 9 = some { pkt with sp := [3] } ∧ d.runFree 0 1 = true) := by decide +kernel
theorem test_table_hyps :
    (let d := (up id).dev
     (∀ b : Fin 6, d.qmBad b.val 0 (if b.val = 2 then 2 ^ 29 else if b.val = 3 then 2 ^ 13 else if b.val = 4 then 2 ^ 9 else
       if b.val = 1 then 8 else if b.val = 5 then 4 * 2 ^ 18 else 0) 0 0 = false) ∧ d.qmBad 2 131072 0 0 0 = true ∧
     d.qmBusy 2 0 1 0 = false ∧ d.pkts 0 = [] ∧ 131071 < qmSize 2) ∧
    (let v := w64 (1 + 2 * 5 + 6 * 2 ^ 19 + 7 * 2 ^ 37); getBits v 1 18 = 5 ∧ getBits v 19 18 = 6 ∧ getBits v 37 18 = 7) ∧
    (let v := w64 (1 + 2 * 6 + 6 * 2 ^ 19 + 7 * 2 ^ 37); getBits v 19 18 ≤ getBits v 1 18) ∧
    (let v := w64 (196609 * 2 ^ 19); 196608 < getBits v 19 18) ∧ getBits (w64 (5 + 5 * 2 ^ 30)) 30 30 ≤ getBits (w64 (5 + 5 * 2 ^ 30)) 0 30 ∧
    getBits (w64 (5 + 6 * 2 ^ 30)) 0 30 < getBits (w64 (5 + 6 * 2 ^ 30)) 30 30 := by decide +kernel

/-! ## Slot channels -/

/-- Channel 23 in a state, its MODE. -/
def slot (st mode : Nat) (g : Dev → Dev) : State := up fun d => g ((d.setF (SLOT.STAT.STATE 23) st).setF (SLOT.CTL.MODE 23) mode)
theorem test_slot_hyps :
    (slot 6 2 id).dev.slotUp = true ∧ (∀ st ∈ [3, 4, 5, 6], (slot st 2 id).dev.slotOn 23 = true ∧ (slot st 2 id).dev.slotSeq 23 = true) ∧
    (∀ st ∈ [0, 1, 2, 7, 8, 9], (slot st 1 id).dev.slotOn 23 = false ∧ (slot st 1 id).dev.slotSt 23 = st ∧
      (slot st 1 id).dev.slotSeq 23 = false) ∧ (slot 9 2 id).dev.f (SLOT.CTL.MODE 23) = 2 ∧
    (let d := (slot 2 2 fun d => (put (SLOT.MEAS.VIN 23) 12000 d).setF (SLOT.STAT.PRSNT 23) 1).dev
     d.fb (SLOT.STAT.PRSNT 23) = true ∧ d.vinOk 23 = true) ∧
    (slot 4 2 id).dev.fb (SLOT.STAT.PRSNT 23) = false ∧ (slot 0 0 id).dev.fb SLOT.GCTL.LOCK = false ∧
    (slot 0 0 (put SLOT.GCTL.LOCK 1)).dev.fb SLOT.GCTL.LOCK = true ∧ (slot 0 0 id).dev.pwr.dark = true := by decide +kernel
/-- R314 and R321: the ends of the ranges of LIM and VTH. -/
theorem test_slot_ranges :
    limOk (w64 (10 + 10 * 2 ^ 8 + 2 ^ 16 + 2 ^ 24)) = true ∧ limOk (w64 (250 + 250 * 2 ^ 8 + 200 * 2 ^ 16 + 100 * 2 ^ 24)) = true ∧
    limOk (w64 (10 + 11 * 2 ^ 8 + 2 ^ 16 + 2 ^ 24)) = false ∧ limOk (w64 (251 + 10 * 2 ^ 8 + 2 ^ 16 + 2 ^ 24)) = false ∧
    vthOk (w64 (319 + 320 * 2 ^ 9 + 320 * 2 ^ 18)) = true ∧ vthOk (w64 (320 + 320 * 2 ^ 9)) = false ∧ vthOk (w64 (321 * 2 ^ 9)) = false := by
  decide +kernel
theorem test_slot_power_good :
    (8000 + 8000 ≤ (16000 : BitVec 15).toNat) ∧ (slot 3 1 id).dev.f (SLOT.VTH.PGTH 23) * 50 ≤ (16000 : BitVec 14).toNat := by decide +kernel

/-! ## EMP -/

/-- The example of chapter 13, its request by bytes. -/
def slotOff : Emp := { path := .oob, tag := 0x2C, src := 0x18, dst := 0, payload := [0x20, 0, 0, 0] }
theorem test_slot_off_bytes :
    empParse [0x61, 0x11, 0x00, 0x2C, 0x18, 0x00, 0x04, 0x00, 0x20, 0x00, 0x00, 0x00] =
      some ⟨false, 0x11, 0, 0x2C, 0x18, 0, 4, false, [0x20, 0, 0, 0]⟩ ∧
    empBytes true 0x11 0 0x2C 0x00 0x18 [] = [0x71, 0x11, 0x00, 0x2C, 0x00, 0x18, 0x00, 0x00] := by decide +kernel
theorem test_slot_off :
    ∃ u, exec (.slotOff slotOff) (up fun d => d.setF (SLOT.STAT.STATE 5) 6) = .next u ∧ u.dev.f (SLOT.STAT.REASON 5) = 11 ∧
      u.dev.fb (SLOT.STAT.PERST 5) = true := ⟨_, rfl, by decide +kernel⟩
/-- Who may ask: each operation of the catalogue by its first sender and receiver, device 0. -/
theorem test_emp_may_ask :
    ∀ o ∈ empOps, ∀ e ∈ o.ends, o.op ≠ 0x41 →
      (up id).dev.mayAsk e.1 o ⟨false, o.op, 0, 1, e.1 * 8, e.2 * 8, o.lo, false, List.replicate o.lo 0⟩ = true ∧ o.lo ≤ o.hi := by
  decide +kernel
theorem test_emp_peer_ask :
    (up id).dev.mayAsk eFM ⟨0x41, [(2, 2)], 0, 4088⟩ ⟨false, 0x41, 0, 1, 16, 17, 0, false, []⟩ = true ∧
    (up (put SYS.SAFE.ACTIVE 1)).dev.safe = true ∧ (dk (fun k => { k with evq := [[1]] }) State.reset).dev.drk.evq.drop 0 ≠ [] ∧
    (up id).dev.drkSends ⟨false, 0x30, 0, 1, 0, 8, 10, false, []⟩ = true ∧ (∀ l : List Nat, l.length = 0 → ([] : List Nat) = l) := by
  refine ⟨by decide +kernel, by decide +kernel, by decide +kernel, by decide +kernel, fun l h => (List.length_eq_zero_iff.1 h).symm⟩
/-- A request by operation and payload, from OOB to the darkroom. -/
def req (op : Nat) (pl : List Byte) : EmpH := ⟨false, op, 0, 1, 24, 0, pl.length, false, pl⟩
theorem test_emp_args :
    (dk (fun k => { k with want := 1 }) State.reset).dev.drk.want = (req 0x0A [0, 0, 0, 0, 0, 7]).f 0 1 + 1 ∧
    (req 0x0A [0, 0, 0, 0, 0, 7]).f 1 4 + 1 ≤ imgMax 0 ∧ (req 0x11 [0xFF, 0xFF, 0xFF, 0]).f 0 4 < 2 ^ 24 ∧
    ((req 0x22 [0, 0, 63]).f 2 1 = 63) ∧ bitN (Fuse.blank).policy 2 = false ∧ (req 0x06 [1]).f 0 1 ≤ 1 ∧
    cspReadable (SLOT.STAT.STATE 0).addr 1 = true ∧ cspMapped (SLOT.STAT.STATE 0).addr = true ∧
    ((port 1 id).dev.drkJudge 0x1000000 8 .rd = none ∧ (port 1 id).dev.homeRefuses (0x1000000 / 64) drkAgent true 0xFFF false = false ∧
      (Dev.cohBytes 66 (port 1 id).dev drkOwn 0x1000000 8).1.2 = (false, 0) ∧ (port 1 id).dev.drkJudge 0x1000000 8 .wr = none ∧
      (port 1 id).dev.homeRefuses (0x1000000 / 64) drkAgent true 0xFFF true = false) ∧
    (let d := (up fun d => d.setF FPC.DBG.AUTH 1 |>.setF FPC.DBG.SCOPE 2).dev; d.fb FPC.DBG.AUTH = true ∧ bitN (d.f FPC.DBG.SCOPE) 1 = true ∧
      d.safe = false) ∧
    (port 1 id).dev.hostPort 7 = true ∧ (up fun d => d.setStr 0 { d.str 0 with live := true }).dev.fmRuns = true ∧
    (up id).dev.fb SYS.MBXRX.V = false := by decide +kernel
theorem test_emp_wait_hyps :
    ((dk (fun k => { k with relays := [⟨3, 0x40, 9, 24, 16, 5⟩] }) State.reset).dev.drk.relays.find? fun r => r.tag == 9) =
      some ⟨3, 0x40, 9, 24, 16, 5⟩ ∧ ((lk 4 2 (ln { Link.none with frag := [[1]] })).dev.lnk 12).frag ≠ [] ∧
    (dk (fun k => { k with xfer := true }) State.reset).dev.drk.xfer = true ∧
    (dk (fun k => { k with fe := [[1]] }) State.reset).dev.drk.fe = [1] :: [] := by decide +kernel
/-- A debug answer: the key is the generator's point and the nonce of one byte a stand-in, so that r and s follow by hand. -/
theorem test_dbg_auth_hyps :
    let key : List Byte := 4 :: beBytes 48 p384gx ++ beBytes 48 p384gy
    let fz : Fuse := { Fuse.blank with dbgkey := [[], sha384 key] }
    let d := (dk (fun k => { k with nonces := [(0, [7])], idKey := true }) State.reset).dev
    let r := p384gx % p384n
    let pl : List Byte := [7, 1] ++ key ++ leBytes 48 r ++ leBytes 48 ((beNat (Dev.dbgDigest fz d [7] 7 1) + r) % p384n)
    d.drk.nonces.getLast? = some (0, [7]) ∧ (req 0x24 pl).f 0 1 = 7 ∧ (req 0x24 pl).f 1 1 = 1 ∧ (pl.drop 2).take 97 = key ∧
    fz.dbgkey.getD 1 [] = sha384 key ∧ bitN fz.policy 9 = false ∧ pl.length = 195 ∧
    sigOk (beNat ((key.drop 1).take 48)) (beNat (key.drop 49)) (Dev.dbgDigest fz d [7] 7 1) (pl.drop 99) = true := by decide +kernel
/-- FIPS 180-4's example for SHA-384, and a signature whose last bit is wrong. -/
theorem test_sha384_abc :
    beNat (sha384 [0x61, 0x62, 0x63]) =
      0xcb00753f45a35e8bb5a03d699ac65007272c32ab0eded1631a8b605a43ff5bed8086072ba1e7cc2358baeca134c825a7 := by decide +kernel

/-! ## Management -/

theorem test_tap_hyps :
    (let d : Dev := (pw (fun p => { p with fdReset := true }) (up fun d => (d.setF FPC.DBG.AUTH 1).setF FPC.DBG.SCOPE 4)).dev
     d.scope 2 = true ∧ d.fdUp = false) ∧ (dk (fun k => { k with auth := 1 }) State.reset).dev.drk.auth = 1 ∧
    (up id).dev.fdUp = true := by decide +kernel
theorem test_mailbox_hyps :
    (let v := w64 (4096 + 2 ^ 13); v.getLsbD 13 = true ∧ getBits v 0 13 = 4096) ∧ (up id).dev.fb SYS.MBXTX.BUSY = false ∧
    (up (put SYS.MBXTX.BUSY 1)).dev.fb SYS.MBXTX.BUSY = true ∧ (w64 (2 ^ 14)).getLsbD 14 = true ∧
    (up (put SYS.MBXRX.V 1)).dev.fb SYS.MBXRX.V = true ∧ (up (put SYS.MBXRX.V 1)).dev.drk.fmq = [] ∧
    (dk (fun k => { k with fmq := [[1]] }) State.reset).dev.drk.fmq = [1] :: [] := by decide +kernel
theorem test_mctp_hyps :
    (up id).dev.reached 0 = true ∧ (port 1 id).dev.reached 8 = true ∧
    (dk (fun k => { k with i3c := { k.i3c with addr := some 9 } }) State.reset).dev.drk.i3c.addr ≠ none ∧
    State.reset.dev.drk.i3c.addr = none ∧ (1 : Byte).toNat ≤ 1 ∧ (254 : Byte) ≠ 0 ∧ (254 : Byte) ≠ 255 ∧
    (64 ≤ (64 : BitVec 16).toNat ∧ (256 : BitVec 16).toNat ≤ 256) ∧ (0x0B : Byte).getLsbD 0 = true ∧
    State.reset.dev.drk.tx = [] ∧ (dk (fun k => { k with tx := [[1]] }) State.reset).dev.drk.tx = [1] :: [] := by decide +kernel
theorem test_spdm_hyps :
    let ses : SpdmS := ⟨9, 0x10001, false, 0⟩
    let s := dk (fun k => { k with fwOk := true, idKey := true, spdm := [(9, ⟨3, []⟩)], sess := [ses] }) State.reset
    s.dev.spdmOn = true ∧ (s.dev.conn 9).st = 3 ∧ (s.dev.conn 8).st = 0 ∧ (s.dev.drk.sess.find? fun y => y.id == 0x10001) = some ses ∧
    s.dev.drk.sess.length < 8 ∧
    (let q : SpdmIn := ⟨0x13, 0xE3, 0, 0, [0x20, 0] ++ List.replicate 26 0⟩
     q.body.length = 28 + 4 * (q.f 24 1 + q.f 25 1) + 4 * q.p1 ∧ q.f 0 2 = q.body.length + 4) ∧
    (let q : SpdmIn := ⟨0x13, 0xE4, 0xFF, 0, List.replicate 134 0⟩; q.body.length = 134 + q.f 132 2) ∧
    (let q : SpdmIn := ⟨0x13, 0xFE, 0, 0, List.replicate 5 0⟩
     5 + q.f 2 1 ≤ q.body.length ∧ (q.body.drop (5 + q.f 2 1)).length = q.f (3 + q.f 2 1) 2) ∧
    (let q : SpdmIn := ⟨0x13, 0x82, 0, 0, [51, 0, 1, 0]⟩; q.f 0 2 < (certChain Fuse.blank).length) := by decide +kernel
/-- A free run for a packet of one cell: cell 0 is free where it is not listed. -/
theorem test_refill_room (d : Dev) (h : d.runFree 0 1 = true) (g : d.runStill 0 1 = true) : ∃ c, d.allocRun 1 = some c :=
  Option.isSome_iff_exists.1 (List.find?_isSome.2 ⟨0, List.mem_range.2 (by omega), by simp [h, g]⟩)

/-! ## Own requests, continuations and turns -/

/-- Nothing of the device's own waits for an answer while `g` runs. -/
def atOnce {α : Type} (d : Dev) (g : Dev → α × Dev) : Prop := (g { d with coh := { d.coh with need := none } }).2.coh.need = none

theorem test_throttle_hyps :
    let d := (up id).dev
    let hot := (d.f SYS.THERM.TTHROT + 64) * 4
    d.safe = false ∧ (up (put SYS.SAFE.ACTIVE 1)).dev.safe = true ∧ hot < (1023 : BitVec 11).toNat ∧
    (0 : BitVec 11).toNat < (d.f SYS.THERM.TTHROT - d.f SYS.THERM.HYST + 64) * 4 ∧
    ¬hot < (BitVec.ofNat 11 hot).toNat ∧ ¬(BitVec.ofNat 11 hot).toNat < (d.f SYS.THERM.TTHROT - d.f SYS.THERM.HYST + 64) * 4 ∧
    (596 : BitVec 11).toNat = 596 := by decide +kernel
/-- A sheet whose ring lies on this device, and one whose ring lies on another. -/
theorem test_dump_hyps :
    let far := up fun d => ((d.setReg (CTR.SHEET0.WORD 3) (w64 (1 + 4 * 2 ^ 3))).setReg (CTR.SHEET2.WORD 3) 0x2004000000000#64)
    let run := fun (s : State) => ({ s.dev with coh := { s.dev.coh with need := none } } : Dev).sheetRun 3 s.dev.now s.dev.ctr.slice
    (sheet 0 []).dev.fb (CTR.SHEETST.BUSY 3) = false ∧ (run (sheet 0 [])).coh.need = none ∧ far.dev.fb (CTR.SHEETST.BUSY 3) = false ∧
    (run far).coh.need.isSome = true ∧ (put (CTR.SHEETST.BUSY 3) 1 (sheet 0 []).dev).fb (CTR.SHEETST.BUSY 3) = true := by decide +kernel

/-! ## Coherence -/

/-- Host answers with no write-back of the host on its way, with one, and with a clean notice. -/
theorem test_crossing_hyps :
    let s := fun (l : List (BitVec 6)) => port 1 fun d => { d with coh := { d.coh with
      bisnp := [⟨7, 9, true, 0x200, 3, none⟩], net := l.map fun op => { op := op, src := d.ag (0x280 + 7), addr := 9 } } }
    let leaves := fun (d : Dev) (op : BitVec 6) => ∃ m ∈ d.coh.net, m.src = d.ag (0x280 + 7) ∧ m.addr = (9 : BitVec 46) ∧ m.op = op
    ¬leaves (s []).dev opWbM ∧ ¬leaves (s []).dev opEvictC ∧ leaves (s [opWbM]).dev opWbM ∧ ¬leaves (s [opWbM]).dev opEvictC ∧
    leaves (s [opEvictC]).dev opEvictC ∧ ¬leaves (s [opEvictC]).dev opWbM ∧ (s [opWbM]).dev.biOf 7 9 = some ⟨7, 9, true, 0x200, 3, none⟩ ∧
    (s []).dev.f (PORT.STAT.LINK 7) ≠ 3 ∧ (put (PORT.STAT.LINK 7) 3 (s []).dev).f (PORT.STAT.LINK 7) = 3 ∧
    (512 ≤ 512 ∧ (4096 : BitVec 13).toNat ≤ 4096) := by decide +kernel
/-- A request in its turn, none of the line waiting and one waiting; an answer in its turn. -/
theorem test_turn_hyps :
    (∀ op ∈ [opRdS, opRdX, opUpg, opRdU, opWrU, opWrP, opAtom],
      let m := rq op 0x40001
      let d := (up id).dev
      d.inTurn m = true ∧ (d.take m).gateDrops m = false ∧ ¬(∃ u ∈ d.coh.hq, u.addr = m.addr) ∧
        (d.take m).mscAgain (Txn.new 0x40001 (.req m) 0) = false ∧
      let e := (up fun d => { d with coh := { d.coh with hq := [m] } }).dev
      ∃ u ∈ e.coh.hq, u.addr = m.addr) ∧
    (∀ op ∈ [opDataS, opDataE, opDataM, opGntM, opWbAck, opCmpP, opDataU, opDataA, opCmp], (up id).dev.inTurn (rsp op 0x12 9) = true) ∧
    (∀ op ∈ [opSnpS, opSnpI, opSnpC], (up id).dev.inTurn (rsp op 0x25F 9) = true) ∧
    ∀ op ∈ [opSnpCnt, opRspS, opRspO, opRspD, opRspI, opRspIWb], (busy 9).dev.inTurn (rq op 9) = true := by decide +kernel

/-! ## The pool -/

/-- An extent with its zero lines to be written to an expander, one with them in flight, and one in HBM. -/
theorem test_zeroing_hyps :
    (let d := (ext (extWord 5 2 5) id).dev; d.zeroDue 288 = false ∧ d.zeroAwaited 288 = false) ∧
    (let d := (up fun d => ((((d.setF BIND.EXTTBL.EN 1).setF BIND.EXTTBL.BASE 0x20000).setExt 0x20000 (extWord 5 2 5)).setF (HBM.EXP.STATE 0) 1).setF
        (HBM.EXP.CAP_GIB 0) 2).dev
     extState (d.extEntry 0x20000) = 2 ∧ d.zeroDue 0x20000 = true) := by decide +kernel
/-- Retirement into the lowest free entry of the map, and a scrub of an HBM line. -/
theorem test_retire_hyps :
    (let d := (up fun d => { d with pool := { d.pool with retire := [(3, 8)] } }).dev
     Tbl.get 0 d.pool.retire 3 = 7 + 1 ∧
     let e : Dev := { d with pool := { d.pool with retire := Tbl.put 0 d.pool.retire 3 0, cand := Tbl.put (0, 0) d.pool.cand (3 * 2 ^ 24 + 7) (0, 0) } }
     let e := (e.retireCopy 3 7 1).setF (HBM.RETCFG.BUSY 3) 0
     e.fb (HBM.RETMAP.V 3 0) = false) ∧
    (let d := (up id).dev
     let ln := 0x4800000000 / 64
     ln % 2 ^ 43 < 2 ^ 42 ∧ d.pcPaused ln = false ∧ d.partnerOf ln = none ∧ (d.readOne ln 0).1.isSome = true) ∧
    (up fun d => (d.setPc 3 31 1).setPc 3 (pairPc 31) 3).dev.pcState 3 (pairPc 31) = 3 := by decide +kernel
/-- A hedged read (R114): two expander copies, one of them asked. -/
theorem test_spare_hyps :
    let ln := 0x800000000000 / 64
    let s := up fun d =>
      let d := (((d.setF HBM.MIRTBL.EN 1).setF HBM.MIRTBL.BASE 0x20001).setMir (extOf ln) (mirWord (extOf ln + 2 ^ 11) 0 1 false))
      let d := (d.setMir (extOf ln + 2 ^ 11) (mirWord (extOf ln) 1 1 false)).setF (HBM.EXP.STATE (winOf ln + 1)) 1
      { d with pool := { d.pool with exps := [⟨winOf ln, ln, ln, false, 0, false, none⟩] } }.openTxn
        { Txn.new ln (.req (rq opRdS ln)) 0 with exps := [ln] }
    s.dev.spareExp ln = some (ln + 2 ^ 35) ∧ (s.dev.txn ln).map (fun t => (t.both, t.exps, t.rd.isEmpty)) = some (false, [ln], true) := by
  decide +kernel
/-- A stack with nothing left to resilver. -/
theorem test_resil_end_hyps :
    let d := (up (put (HBM.STAT.RSTATE 3) 2)).dev
    d.rstate 67 = 2 ∧ d.pool.await = false ∧ d.resLine 67 = none ∧ d.coh.txns.any (fun t => t.kind == .resil 67) = false ∧
    (let e := (up (put (HBM.EXP.RSTATE 63) 2)).dev; e.rstate 63 = 2 ∧ e.resLine 63 = none) := by decide +kernel

/-! ## Links -/

theorem test_train_hyps :
    let d := (lk 4 1 id).dev
    (d.lnk 12).due = false ∧ trainSet ((0xFFFF : BitVec 16).toNat &&& d.lanesMax 12) (min (4 : BitVec 3).toNat (d.f (PORT.CFG.WIDTH 12))) ≠ 0 ∧
    rateSet (min (2 : BitVec 2).toNat (d.f (PORT.CFG.RATE 12))) 7 ≠ none ∧ rateSet 1 4 = none ∧
    (lk 4 2 id).dev.lanesAll 12 = 3 ∧ laneSet ((lk 4 2 id).dev.lanesAll 12) (setBitN 0 1) ≠ 0 ∧
    ((lk 4 2 (ln { Link.none with cal := 4, full := 15 })).dev.lanesAll 12).testBit 3 = true := by decide +kernel
theorem test_late_hyps :
    let m : Msg := { op := opRdS, src := 0x12, dst := BitVec.ofNat 13 (3 * 1024 + 0x200), addr := 9, tag := 4 }
    let s := fun (t : Nat) => lk 4 2 fun d => { (d.setF (PORT.STAT.REMDEV 12) 3) with time := 300000, coh := { d.coh with rem := [(96, m)], late := [(t, m)] } }
    (s 300000).dev.tooLate m = false ∧ (s 0).dev.tooLate m = true ∧ isOwn (agId m.src) = false ∧ isOwn 0x300 = true ∧
    (lk 4 2 id).dev.link.all (fun x => x.2.rxb.isEmpty) = true := by decide +kernel
/-- On one lane a flit's bytes stand as they arrive, on four every fourth byte is of one lane (R142). -/
theorem test_flit_lanes :
    flitMerge 1 flitWord = flitWord ∧ popN 16 1 = 1 ∧
    flitMerge 4 (BitVec.ofNat 1024 (leNat ((List.range 128).map fun i => BitVec.ofNat 8 i))) &&& 0xFFFFFFFF = 0x60402000 := by
  decide +kernel
theorem test_switch_hyps :
    let a : LinkAct := ⟨1, 5, 1, true, true, true, false, some (7, 1)⟩
    let l : Link := { Link.none with act := some a }
    l.act = some a ∧ a.code ≠ 3 ∧ a.got = false ∧ (∀ f ∈ l.replay, f.1 ≠ 7) ∧ l.wrep = [] ∧ l.due = false ∧
    (∃ f ∈ ({ l with replay := [(7, 1, 0, [])] } : Link).replay, f.1 = 7) ∧ (63 : BitVec 6) ≠ 0 ∧
    ({ Link.none with cal := 4, full := 15 } : Link).cal = 4 := by decide

/-! ## Work -/

/-- A window command and a channel in their turn. -/
theorem test_dispatch_turns :
    (let cmd := work fun d => ((((d.setF (SLICE.WIN.EN 5 63) 1).setF (SLICE.WIN.SPORE 5 63) 2)).setWin 5 63 { (d.win 5 63) with state := 1, cmd := some 7 })
     cmd.dev.turnOf 1 1 (5 * 64 + 63) (cmd.dev.winsFor 1) = true) ∧
    (let s := work fun d => ((((((d.setF (SORUS.CHCFG.EN 1 255) 1).setF (SORUS.CHCFG.START 1 255) 1).setF (SORUS.CHCFG.DEPTH 1 255) 4).setF
      (SORUS.CHCFG.SPORE 1 255) 2).setF (SORUS.CHCFG.SLICE 1 255) 5).setCh 1 255 ⟨1, 0, 0, 0, 0⟩)
     s.dev.turnOf 1 2 255 (s.dev.chansFor 1) = true) := by decide +kernel
/-- The manager's queue: its head entry is read at once, and is taken. -/
theorem test_take_hyps :
    let d := (mgrEntry 1).dev
    d.sqReady mgrN 0 = true ∧ d.sqStrand mgrN 0 0 = true ∧ d.safe = false ∧
    atOnce d (fun d => d.sqRead mgrN 0 (sorusUnit 0)) ∧ d.sporeOk 0 1023 0 mgrN true = false ∧
    Tbl.get 0 ({ d with wq := { d.wq with sqOwn := [(mgrN * 8, 2)] } } : Dev).wq.sqOwn (mgrN * 8 + 0) = 1 + 1 ∧
    Tbl.get 0 ({ d with wq := { d.wq with sqOwn := [(5 * 8 + 7, 256)] } } : Dev).wq.sqOwn (5 * 8 + 7) = 255 + 1 := by
  unfold atOnce; decide +kernel

/-! ## Loads and channels that wait -/

/-- A load from this device, one whose lines lie on another, and one that waits for them. -/
theorem test_load_need_hyps :
    let go := fun (d : Dev) => (Dev.loadGo State.reset.fuse { d with coh := { d.coh with need := none } } 1).coh.need
    go (load image) = none ∧ (go ((load image).setF (SORUS.LSRC.FPA 1) 0x80001000000)).isSome = true ∧
    ((load image).setLoad 1 { LoadOp.none with wait := 3 }).loadOp 1 = { LoadOp.none with wait := 3 } ∧
    policyAsks { Fuse.blank with policy := 3 } false = true ∧ policyAsks { Fuse.blank with policy := 3 } true = true ∧
    (Dev.loadRead 1 4 0x7FFFFFFFFF0 (up id).dev).1 = none := by decide +kernel
theorem test_chcfg_off_hyps :
    (0 : Word).getLsbD 0 = false ∧ (chan 255 ⟨0, 0, 0, 0, 0⟩ []).dev.fb (SORUS.CHCFG.EN 1 255) = true ∧
    (let f : FQ := ⟨3, 1, 32⟩; 32 ≤ f.ch.toNat) ∧ (let f : FQ := ⟨0, 0, 31⟩; f.rd = 0 ∧ f.ra = 0 ∧ f.ch.toNat < 32) := by decide +kernel

/-! ## Atomics, fencing, the queue manager -/

theorem test_atomic_hyps :
    let d := (run [(2, 64)] (l1 .m)).dev
    (∀ e ∈ d.sor.sb, ((true : Bool) = true → e.p ≠ d.physOf 37 ∧ e.t ≠ 37) ∧ (e.t = 37 → e.fpa / 64 ≠ 0x1000040 / 64)) ∧ d.sor.posts = [] ∧
    d.inTables (0x1000040 / 64) = false ∧ d.logsStore (d.physOf 37) (0x1000040 / 64) 5 false = false ∧
    (put (SLICE.DLOG_BASE.EN 5) 1 d).logsStore (d.physOf 37) (0x1000040 / 64) 5 false = true := by decide +kernel
theorem test_fence_order_hyps :
    let d := fun (l : List (Nat × Nat)) => ({ (up id).dev with sor := { (up id).dev.sor with fencing := l } } : Dev)
    (d [(12, 1)]).fenceBehind 1 3 = false ∧ (d [(11, 1), (12, 1)]).fenceBehind 1 3 = true ∧ (d [(11, 2), (12, 1)]).fenceBehind 1 3 = false := by
  decide +kernel
/-- An ENQ and a QREL that wait for no line: of commands that the queue manager refuses. -/
theorem test_enq_at_once_hyps :
    let d := (run [] id).dev
    let w := d.waitOn 37 (.enq 3)
    d.qm.todo = [] ∧ (d.str 37).stop = 0 ∧ (w.str 37).wait = .enq 3 ∧
    atOnce w (fun d => d.enqueue (some 5) 0) ∧ atOnce w (fun d => d.release (some 5) 0) := by
  unfold atOnce; decide +kernel
theorem test_ring_refill_hyps :
    let s := run [] fun d => tabs [(tFRING, 47, 0, w64 (1 + 4 * 2 + 32)), (tSLICE, 5, 0, w64 (1 + 2 * 1000))] (d.setF QM.CTL.EN 1)
    let z := ({ s.dev with coh := { s.dev.coh with need := none } } : Dev).zeroRun (.unit 6) 4 2 5
    s.dev.refillOk 47 4 = true ∧ s.dev.runStill 4 (2 ^ s.dev.qf tFRING 47 0 5 3) = true ∧
    (let r := z.sliceWrite (.unit 6) 0 5 (s.dev.qf tFRING 47 1 0 48 + (s.dev.qring 47).tail % 2 ^ s.dev.frLog 47 * 8) 0x301
      (leBytes 8 (1 + 4 * 2 ^ 8 + 2 * 2 ^ 32))
     r.1 = true ∧ r.2.coh.need = none) := by decide +kernel

/-! ## Debug accesses and MCTP -/

theorem test_debug_hyps :
    let d := (port 1 id).dev
    atOnce d (fun d => Dev.dbgWrite 9 d 0x1000000 [1, 2, 3, 4, 5, 6, 7, 8]) ∧ atOnce d (fun d => Dev.dbgRead 9 d 0x1000000 8) ∧
    (let w : Dev := (up fun d => (d.setF FPC.DBG.AUTH 1).setF FPC.DBG.SCOPE 1).dev
     w.scope 2 = false ∧ w.fdUp = true) ∧
    (let far := d.openTxn (Txn.new (0x1000000 / 64) (.req (rq opRdS (0x1000000 / 64))) 0)
     (Dev.cohBytes 66 { far with coh := { far.coh with need := none } } dbgOwn 0x1000000 8).2.coh.need.isSome = true) := by
  unfold atOnce; decide +kernel
theorem test_assembly_hyps :
    let fl : Nat → Byte := fun x => BitVec.ofNat 8 x
    let d := (dk (fun k => { k with asm := [(0 * 4096 + 9 * 16 + 8, ⟨1, [5]⟩)] }) State.reset).dev
    let x := Tbl.get (⟨0, []⟩ : Asm) d.drk.asm (0 * 4096 + (9 : Byte).toNat * 16 + (fl 0x18).toNat % 16)
    (1 : Byte).toNat % 16 = 1 ∧ [(1 : Byte)].length ≤ d.drk.i3c.mwl ∧ (fl 0x88).getLsbD 7 = true ∧ (fl 0x88).getLsbD 6 = false ∧
    (fl 0xC8).getLsbD 6 = true ∧ x.bs ≠ [] ∧ x.seq = (fl 0x18).toNat / 16 % 4 ∧ (fl 0x18).getLsbD 7 = false ∧
    (fl 0x58).getLsbD 6 = true ∧ x.seq ≠ (fl 0x28).toNat / 16 % 4 ∧ (0x0A : Byte).getLsbD 0 = false ∧
    ((dk (fun k => { k with relays := [] }) State.reset).dev.drk.i3c.addr = none) := by decide +kernel

/-! ## Lines that are held, and translations that answer -/

/-- Sorus 5 holds the line of an FPA in E or M; a group of host 3 does; sori 4 and 6 and a group share it. -/
def shared (e : SfE) : State := port 1 fun d => (d.setSf 0x40001 e).setF (HOME.HGMAP.HOSTS (homeOf 0x40001) 23) 8
theorem test_held_hyps :
    (∀ e ∈ [(⟨1 + 5, 0, 0⟩ : SfE), ⟨65 + 23, 0, 0⟩], ∀ op ∈ [opRdS, opRdU, opRdX, opUpg, opWrU, opWrP],
      let d := (shared e).dev
      let m := rq op 0x40001
      let c := if op = opRdX ∨ op = opUpg then (d.take m).train m else d.take m
      d.inTurn m = true ∧ c.gateDrops m = false ∧ d.txn 0x40001 = none ∧ d.coh.hq = [] ∧ c.ownEviction m = false ∧ c.turnsAway m = false ∧
        c.coh.waits = [] ∧ c.needsMsc 0x40001 = false ∧ c.sfRoom 0x40001 = (true, c) ∧ (c.sfe 0x40001).own ≤ 88 ∧
        c.allPeers 0x40001 (c.sfe 0x40001) = [] ∧ (c.sfe 0x40001).excl = true) ∧
    (let d := (shared ⟨65 + 23, 0, 0⟩).dev; d.groupHosts (homeOf 0x40001) 23 = [3] ∧ d.portOfHost 3 = some 7) ∧
    (let d := (shared ⟨0, 80, 2 ^ 23⟩).dev; (d.sfe 0x40001).allSori = [4, 6] ∧ (d.sfe 0x40001).allGroups = [23]) := by decide +kernel
/-- R67: a RdS of Frond 0x12 for a line that sorus 5 may hold in M is answered after a SnpS to that sorus's unit. -/
theorem test_held_snoop :
    ∃ u, exec (.rds (rq opRdS 0x40001) 0) (shared ⟨1 + 5, 0, 0⟩) = .next u ∧
      u.dev.coh.net.map (fun m => (m.op, m.dst)) = [(opSnpS, 0x245)] ∧ (u.dev.txn 0x40001).isSome = true := ⟨_, rfl, by decide +kernel⟩
/-- A strand of slice 6, whose table root lies on device 1: its translation waits for that home. -/
def rooted : State := run [(2, 64)] fun d => (d.setReg (SLICE.XLAT_ROOT.V 6) (w64 (2 ^ 49 + 1))).setStr 37 { d.str 37 with slice := 6 }
theorem test_leads_hyps :
    (∀ q ∈ [Want.r, .w, .a], ((run [(2, 64)] (l1 .e)).dev.leads 37 64 q).1 = some (.ok 0x1000040)) ∧
    (∃ c, ((run [(2, 2 ^ 48)] id).dev.leads 37 (2 ^ 48) .r).1 = some (.fault c)) ∧
    (∀ q ∈ [Want.r, .w], (rooted.dev.leads 37 64 q).1 = none) ∧ rooted.dev.issues 37 = true :=
  ⟨by decide +kernel, ⟨cXLAT, by decide +kernel⟩, by decide +kernel, by decide +kernel⟩
/-- The strand's own store of two bytes to the line's byte 2, still in its buffer. -/
def buffered : State := run [(2, 66)] fun d => { l1 .e d with sor := { (l1 .e d).sor with sb := [⟨d.physOf 37, 37, 0x1000042, [0xAA, 0xBB], 5, false, 66, 0, 0⟩] } }
theorem test_forward_hyps :
    let d := buffered.dev
    d.sor.sb = [] ++ [⟨d.physOf 37, 37, 0x1000042, [0xAA, 0xBB], 5, false, 66, 0, 0⟩] ∧ d.postOn 37 (0x1000042 / 64) = false ∧
    (d.str 37).stop = 0 ∧ (d.leads 37 66 .r).1 = some (.ok 0x1000042) := by decide +kernel
/-- R85: a load takes the bytes of the strand's earlier store. -/
theorem test_forward : ∃ u, exec (.ld 37 ⟨3, 2, 1, 0⟩) buffered = .next u ∧ (u.dev.str 37).g 3 = 0xBBAA := ⟨_, rfl, by decide +kernel⟩
/-- R204: the hint OWN of LDL asks for the line where the Frond holds it in S, or not at all. -/
theorem test_ldl_own :
    (∃ u, exec (.ldl 37 ⟨8, 2, 2, 0⟩) (run [(2, 64)] (l1 .s)) = .next u ∧ u.dev.coh.net.map (·.op) = [opUpg]) ∧
    (∃ u, exec (.ldl 37 ⟨8, 2, 2, 0⟩) (run [(2, 64)] id) = .next u ∧ u.dev.coh.net.map (·.op) = [opRdX]) ∧
    ((run [(2, 64)] id).dev.l1Mates ((run [(2, 64)] id).dev.physOf 37) (0x1000040 / 64)).length < 8 ∧
    (run [(2, 64)] id).dev.check 0x1000040 (strDom false) .rd 5 = .ok :=
  ⟨⟨_, rfl, by decide +kernel⟩, ⟨_, rfl, by decide +kernel⟩, by decide +kernel, by decide +kernel⟩
/-- Slice 5's dirty log over its first 2 MiB page, kept at FPA 0x4000000000; and one whose range misses. -/
def logged (base : Nat) (d : Dev) : Dev :=
  ((((d.setF (SLICE.DLOG_BASE.EN 5) 1).setF (SLICE.DLOG_BASE.BASE 5) 0x4000000).setF (SLICE.DLOG_RANGE.BASE_PG 5) base).setF (SLICE.DLOG_RANGE.LIMIT_PG 5) 9).setF HBM.PART.F 1
theorem test_dirty_log_hyps :
    (let d := (run [] (logged 0)).dev
     d.logsStore 18 0x40001 5 false = true ∧ d.logsStore 18 0x40001 5 true = false ∧ d.coh.own = [] ∧
       (d.still (0x4000000000 / 64) = true ∧ d.sfe (0x4000000000 / 64) = SfE.empty ∧ d.lnKind (0x4000000000 / 64) = .fab ∧
         d.inTables (0x4000000000 / 64) = false ∧ d.partnerOf (0x4000000000 / 64) = none) ∧ (d.homeRead (0x4000000000 / 64) 0).1.psn = false) ∧
    (run [] (logged 1)).dev.f (SLICE.DLOG_RANGE.BASE_PG 5) = 1 ∧ 64 / 4096 = (64 + 8 - 1) / 4096 := by decide +kernel

/-! ## The engine's lines -/

/-- An operation of strand 37 that waits: a copy of a line of slice 5, a fill, posted or not. -/
def mvOf (fill posted : Bool) : MoveOp := ⟨1, 37, 1, 5, true, fill, posted, 0x4000000800, 0x4000000400, 64, 0x0102030405060708, 0x4000000C00, 3, false, 0, none⟩
def mvRun (m : MoveOp) : State := run [] fun d => { (put HBM.PART.F 1 d).setStr 37 { d.str 37 with wait := .move m.rd m.id } with moves := [m] }
theorem test_move_lines :
    ∀ m ∈ [mvOf false false, mvOf true false, mvOf false true, mvOf true true],
      let d := (mvRun m).dev
      d.movesOf 1 = [m] ∧ m.priv = true ∧ m.res = none ∧ m.abort = false ∧ m.lines = 0 ∧ d.coh.own = [] ∧
      (∀ e ∈ d.sor.strand, (e.2.wait == .hold 1) = false) ∧
      (∀ a ∈ [m.dst, m.src, m.cw], d.still (a / 64) = true ∧ d.sfe (a / 64) = SfE.empty ∧ d.lnKind (a / 64) = .fab ∧
        d.inTables (a / 64) = false ∧ d.partnerOf (a / 64) = none ∧ d.check a .f .wr m.slice = .ok ∧ d.check a .f .rd m.slice = .ok) ∧
      (let r := (d.homeRead (m.src / 64) 0).1; r.data = d.line (m.src / 64) ∧ r.psn = false ∧ r.why = 0 ∧ r.fail = 0) ∧
      (d.str m.t).wait = .move m.rd m.id ∧ (d.str m.t).stop = 0 := by decide +kernel
theorem test_move_waits : buffered.dev.sbOwn 37 = true := by decide +kernel

/-! ## Acknowledgement, credits and the lock -/

/-- A flit of type 0 that acknowledges sequence number 7, without and with NAK (R139–R141), as its 128 bytes. -/
def ackNums (nak : Bool) : List Nat :=
  [0, 0, if nak then 62 else 60] ++ List.replicate 111 0 ++
    (if nak then [57, 187, 153, 228, 131, 183, 108, 114, 227, 72, 143, 243, 249, 197]
      else [7, 10, 91, 203, 158, 110, 51, 104, 140, 51, 35, 133, 204, 223])
def ackWord (nak : Bool) : BitVec 1024 := BitVec.ofNat 1024 (leNat ((ackNums nak).map (BitVec.ofNat 8)))
def ackRow (nak : Bool) (i : Nat) : List Nat := (fecPos i).map fun j => (ackNums nak).getD j 0
/-- A flit whose three rows need no correction is read as it came. -/
theorem flit_fix_clean {w : BitVec 1024} {b : List Nat} (h : (leBytes 128 w.toNat).map (·.toNat) = b)
    (r : ∀ i < 3, fecFix ((fecPos i).map fun j => b.getD j 0) = ((fecPos i).map fun j => b.getD j 0, false))
    (p : ∀ i < 3, ((fecPos i).zip ((fecPos i).map fun j => b.getD j 0)).foldl (fun l pw => l.set pw.1 pw.2) b = b) :
    flitFix w = (b.map (BitVec.ofNat 8), 0) := by
  simp only [flitFix, h, show List.range 3 = [0, 1, 2] from rfl, List.foldl_cons, List.foldl_nil, r 0 (by decide), r 1 (by decide),
    r 2 (by decide), p 0 (by decide), p 1 (by decide), p 2 (by decide)]
  rfl
theorem ack_nums : ∀ k, (leBytes 128 (ackWord k).toNat).map (·.toNat) = ackNums k := by decide +kernel
theorem ack_row0 : ∀ k, fecFix (ackRow k 0) = (ackRow k 0, false) := by intro k; cases k <;> decide_cbv
theorem ack_row1 : ∀ k, fecFix (ackRow k 1) = (ackRow k 1, false) := by intro k; cases k <;> decide_cbv
theorem ack_row2 : ∀ k, fecFix (ackRow k 2) = (ackRow k 2, false) := by intro k; cases k <;> decide_cbv
theorem ack_put : ∀ k, ∀ i < 3, ((fecPos i).zip (ackRow k i)).foldl (fun l pw => l.set pw.1 pw.2) (ackNums k) = ackNums k := by
  decide +kernel
theorem ack_fix (k : Bool) : flitFix (ackWord k) = ((ackNums k).map (BitVec.ofNat 8), 0) :=
  flit_fix_clean (ack_nums k)
    (fun i h => match i, h with
      | 0, _ => ack_row0 k
      | 1, _ => ack_row1 k
      | 2, _ => ack_row2 k)
    fun i h => ack_put k i h
theorem ack_crc : ∀ k, crc64 (leBytes 4 0 ++ ((ackNums k).map (BitVec.ofNat 8)).take 114) =
    leNat ((((ackNums k).map (BitVec.ofNat 8)).drop 114).take 8) := by intro k; cases k <;> decide_cbv
/-- The flit is good, and acknowledges the second of three flits in the replay buffer. -/
theorem test_ack_hyps (k : Bool) :
    let b := (flitFix (ackWord k)).1
    let hdr := leNat (b.take 4)
    let l : Link := { Link.none with replay := [(6, 1, 0, []), (7, 1, 0, []), (8, 1, 0, [])] }
    crc64 (leBytes 4 0 ++ b.take 114) = leNat ((b.drop 114).take 8) ∧ bitsN hdr 3 3 = 0 ∧ hdr.testBit 18 = true ∧ hdr.testBit 17 = k ∧
    bitsN hdr 19 12 = 7 ∧ l.replay = [(6, 1, 0, [])] ++ (7, 1, 0, []) :: [(8, 1, 0, [])] ∧ l.act = none ∧ l.rxb = [] ∧ l.txq = [] ∧
    l.owed = [] ∧ l.nak = false ∧ l.watch = false ∧ l.wrep = [] ∧ 0 < (lk 4 2 id).dev.f (PORT.TMR.NREPLAY 12) := by
  rw [ack_fix]; exact ⟨ack_crc k, by revert k; decide +kernel⟩
/-- Credits owed on VC 1, and the lock of the two ADD lanes: before its last lane and with it. -/
theorem test_credit_hyps :
    (let s := lk 4 2 (ln { Link.none with owed := [(1, 3)] })
     (s.dev.lnk 12).owed = (1, 3) :: [] ∧ s.dev.linkRuns 12 = true ∧ (s.dev.lnk 12).txq = [] ∧ (s.dev.lnk 12).replay.length < 512) ∧
    ((lk 4 2 id).dev.lnk 12).txq = [] ∧ (lk 4 2 id).dev.coh.again = [] := by decide +kernel
theorem test_lock_hyps :
    let a : LinkAct := ⟨1, 5, 3, true, true, false, false, none⟩
    let l : Link := { Link.none with act := some a, adds := 1 }
    l.locked a = false ∧ ({ l with adds := setBitN l.adds 1 } : Link).locked a = true ∧ a.own = true ∧ a.lack = true ∧ a.sent = false ∧
    (let b : LinkAct := { a with own := false, lack := false }; ({ l with adds := 3 } : Link).locked b = true) ∧ l.due = false := by
  decide

/-! ## The pool, a step of a resilver -/

/-- Stack 1's extent 320 is to be copied from its pair's good copy, extent 288; before the walk has come there, and at it. -/
def resil (cur : Nat) : State := ext 0 fun d =>
  let d := ((((d.setF HBM.MIRTBL.EN 1).setF HBM.MIRTBL.BASE 0x20001).setMir 288 (mirWord 320 0 3 false)).setMir 320 (mirWord 288 1 3 false)).setF (HBM.STAT.RSTATE 1) 2
  { d with pool := { d.pool with resCur := [(65, cur)] } }
theorem test_resil_step_hyps :
    (let d := (resil 0).dev
     d.rstate 65 = 2 ∧ d.pool.await = false ∧ d.resHeld 65 = false ∧ d.resNextAt 65 = 0 ∧ d.resLine 65 = some (320 * 2 ^ 24) ∧
     d.lnKind (320 * 2 ^ 24) = .hbm ∧
     (let src := lineIn (320 * 2 ^ 24) (mirPartner (d.mirEntry (extOf (320 * 2 ^ 24))))
      src = 288 * 2 ^ 24 ∧ d.txn src = none ∧ d.pcPaused src = false ∧ d.pcPaused (320 * 2 ^ 24) = false ∧ (d.msc src).pin = [] ∧
      (d.readOne src 0).1.isSome = true ∧ (d.readOne src 0).2.pool.mem = d.pool.mem)) ∧
    (let e := ext 0 fun d => ((((d.setF HBM.MIRTBL.EN 1).setF HBM.MIRTBL.BASE 0x20001).setMir 289 (mirWord 321 0 3 false)).setMir 321 (mirWord 289 1 3 false)).setF (HBM.STAT.RSTATE 1) 2
     Tbl.get 0 e.dev.pool.resCur 65 < e.dev.resNextAt 65 ∧ e.dev.resHeld 65 = false) ∧
    (let e := (up (put (HBM.STAT.RSTATE 3) 2)).dev; ¬e.resNextAt 67 ≤ Tbl.get 0 e.pool.resCur 67) ∧
    (let e := (up fun d => { put (HBM.STAT.RSTATE 3) 2 d with pool := { d.pool with resCur := [(67, 33 * 2 ^ 24)] } }).dev
     e.rstate 67 = 2 ∧ e.resNextAt 67 ≤ Tbl.get 0 e.pool.resCur 67 ∧ e.resLine 67 = none) := by decide +kernel

/-! ## What the queue manager selects and moves -/

theorem test_select_hyps :
    let d := (qm id).dev
    d.selGroup 4 = some 3 ∧ d.selClass 3 = some 2 ∧ d.selQueue 2 = some 9 ∧ d.readyHead 9 = some pkt ∧
    (let r := Dev.tryOwn ({ d with qm := { d.qm with egw := d.qm.egw ++ [⟨4, 3, 2, 9, d.descriptor 9 pkt⟩] } } : Dev) fun d =>
      d.sliceWrite (.unit (16 + 4)) 0 (d.oSlice 4) (d.qf tOUTPUT 4 1 0 48 + (d.qring (32768 + 4)).tail % 2 ^ d.egLog 4 * 32) qmAgent (d.descriptor 9 pkt)
     r.1 = some true) := by decide +kernel
theorem test_run_hyps :
    let d := (qm id).dev
    d.coh.own = [] ∧ d.runStill 100 2 = true ∧ d.fb (SLICE.DLOG_BASE.EN 5) = false ∧
      (∀ ln ∈ cellLines 100 2, d.partnerOf (d.opbLn ln) = none) ∧ (d.qm.tab.map (·.1)).Nodup ∧
    (∀ i < 4, d.still (d.opbLn (cellLn pkt.cell + i)) = true ∧ d.sfe (d.opbLn (cellLn pkt.cell + i)) = SfE.empty ∧
      d.partnerOf (d.opbLn (cellLn pkt.cell + i)) = none ∧
      (let r := (d.homeRead (d.opbLn (cellLn pkt.cell + i)) 0).1; r.data = d.line (d.opbLn (cellLn pkt.cell + i)) ∧ r.psn = false ∧ r.why = 0 ∧ r.fail = 0)) ∧
    d.f HBM.PART.F + d.f HBM.PART.M + d.f HBM.PART.Q ≤ 64 := by decide +kernel
/-- A packet that lies in spill slot 3, and the lowest free run that takes it back. -/
def spilled : State := qm fun d => { put HBM.PART.Q 1 d with qm := { d.qm with q := [(9, [{ pkt with sp := [3] }])] } }
theorem test_refill_hyps :
    spilled.dev.refillPkt 9 = some { pkt with sp := [3] } ∧ (spilled.dev.allocRun 1).isSome = true ∧ spilled.dev.coh.own = [] ∧
    (∀ e ∈ spilled.dev.sor.strand, (e.2.wait == .hold 3) = false) ∧ spilled.dev.fb (SLICE.DLOG_BASE.EN (spilled.dev.qSlice 9)) = false := by
  decide +kernel
theorem test_table_busy_hyps :
    (qm id).dev.qmBad 2 9 0 0 0 = true ∧ (qm id).dev.qmBad 2 9 (w64 (5 * 2 + 3 * 2 ^ 14 + 2 ^ 29)) 0 0 = false ∧
      (qm id).dev.qmBusy 2 9 (w64 (5 * 2 + 3 * 2 ^ 14 + 2 ^ 29)) 0 = true ∧ (5 < 6 ∧ qmSize 2 ≤ 131072) := by decide +kernel

/-! ## Queues of work, slots, windows -/

/-- The manager's queue: an entry that is taken, one that stops the queue, and one with no strand for it. -/
theorem test_sq_turn_hyps :
    let read := fun (s : State) => ({ s.dev with coh := { s.dev.coh with need := none } } : Dev).sqRead mgrN 0 (sorusUnit 0)
    (mgrEntry 1).dev.sqReady mgrN 0 = true ∧ (read (mgrEntry 1)).2.coh.need = none ∧
    (∀ bs ∈ (read (mgrEntry 1)).1, (read (mgrEntry 1)).2.sqCheck mgrN (leNat bs) = 0 ∧ bitsN (leNat bs) 9 1 = 0) ∧ (read (mgrEntry 1)).1.isSome = true ∧
    (read (mgrEntry 1)).2.sqStrand mgrN 0 0 = true ∧ (read (mgrEntry 1)).2.sqStrand mgrN 0 37 = false ∧
    (∀ bs ∈ (read (mgrEntry 0)).1, (read (mgrEntry 0)).2.sqCheck mgrN (leNat bs) ≠ 0) := by decide +kernel
theorem test_slot_seq_hyps :
    (slot 3 2 fun d => (put (SLOT.STAT.PRSNT 23) 1 d)).dev.f (SLOT.CTL.MODE 23) = 2 ∧
    (let d := (slot 3 2 fun d => (put (SLOT.STAT.PRSNT 23) 1 d)).dev
     d.fb (SLOT.STAT.PRSNT 23) = true ∧ d.f (SLOT.VTH.UV 23) * 50 < 12000 ∧ 12000 < d.f (SLOT.VTH.OV 23) * 50 ∧ d.slotOn 23 = true) ∧
    (slot 0 0 (put (SLOT.STAT.LATCH 23) 1)).dev.fb (SLOT.STAT.LATCH 23) = true ∧ (slot 1 2 id).dev.slotSt 23 = 1 := by decide +kernel
/-- R325: SEQ written to a driven channel is followed from the next sample on. -/
theorem test_slot_seq_later :
    ∃ u, exec (.slotModeSeq 23 7) (slot 4 1 id) = .next u ∧ u.dev.slotSt 23 = 4 ∧ u.dev.f (SLOT.CTL.MODE 23) = 2 ∧ u.dev.slotSeq 23 = false :=
  ⟨_, rfl, by decide +kernel⟩
/-- R276: a window takes its fields with its command, and a BUSY one keeps them. -/
theorem test_window_cfg :
    (∃ u, exec (.windowCommand 7 4 1 7) (port 1 fun d => (win 0 d).setF (SLICE.WIN.HOLD 5 1) 2) = .next u ∧ (u.dev.win 5 1).state = 1 ∧
      u.dev.winF 5 1 (SLICE.WIN.HOLD 5 1) = 2 ∧ u.dev.winF 5 1 (SLICE.WIN.EN 5 1) = 1 ∧
      (u.dev.setF (SLICE.WIN.HOLD 5 1) 0).winF 5 1 (SLICE.WIN.HOLD 5 1) = 2) := ⟨_, rfl, by decide +kernel⟩
/-- Commands through a frame: a slice that the queue manager does not know, one that it knows, and the rings and outputs of frame 4. -/
theorem test_frame_queue_hyps :
    let s := port 1 (tabs [(tSLICE, 5, 0, 1), (tFRING, 47, 0, w64 (1 + 4 * 2)), (tOUTPUT, 9, 0, w64 (1 + 5 * 2 + 3 * 2 ^ 13))])
    let c : Dev := { s.dev with qm := { s.dev.qm with buf := Tbl.put (0, 0) s.dev.qm.buf (5 * 128 + 63) (0, 0), todo := [] } }
    (port 1 id).dev.qEn tSLICE 5 = false ∧ c.qEn tSLICE 5 = true ∧ s.dev.f (SLICE.STATE.STATE 5) ≠ 2 ∧ s.dev.f (SLICE.STATE.STATE 5) ≠ 3 ∧
    (∀ st ∈ [2, 3], (port 1 (put (SLICE.STATE.STATE 5) st)).dev.f (SLICE.STATE.STATE 5) = st) ∧ s.dev.qm.todo = [] ∧
    (({ c with coh := { c.coh with need := none } } : Dev).enqueue (some 5) 0).2.coh.need = none ∧
    (({ c with coh := { c.coh with need := none } } : Dev).release (some 5) 0).2.coh.need = none ∧
    s.dev.qEn tFRING 47 = true ∧ s.dev.qEn tFRING 46 = false ∧ (s.dev.qring 47).paused = false ∧
    (s.dev.outputsOf 5).find? (fun o => s.dev.qf tOUTPUT o 0 13 5 == 3) = some 9 ∧ (∀ o ∈ s.dev.outputsOf 5, s.dev.qf tOUTPUT o 0 13 5 ≠ 31) := by
  decide +kernel

/-! ## Walks of hosts, and registers -/

/-- A host's request whose walk waits for device 1's home, and a port with no such request. -/
theorem test_walk_hyps :
    let s := port 1 fun d => { (d.setReg (SLICE.XLAT_ROOT.V 5) (w64 (2 ^ 49 + 1))) with bind := { d.bind with tlb := [] } }
    let r : CxlReq := ⟨9, 4, 64, .s, 0, 0⟩
    let d : Dev := { s.dev with coh := { s.dev.coh with need := none } }
    s.dev.host.walks = [] ∧ (∀ q ∈ [HostReq.memRd 7 r, .memRdData 7 r, .memWr 7 r, .memWrPtl 7 r, .memClnEvct 7 r], (d.memTake q).coh.need.isSome = true) ∧
    (port 1 id).dev.paused 7 = false ∧ (port 1 id).dev.cxlPort 7 = true := by decide +kernel
/-- A register that only its fields' rule writes, and one of the slot die, powered. -/
theorem test_register_hyps :
    ((regAt (PORT.TMR.NREPLAY 12).addr).isSome = true ∧ (∀ x ∈ regAt (PORT.TMR.NREPLAY 12).addr, x.1.base ∉ [0xB09000, 0xBC0000, 0x1000038, 0x900038, 0x900028, 0x900030, 0x905000, 0x907000]) ∧
      inSlotBlock (PORT.TMR.NREPLAY 12).addr = false) ∧
    (inSlotBlock (SLOT.CTL.MODE 0).addr = true ∧ (up id).dev.slotUp = true) ∧ (up id).dev.safe = false ∧
    (∀ x ∈ regAt (PORT.TMR.NREPLAY 12).addr, Dev.computed Fuse.blank (up id).dev x.1.base x.2.1 x.2.2 = (0, 0)) := by decide +kernel

/-! ## Messages that the catalogue takes -/

/-- A request on a path to the endpoint `dst` of this device. -/
def emp (path : EmpPath) (dst : BitVec 6) (pl : List Byte) : Emp :=
  { path := path, src := match path with | .oob => 24 | .fm => 16 | .fe => 8 | .dr => 0, dst := dst, payload := pl }
def bytes0 (n : Nat) : List Byte := List.replicate n 0
def fitting : List (EmpPath × Nat × Nat × BitVec 6 × List Byte) := [(.oob, eOOB, 0x01, 0, []), (.oob, eOOB, 0x02, 8, [0, 0, 0, 1, 0, 0, 0, 0, 1]),
  (.oob, eOOB, 0x03, 0, [1]), (.oob, eOOB, 0x04, 0, [7]), (.oob, eOOB, 0x05, 8, [0, 1, 0]), (.oob, eOOB, 0x06, 0, [1]),
  (.oob, eOOB, 0x07, 0, []), (.oob, eOOB, 0x09, 0, [0]), (.oob, eOOB, 0x0A, 0, bytes0 5 ++ [1]), (.oob, eOOB, 0x0B, 0, bytes0 5),
  (.oob, eOOB, 0x10, 0, bytes0 4), (.oob, eOOB, 0x11, 0, bytes0 4), (.oob, eOOB, 0x22, 0, [0, 0, 1]), (.oob, eOOB, 0x23, 0, []),
  (.oob, eOOB, 0x24, 0, bytes0 195), (.oob, eOOB, 0x25, 0, []), (.oob, eOOB, 0x26, 8, bytes0 17), (.oob, eOOB, 0x40, 16, []),
  (.fm, eFM, 0x20, 0, [8, 0x80] ++ bytes0 48), (.fm, eFM, 0x40, 24, []), (.fm, eFM, 0x41, 17, []), (.fe, eFE, 0x34, 0, bytes0 4),
  (.fe, eFE, 0x37, 0, bytes0 9), (.fe, eFE, 0x20, 0, [3, 6] ++ bytes0 48), (.fe, eFE, 0x21, 0, bytes0 145), (.dr, eDR, 0x30, 8, bytes0 10),
  (.dr, eDR, 0x31, 8, bytes0 16), (.dr, eDR, 0x32, 8, bytes0 5), (.dr, eDR, 0x33, 8, bytes0 86), (.dr, eDR, 0x35, 8, bytes0 1),
  (.dr, eDR, 0x36, 8, bytes0 48), (.dr, eDR, 0x37, 8, bytes0 9)]
/-- R370's catalogue: each is a request that its receiver takes. -/
theorem test_emp_fits :
    ∀ r ∈ fitting, let m := emp r.1 r.2.2.2.1 r.2.2.2.2
      ((up id).heard m).1 = r.2.1 ∧ ((up id).heard m).2.2.pwr.pwrok = true ∧ empPlain m ∧
      (empOps.any fun o => o.op == r.2.2.1 && ((up id).heard m).2.2.mayAsk r.2.1 o (empHdr m r.2.2.1) && decide (o.lo ≤ m.payload.length) &&
        decide (m.payload.length ≤ o.hi)) = true := by unfold empPlain; decide +kernel
theorem test_emp_effects :
    let d := ((up id).heard (emp .oob 0 [])).2.2
    (cspReadable (SLOT.STAT.STATE 0).addr 1 = true ∧ cspMapped 0xFFFFFFFFF8 = false ∧ d.fdUp = true ∧ (empHdr (emp .oob 0 [1]) 3).f 0 1 = 1) ∧
    (let s := dk (fun k => { k with fe := [empWire (emp .fe 0 ([3, 6] ++ bytes0 48)) 0x20] }) (up id)
     s.dev.drk.fe = [empWire (emp .fe 0 ([3, 6] ++ bytes0 48)) 0x20]) ∧
    d.ckptDue (empHdr (emp .fe 0 (bytes0 4)) 0x34) = false ∧ (resil (2 ^ 21)).dev.ckptDue (empHdr (emp .fe 0 [1, 1, 2, 0]) 0x34) = true ∧
    (lk 4 2 (put (PORT.STAT.REMDEV 12) 1)).dev.peerLinks 1 = [12] ∧ (up id).dev.peerLinks 1 = [] ∧ (port 1 id).dev.doePort 7 = true ∧
    (lk 3 2 id).dev.expPort 12 = true := by decide +kernel
/-- Fabric memory from 0x4000000000, which a region opens to the darkroom. -/
def fab : State := up fun d => ((((put HBM.PART.F 1 d).setReg (FPC.REGION0.WORD0 7) (w64 (0x4000000000 + 23))).setReg (FPC.REGION1.WORD1 7) 0x4000FFF000#64).setReg
  (FPC.REGION2.WORD2 7) 0xFFF0000000F#64)
/-- R371: MEM_READ and MEM_WRITE of a line of fabric memory. -/
theorem test_emp_memory_hyps :
    let d := fab.dev
    ∀ ln ∈ linesOf 0x4000000008 72, d.still ln = true ∧ d.sfe ln = SfE.empty ∧ d.lnKind ln = .fab ∧ d.inTables ln = false ∧
      d.partnerOf ln = none ∧ d.check (ln * 64) .drk .rd drkSlice = .ok ∧ d.check (ln * 64) .drk .wr drkSlice = .ok ∧
      (let r := (d.homeRead ln 0).1; r.data = d.line ln ∧ r.psn = false ∧ r.why = 0 ∧ r.fail = 0) := by decide +kernel
theorem test_emp_write :
    ∃ u, exec (.memWrite (emp .dr 8 ([0, 0, 0, 0, 0x40, 0, 0, 0] ++ [1, 2, 3, 4, 5, 6, 7, 8]))) fab = .next u ∧
      u.dev.bytes 0x4000000000 8 = [1, 2, 3, 4, 5, 6, 7, 8] := ⟨_, rfl, by decide +kernel⟩
/-- What the darkroom sends of its own, and a boot that it commits. -/
theorem test_emp_own_hyps :
    let d := (dk (fun k => { k with xfer := true, fm := bytes0 256 ++ [1, 2, 3, 4] }) (up id)).dev
    let e := (resil 0).dev
    let e : Dev := { e with pool := { e.pool with await := true, ckpt := [(65, 5)] } }
    d.drk.xfer = true ∧ d.commitPayload.length = 86 ∧ (d.putStore 0 0x10000 d.fmCode).drkSends (empHdr (emp .dr 8 d.commitPayload) 0x33) = true ∧
    d.drkSends (empHdr (emp .dr 8 (leBytes 4 0x10000 ++ d.fmCode.take 1)) 0x32) = true ∧
    e.drkSends (empHdr (emp .dr 8 e.ckptPayload) 0x35) = true ∧ (e.pool.ckpt.map (·.1)).Nodup ∧
    e.ckptPayload.length = 1 + 4 * (empHdr (emp .dr 8 e.ckptPayload) 0x35).f 0 1 := by decide +kernel

/-! ## Transports -/

theorem test_transport_hyps :
    ((up id).dev.tapUp = true ∧ (pw (fun p => { p with rails := 0 }) State.reset).dev.tapUp = false) ∧
    ((0xC0 : Byte).getLsbD 7 = true ∧ (0xC0 : Byte).getLsbD 6 = true ∧ ([5, 0x13] : List Byte).headD 0 = 5) ∧
    (dk (fun k => { k with tx := [[1], [2]], i3c := { k.i3c with due := 1 } }) State.reset).dev.drk.tx.drop 1 = [2] :: [] ∧
    ((dk (fun k => { k with fmq := List.replicate 16 [1] }) State.reset).dev.drk.fmq.length = 16) ∧ (8 ≤ getBits (w64 (8 + 2 ^ 13)) 0 13) := by
  decide +kernel
/-- R362: what was queued before the address was lost is still answered at the static address. -/
theorem test_rstdaa_due :
    ∃ u, exec .rstdaa (dk (fun k => { k with tx := [[1], [2]], i3c := { k.i3c with addr := some 9 } }) State.reset) = .next u ∧
      u.dev.drk.i3c.addr = none ∧ u.dev.drk.i3c.due = 2 := ⟨_, rfl, by decide +kernel⟩
theorem test_expander_answer :
    ∃ u, exec (.mctpPacket 13 [1, 0, 9, 0xC0, 5, 0x13]) (lk 3 2 id) = .next u ∧ Tbl.get [] u.dev.drk.answers 12 = [5, 0x13] :=
  ⟨_, rfl, by decide +kernel⟩

/-! ## Boot, release, loads, spares -/

theorem test_boot_hyps :
    (let s := dk (fun k => { k with armed := true }) (up fun d => [0, 1, 2, 3].foldl (fun d k => d.setF (HBM.STAT.READY k) 1) d)
     s.dev.drk.armed = true ∧ s.dev.safe = false ∧ s.dev.pwr.booted = false ∧ (∀ k < 4, s.dev.f (HBM.STAT.READY k) = 1) ∧ s.dev.fdUp = true) ∧
    (let s := dk (fun k => { k with reload := true }) (up fun d => [0, 1, 2].foldl (fun d k => d.setF (HBM.STAT.READY k) 1) d)
     s.dev.drk.reload = true ∧ (∀ j < 4, j ≠ 3 → s.dev.f (HBM.STAT.READY j) = 1) ∧ s.dev.f (HBM.STAT.READY 3) ≠ 1) ∧
    (dk (fun k => { k with fwOk := true }) (pw (fun p => { p with warm := some 1 }) State.reset)).dev.lineFree = true ∧ State.reset.dev.lineFree = false ∧
    ((8 : Fin 11) = 8 ∧ State.reset.dev.pwr.rails.getLsbD 8 = true ∧ railInside State.reset.fuse 8 ((railWindow State.reset.fuse 8).1 - 1) = false) := by
  decide +kernel
/-- R171, R348: an F image whose signature is asked for is measured first; the answers that a load waits for. -/
theorem test_load_answers_hyps :
    let h := image.take 256
    imgPriv h = false ∧ imgSigned h = false ∧
    (let x : LoadOp := { LoadOp.none with hdr := h, wait := 5 }
     let d := ((up id).dev.setLoad 1 x)
     imgDigest (d.loadOp 1).hdr = imgDigest h ∧ (d.loadOp 1).wait = 5) ∧
    policyAsks { Fuse.blank with policy := 3 } true = true := by decide +kernel
/-- R183: a spare that a fencing has taken is not given away. -/
theorem test_spare_free_hyps :
    (up id).dev.spareFree 1 = true ∧ (up (put (SORUS.STAT.SPARE 1) 15)).dev.spareFree 1 = false ∧
    ({ (up id).dev with sor := { (up id).dev.sor with fencing := [(12, 1)] } } : Dev).spareFree 1 = false := by decide +kernel
/-- R409: a second trigger of safelight is only recorded. -/
theorem test_safelight_again :
    ((up (put SYS.SAFE.ACTIVE 1)).dev.enterSafe 3 9).drk.safeLog = [(3, 9, (up id).dev.now)] ∧
    ((up (put SYS.SAFE.ACTIVE 1)).dev.enterSafe 3 9).csr = (up (put SYS.SAFE.ACTIVE 1)).dev.csr := by decide +kernel
/-- R429: at exactly 85 °C the refresh is not doubled, a step above it is. -/
theorem test_double_refresh :
    (∃ u, exec (.hbmDoubleRefresh 2 596) (up id) = .next u ∧ Tbl.get 0 u.dev.pool.refr2 2 = 0) ∧
    ∃ u, exec (.hbmDoubleRefresh 2 597) (up id) = .next u ∧ Tbl.get 0 u.dev.pool.refr2 2 = 1 := ⟨⟨_, rfl, by decide +kernel⟩, ⟨_, rfl, by decide +kernel⟩⟩
/-- R67: a compare-and-swap that fails moves its line from E to M as any atomic does. -/
theorem test_cas_fails :
    ∃ u, exec (.amoCas 37 ⟨6, 2, 7, 1, false, false, false, true, false⟩) (run [(2, 64), (6, 0), (7, 9)] (l1 .e)) = .next u ∧
      (u.dev.l1 (u.dev.physOf 37) (0x1000040 / 64)).st = some .m ∧ (u.dev.str 37).g 6 = 0x0807060504030201 := ⟨_, rfl, by decide +kernel⟩
end Sys2Proof.Tests
end

section
/-! The access codes (R6–R8, R436), as they work on one field and on the fields of a register's map together. -/

namespace Sys2Proof.Machine

/-! ## Words and their fields -/

/-- Words that agree on the bits of a field agree on the field. -/
theorem getBits_congr {n : Nat} {x y : BitVec n} {lo w : Nat}
    (h : ∀ b, lo ≤ b → b < lo + w → x.getLsbD b = y.getLsbD b) : getBits x lo w = getBits y lo w := by
  apply Nat.eq_of_testBit_eq
  intro i
  rw [testBit_getBits, testBit_getBits]
  by_cases hi : i < w
  · rw [h (lo + i) (by omega) (by omega)]
  · simp [hi]

/-! ## One field -/

/-- The value is one that the map lists as legal for the field (R7). -/
def FieldDesc.Takes (x : FieldDesc) (n : Nat) : Prop :=
  match x.legal with
  | none => True
  | some (lo, hi) => lo ≤ n ∧ n ≤ hi

/-- Two fields share no bit. -/
def FieldDesc.Apart (x y : FieldDesc) : Prop := x.lo + x.w ≤ y.lo ∨ y.lo + y.w ≤ x.lo

section OneField

variable {x : FieldDesc} (old v : Word)

/-- Whatever its access code, a field's write puts one and the same value into every word, or leaves every word as it was. -/
theorem fieldWrite_cases (x : FieldDesc) :
    ∃ (c : Bool) (n : Nat), ∀ old, fieldWrite old v x = if c then putBits old x.lo x.w n else old := by
  obtain ⟨lo, w, acc, keep, legal⟩ := x
  cases acc with
  | rw | rwl | w1c | clr | set => exact ⟨_, _, fun _ => rfl⟩
  | ro | wo => exact ⟨false, 0, fun _ => rfl⟩

/-- A field that software writes is replaced by a legal value, and stays as it is where the value is reserved (R6, R7). -/
theorem fieldWrite_of_rw (ha : x.acc = .rw ∨ x.acc = .rwl) :
    (x.Takes (getBits v x.lo x.w) → fieldWrite old v x = putBits old x.lo x.w (getBits v x.lo x.w)) ∧
    (¬ x.Takes (getBits v x.lo x.w) → fieldWrite old v x = old) := by
  unfold FieldDesc.Takes
  rcases hl : x.legal with _ | ⟨a, b⟩
  · rcases ha with ha | ha <;> simp [fieldWrite, ha, hl]
  · rcases ha with ha | ha <;> simp +contextual [fieldWrite, ha, hl]

theorem getBits_fieldWrite_rw (hx : x.lo + x.w ≤ 64) (ha : x.acc = .rw ∨ x.acc = .rwl)
    (hl : x.Takes (getBits v x.lo x.w)) : getBits (fieldWrite old v x) x.lo x.w = getBits v x.lo x.w := by
  rw [(fieldWrite_of_rw old v ha).1 hl, getBits_putBits_same _ _ _ _ hx, Nat.mod_eq_of_lt (getBits_lt _ _ _)]

/-- A field under W1C becomes 0 where 1 is written. -/
theorem getBits_fieldWrite_w1c (hx : x.lo + x.w ≤ 64) (ha : x.acc = .w1c) :
    getBits (fieldWrite old v x) x.lo x.w = if getBits v x.lo x.w = 1 then 0 else getBits old x.lo x.w := by
  simp only [fieldWrite, ha, beq_iff_eq]
  split
  · rw [getBits_putBits_same _ _ _ _ hx, Nat.zero_mod]
  · rfl

/-- A field that is written 0 to clear becomes 0 where 0 is written (R436). -/
theorem getBits_fieldWrite_clr (hx : x.lo + x.w ≤ 64) (ha : x.acc = .clr) :
    getBits (fieldWrite old v x) x.lo x.w = if getBits v x.lo x.w = 0 then 0 else getBits old x.lo x.w := by
  simp only [fieldWrite, ha, beq_iff_eq]
  split
  · rw [getBits_putBits_same _ _ _ _ hx, Nat.zero_mod]
  · rfl

/-- A lock becomes 1 where 1 is written, and is never cleared. -/
theorem getBits_fieldWrite_set (hx : x.lo + x.w ≤ 64) (ha : x.acc = .set) (hw : x.w = 1) :
    getBits (fieldWrite old v x) x.lo x.w = if getBits v x.lo x.w = 1 then 1 else getBits old x.lo x.w := by
  simp only [fieldWrite, ha, beq_iff_eq]
  split
  · rw [getBits_putBits_same _ _ _ _ hx, hw, Nat.mod_eq_of_lt (by decide)]
  · rfl

/-- A field that software cannot set, or that holds nothing, keeps its value. -/
theorem fieldWrite_of_ro (ha : x.acc = .ro ∨ x.acc = .wo) : fieldWrite old v x = old := by
  rcases ha with ha | ha <;> simp only [fieldWrite, ha]

/-- Every bit outside a field keeps its value. -/
theorem getLsbD_fieldWrite_outside (hx : x.lo + x.w ≤ 64) {b : Nat} (hb : b < x.lo ∨ x.lo + x.w ≤ b) :
    (fieldWrite old v x).getLsbD b = old.getLsbD b := by
  obtain ⟨c, n, h⟩ := fieldWrite_cases v x
  rw [h]
  split
  · rw [getLsbD_putBits _ _ _ _ _ hx, if_neg (by omega)]
  · rfl

/-- What a field becomes goes by what it held, whatever the rest of the word. -/
theorem getBits_fieldWrite_congr {old old' : Word} (hx : x.lo + x.w ≤ 64)
    (h : getBits old x.lo x.w = getBits old' x.lo x.w) :
    getBits (fieldWrite old v x) x.lo x.w = getBits (fieldWrite old' v x) x.lo x.w := by
  obtain ⟨c, n, hk⟩ := fieldWrite_cases v x
  rw [hk, hk]
  split
  · rw [getBits_putBits_same _ _ _ _ hx, getBits_putBits_same _ _ _ _ hx]
  · exact h

end OneField

/-! ## The fields of a map together -/

/-- The fields of a map lie within its register, and no two of them share a bit. -/
def RegDesc.Laid (r : RegDesc) : Prop := (∀ x ∈ r.flds, x.lo + x.w ≤ 64) ∧ r.flds.Pairwise FieldDesc.Apart

/-- Bits outside every field keep their value through the writes of all fields. -/
theorem getLsbD_foldl_fieldWrite_outside (v : Word) {l : List FieldDesc} (hl : ∀ x ∈ l, x.lo + x.w ≤ 64) {b : Nat}
    (hb : ∀ x ∈ l, b < x.lo ∨ x.lo + x.w ≤ b) (old : Word) :
    (l.foldl (fun u x => fieldWrite u v x) old).getLsbD b = old.getLsbD b := by
  induction l generalizing old with
  | nil => rfl
  | cons y l ih =>
    rw [List.forall_mem_cons] at hl hb
    rw [List.foldl_cons, ih hl.2 hb.2, getLsbD_fieldWrite_outside _ _ hl.1 hb.1]

/-- A field apart from all those written keeps its value. -/
theorem getBits_foldl_fieldWrite_apart (v : Word) {l : List FieldDesc} (hl : ∀ y ∈ l, y.lo + y.w ≤ 64) {x : FieldDesc}
    (hx : ∀ y ∈ l, x.Apart y) (old : Word) :
    getBits (l.foldl (fun u y => fieldWrite u v y) old) x.lo x.w = getBits old x.lo x.w := by
  refine getBits_congr fun b h₁ h₂ => getLsbD_foldl_fieldWrite_outside v hl (fun y hy => ?_) old
  have hxy := hx y hy
  unfold FieldDesc.Apart at hxy
  omega

/-- Of the fields of a map written together, each becomes what its own write makes of it. -/
theorem getBits_foldl_fieldWrite (v : Word) {l : List FieldDesc} (hl : ∀ y ∈ l, y.lo + y.w ≤ 64)
    (hd : l.Pairwise FieldDesc.Apart) {x : FieldDesc} (hx : x ∈ l) (old : Word) :
    getBits (l.foldl (fun u y => fieldWrite u v y) old) x.lo x.w = getBits (fieldWrite old v x) x.lo x.w := by
  induction l generalizing old with
  | nil => cases hx
  | cons y l ih =>
    rw [List.forall_mem_cons] at hl
    rw [List.pairwise_cons] at hd
    rw [List.foldl_cons]
    rcases List.mem_cons.1 hx with rfl | hx
    · exact getBits_foldl_fieldWrite_apart v hl.2 hd.1 _
    · rw [ih hl.2 hd.2 hx]
      refine getBits_fieldWrite_congr v (hl.2 x hx) (getBits_congr fun b h₁ h₂ => getLsbD_fieldWrite_outside _ _ hl.1 ?_)
      have hyx := hd.1 x hx
      unfold FieldDesc.Apart at hyx
      omega

/-! ## The bits that a read gives -/

/-- The bits that a field gives to a read: none where it is write only (R6). -/
def FieldDesc.readBits (x : FieldDesc) : Nat := if x.acc == .wo then 0 else (2 ^ x.w - 1) * 2 ^ x.lo

/-- The field gives bit `b` to a read. -/
def FieldDesc.gives (x : FieldDesc) (b : Nat) : Bool := x.acc != .wo && x.lo ≤ b && b < x.lo + x.w

theorem FieldDesc.testBit_readBits (x : FieldDesc) (b : Nat) : x.readBits.testBit b = x.gives b := by
  unfold FieldDesc.readBits FieldDesc.gives
  by_cases ha : x.acc = .wo
  · simp [ha]
  · rw [if_neg (by simp [ha]), Nat.testBit_mul_two_pow, Nat.testBit_two_pow_sub_one, Bool.eq_iff_iff]
    simp only [Bool.and_eq_true, decide_eq_true_eq, bne_iff_ne, ne_eq, ha, not_false_eq_true, true_and]
    omega

/-- Fields apart from each other give no bit twice. -/
theorem FieldDesc.Apart.not_gives {x y : FieldDesc} (h : x.Apart y) {b : Nat} (hx : x.gives b = true) : y.gives b = false := by
  simp only [FieldDesc.gives, FieldDesc.Apart, Bool.and_eq_true, decide_eq_true_eq, ← Bool.not_eq_true] at h hx ⊢
  omega

/-- The sum of the bits that fields give is their union, since the fields share none. -/
theorem getLsbD_sum_readBits {l : List FieldDesc} (hd : l.Pairwise FieldDesc.Apart) {b : Nat} (hb : b < 64) :
    (w64 (l.map FieldDesc.readBits).sum).getLsbD b = l.any fun x => x.gives b := by
  induction l generalizing b with
  | nil => simp [w64]
  | cons x l ih =>
    rw [List.pairwise_cons] at hd
    have bit_x : ∀ c, c < 64 → (w64 x.readBits).getLsbD c = x.gives c := fun c hc => by
      rw [w64, BitVec.getLsbD_ofNat, x.testBit_readBits, decide_eq_true hc, Bool.true_and]
    have none_twice : w64 x.readBits &&& w64 (l.map FieldDesc.readBits).sum = 0#64 := by
      apply BitVec.eq_of_getLsbD_eq
      intro c hc
      rw [BitVec.getLsbD_and, bit_x c hc, ih hd.2 hc]
      cases hx : x.gives c
      · simp
      · simp only [Bool.true_and, BitVec.getLsbD_zero, List.any_eq_false]
        intro y hy
        simp [(hd.1 y hy).not_gives hx]
    have sum_eq : w64 ((x :: l).map FieldDesc.readBits).sum = w64 x.readBits ||| w64 (l.map FieldDesc.readBits).sum := by
      rw [← BitVec.add_eq_or_of_and_eq_zero _ _ none_twice]
      simp [w64, BitVec.ofNat_add]
    rw [sum_eq, BitVec.getLsbD_or, bit_x b hb, ih hd.2 hb, List.any_cons]

/-- The mask of a read has the bits of the map's fields but those write only. -/
theorem RegDesc.Laid.getLsbD_readMask {r : RegDesc} (h : r.Laid) {b : Nat} (hb : b < 64) :
    (w64 r.readMask).getLsbD b = r.flds.any fun x => x.gives b := getLsbD_sum_readBits h.2 hb

end Sys2Proof.Machine

open Sys2Proof.Machine in
/-- Settles O14: the access codes one by one, then read after write from the laws of `Dev.setF`. -/
theorem fieldsFollowTheirAccessCode : Obligations.FieldsFollowTheirAccessCode := by
  refine ⟨fun old v x hx => ⟨?outside, ?rw, ?w1c, ?clr, ?set, ?ro⟩, fun d q r v hr => ⟨?same, rfl, ?reg, ?field⟩⟩
  case outside => exact fun i _ hi => getLsbD_fieldWrite_outside old v hx hi
  case rw => exact fun ha => ⟨getBits_fieldWrite_rw old v hx ha, (fieldWrite_of_rw old v ha).2⟩
  case w1c => exact fun ha _ => getBits_fieldWrite_w1c old v hx ha
  case clr => exact getBits_fieldWrite_clr old v hx
  case set => exact getBits_fieldWrite_set old v hx
  case ro => exact fieldWrite_of_ro old v
  case same => exact d.f_setF_same r v hr
  case reg => exact d.f_setF_reg r q v
  case field => exact d.f_setF_field r q v hr
end

section
/-! The control space as its requesters see it: what CSPRD and CSPWR come to (R20, R251), and what a register without a rule of
its own does with a write and a read (R6, R19). -/

namespace Sys2Proof.Machine

/-! ## The register maps -/

/-- The register maps, block by block; an address outside every block has none. -/
def blockMaps : List (List RegDesc) := [mapDRK, mapSYS, mapPORT, mapHOME, mapSORUS, mapHBM, mapQM, mapFPC, mapEVT, mapCTR, mapSLOT,
  mapBIND, mapSLICE, []]

theorem ite_mem_of_mem {α : Type} {c : Prop} [Decidable c] {x y : α} {l : List α} (hx : x ∈ l) (hy : y ∈ l) :
    (if c then x else y) ∈ l := by
  split <;> assumption

theorem mapsAt_mem_blockMaps (a : Nat) : mapsAt a ∈ blockMaps := by
  unfold mapsAt
  iterate 16 refine ite_mem_of_mem (by simp only [blockMaps, List.mem_cons, true_or, or_true]) ?_
  simp only [blockMaps, List.mem_cons, true_or, or_true]

theorem mem_mapsAt_of_regAt {a n i : Nat} {r : RegDesc} (h : regAt a = some (r, n, i)) : r ∈ mapsAt a := by
  obtain ⟨q, hq, hi⟩ := List.exists_of_findSome?_eq_some h
  obtain ⟨_, -, hx⟩ := Option.map_eq_some_iff.1 hi
  cases hx
  exact hq

/-- The fields of every map lie within their register and apart. -/
theorem blockMaps_laid : ∀ l ∈ blockMaps, ∀ r ∈ l, r.Laid := by
  unfold RegDesc.Laid FieldDesc.Apart
  decide +kernel

theorem laid_of_regAt {a n i : Nat} {r : RegDesc} (h : regAt a = some (r, n, i)) : r.Laid :=
  blockMaps_laid _ (mapsAt_mem_blockMaps a) r (mem_mapsAt_of_regAt h)

/-! ## A register written by its map -/

section MapWrite

variable (d : Dev) (r : RegDesc) (i a : Nat) (v : Word)

theorem Dev.mapWrite_frame : d.mapWrite r i a v = { d with csr := (d.mapWrite r i a v).csr } := rfl

theorem Dev.word_mapWrite : (d.mapWrite r i a v).word a (r.coldAt i) =
    r.flds.foldl (fun u x => fieldWrite u v x) (d.word a (r.coldAt i)) := Tbl.get_put_same _ _ _ _

theorem Dev.mapWrite_csr_other {b : Nat} (h : b ≠ a) : Tbl.get 0 (d.mapWrite r i a v).csr b = Tbl.get 0 d.csr b :=
  Tbl.get_put_other _ _ _ _ h

variable {r}

/-- Each field becomes what its access code makes of it. -/
theorem Dev.field_mapWrite (h : r.Laid) {x : FieldDesc} (hx : x ∈ r.flds) :
    getBits ((d.mapWrite r i a v).word a (r.coldAt i)) x.lo x.w =
      getBits (fieldWrite (d.word a (r.coldAt i)) v x) x.lo x.w := by
  rw [Dev.word_mapWrite, getBits_foldl_fieldWrite v h.1 h.2 hx]

/-- Reserved bits keep their value. -/
theorem Dev.reserved_mapWrite (h : r.Laid) {b : Nat} (hb : ∀ x ∈ r.flds, b < x.lo ∨ x.lo + x.w ≤ b) :
    ((d.mapWrite r i a v).word a (r.coldAt i)).getLsbD b = (d.word a (r.coldAt i)).getLsbD b := by
  rw [Dev.word_mapWrite, getLsbD_foldl_fieldWrite_outside v h.1 hb]

end MapWrite

/-! ## Which registers their map writes -/

/-- The bases of the registers that a rule of their own writes. -/
def ruleBases : List Nat := [0xBB1000, 0xBB1008, 0xBB1010, 0x800000, 0x800100, 0x800200, 0xB00008, 0xB00010, 0xB08000, 0xB08008,
  0xB08010, 0xB08020, 0xB09000, 0xBC0000, 0xBC0008, 0xBC0018, 0xBC0020, 0xBC1000, 0x1000038, 0x1000100, 0x1000180, 0x100000,
  0x100200, 0x100030, 0x100020, 0x900038, 0x900028, 0x900030, 0x905000, 0x907000, 0xB40008, 0xB40010, 0xB40018, 0xB40020,
  0xB40040, 0xB90000, 0xBA1000, 0x18000, 0x18008, 0x10200]

section NoRule

variable (fz : Fuse) (d : Dev) {r : RegDesc} (n i a : Nat) (v : Word) (hb : r.base ∉ ruleBases)
include hb

theorem Dev.slotWrite_of_no_rule (hs : d.slotUp = true) : d.slotWrite r n i a v = d.mapWrite r i a v := by
  simp only [ruleBases, List.mem_cons, not_or] at hb
  simp [Dev.slotWrite, hb, hs]

theorem Dev.memWriteReg_of_no_rule : d.memWriteReg r n i a v = d.mapWrite r i a v := by
  simp only [ruleBases, List.mem_cons, not_or] at hb
  simp [Dev.memWriteReg, hb]

theorem Dev.bindWrite_of_no_rule : d.bindWrite r n i a v = d.mapWrite r i a v := by
  simp only [ruleBases, List.mem_cons, not_or] at hb
  simp [Dev.bindWrite, hb]

theorem Dev.portWrite_of_no_rule : d.portWrite r n i a v = d.mapWrite r i a v := by
  simp only [ruleBases, List.mem_cons, not_or] at hb
  simp [Dev.portWrite, hb]

theorem Dev.coreWrite_of_no_rule : Dev.coreWrite fz d r n i a v = d.mapWrite r i a v := by
  simp only [ruleBases, List.mem_cons, not_or] at hb
  simp [Dev.coreWrite, hb]

/-- A register without a rule of its own is written by its map, whatever its block; one of the SLOT block while VAUX is valid
(R329). -/
theorem Dev.cspWrite_of_no_rule (hr : regAt a = some (r, n, i)) (hs : inSlotBlock a = true → d.slotUp = true) :
    Dev.cspWrite fz d a v = d.mapWrite r i a v := by
  simp only [Dev.cspWrite, hr]
  split_ifs with slot mem bind port
  · exact d.slotWrite_of_no_rule n i a v hb (hs (by simpa [inSlotBlock] using slot))
  · exact d.memWriteReg_of_no_rule n i a v hb
  · exact d.bindWrite_of_no_rule n i a v hb
  · exact d.portWrite_of_no_rule n i a v hb
  · exact d.coreWrite_of_no_rule fz n i a v hb

end NoRule

/-- A write where no register is changes nothing. -/
theorem Dev.cspWrite_of_none (fz : Fuse) (d : Dev) {a : Nat} (v : Word) (h : regAt a = none) : Dev.cspWrite fz d a v = d := by
  simp only [Dev.cspWrite, h]

/-! ## Reads -/

/-- A read where no register is gives 0. -/
theorem Dev.cspRead_of_none (fz : Fuse) (d : Dev) {a : Nat} (h : regAt a = none) : Dev.cspRead fz d a = 0 := by
  simp only [Dev.cspRead, h]

/-- A register of which nothing is computed gives what it holds, under the mask of its map. -/
theorem Dev.cspRead_of_held {fz : Fuse} {d : Dev} {a n i : Nat} {r : RegDesc} (hr : regAt a = some (r, n, i))
    (hc : Dev.computed fz d r.base n i = (0, 0)) :
    Dev.cspRead fz d a = d.word a (r.coldAt i) &&& w64 r.readMask := by
  simp only [Dev.cspRead, hr, hc, Nat.and_zero, Nat.sub_zero, Nat.add_zero]
  simp [w64, BitVec.ofNat_and]

/-- Such a read gives each field but those write only, and 0 elsewhere (R6). -/
theorem Dev.getLsbD_cspRead {fz : Fuse} {d : Dev} {a n i : Nat} {r : RegDesc} (hr : regAt a = some (r, n, i))
    (hc : Dev.computed fz d r.base n i = (0, 0)) {b : Nat} (hb : b < 64) :
    (Dev.cspRead fz d a).getLsbD b = ((d.word a (r.coldAt i)).getLsbD b && r.flds.any fun x => x.gives b) := by
  rw [Dev.cspRead_of_held hr hc, BitVec.getLsbD_and, (laid_of_regAt hr).getLsbD_readMask hb]

/-! ## CSPRD and CSPWR (R20, R195, R251) -/

section Access

variable {d : Dev} {t : Nat} {f : FX} (k : Nat → Dev → Dev)

/-- At slice privilege the access faults with PRIV, whatever its fields. -/
theorem Dev.cspAccess_unprivileged (hi : d.issues t = true) (hp : (d.str t).priv = false) (illegal : Bool) :
    d.cspAccess t f illegal k = d.strandFault t cPRIV 0 := by
  simp [Dev.cspAccess, d.issue_eq hi, hp]

variable (hi : d.issues t = true) (hp : (d.str t).priv = true)
include hi hp

/-- At fabric privilege alignment is judged first, then the block, then the strand's own stores (R20). -/
theorem Dev.cspAccess_privileged : d.cspAccess t f false k =
    if (d.gr t f.ra).toNat % 8 ≠ 0 then d.strandFault t cCSPALIGN 0
    else if cspMapped (d.gr t f.ra).toNat = false then d.strandFault t cCSPUNMAPPED 0
    else d.released t (k (d.gr t f.ra).toNat) := by
  rw [Dev.cspAccess, d.issue_priv hi hp]
  simp only [bne_iff_ne, Bool.not_eq_true']

theorem Dev.cspAccess_misaligned (ha : (d.gr t f.ra).toNat % 8 ≠ 0) :
    d.cspAccess t f false k = d.strandFault t cCSPALIGN 0 := by
  rw [Dev.cspAccess_privileged k hi hp, if_pos ha]

theorem Dev.cspAccess_unmapped (ha : (d.gr t f.ra).toNat % 8 = 0) (hm : cspMapped (d.gr t f.ra).toNat = false) :
    d.cspAccess t f false k = d.strandFault t cCSPUNMAPPED 0 := by
  rw [Dev.cspAccess_privileged k hi hp, if_neg (not_not_intro ha), if_pos hm]

theorem Dev.cspAccess_mapped (ha : (d.gr t f.ra).toNat % 8 = 0) (hm : cspMapped (d.gr t f.ra).toNat = true)
    (ho : d.sbOwn t = false) : d.cspAccess t f false k = k (d.gr t f.ra).toNat d := by
  rw [Dev.cspAccess_privileged k hi hp, if_neg (not_not_intro ha), if_neg (by simp [hm])]
  simp [Dev.released, ho]

end Access

/-! ## The commands -/

theorem Dev.when_of_true {d : Dev} {c : Bool} {g : Dev → Dev} (h : c = true) : d.when c g = g d := if_pos h

section Commands

variable (s : State) (t : StrandIx) (f : FX)

/-- CSPRD is a control-space access that gives the value read. -/
theorem exec_csprd_eq : exec (.csprd t f) s = .next (s.after (s.dev.cspAccess t f (f.rb != 0 || f.rc != 0)
    fun a d => d.give t f.rd.toNat (Dev.cspRead s.fuse d a))) := rfl

/-- CSPWR is a control-space access that writes, and moves its strand on where it still runs. -/
theorem exec_cspwr_eq : exec (.cspwr t f) s = .next (s.after (s.dev.cspAccess t f (f.rd != 0 || f.rc != 0)
    fun a d => (Dev.cspWrite s.fuse d a (d.gr t f.rb)).when ((Dev.cspWrite s.fuse d a (d.gr t f.rb)).str t).live
      fun d => d.next t)) := rfl

/-- The write of a register is made while the FD runs outside safelight, at an aligned address. -/
theorem exec_cspRegisterWrite_eq (a v : Word) : exec (.cspRegisterWrite a v) s = .next (s.after
    (s.dev.when (s.dev.cspOn && a.toNat % 8 == 0) fun d => Dev.cspWrite s.fuse d a.toNat v)) := rfl

end Commands
end Sys2Proof.Machine

open Sys2Proof.Machine in
/-- Settles O15: the two instructions by the outcomes of an access, the register write by its conditions, and a register without a
rule of its own by its map. -/
theorem controlSpaceOutcomes : Obligations.ControlSpaceOutcomes := by
  refine ⟨fun s t f hi => ⟨fun hp => ⟨?privRd, ?privWr⟩, fun hp hc => ⟨fun hb => ?read, fun hd => ?write⟩⟩,
    fun s a v hu ha => ⟨fun hs => ?made, fun h => ?ignored⟩,
    fun fz d a n i r hr => ⟨fun v hb hs => ?map, fun hc b hb => Dev.getLsbD_cspRead hr hc hb⟩,
    fun fz d a h => d.cspRead_of_none fz h⟩
  case privRd => beta_reduce; rw [exec_csprd_eq, Dev.cspAccess_unprivileged _ hi hp]
  case privWr => beta_reduce; rw [exec_cspwr_eq, Dev.cspAccess_unprivileged _ hi hp]
  case read =>
    have legal : (f.rb != 0 || f.rc != 0) = false := by simp [hb, hc]
    beta_reduce
    rw [exec_csprd_eq, legal]
    refine ⟨fun ha => ?_, fun ha hm => ?_, fun ha hm ho => ?_⟩
    · rw [Dev.cspAccess_misaligned _ hi hp ha]
    · rw [Dev.cspAccess_unmapped _ hi hp ha hm]
    · rw [Dev.cspAccess_mapped _ hi hp ha hm ho]; rfl
  case write =>
    have legal : (f.rd != 0 || f.rc != 0) = false := by simp [hd, hc]
    beta_reduce
    rw [exec_cspwr_eq, legal]
    refine ⟨fun ha => ?_, fun ha hm => ?_, fun ha hm ho hl => ?_⟩
    · rw [Dev.cspAccess_misaligned _ hi hp ha]
    · rw [Dev.cspAccess_unmapped _ hi hp ha hm]
    · simp only [Dev.cspAccess_mapped _ hi hp ha hm ho, Dev.gr, Dev.when_of_true hl]
  case made =>
    rw [exec_cspRegisterWrite_eq]
    simp [Dev.cspOn, hu, hs, ha]
  case ignored =>
    rw [exec_cspRegisterWrite_eq]
    rcases h with h | h
    · simp [Dev.cspWrite_of_none _ _ _ h, Dev.when]
    · simp [Dev.cspOn, h]
  case map =>
    have hl := laid_of_regAt hr
    simp only [d.cspWrite_of_no_rule fz n i a v hb hr hs]
    exact ⟨d.mapWrite_frame r i a v, fun b h => d.mapWrite_csr_other r i a v h, fun x hx => d.field_mapWrite i a v hl hx,
      fun b _ h => d.reserved_mapWrite i a v hl h⟩
end

section
/-! Steps and fabric time: every command but the one that ends cold reset acts on the device alone (R3, R12), and an idle tick moves
time, the slewing of TIME_PPS and counters, and nothing else (R14, R15). -/

namespace Sys2Proof.Machine

/-! ## Commands -/

/-- Every command acts on the device alone, PWROK_ASSERT excepted. -/
theorem exec_acts (i : Instr) (s : State) : (∃ strap, i = .pwrokAssert strap) ∨ ∃ g, exec i s = s.act g := by
  cases i with
  | pwrokAssert strap => exact .inl ⟨strap, rfl⟩
  | _ => right; delta exec; exact ⟨_, rfl⟩

/-- What a command leaves, by what its meaning makes of the device. -/
theorem State.act_of_eq {s : State} {g : Fuse → Dev → Dev} {d : Dev} (h : g s.fuse s.dev = d) : s.act g = .next (s.after d) :=
  h ▸ State.act_eq s g

theorem step_of_idle {s : State} (h : s.pending = []) : step s = .next { s with dev := s.dev.tick } := by
  simp only [step, h]

theorem step_of_command {s : State} {i : Instr} {rest : List Instr} (h : s.pending = i :: rest) :
    step s = exec i { s with pending := rest } := by
  simp only [step, h]

/-! ## Operations that count, and do nothing else -/

/-- `e` is `d` with other counters. -/
def Dev.Counted (d e : Dev) : Prop := e = { d with ctr := e.ctr }

namespace Dev.Counted

variable {d e u : Dev}

theorem refl (d : Dev) : d.Counted d := rfl

theorem trans (h : d.Counted e) (k : e.Counted u) : d.Counted u := by
  unfold Dev.Counted at *
  rw [k, h]

theorem fold {α : Type} {g : Dev → α → Dev} (h : ∀ d a, Dev.Counted d (g d a)) (l : List α) (d : Dev) : d.Counted (l.foldl g d) := by
  induction l generalizing d with
  | nil => rfl
  | cons a l ih => exact (h d a).trans (ih _)

/-- Cycles are counted in the events of Fronds and in the counters of slices, whichever of them apply. -/
theorem cyclesPass (d : Dev) (s n : Nat) : d.Counted (d.cyclesPass s n) := by
  unfold Dev.cyclesPass
  split
  · rfl
  · refine (fold (fun d e => ?strand) _ d).trans (fold (fun d i => ?frond) _ _)
    case strand =>
      dsimp only
      split <;> split_ifs <;> rfl
    case frond =>
      dsimp only
      split_ifs <;> rfl

theorem sorusTick (d : Dev) (s : Nat) : d.Counted (d.sorusTick s) :=
  trans (e := { d with ctr := { d.ctr with clk := _ } }) rfl (cyclesPass _ _ _)

theorem snapReach (d : Dev) : d.Counted d.snapReach := by
  unfold Dev.snapReach
  split
  · split <;> rfl
  · rfl

end Dev.Counted

/-! ## The tick -/

/-- Time moves by 4 ns, or by 1 ns more or less where the phase is being slewed (R15). -/
theorem Dev.timeStep_eq (d : Dev) : ∃ n k, d.timeStep = { d with time := d.time + n, drk := k } ∧ 3 ≤ n ∧ n ≤ 5 ∧
    (d.drk.pps.slew = 0 → n = 4) := by
  unfold Dev.timeStep
  dsimp only
  split_ifs with none early ahead
  · exact ⟨4, _, rfl, by omega, by omega, fun _ => rfl⟩
  · exact ⟨4, _, rfl, by omega, by omega, fun _ => rfl⟩
  · exact ⟨3, _, rfl, by omega, by omega, fun h => absurd h (by simpa using none)⟩
  · exact ⟨5, _, rfl, by omega, by omega, fun h => absurd h (by simpa using none)⟩

/-- Time stands while PWROK is deasserted. -/
theorem Dev.tick_of_off {d : Dev} (h : d.pwr.pwrok = false) : d.tick = d := by
  simp [Dev.tick, h]

theorem Dev.tick_of_on {d : Dev} (h : d.pwr.pwrok = true) : d.timeStep.Counted d.tick := by
  simp only [Dev.tick, h, Bool.not_true, Bool.false_eq_true, if_false]
  split
  · exact (Dev.Counted.fold Dev.Counted.sorusTick _ _).trans (Dev.Counted.snapReach _)
  · rfl

/-- What a tick changes while PWROK is asserted. -/
theorem Dev.tick_eq {d : Dev} (h : d.pwr.pwrok = true) : ∃ n k c, d.tick = { d with time := d.time + n, drk := k, ctr := c } ∧
    3 ≤ n ∧ n ≤ 5 ∧ (d.drk.pps.slew = 0 → n = 4) := by
  obtain ⟨n, k, hstep, hn⟩ := d.timeStep_eq
  have htick : d.tick = { d.timeStep with ctr := d.tick.ctr } := Dev.tick_of_on h
  rw [hstep] at htick
  exact ⟨n, k, _, htick, hn⟩

theorem Dev.time_le_tick (d : Dev) : d.time ≤ d.tick.time := by
  cases h : d.pwr.pwrok with
  | false => rw [Dev.tick_of_off h]
  | true =>
    obtain ⟨n, k, c, htick, -⟩ := Dev.tick_eq h
    rw [htick]
    exact Nat.le_add_right _ _

end Sys2Proof.Machine

open Sys2Proof.Machine in
/-- Settles O5: a command keeps fuses and time because it acts on the device alone, and an idle tick only adds to time. -/
theorem fuseAndTimeLast : Obligations.FuseAndTimeLast := by
  intro fz t0 s t hfront hs hstep
  cases hq : s.pending with
  | nil =>
    rw [step_of_idle hq] at hstep
    cases hstep
    exact ⟨hs.1, hs.2.trans s.dev.time_le_tick⟩
  | cons i rest =>
    rw [step_of_command hq] at hstep
    rcases exec_acts i { s with pending := rest } with ⟨strap, rfl⟩ | ⟨g, hg⟩
    · exact absurd hq (hfront strap rest)
    · rw [hg] at hstep
      cases hstep
      exact hs

open Sys2Proof.Machine in
/-- Settles O2: what a tick changes, by whether PWROK is asserted. -/
theorem idleStepIsOneTick : Obligations.IdleStepIsOneTick := by
  intro s hq
  refine ⟨_, step_of_idle hq, rfl, hq, fun hoff => ?off, fun hon => ?on⟩
  case off => rw [Dev.tick_of_off hoff]
  case on =>
    obtain ⟨n, k, c, htick, hlo, hhi, hslew⟩ := Dev.tick_eq hon
    simp only [htick, and_true]
    exact ⟨by omega, by omega, fun h => by rw [hslew h]⟩

open Sys2Proof.Machine in
/-- Settles O6. -/
theorem lastingAtReset : Obligations.LastingAtReset := ⟨rfl, le_rfl⟩
end

section
/-! The state after reset (R24, R84, R126, R399). -/

namespace Sys2Proof.Machine

/-- Reset writes one register alone, the manager port's CFG. -/
theorem reset_reg {r : FRef} (h : r.addr ≠ 0x100000) : State.reset.dev.reg r = w64 r.cold :=
  if_neg h.symm

end Sys2Proof.Machine

open Sys2Proof.Machine in
/-- Settles O7: the tables of the reset state are empty, but for the manager port's CFG. -/
theorem resetLeavesEverythingCold : Obligations.ResetLeavesEverythingCold :=
  ⟨rfl, rfl, fun _ h => reset_reg h, by decide, by decide, by decide, by decide, rfl, rfl, fun _ => rfl, rfl⟩
end

section
/-! BAR0 accesses to a frame that carries no slice, and to the parts of a frame where nothing is to be read or written (R23). -/

namespace Sys2Proof.Machine

variable {d : Dev} {p : Fin 96} {off : Nat}

/-! ## Frames from 1 on -/

/-- A read that PCIe allows, of a frame from 1 on that is decoded. -/
theorem Dev.hostBar0Read_decoded (hp : d.hostPort p = true) (hd : d.paused p = false) (hf : 0x8000 ≤ off) {n : Nat}
    (hn : bar0Fits off n = true) : d.hostBar0Read p off n = d.bar0Read p off n := by
  simp [Dev.hostBar0Read, hp, hn, Dev.hold, hd, Nat.not_lt.2 hf]

/-- Such a write. -/
theorem Dev.hostBar0Write_decoded (hp : d.hostPort p = true) (hd : d.paused p = false) (hf : 0x8000 ≤ off) {bs : List Byte}
    (hn : bar0Fits off bs.length = true) : d.hostBar0Write p off bs = d.bar0Write p off bs := by
  simp [Dev.hostBar0Write, hp, hn, Dev.hold, hd, Nat.not_lt.2 hf]

theorem frame_ne_zero (hf : 0x8000 ≤ off) : off / 0x8000 ≠ 0 := by omega

theorem Dev.bar0Read_unbound (hf : 0x8000 ≤ off) (hs : d.frameSlice (d.hostOf p) (off / 0x8000) = none) (n : Nat) :
    d.bar0Read p off n = d.emit (.bar0 p off (ones n)) := by
  simp [Dev.bar0Read, frame_ne_zero hf, hs]

theorem Dev.bar0Read_bound {k : Nat} (hf : 0x8000 ≤ off) (hs : d.frameSlice (d.hostOf p) (off / 0x8000) = some k) (n : Nat) :
    d.bar0Read p off n = d.sliceFrameRead p (off / 0x8000) k off (off % 0x8000) n := by
  simp [Dev.bar0Read, frame_ne_zero hf, hs]

theorem Dev.bar0Write_unbound (hf : 0x8000 ≤ off) (hs : d.frameSlice (d.hostOf p) (off / 0x8000) = none) (bs : List Byte) :
    d.bar0Write p off bs = d.accErr p := by
  simp [Dev.bar0Write, frame_ne_zero hf, hs]

theorem Dev.bar0Write_bound {k : Nat} (hf : 0x8000 ≤ off) (hs : d.frameSlice (d.hostOf p) (off / 0x8000) = some k)
    (bs : List Byte) : d.bar0Write p off bs = d.sliceFrameWrite p (off / 0x8000) k (off % 0x8000) bs := by
  simp [Dev.bar0Write, frame_ne_zero hf, hs]

/-! ## Within a slice's frame -/

variable {f k o : Nat}

/-- The page of a frame's reserved range is none of those with a rule. -/
theorem reserved_page (h : 0x6000 ≤ o) : 6 ≤ o / 0x1000 := by omega

/-- A frame's reserved range reads all ones. -/
theorem Dev.sliceFrameRead_reserved (h : 0x6000 ≤ o) (n : Nat) :
    d.sliceFrameRead p f k off o n = d.emit (.bar0 p off (ones n)) := by
  obtain ⟨j, hj⟩ := Nat.exists_eq_add_of_le' (reserved_page h)
  simp only [Dev.sliceFrameRead, hj]

/-- So does the counter page, while the slice's counters are not open to users. -/
theorem Dev.sliceFrameRead_closed (hlo : 0x1000 ≤ o) (hhi : o < 0x2000) (hc : d.fb (SLICE.CTL.CTR_USER k) = false) (n : Nat) :
    d.sliceFrameRead p f k off o n = d.emit (.bar0 p off (ones n)) := by
  have hpage : o / 0x1000 = 1 := by omega
  simp [Dev.sliceFrameRead, hpage, Dev.ctrRead, hc]

theorem Dev.sliceFrameWrite_reserved (h : 0x6000 ≤ o) (bs : List Byte) : d.sliceFrameWrite p f k o bs = d.accErr p := by
  obtain ⟨j, hj⟩ := Nat.exists_eq_add_of_le' (reserved_page h)
  simp only [Dev.sliceFrameWrite, hj]

/-- No write reaches the words of a counter page. -/
theorem Dev.sliceFrameWrite_counters (hlo : 0x1000 ≤ o) (hhi : o < 0x1800) (bs : List Byte) :
    d.sliceFrameWrite p f k o bs = d.accErr p := by
  have hpage : o / 0x1000 = 1 := by omega
  simp [Dev.sliceFrameWrite, hpage, Nat.not_le.2 hhi]

end Sys2Proof.Machine

open Sys2Proof.Machine in
/-- Settles O16: by whether the frame carries a slice, and by the part of its frame that is reached. -/
theorem unboundFramesReadOnes : Obligations.UnboundFramesReadOnes := by
  intro s p off hp hd hf
  refine ⟨fun n hn hs => ?read, fun bs hn hs => ?write⟩
  case read =>
    have ends : s.dev.hostBar0Read p off.toNat n = s.dev.emit (.bar0 p off.toNat (ones n)) := by
      rw [Dev.hostBar0Read_decoded hp hd hf hn]
      rcases hs with hs | ⟨k, hs, h | ⟨hlo, hhi, hc⟩⟩
      · exact Dev.bar0Read_unbound hf hs n
      · rw [Dev.bar0Read_bound hf hs, Dev.sliceFrameRead_reserved h]
      · rw [Dev.bar0Read_bound hf hs, Dev.sliceFrameRead_closed hlo hhi hc]
    rw [exec_bar0Read]
    exact State.act_of_eq ends
  case write =>
    have ends : s.dev.hostBar0Write p off.toNat bs = s.dev.accErr p := by
      rw [Dev.hostBar0Write_decoded hp hd hf hn]
      rcases hs with hs | ⟨k, hs, h | ⟨hlo, hhi, -⟩⟩
      · exact Dev.bar0Write_unbound hf hs bs
      · rw [Dev.bar0Write_bound hf hs, Dev.sliceFrameWrite_reserved h]
      · rw [Dev.bar0Write_bound hf hs, Dev.sliceFrameWrite_counters hlo hhi]
    rw [exec_bar0Write]
    exact State.act_of_eq ends
end

section
/-! Coherence messages between agents of this device: what taking one, answering one and filing its holder change (R11, R72). -/

namespace Sys2Proof.Machine

/-! ## Agents -/

theorem Dev.devId_lt (d : Dev) : d.devId < 8 := getBits_lt _ _ _

theorem agDev_mkAg {v a : Nat} (hv : v < 8) (ha : a < 1024) : agDev (mkAg v a) = v := by
  unfold agDev mkAg
  rw [BitVec.toNat_ofNat, Nat.mod_eq_of_lt (by omega)]
  omega

theorem Dev.agDev_ag (d : Dev) {a : Nat} (ha : a < 1024) : agDev (d.ag a) = d.devId := agDev_mkAg d.devId_lt ha

theorem isFrond_eq_false_of_isUnit {a : Nat} (h : isUnit a = true) : isFrond a = false := by
  simp only [isUnit, isFrond, Bool.and_eq_true, decide_eq_true_eq, decide_eq_false_iff_not] at *
  omega

theorem isFrond_eq_false_of_isPort {a : Nat} (h : isPort a = true) : isFrond a = false := by
  simp only [isPort, isFrond, Bool.and_eq_true, decide_eq_true_eq, decide_eq_false_iff_not] at *
  omega

/-- Who an agent is goes by the control space alone. -/
theorem Dev.holderOf_congr {d e : Dev} (h : d.csr = e.csr) (x : BitVec 13) : d.holderOf x = e.holderOf x := by
  unfold Dev.holderOf Dev.devId
  rw [show d.f = e.f from funext (Dev.f_congr h)]

/-! ## A message taken -/

/-- Taking a message changes what is on its way, and where it is the data of a host's answer, the host's requests and the record of
outputs. -/
theorem Dev.take_eq (d : Dev) (m : Msg) : ∃ h o, d.take m =
    { d with coh := { d.coh with net := d.coh.net.erase m }, host := h, out := o } := by
  unfold Dev.take Dev.joinedDone
  split
  · exact ⟨_, _, rfl⟩
  · split <;> exact ⟨_, _, rfl⟩

/-- No other message touches the host's side. -/
theorem Dev.take_of_op_ne {d : Dev} {m : Msg} (h : m.op ≠ opRspD) :
    d.take m = { d with coh := { d.coh with net := d.coh.net.erase m } } := by
  simp [Dev.take, Dev.joinedDone, h]

section Take

variable (d : Dev) (m : Msg)

@[simp] theorem Dev.take_csr : (d.take m).csr = d.csr := by obtain ⟨_, _, e⟩ := d.take_eq m; rw [e]
@[simp] theorem Dev.take_hq : (d.take m).coh.hq = d.coh.hq := by obtain ⟨_, _, e⟩ := d.take_eq m; rw [e]
@[simp] theorem Dev.take_txns : (d.take m).coh.txns = d.coh.txns := by obtain ⟨_, _, e⟩ := d.take_eq m; rw [e]
@[simp] theorem Dev.take_lines : (d.take m).coh.l1 = d.coh.l1 := by obtain ⟨_, _, e⟩ := d.take_eq m; rw [e]
@[simp] theorem Dev.take_sor : (d.take m).sor = d.sor := by obtain ⟨_, _, e⟩ := d.take_eq m; rw [e]
@[simp] theorem Dev.take_devId : (d.take m).devId = d.devId := Dev.f_congr (d.take_csr m) _
@[simp] theorem Dev.take_txn (ln : Nat) : (d.take m).txn ln = d.txn ln := by simp [Dev.txn]
@[simp] theorem Dev.take_l1 (p ln : Nat) : (d.take m).l1 p ln = d.l1 p ln := by simp [Dev.l1]
@[simp] theorem Dev.take_postOf (u : Msg) : (d.take m).postOf u = d.postOf u := by simp [Dev.postOf]

end Take

/-- The message goes between agents of this device, its FD runs, and the message is the next of its channel (R11). -/
structure Dev.Arrives (d : Dev) (m : Msg) : Prop where
  up : d.fdUp = true
  src : agDev m.src = d.devId
  dst : agDev m.dst = d.devId
  turn : d.inTurn m = true

section Arrives

variable {d : Dev} {m : Msg} (h : d.Arrives m)
include h

/-- Such a message is taken and given to its receiver. -/
theorem Dev.receive_of_arrives (k : Dev → Dev) : d.receive m k = k (d.take m) := by
  simp [Dev.receive, Dev.when, h.up, h.turn, h.dst, Dev.settle, h.src]

/-- A request that no closed gate discards reaches its home. -/
theorem Dev.recvReq_of_arrives (hh : isHome (agId m.dst) = true) (hg : (d.take m).gateDrops m = false) (err : BitVec 560) :
    d.recvReq m err = (d.take m).request m err := by
  simp [Dev.recvReq, Dev.receive_of_arrives h, Dev.when, hh, hg]

theorem Dev.recvRsp_of_frond (hf : isFrond (agId m.dst) = true) (fr : Dev → Dev) : d.recvRsp m fr = fr (d.take m) := by
  simp [Dev.recvRsp, Dev.receive_of_arrives h, hf]

theorem Dev.recvRsp_of_port (hp : isPort (agId m.dst) = true) (fr : Dev → Dev) : d.recvRsp m fr = (d.take m).portAnswer m := by
  simp [Dev.recvRsp, Dev.receive_of_arrives h, isFrond_eq_false_of_isPort hp, hp]

theorem Dev.recvWb_of_home (hh : isHome (agId m.dst) = true) : d.recvWb m = (d.take m).writeBack m := by
  simp [Dev.recvWb, Dev.receive_of_arrives h, Dev.when, hh]

theorem Dev.recvSnp_of_frond (hf : isFrond (agId m.dst) = true) : d.recvSnp m = (d.take m).snoopFrond m := by
  simp [Dev.recvSnp, Dev.receive_of_arrives h, hf]

theorem Dev.recvSnp_of_unit (hu : isUnit (agId m.dst) = true) : d.recvSnp m = (d.take m).snoopUnit m := by
  simp [Dev.recvSnp, Dev.receive_of_arrives h, isFrond_eq_false_of_isUnit hu, hu]

theorem Dev.recvAns_of_home (hh : isHome (agId m.dst) = true) : d.recvAns m = (d.take m).snoopAnswer m := by
  simp [Dev.recvAns, Dev.receive_of_arrives h, Dev.when, hh]

end Arrives

/-! ## Messages sent -/

section Local

variable {d : Dev} {m : Msg}

theorem Dev.send_of_local (h : agDev m.dst = d.devId) : d.send m = { d with coh := { d.coh with net := d.coh.net ++ [m] } } := by
  simp [Dev.send, h]

/-- The table of duplicates is for messages of other devices (R158). -/
theorem Dev.isDup_of_local (h : agDev m.src = d.devId) : d.isDup m = none := by
  simp [Dev.isDup, h]

theorem Dev.noteDup_of_local (h : agDev m.src = d.devId) : d.noteDup m = d := by
  simp [Dev.noteDup, h]

/-- An answer to an agent of this device is a message more on its way. -/
theorem Dev.answer_of_local (h : agDev m.src = d.devId) (a : Msg) : d.answer m a = { d with coh := { d.coh with net :=
    d.coh.net ++ [{ a with src := d.homeAg m.addr.toNat, dst := m.src, tag := m.tag, addr := m.addr }] } } := by
  simp [Dev.answer, Dev.dupAnswer, Dev.send, h]

theorem Dev.remote_eq_false {ln : Nat} (h : lnDev ln = d.devId) : d.remote ln = false := by
  simp [Dev.remote, h]

end Local

end Sys2Proof.Machine
end

section
/-! Snoops at a Frond, by the state of its line (R67), and their answers at the home (R54, R63, R74). -/

namespace Sys2Proof.Machine

/-! ## A Frond's answer -/

section FrSnoop

variable {x : L1Line}

theorem frSnoop_of_m (h : x.st = some .m) :
    frSnoop x opSnpS = ({ op := opRspD, data := x.data, new := 2 }, { x with st := some .o }) ∧
    frSnoop x opSnpI = ({ op := opRspD, data := x.data }, L1Line.none) ∧
    frSnoop x opSnpC = ({ op := opRspD, data := x.data, new := 1 }, { x with st := some .s }) := by
  simp only [frSnoop, h]
  exact ⟨rfl, rfl, rfl⟩

theorem frSnoop_of_o (h : x.st = some .o) :
    frSnoop x opSnpS = ({ op := opRspO }, x) ∧ frSnoop x opSnpI = ({ op := opRspI }, L1Line.none) ∧
    frSnoop x opSnpC = ({ op := opRspS }, { x with st := some .s }) := by
  simp only [frSnoop, h]
  exact ⟨rfl, rfl, rfl⟩

/-- A clean copy goes with SnpI, and is shared afterwards with the other snoops. -/
theorem frSnoop_of_clean (h : x.st = some .e ∨ x.st = some .s) {op : BitVec 6} :
    (op = opSnpI → frSnoop x op = ({ op := opRspI }, L1Line.none)) ∧
    (op ≠ opSnpI → frSnoop x op = ({ op := opRspS }, { x with st := some .s })) := by
  obtain ⟨st, data, psn, log, pref⟩ := x
  rcases h with h | h <;> simp only at h <;> subst h <;> simp +contextual [frSnoop]

theorem frSnoop_of_sm (h : x.st = some .sm) {op : BitVec 6} :
    (op = opSnpI → frSnoop x op = ({ op := opRspI }, { x with st := some .im })) ∧
    (op ≠ opSnpI → frSnoop x op = ({ op := opRspS }, x)) := by
  simp +contextual [frSnoop, h]

/-- A line on its way out is told of by the write-back that crosses, whatever the snoop. -/
theorem frSnoop_of_leaving (op : BitVec 6) :
    (x.st = some .mi → frSnoop x op = ({ op := opRspIWb, wb := 1 }, x)) ∧
    (x.st = some .oi → frSnoop x op = ({ op := opRspIWb, wb := 2 }, x)) ∧
    (x.st = some .ei → frSnoop x op = ({ op := opRspIWb, wb := 3 }, x)) := by
  simp +contextual [frSnoop]

theorem frSnoop_of_absent (h : x.st = none ∨ x.st = some .is ∨ x.st = some .im) (op : BitVec 6) :
    frSnoop x op = ({ op := opRspI }, x) := by
  rcases h with h | h | h <;> simp [frSnoop, h]

end FrSnoop

variable {d : Dev} {m : Msg}

/-- What a Frond does with a snoop, from its answer and its line after it. -/
theorem Dev.snoopFrond_eq {r : Msg} {y : L1Line} (h : frSnoop (d.l1 (agId m.dst) m.addr.toNat) m.op = (r, y)) :
    d.snoopFrond m = ((d.setL1 (agId m.dst) m.addr.toNat y).frEvent (agId m.dst) 7 1).send
      { r with src := m.dst, dst := m.src, tag := m.tag, addr := m.addr } := by
  simp only [Dev.snoopFrond, h]

/-! ## Answers counted -/

/-- Counting an answer changes what is still to come, and nothing else of the transaction. -/
theorem Dev.countAnswer_eq (d : Dev) (t : Txn) (m : Msg) :
    ∃ o hs ps, d.countAnswer t m = { t with owed := o, hosts := hs, peers := ps } := by
  unfold Dev.countAnswer
  split <;> exact ⟨_, _, _, rfl⟩

section CountAnswer

variable (d : Dev) (t : Txn) (m : Msg)

@[simp] theorem Dev.countAnswer_got : (d.countAnswer t m).got = t.got := by obtain ⟨_, _, _, e⟩ := d.countAnswer_eq t m; rw [e]
@[simp] theorem Dev.countAnswer_ownNew : (d.countAnswer t m).ownNew = t.ownNew := by
  obtain ⟨_, _, _, e⟩ := d.countAnswer_eq t m; rw [e]
@[simp] theorem Dev.countAnswer_wbs : (d.countAnswer t m).wbs = t.wbs := by obtain ⟨_, _, _, e⟩ := d.countAnswer_eq t m; rw [e]
@[simp] theorem Dev.countAnswer_wbIn : (d.countAnswer t m).wbIn = t.wbIn := by obtain ⟨_, _, _, e⟩ := d.countAnswer_eq t m; rw [e]

/-- Who answered goes by the source alone. -/
theorem Dev.countAnswer_congr {d e : Dev} (h : d.csr = e.csr) (t : Txn) {m u : Msg} (hs : m.src = u.src) :
    d.countAnswer t m = e.countAnswer t u := by
  unfold Dev.countAnswer
  rw [hs, Dev.holderOf_congr h]

end CountAnswer

/-! ## Answers at the home -/

section SnoopAnswer

variable {t c : Txn} (ht : d.txn m.addr.toNat = some t)
include ht

theorem Dev.snoopAnswer_count (hop : m.op = opSnpCnt) : d.snoopAnswer m = (d.setTxn { t with
    sori := t.sori.filter (· != agId m.src - 0x240), owed := t.owed + m.cnt.toNat }).advance m.addr.toNat := by
  simp [Dev.snoopAnswer, ht, hop]

variable (hc : d.countAnswer t m = c)
include hc

/-- RspIWb is counted with the write-back that it announces: one that is still to come is awaited. -/
theorem Dev.snoopAnswer_awaited (hop : m.op = opRspIWb) (hw : m.src.toNat ∉ t.wbIn) :
    d.snoopAnswer m = (d.setTxn { c with wbs := m.src.toNat :: t.wbs }).advance m.addr.toNat := by
  subst hc
  simp [Dev.snoopAnswer, ht, hop, hw, opRspIWb, opSnpCnt]

theorem Dev.snoopAnswer_crossed (hop : m.op = opRspIWb) (hw : m.src.toNat ∈ t.wbIn) :
    d.snoopAnswer m = (d.setTxn { c with wbIn := t.wbIn.erase m.src.toNat }).advance m.addr.toNat := by
  subst hc
  simp [Dev.snoopAnswer, ht, hop, hw, opRspIWb, opSnpCnt]

/-- RspI says nothing of an owner; with NEW = 3 it stands for a host's data. -/
theorem Dev.snoopAnswer_none (hop : m.op = opRspI) : d.snoopAnswer m =
    (d.setTxn { c with got := t.got || m.new == 3 }).advance m.addr.toNat := by
  subst hc
  simp [Dev.snoopAnswer, ht, hop, opRspI, opRspIWb, opSnpCnt, opRspS, opRspO, opRspD]

variable (ho : t.ownNew ≠ 7)
include ho

theorem Dev.snoopAnswer_shared (hop : m.op = opRspS) : d.snoopAnswer m =
    (d.setTxn { c with ownNew := max t.ownNew 1 }).advance m.addr.toNat := by
  subst hc
  simp [Dev.snoopAnswer, ht, ho, hop, opRspI, opRspIWb, opSnpCnt, opRspS, opRspD]

theorem Dev.snoopAnswer_owner (hop : m.op = opRspO) : d.snoopAnswer m =
    (d.setTxn { c with ownNew := 2 }).advance m.addr.toNat := by
  subst hc
  simp [Dev.snoopAnswer, ht, ho, hop, opRspI, opRspIWb, opSnpCnt, opRspS, opRspO, opRspD]

/-- Modified data goes home first. -/
theorem Dev.snoopAnswer_data (hop : m.op = opRspD) (hl : lnDev m.addr.toNat = d.devId) : d.snoopAnswer m =
    ((d.homeWrite m.addr.toNat m.data (BitVec.allOnes 64)).setTxn
      { c with ownNew := m.new.toNat, got := true }).advance m.addr.toNat := by
  subst hc
  simp [Dev.snoopAnswer, ht, ho, hop, Dev.homeData, hl, opRspI, opRspIWb, opSnpCnt, opRspS, opRspO, opRspD]

end SnoopAnswer

end Sys2Proof.Machine

open Sys2Proof.Machine in
/-- Settles O23: snoops by the receiver and the state of its line, answers by their code. -/
theorem snoopsAnswered : Obligations.SnoopsAnswered := by
  refine ⟨fun s m op i hu hs hd hi => ?snoop, fun s m t hu hs hd hh hl ht => ?answer⟩
  case snoop =>
    intro ln a m' d hturn
    have arrives : s.dev.Arrives m' := ⟨hu, hs, hd, hturn⟩
    have run : exec i s = .next (s.after (s.dev.recvSnp m')) := by
      rcases hi with ⟨rfl, rfl⟩ | ⟨rfl, rfl⟩ | ⟨rfl, rfl⟩ <;> rfl
    refine ⟨fun hunit => ?unit, fun hfrond => ?frond⟩
    case unit => rw [run, Dev.recvSnp_of_unit arrives hunit]; rfl
    case frond =>
      intro x tells
      have told : ∀ r y, frSnoop x op = (r, y) → tells r y := fun r y e => by
        simp only [tells]
        rw [run, Dev.recvSnp_of_frond arrives hfrond, Dev.snoopFrond_eq e]
      refine ⟨fun hx => ?m, fun hx => ?o, fun hx => ?clean, fun hx => ?sm, fun hx => ?mi, fun hx => ?oi, fun hx => ?ei, fun hx => ?absent⟩
      case m =>
        obtain ⟨hS, hI, hC⟩ := frSnoop_of_m hx
        exact ⟨fun e => told _ _ (e ▸ hS), fun e => told _ _ (e ▸ hI), fun e => told _ _ (e ▸ hC)⟩
      case o =>
        obtain ⟨hS, hI, hC⟩ := frSnoop_of_o hx
        exact ⟨fun e => told _ _ (e ▸ hS), fun e => told _ _ (e ▸ hI), fun e => told _ _ (e ▸ hC)⟩
      case clean => exact ⟨fun e => told _ _ ((frSnoop_of_clean hx).1 e), fun e => told _ _ ((frSnoop_of_clean hx).2 e)⟩
      case sm => exact ⟨fun e => told _ _ ((frSnoop_of_sm hx).1 e), fun e => told _ _ ((frSnoop_of_sm hx).2 e)⟩
      case mi => exact told _ _ ((frSnoop_of_leaving op).1 hx)
      case oi => exact told _ _ ((frSnoop_of_leaving op).2.1 hx)
      case ei => exact told _ _ ((frSnoop_of_leaving op).2.2 hx)
      case absent => exact told _ _ (frSnoop_of_absent hx op)
  case answer =>
    intro ln c goes
    have run : ∀ op, s.dev.inTurn { m with op := op } = true →
        s.dev.recvAns { m with op := op } = (s.dev.take { m with op := op }).snoopAnswer { m with op := op } :=
      fun op hturn => Dev.recvAns_of_home ⟨hu, hs, hd, hturn⟩ hh
    have open_ : ∀ op, (s.dev.take { m with op := op }).txn m.addr.toNat = some t := fun op => by rw [Dev.take_txn, ht]
    have counted : ∀ op, (s.dev.take { m with op := op }).countAnswer t { m with op := op } = c := fun op =>
      Dev.countAnswer_congr (Dev.take_csr _ _) t rfl
    have ends : ∀ {i op u}, exec i s = s.act (fun _ d => d.recvAns { m with op := op }) →
        (s.dev.take { m with op := op }).snoopAnswer { m with op := op } =
          ((s.dev.take { m with op := op }).setTxn u).advance ln → goes i op u := fun hi e hturn => by
      rw [hi]
      exact State.act_of_eq ((run _ hturn).trans e)
    refine ⟨ends rfl (Dev.snoopAnswer_count (open_ _) rfl), fun ho => ⟨?shared, ?owner, fun hturn => ?data⟩, ?none, fun hw => ?awaited, fun hw => ?crossed⟩
    case shared => exact ends rfl (Dev.snoopAnswer_shared (open_ _) (counted _) ho rfl)
    case owner => exact ends rfl (Dev.snoopAnswer_owner (open_ _) (counted _) ho rfl)
    case data =>
      rw [exec_rspd]
      exact State.act_of_eq ((run _ hturn).trans
        (Dev.snoopAnswer_data (open_ _) (counted _) ho rfl (by rw [Dev.take_devId]; exact hl)))
    case none => exact ends rfl (Dev.snoopAnswer_none (open_ _) (counted _) rfl)
    case awaited => exact ends rfl (Dev.snoopAnswer_awaited (open_ _) (counted _) rfl hw)
    case crossed => exact ends rfl (Dev.snoopAnswer_crossed (open_ _) (counted _) rfl hw)
end

section
/-! What a home's write and its filing of a holder leave alone (R53, R56, R62, R106, R112). -/

namespace Sys2Proof.Machine

/-! ## Writes of home memory -/

/-- `e` is `d` with other memory, counters, outputs and write sequences: what a home's write can reach. -/
def Dev.Stored (d e : Dev) : Prop :=
  e = { d with pool := e.pool, ctr := e.ctr, out := e.out, coh := { d.coh with wseq := e.coh.wseq } }

namespace Dev.Stored

variable {d e u : Dev}

theorem trans (h : d.Stored e) (k : e.Stored u) : d.Stored u := by
  unfold Dev.Stored at *
  rw [k, h]

theorem fold {α : Type} {g : Dev → α → Dev} (h : ∀ d a, Dev.Stored d (g d a)) (l : List α) (d : Dev) : d.Stored (l.foldl g d) := by
  induction l generalizing d with
  | nil => rfl
  | cons a l ih => exact (h d a).trans (ih _)

theorem csr (h : d.Stored e) : e.csr = d.csr := by rw [h]
theorem txns (h : d.Stored e) : e.coh.txns = d.coh.txns := by rw [h]

theorem hbmOp (d : Dev) (ln k : Nat) : d.Stored (d.hbmOp ln k) := by
  unfold Dev.hbmOp
  split <;> rfl

theorem mscTouch (d : Dev) (ln : Nat) : d.Stored (d.mscTouch ln) := rfl

theorem setMsc (d : Dev) (ln : Nat) (t : MscT) : d.Stored (d.setMsc ln t) := by
  unfold Dev.setMsc
  dsimp only
  split_ifs <;> rfl

theorem refill1 (d : Dev) (ln : Nat) : d.Stored (d.refill1 ln) := by
  unfold Dev.refill1
  dsimp only
  split_ifs <;> rfl

theorem expReq (d : Dev) (ln home : Nat) (wr : Bool) (p : Option (Nat × Nat)) : d.Stored (d.expReq ln home wr p) := rfl

theorem emit (d : Dev) (o : Out) : d.Stored (d.emit o) := rfl

theorem putLine (d : Dev) (ln : Nat) (x : Line) : d.Stored (d.putLine ln x) := rfl

theorem setMeta (d : Dev) (ln : Nat) (m : LMeta) : d.Stored (d.setMeta ln m) := rfl

theorem expPut (d : Dev) (ln home : Nat) (x : Line) (psn : Bool) : d.Stored (d.expPut ln home x psn) :=
  ((emit _ _).trans (expReq _ _ _ _ _)).trans (refill1 _ ln)

theorem stampIn (d : Dev) (sl off v : Nat) : d.Stored (d.stampIn sl off v) := (putLine _ _ _).trans (setMsc _ _ _)

theorem stampPut (d : Dev) (c home stamp : Nat) : d.Stored (d.stampPut c home stamp) := by
  unfold Dev.stampPut
  dsimp only
  split
  · exact (stampIn _ _ _ _).trans (expPut _ _ _ _ _)
  · split
    · exact expReq _ _ _ _ _
    · exact (emit _ _).trans (expReq _ _ _ _ _)

theorem expWrite (d : Dev) (c home : Nat) (x : Line) (stamp : Nat) (psn : Bool) : d.Stored (d.expWrite c home x stamp psn) := by
  unfold Dev.expWrite
  dsimp only
  split
  · exact expPut _ _ _ _ _
  · exact (expPut _ _ _ _ _).trans (stampPut _ _ _ _)

theorem mscEvict (d : Dev) (v : Nat) : d.Stored (d.mscEvict v) := by
  unfold Dev.mscEvict
  split
  · exact ((hbmOp d v 0).trans (fold (fun d c => expWrite d c v _ _ _) _ _)).trans (setMsc _ _ _)
  · exact setMsc _ _ _

theorem mscRoom (k : Nat) (d : Dev) (ln : Nat) : d.Stored (Dev.mscRoom k d ln).2 := by
  induction k generalizing d with
  | zero => rfl
  | succ k ih =>
    unfold Dev.mscRoom
    dsimp only
    split
    · rfl
    · split
      · rfl
      · split
        · exact (mscEvict d _).trans (ih _)
        · rfl

theorem nextSeq_if (d : Dev) (ln n : Nat) (c : Bool) : d.Stored (if c then d.nextSeq ln else (n, d)).2 := by
  split <;> rfl

/-- A home's write reaches its line's copies, in memory, in the memory-side cache or on their expanders, and nothing else. -/
theorem homeWrite (d : Dev) (ln : Nat) (x : Line) (mask : BitVec 64) : d.Stored (d.homeWrite ln x mask) := by
  unfold Dev.homeWrite
  dsimp only
  split
  · rfl
  split
  case h_1 =>
    have seq := nextSeq_if d ln (d.lmeta ln).stamp (d.partnerOf ln).isSome
    generalize (if (d.partnerOf ln).isSome then d.nextSeq ln else ((d.lmeta ln).stamp, d)) = st at seq ⊢
    have room : d.Stored (if st.2.inMsc ln then (true, st.2) else Dev.mscRoom 64 st.2 ln).2 := by
      split
      · exact seq
      · exact seq.trans (mscRoom 64 _ ln)
    generalize (if st.2.inMsc ln then (true, st.2) else Dev.mscRoom 64 st.2 ln) = r at room ⊢
    split
    · exact (((room.trans (putLine _ _ _)).trans (setMeta _ _ _)).trans (setMsc _ _ _)).trans (hbmOp _ _ _)
    · exact room.trans (fold (fun d c => expWrite d c _ _ _ _) _ _)
  case h_2 =>
    split
    · exact ((hbmOp d ln 1).trans (putLine _ _ _)).trans (setMeta _ _ _)
    · refine trans ?_ (fold (fun d c => ((hbmOp d c 1).trans (putLine _ _ _)).trans (setMeta _ _ _)) _ _)
      rfl

end Dev.Stored

/-! ## Holders filed -/

/-- `e` is `d` with another snoop filter. -/
def Dev.Filed (d e : Dev) : Prop :=
  e = { d with coh := { d.coh with sf := e.coh.sf, sfWay := e.coh.sfWay, sfLru := e.coh.sfLru } }

theorem Dev.Filed.setSf (d : Dev) (ln : Nat) (e : SfE) : d.Filed (d.setSf ln e) := rfl

theorem Dev.Filed.keepSf (d : Dev) (ln : Nat) (e : SfE) : d.Filed (d.keepSf ln e) := by
  unfold Dev.keepSf
  split <;> exact setSf _ _ _

/-- Whoever wrote back, its record in the filter is all that changes. -/
theorem Dev.Filed.unrecord (d : Dev) (m : Msg) : d.Filed (d.unrecord m) := by
  unfold Dev.unrecord
  dsimp only
  split
  case h_1 => exact keepSf _ _ _
  case h_2 =>
    split
    · rfl
    · split
      · rfl
      · split_ifs <;> exact keepSf _ _ _
  case h_3 => exact keepSf _ _ _
  case h_4 => rfl

/-! ## A write-back at a home with no transaction of the line (R58, R59) -/

/-- The data of a write-back, and the duty that a hand-over leaves with the home. -/
def Dev.putBack (d : Dev) (m : Msg) : Dev :=
  let ln := m.addr.toNat
  if m.op == opWbM then d.homeWrite ln m.data (BitVec.allOnes 64)
  else if m.op == opWbO && d.inMsc ln then d.setMsc ln { d.msc ln with dirty := true } else d

theorem Dev.putBack_wbm (d : Dev) (m : Msg) :
    d.putBack { m with op := opWbM } = d.homeWrite m.addr.toNat m.data (BitVec.allOnes 64) := rfl

theorem Dev.putBack_wbo (d : Dev) (m : Msg) : d.putBack { m with op := opWbO } =
    if d.inMsc m.addr.toNat then d.setMsc m.addr.toNat { d.msc m.addr.toNat with dirty := true } else d := by
  simp [Dev.putBack, opWbO, opWbM]

theorem Dev.putBack_evictc (d : Dev) (m : Msg) : d.putBack { m with op := opEvictC } = d := rfl

theorem Dev.Stored.putBack (d : Dev) (m : Msg) : d.Stored (d.putBack m) := by
  unfold Dev.putBack
  dsimp only
  split
  · exact homeWrite _ _ _ _
  · split
    · exact setMsc _ _ _
    · rfl

/-- Where the line is this device's, that is what a home does with the data of any write-back. -/
theorem Dev.putBack_of_local {d : Dev} {m : Msg} (hl : lnDev m.addr.toNat = d.devId) :
    (if m.op == opWbM then d.homeData m.addr.toNat m.data
     else if m.op == opWbO && d.inMsc m.addr.toNat then d.setMsc m.addr.toNat { d.msc m.addr.toNat with dirty := true }
     else d) = d.putBack m := by
  simp [Dev.putBack, Dev.homeData, hl]

/-- The data is put back, the sender's record dropped, and the sender acknowledged. -/
theorem Dev.writeBack_of_still {d : Dev} {m : Msg} (hs : agDev m.src = d.devId) (hl : lnDev m.addr.toNat = d.devId)
    (ht : d.txn m.addr.toNat = none) : d.writeBack m = ((d.putBack m).unrecord m).answer m { op := opWbAck } := by
  have stored := Dev.Stored.putBack d m
  have filed := Dev.Filed.unrecord (d.putBack m) m
  have devId_eq : ((d.putBack m).unrecord m).devId = d.devId := by
    rw [filed]; exact Dev.f_congr stored.csr _
  have txn_eq : ((d.putBack m).unrecord m).txn m.addr.toNat = none := by
    rw [filed]; simp only [Dev.txn, stored.txns]; exact ht
  have answered := Dev.answer_of_local (hs.trans devId_eq.symm) { op := opWbAck }
  have txn_none : (((d.putBack m).unrecord m).answer m { op := opWbAck }).txn m.addr.toNat = none := by
    rw [answered]; exact txn_eq
  have not_remote : (((d.putBack m).unrecord m).answer m { op := opWbAck }).remote m.addr.toNat = false := by
    rw [answered]; exact Dev.remote_eq_false (hl.trans devId_eq.symm)
  simp only [Dev.writeBack, Dev.isDup_of_local hs, Dev.noteDup_of_local hs, Dev.putBack_of_local hl, txn_none, not_remote,
    Bool.false_and, Bool.false_eq_true, if_false]

end Sys2Proof.Machine
end

section
/-! Responses at a Frond and at a port (R56, R67, R90), and codes that the message table reserves (R73). -/

namespace Sys2Proof.Machine

variable {d : Dev} {m : Msg}

/-! ## At a Frond -/

theorem fillSt_dataM (psn : Bool) : fillSt opDataM psn = if psn then .e else .m := by
  simp [fillSt, opDataM, opDataS, opDataE]

section Line

variable {x : L1Line} (hx : d.l1 (agId m.dst) m.addr.toNat = x)
include hx

/-- A data response fills a line that waits, and what waits for it is taken up. -/
theorem Dev.fillFrond_of_waiting {st : L1St} (hst : fillSt m.op m.psn = st)
    (h : x.st = some .is ∨ x.st = some .im ∨ x.st = some .sm) :
    d.fillFrond m =
      let p := agId m.dst
      let ln := m.addr.toNat
      let e := d.setL1 p ln { st := some st, data := m.data, psn := m.psn, log := 0, pref := false }
      ({ e with sor := { e.sor with rdu := e.sor.rdu.map fun u =>
        if u.p == p && u.ln == ln then { u with shared := false } else u } } : Dev).wake p := by
  rcases h with h | h | h <;> simp only [Dev.fillFrond, hx, h, hst]

theorem Dev.gntFrond_of_sm (h : x.st = some .sm) : d.gntFrond m =
    (d.setL1 (agId m.dst) m.addr.toNat { x with st := some (if x.psn then .e else .m), pref := false }).wake (agId m.dst) := by
  simp [Dev.gntFrond, hx, h]

/-- The acknowledgement of an eviction ends it. -/
theorem Dev.wbAckFrond_of_leaving (h : x.st = some .mi ∨ x.st = some .oi ∨ x.st = some .ei) :
    d.wbAckFrond m = (d.setL1 (agId m.dst) m.addr.toNat L1Line.none).wake (agId m.dst) := by
  rcases h with h | h | h <;> simp [Dev.wbAckFrond, hx, h, L1St.leaving]

end Line

/-- What a Frond does with DataU and DataA goes by the rest of the message. -/
theorem Dev.dataUFrond_op (m : Msg) (op : BitVec 6) : d.dataUFrond { m with op := op } = d.dataUFrond m := rfl

theorem Dev.dataAFrond_op (m : Msg) (op : BitVec 6) : d.dataAFrond { m with op := op } = d.dataAFrond m := rfl

/-! ## At a port -/

/-- Cmp ends the write that it answers. -/
theorem Dev.portAnswer_of_write {r : PortReq} (hr : d.portReqOf (agId m.dst - 0x280) m.tag.toNat = some r) (hk : r.kind = 1)
    (hop : m.op = opCmp) : d.portAnswer m = (d.dropReq r).emit (.cxlCmp (agId m.dst - 0x280) r.ld r.tag) := by
  simp [Dev.portAnswer, hr, hk, hop, opCmp, opCmpP]

/-! ## Reserved codes -/

theorem Dev.badCode_of_home (h : isHome (agId m.dst) = true) : d.badCode m =
    (d.setF (HOME.ERR.BADOP (agId m.dst - 0x200)) 1).raiseFpa 864 m.src.toNat 2 m.addr.toNat := by
  simp [Dev.badCode, h]

end Sys2Proof.Machine

open Sys2Proof.Machine in
/-- Settles O22: responses by their receiver, write-backs by the rule for a home with no transaction of the line. -/
theorem responsesArrive : Obligations.ResponsesArrive := by
  refine ⟨fun s m hu hs hd => ?message, fun s m hu hop hh => ?reserved⟩
  case reserved =>
    rw [exec_cohReservedCode]
    refine State.act_of_eq ?_
    rw [Dev.when, if_pos (by simpa [hu] using hop), Dev.badCode_of_home hh]
  case message =>
    intro ln a is x fill
    have arrives : ∀ op, s.dev.inTurn { m with op := op } = true → s.dev.Arrives { m with op := op } :=
      fun op hturn => ⟨hu, hs, hd, hturn⟩
    have held : ∀ op, (s.dev.take { m with op := op }).l1 a ln = x := fun op => Dev.take_l1 _ _ _ _
    refine ⟨fun hfrond => ?frond, fun r hport hr hk => ?port, fun hhome hl ht => ?home⟩
    case frond =>
      have ends : ∀ {i op e} (fr : Dev → Dev), exec i s = s.act (fun _ d => d.recvRsp { m with op := op } fr) →
          fr (s.dev.take { m with op := op }) = e → s.dev.inTurn { m with op := op } = true →
          exec i s = .next (s.after e) := fun fr hi e hturn => by
        rw [hi]
        exact State.act_of_eq ((Dev.recvRsp_of_frond (arrives _ hturn) hfrond fr).trans e)
      have fills : ∀ op {st}, fillSt op m.psn = st → x.st = some .is ∨ x.st = some .im ∨ x.st = some .sm →
          (s.dev.take { m with op := op }).fillFrond { m with op := op } = fill st (s.dev.take { m with op := op }) :=
        fun op _ hst hx => Dev.fillFrond_of_waiting (m := { m with op := op }) (held op) hst hx
      refine ⟨fun hx => ⟨?datas, ?datae, ?datam⟩, fun hx => ?gntm, fun hx => ?wback, fun hp => ?cmpp, ?datau,
        fun hp => ?dataa, fun e hp => ?posted⟩
      case datas => exact ends _ rfl (fills _ rfl hx)
      case datae => exact ends _ rfl (fills _ rfl hx)
      case datam => exact ends _ rfl (fills _ (fillSt_dataM _) hx)
      case gntm => exact ends (fun d => d.gntFrond m) rfl (Dev.gntFrond_of_sm (held opGntM) hx)
      case wback => exact ends (fun d => d.wbAckFrond m) rfl (Dev.wbAckFrond_of_leaving (held opWbAck) hx)
      case cmpp =>
        have none_post : (s.dev.take { m with op := opCmpP }).postOf m = none := (Dev.take_postOf _ _ _).trans hp
        exact ends _ rfl (by simp only [none_post])
      case datau => exact ends (fun d => d.dataUFrond m) rfl (Dev.dataUFrond_op m _).symm
      case dataa =>
        have none_post : (s.dev.take { m with op := opDataA }).postOf m = none := (Dev.take_postOf _ _ _).trans hp
        exact ends _ rfl (by simp only [none_post, Dev.dataAFrond_op])
      case posted =>
        have post : (s.dev.take { m with op := opDataA }).postOf m = some e := (Dev.take_postOf _ _ _).trans hp
        exact ends _ rfl (by simp only [post])
    case port =>
      intro hturn
      rw [exec_cmpMessage]
      refine State.act_of_eq ((Dev.recvRsp_of_port (arrives _ hturn) hport id).trans (Dev.portAnswer_of_write ?_ hk rfl))
      rw [Dev.take_of_op_ne (show opCmp ≠ opRspD by decide)]
      exact hr
    case home =>
      intro ends
      have back : ∀ {i op e}, exec i s = s.act (fun _ d => d.recvWb { m with op := op }) →
          (s.dev.take { m with op := op }).putBack { m with op := op } = e → s.dev.inTurn { m with op := op } = true →
          exec i s = .next (s.after (ends { m with op := op } e)) := fun hi e hturn => by
        rw [hi, ← e]
        exact State.act_of_eq ((Dev.recvWb_of_home (arrives _ hturn) hhome).trans (Dev.writeBack_of_still
          (by rw [Dev.take_devId]; exact hs) (by rw [Dev.take_devId]; exact hl) (by rw [Dev.take_txn]; exact ht)))
      exact ⟨back rfl (Dev.putBack_wbm _ m), back rfl (Dev.putBack_wbo _ m), back rfl (Dev.putBack_evictc _ m)⟩
end

section
/-! Requests at their home: queued, opened, or taken up from the queue (R57, R58, R66), and what is asked of a line's holders (R54,
R63, R64). -/

namespace Sys2Proof.Machine

variable {d : Dev} {m : Msg}

/-! ## A request arrives -/

/-- A request that nothing stands in the way of opens its transaction. -/
theorem Dev.request_opens (hs : agDev m.src = d.devId) (hl : lnDev m.addr.toNat = d.devId) (ht : d.txn m.addr.toNat = none)
    (hq : ∀ u ∈ d.coh.hq, u.addr ≠ m.addr) (he : m.op = opUpg ∨ d.ownEviction m = false) (err : BitVec 560) :
    d.request m err = d.openReq m err := by
  have not_older : (d.coh.hq.any fun u => u.addr == m.addr) = false := by simpa using hq
  have not_evicting : (m.op != opUpg && d.ownEviction m) = false := by rcases he with h | h <;> simp [h]
  simp [Dev.request, Dev.isDup_of_local hs, Dev.noteDup_of_local hs, ht, not_older, not_evicting, hl]

/-- One that comes behind an open transaction or an older request of its line waits. -/
theorem Dev.request_waits (hs : agDev m.src = d.devId)
    (h : (d.txn m.addr.toNat).isSome = true ∨ ∃ u ∈ d.coh.hq, u.addr = m.addr) (err : BitVec 560) :
    d.request m err = d.queueReq m := by
  have behind : ((d.txn m.addr.toNat).isSome || d.coh.hq.any fun u => u.addr == m.addr) = true := by simpa using h
  simp [Dev.request, Dev.isDup_of_local hs, Dev.noteDup_of_local hs, behind]

/-- A message that arrives finds its line as it is while it is on its way. -/
theorem Dev.recvReq_opens (h : d.Arrives m) (hh : isHome (agId m.dst) = true) (hg : (d.take m).gateDrops m = false)
    (hl : lnDev m.addr.toNat = d.devId) (ht : d.txn m.addr.toNat = none) (hq : ∀ u ∈ d.coh.hq, u.addr ≠ m.addr)
    (he : m.op = opUpg ∨ (d.take m).ownEviction m = false) (err : BitVec 560) :
    d.recvReq m err = (d.take m).openReq m err := by
  rw [Dev.recvReq_of_arrives h hh hg]
  exact Dev.request_opens (h.src.trans (Dev.take_devId _ _).symm) (hl.trans (Dev.take_devId _ _).symm)
    ((Dev.take_txn _ _ _).trans ht) (by rwa [Dev.take_hq]) he err

theorem Dev.recvReq_waits (h : d.Arrives m) (hh : isHome (agId m.dst) = true) (hg : (d.take m).gateDrops m = false)
    (hb : (d.txn m.addr.toNat).isSome = true ∨ ∃ u ∈ d.coh.hq, u.addr = m.addr) (err : BitVec 560) :
    d.recvReq m err = (d.take m).queueReq m := by
  rw [Dev.recvReq_of_arrives h hh hg]
  exact Dev.request_waits (h.src.trans (Dev.take_devId _ _).symm) (by rwa [Dev.take_txn, Dev.take_hq]) err

/-- The oldest waiting request of a line is taken up. -/
theorem Dev.dequeue_opens {ln : Nat} (ht : d.txn ln = none) (hm : d.coh.hq.find? (fun m => m.addr.toNat == ln) = some m)
    (he : m.op = opUpg ∨ d.ownEviction m = false) (hl : lnDev ln = d.devId) (err : BitVec 560) :
    d.dequeue ln err = Dev.openReq { d with coh := { d.coh with hq := d.coh.hq.erase m } } m err := by
  have not_evicting : (m.op != opUpg && d.ownEviction m) = false := by rcases he with h | h <;> simp [h]
  have own_line : (lnDev ln == Dev.devId { d with coh := { d.coh with hq := d.coh.hq.erase m } }) = true := by
    rw [hl]; exact beq_self_eq_true _
  simp only [Dev.dequeue, ht, hm, not_evicting, own_line]
  rfl

/-! ## Messages sent on -/

/-- `e` is `d` with the messages `ms` more on their way, and other counters. -/
def Dev.Posted (d e : Dev) (ms : List Msg) : Prop :=
  e = { d with coh := { d.coh with net := d.coh.net ++ ms }, ctr := e.ctr }

namespace Dev.Posted

variable {e u : Dev} {ms ns : List Msg}

theorem csr (h : d.Posted e ms) : e.csr = d.csr := by rw [h]

theorem refl (d : Dev) : d.Posted d [] := by simp [Dev.Posted]

theorem trans (h : d.Posted e ms) (k : e.Posted u ns) : d.Posted u (ms ++ ns) := by
  unfold Dev.Posted at *
  rw [k, h]
  simp

/-- What follows may use that the control space is the same. -/
theorem andThen (h : d.Posted e ms) (k : e.csr = d.csr → e.Posted u ns) : d.Posted u (ms ++ ns) := h.trans (k h.csr)

theorem count (h : d.Posted e ms) (k n : Nat) : d.Posted (e.count k n) ms := by
  unfold Dev.Posted at *
  rw [h]
  rfl

theorem send (h : agDev m.dst = d.devId) : d.Posted (d.send m) [m] := by
  rw [Dev.send_of_local h]
  rfl

/-- A walk over a list that sends `f a` for each `a`. -/
theorem fold {α : Type} {g : Dev → α → Dev} {f : α → List Msg} {l : List α}
    (h : ∀ e : Dev, e.csr = d.csr → ∀ a ∈ l, e.Posted (g e a) (f a)) : d.Posted (l.foldl g d) (l.flatMap f) := by
  have walk : ∀ (l' : List α) (e : Dev), (∀ a ∈ l', a ∈ l) → e.csr = d.csr → e.Posted (l'.foldl g e) (l'.flatMap f) := by
    intro l'
    induction l' with
    | nil => intro e _ _; exact refl e
    | cons a l' ih =>
      intro e hl he
      rw [List.forall_mem_cons] at hl
      have first := h e he a hl.1
      exact first.trans (ih _ hl.2 (first.csr.trans he))
  exact walk l d (fun _ h => h) rfl

end Dev.Posted

/-! ## Snoops -/

/-- The snoop of a line that goes from its home to agent `a`. -/
def Dev.snoopTo (d : Dev) (ln : Nat) (op : BitVec 6) (req : BitVec 13) (tag : BitVec 12) (a : Nat) : Msg :=
  { op := op, src := d.homeAg ln, dst := d.ag a, addr := BitVec.ofNat 46 ln, tag := tag, req := req }

theorem Dev.portOfHost_lt {h p : Nat} (hp : d.portOfHost h = some p) : p < 96 := by
  simpa using List.mem_of_find?_eq_some hp

theorem Dev.portOfHost_congr {e : Dev} (h : e.csr = d.csr) (x : Nat) : e.portOfHost x = d.portOfHost x := by
  unfold Dev.portOfHost Dev.fb
  rw [show e.f = d.f from funext (Dev.f_congr h)]

theorem Dev.ag_congr {e : Dev} (h : e.csr = d.csr) (a : Nat) : e.ag a = d.ag a := by
  unfold Dev.ag Dev.devId
  rw [Dev.f_congr h]

/-- A snoop sent by a device with the same control space. -/
theorem Dev.Posted.snoop {e : Dev} (he : e.csr = d.csr) {a : Nat} (ha : a < 1024) (ln : Nat) (op : BitVec 6) (req : BitVec 13)
    (tag : BitVec 12) : e.Posted (e.send (d.snoopTo ln op req tag a)) [d.snoopTo ln op req tag a] :=
  Dev.Posted.send ((d.agDev_ag ha).trans (Dev.f_congr he _).symm)

/-- The snoops of a transaction that no peer device is to hear from: one to each sorus, and one to the port of each host that has
one (R63, R64). -/
theorem Dev.sendSnoops_posted (d : Dev) {t : Txn} (hs : ∀ k ∈ t.sori, k < 32) (hp : t.peers = []) (op : BitVec 6) (req : BitVec 13)
    (tag : BitVec 12) : d.Posted (d.sendSnoops t op req tag)
      ((t.sori.map fun k => d.snoopTo t.ln op req tag (0x240 + k)) ++
       (t.hosts.filterMap d.portOfHost).map fun p => d.snoopTo t.ln op req tag (0x280 + p)) := by
  rw [List.map_filterMap, List.filterMap_eq_flatMap_toList, List.map_eq_flatMap]
  unfold Dev.sendSnoops
  simp only [hp, List.foldl_nil]
  refine Dev.Posted.andThen (Dev.Posted.fold fun e he k hk => ?sorus) fun hmid => Dev.Posted.fold fun e he h _ => ?host
  case sorus =>
    have hlt := hs k hk
    rw [Dev.ag_congr he]
    exact (Dev.Posted.snoop he (by omega) t.ln op req tag).count _ _
  case host =>
    have hc := he.trans hmid
    rw [Dev.portOfHost_congr hc]
    cases hh : d.portOfHost h with
    | none => exact Dev.Posted.refl e
    | some p =>
      have hlt := Dev.portOfHost_lt hh
      simp only [Dev.ag_congr hc]
      exact ((Dev.Posted.snoop hc (by omega) t.ln op req tag).count _ _).count _ _

/-! ## A transaction that asks the holders -/

/-- The device with the predictor trained where the request asks for ownership (R79). -/
def Dev.trained (d : Dev) (m : Msg) : Dev := if m.op = opRdX ∨ m.op = opUpg then d.train m else d

/-- Training changes the predictor alone. -/
theorem Dev.trained_eq (d : Dev) (m : Msg) : ∃ p, d.trained m = { d with coh := { d.coh with pred := p } } := by
  unfold Dev.trained
  split <;> exact ⟨_, rfl⟩

theorem Dev.turnsAway_trained (d : Dev) (m : Msg) : (d.trained m).turnsAway m = d.turnsAway m := by
  obtain ⟨p, e⟩ := d.trained_eq m
  rw [e]
  rfl

theorem Dev.gateDrops_trained (d : Dev) (m : Msg) : (d.trained m).gateDrops m = d.gateDrops m := by
  obtain ⟨p, e⟩ := d.trained_eq m
  rw [e]
  rfl

theorem Dev.ownEviction_trained (d : Dev) (m : Msg) : (d.trained m).ownEviction m = d.ownEviction m := by
  obtain ⟨p, e⟩ := d.trained_eq m
  rw [e]
  rfl

theorem Dev.waits_trained (d : Dev) (m : Msg) : (d.trained m).coh.waits = d.coh.waits := by
  obtain ⟨p, e⟩ := d.trained_eq m
  rw [e]

theorem Dev.waitEnd_of_none (h : d.coh.waits = []) : d.waitEnd m = d := by
  simp [Dev.waitEnd, h]

/-- With a way free, or none needed, nothing waits. -/
theorem Dev.withWay_of_room (h : d.sfRoom m.addr.toNat = (true, d)) (needs : Bool) (k : Dev → Dev) : d.withWay m needs k = k d := by
  cases needs <;> simp [Dev.withWay, h]

/-- Opening a transaction changes no record of who holds the line. -/
theorem Dev.snoopFor_openTxn (t : Txn) (far : Bool) : (d.openTxn t).snoopFor m far = d.snoopFor m far := rfl

/-- The transaction of a request that snoops for its line. -/
def Dev.asking (d : Dev) (m : Msg) (err : BitVec 560) (op : BitVec 6) : Txn :=
  let t := { d.mkTxn m err op (msgSparesSelf m) with at_ := d.now }
  if m.op == opUpg && d.ownsDuty m.addr.toNat m.src then { t with ownNew := 6 } else t

/-- A request other than an Atom that the home takes, with a place for what it needs, opens a transaction and snoops for it. -/
theorem Dev.openReq_asks {op : BitVec 6} (hop : m.op ≠ opAtom) (ha : (d.trained m).turnsAway m = false) (hw : d.coh.waits = [])
    (hm : (d.trained m).needsMsc m.addr.toNat = false) (hr : (d.trained m).sfRoom m.addr.toNat = (true, d.trained m))
    (hs : (d.trained m).snoopFor m false = some op) (err : BitVec 560) :
    d.openReq m err =
      let e := d.trained m
      let t := e.asking m err op
      ((e.openTxn t).sendSnoops t op (if msgSparesSelf m then m.src else e.homeAg m.addr.toNat) m.tag).advance m.addr.toNat := by
  have not_atom : (m.op == opAtom) = false := by simpa using hop
  have train_eq : (if (m.op == opRdX || m.op == opUpg || false) && !(d.coh.waits.any (·.1 == m)) then d.train m else d) =
      d.trained m := by
    simp [Dev.trained, hw]
  rw [Dev.turnsAway_trained] at ha
  simp only [Dev.openReq, ha, not_atom, Bool.false_and, Bool.false_eq_true, if_false, train_eq, Dev.withWay_of_room hr,
    Dev.waitEnd_of_none ((d.waits_trained m).trans hw), hm, hs, Bool.not_true,
    Dev.snoopFor_openTxn, Dev.asking]
  rfl

/-- A transaction that still awaits an answer stays as it is. -/
theorem Dev.advance_of_unready {ln : Nat} {t : Txn} (ht : d.txn ln = some t) (hr : t.ready = false) : d.advance ln = d := by
  simp [Dev.advance, ht, hr]

theorem Dev.txn_openTxn {t : Txn} (ht : d.txn t.ln = none) : (d.openTxn t).txn t.ln = some t := by
  simp only [Dev.txn, Dev.openTxn] at *
  simp [List.find?_append, ht]

theorem Dev.txn_trained (d : Dev) (m : Msg) (ln : Nat) : (d.trained m).txn ln = d.txn ln := by
  obtain ⟨p, e⟩ := d.trained_eq m
  rw [e]
  rfl

section Asking

variable (d m) (err : BitVec 560) (op : BitVec 6)

/-- The transaction asks those that `Dev.mkTxn` names. -/
theorem Dev.asking_eq : ∃ at_ own, d.asking m err op = { d.mkTxn m err op (msgSparesSelf m) with at_ := at_, ownNew := own } := by
  unfold Dev.asking
  dsimp only
  split <;> exact ⟨_, _, rfl⟩

theorem Dev.asking_ln : (d.asking m err op).ln = m.addr.toNat := by obtain ⟨_, _, e⟩ := d.asking_eq m err op; rw [e]; rfl
theorem Dev.asking_kind : (d.asking m err op).kind = .req m := by obtain ⟨_, _, e⟩ := d.asking_eq m err op; rw [e]; rfl
theorem Dev.asking_owed : (d.asking m err op).owed = 0 := by obtain ⟨_, _, e⟩ := d.asking_eq m err op; rw [e]; rfl
theorem Dev.asking_sori : (d.asking m err op).sori = (d.mkTxn m err op (msgSparesSelf m)).sori := by
  obtain ⟨_, _, e⟩ := d.asking_eq m err op; rw [e]
theorem Dev.asking_hosts : (d.asking m err op).hosts = (d.mkTxn m err op (msgSparesSelf m)).hosts := by
  obtain ⟨_, _, e⟩ := d.asking_eq m err op; rw [e]
theorem Dev.asking_peers : (d.asking m err op).peers = (d.mkTxn m err op (msgSparesSelf m)).peers := by
  obtain ⟨_, _, e⟩ := d.asking_eq m err op; rw [e]

end Asking

/-- The transaction that opens awaits the sori and hosts that it asks, and the filter is as it was. -/
theorem Dev.openReq_snoops {op : BitVec 6} {err : BitVec 560} {e : Dev} {t : Txn} (he : e = d.trained m) (hte : t = e.asking m err op)
    (hop : m.op ≠ opAtom) (ha : e.turnsAway m = false) (hw : d.coh.waits = [])
    (hm : e.needsMsc m.addr.toNat = false) (hr : e.sfRoom m.addr.toNat = (true, e)) (hs : e.snoopFor m false = some op)
    (ht : d.txn m.addr.toNat = none) (hpeers : t.peers = []) (hsori : ∀ k ∈ t.sori, k < 32) (hask : t.sori ≠ [] ∨ t.hosts ≠ []) :
    let req := if msgSparesSelf m then m.src else e.homeAg m.addr.toNat
    (d.openReq m err).txn m.addr.toNat = some t ∧ (d.openReq m err).coh.net = e.coh.net ++
      ((t.sori.map fun k => e.snoopTo m.addr.toNat op req m.tag (0x240 + k)) ++
       (t.hosts.filterMap e.portOfHost).map fun p => e.snoopTo m.addr.toNat op req m.tag (0x280 + p)) ∧
    (d.openReq m err).coh.sf = e.coh.sf := by
  intro req
  have hln : t.ln = m.addr.toNat := by rw [hte, Dev.asking_ln]
  have posted := Dev.sendSnoops_posted (e.openTxn t) hsori hpeers op req m.tag
  have opened : (e.openTxn t).txn m.addr.toNat = some t := by
    rw [← hln]
    exact Dev.txn_openTxn (by rw [he, Dev.txn_trained, hln]; exact ht)
  have kept : ((e.openTxn t).sendSnoops t op req m.tag).txn m.addr.toNat = some t := by rw [posted]; exact opened
  have unready : t.ready = false := by
    rcases hask with h | h <;> simp [Txn.ready, h]
  have ends : d.openReq m err = (e.openTxn t).sendSnoops t op req m.tag := by
    subst he
    rw [Dev.openReq_asks hop ha hw hm hr hs]
    dsimp only
    rw [← hte]
    exact Dev.advance_of_unready kept unready
  rw [ends]
  refine ⟨kept, ?_, ?_⟩
  · rw [posted, hln]; rfl
  · rw [posted]; rfl

/-! ## Whom a request asks -/

theorem Dev.snoopFor_read (h : m.op = opRdS ∨ m.op = opRdU) (he : (d.sfe m.addr.toNat).excl = true) (far : Bool) :
    d.snoopFor m far = some opSnpS := by
  rcases h with h | h <;> simp [Dev.snoopFor, h, he]

theorem Dev.snoopFor_other (h : ¬(m.op = opRdS ∨ m.op = opRdU)) (far : Bool) : d.snoopFor m far = some opSnpI := by
  simp [Dev.snoopFor, h]

section MkTxn

variable (d m) (err : BitVec 560) (spare : Bool)

/-- A read of an owned line asks its owner alone. -/
theorem Dev.mkTxn_read (h : (d.sfe m.addr.toNat).own ≤ 88) (hm : m.op ≠ opWrU ∧ m.op ≠ opWrP) :
    let own := (d.sfe m.addr.toNat).own
    let t := d.mkTxn m err opSnpS false
    t.sori = (if 1 ≤ own ∧ own ≤ 32 then [own - 1] else []) ∧ t.peers = [] ∧
    t.hosts = (((if 65 ≤ own then [own - 65] else []).map fun g => d.groupHosts (homeOf m.addr.toNat) g).flatten).eraseDups := by
  have not_peer : ¬ 89 ≤ (d.sfe m.addr.toNat).own := by omega
  simp [Dev.mkTxn, h, hm, not_peer]

/-- A request for ownership asks all who are recorded, but for the requester's own host. -/
theorem Dev.mkTxn_own (h : d.allPeers m.addr.toNat (d.sfe m.addr.toNat) = [])
    (hs : (spare || m.op == opWrU || m.op == opWrP) = true) :
    let t := d.mkTxn m err opSnpI spare
    t.sori = (d.sfe m.addr.toNat).allSori ∧ t.peers = [] ∧
    t.hosts = ((((d.sfe m.addr.toNat).allGroups.map fun g => d.groupHosts (homeOf m.addr.toNat) g).flatten).eraseDups.filter
      fun x => d.holderOf m.src ≠ .host x) := by
  have not_shared : (opSnpI == opSnpS) = false := by decide
  simp only [Dev.mkTxn, h, hs, not_shared, Bool.false_eq_true, if_false, Bool.true_and, List.filter_nil, true_and]
  exact List.filter_congr fun x _ => by rw [beq_eq_decide, decide_not]

end MkTxn

theorem Tbl.get_upd_same {α : Type} [DecidableEq α] (d : α) (t : Tbl α) (k : Nat) (f : α → α) :
    Tbl.get d (Tbl.upd d t k f) k = f (Tbl.get d t k) := Tbl.get_put_same ..

theorem msgSparesSelf_read (h : m.op = opRdS ∨ m.op = opRdU) : msgSparesSelf m = false := by
  rcases h with h | h <;> simp [msgSparesSelf, h] <;> decide

theorem read_not_write (h : m.op = opRdS ∨ m.op = opRdU) : m.op ≠ opWrU ∧ m.op ≠ opWrP := by
  rcases h with h | h <;> rw [h] <;> decide

theorem request_not_atom (h : m.op ∈ [opRdS, opRdU, opRdX, opUpg, opWrU, opWrP]) : m.op ≠ opAtom := fun e =>
  absurd (e ▸ h) (by decide)

theorem request_passesHost (hm : m.op ∈ [opRdS, opRdU, opRdX, opUpg, opWrU, opWrP]) (h : ¬(m.op = opRdS ∨ m.op = opRdU)) :
    (msgSparesSelf m || m.op == opWrU || m.op == opWrP) = true := by
  simp only [msgSparesSelf, List.mem_cons, List.not_mem_nil, Bool.or_eq_true, beq_iff_eq, or_false] at hm ⊢
  tauto

theorem request_runs {m : Msg} {err : BitVec 560} {op : BitVec 6} {i : Instr} (h : (op, i) ∈ [(opRdS, .rds m err),
    (opRdU, .rdu m err), (opRdX, .rdx m err), (opUpg, .upg m err), (opWrU, .wru m), (opWrP, .wrp m err)]) (s : State) :
    op ∈ [opRdS, opRdU, opRdX, opUpg, opWrU, opWrP] ∧ ∃ err', exec i s = s.act (fun _ d => d.recvReq { m with op := op } err') := by
  refine ⟨List.mem_map_of_mem (f := Prod.fst) h, ?_⟩
  simp only [List.mem_cons, Prod.mk.injEq, List.not_mem_nil, or_false] at h
  rcases h with ⟨rfl, rfl⟩ | ⟨rfl, rfl⟩ | ⟨rfl, rfl⟩ | ⟨rfl, rfl⟩ | ⟨rfl, rfl⟩ | ⟨rfl, rfl⟩
  exacts [⟨err, rfl⟩, ⟨err, rfl⟩, ⟨err, rfl⟩, ⟨err, rfl⟩, ⟨0, rfl⟩, ⟨err, rfl⟩]

theorem mem_onesN {n x k : Nat} (h : k ∈ onesN n x) : k < n := by
  simpa using (List.mem_filter.1 h).1

end Sys2Proof.Machine

open Sys2Proof.Machine in
/-- Settles O20: requests by what stands before them, waiting ones by the head of their line's queue, and those of a held line by
whom they ask. -/
theorem requestsReachTheirHome : Obligations.RequestsReachTheirHome := by
  refine ⟨fun s m err hu => ?arrival, fun s ln err m hu ht hm he hl => ?dequeue, fun s m err op i hu hs hd hh hl hi => ?snoops,
    fun s n k => ?predictor⟩
  case predictor =>
    have entry := Tbl.get_upd_same PredE.none s.dev.coh.pred (n.val * 4096 + k.val) fun e => ⟨e.ctr, false, 0, 0⟩
    exact ⟨_, rfl, congrArg PredE.valid entry, (congrArg PredE.ctr entry).trans rfl⟩
  case dequeue =>
    have ends : s.dev.when s.dev.fdUp (fun d => d.dequeue ln.toNat err) = _ :=
      (if_pos hu).trans (Dev.dequeue_opens ht hm he hl err)
    rw [exec_homeRequestDequeue, exec_sfWayFree]
    exact ⟨State.act_of_eq ends, State.act_of_eq ends⟩
  case arrival =>
    intro ln hs hd hh hl goes
    have arrival : ∀ {i op err'}, exec i s = s.act (fun _ d => d.recvReq { m with op := op } err') → goes i op err' := by
      intro i op err' hi
      dsimp only [goes]
      intro hturn hgate
      have arrives : s.dev.Arrives { m with op := op } := ⟨hu, hs, hd, hturn⟩
      rw [hi]
      exact ⟨fun ht hnone he => State.act_of_eq
          (Dev.recvReq_opens arrives hh hgate hl ht (fun u hu h => hnone ⟨u, hu, h⟩) he err'),
        fun hbehind => State.act_of_eq (Dev.recvReq_waits arrives hh hgate hbehind err')⟩
    exact ⟨arrival rfl, arrival rfl, arrival rfl, arrival rfl, arrival rfl, arrival rfl, arrival rfl⟩
  case snoops =>
    intro ln m' reads own d e hturn hgate ht hq he ha hw hm hr h88 hpeers hexcl sori grps hosts req snp hask
    have arrives : s.dev.Arrives m' := ⟨hu, hs, hd, hturn⟩
    have trained : d = (s.dev.take m').trained m' := rfl
    obtain ⟨hmem, err', hrun⟩ := request_runs hi s
    rw [trained, Dev.gateDrops_trained] at hgate
    rw [trained, Dev.ownEviction_trained] at he
    rw [trained, Dev.waits_trained] at hw
    have opens : exec i s = .next (s.after ((s.dev.take m').openReq m' err')) := by
      rw [hrun]
      exact State.act_of_eq (Dev.recvReq_opens arrives hh hgate hl ht hq he err')
    have asks : d.snoopFor m' false = some (if reads then opSnpS else opSnpI) := by
      split
      · next h => exact Dev.snoopFor_read (m := m') h (hexcl h) false
      · next h => exact Dev.snoopFor_other (m := m') h false
    have fields : (d.asking m' err' (if reads then opSnpS else opSnpI)).sori = sori ∧
        (d.asking m' err' (if reads then opSnpS else opSnpI)).peers = [] ∧
        (d.asking m' err' (if reads then opSnpS else opSnpI)).hosts = hosts := by
      rw [Dev.asking_sori, Dev.asking_peers, Dev.asking_hosts]
      by_cases h : reads
      · simp only [sori, grps, hosts, h, if_true, true_or, decide_true, List.filter_true, msgSparesSelf_read (m := m') h]
        exact Dev.mkTxn_read d m' err' h88 (read_not_write (m := m') h)
      · simp only [sori, grps, hosts, h, if_false, false_or]
        exact Dev.mkTxn_own d m' err' _ hpeers (request_passesHost (m := m') hmem h)
    obtain ⟨fsori, fpeers, fhosts⟩ := fields
    have hsori : ∀ k ∈ sori, k < 32 := by
      intro k hk
      by_cases h : reads
      · simp only [sori, h, if_true] at hk
        split at hk
        · rw [List.mem_singleton] at hk; omega
        · simp at hk
      · simp only [sori, h, if_false] at hk
        exact mem_onesN hk
    have hreq : (if msgSparesSelf m' then m'.src else d.homeAg ln) = req := by
      simp only [req, own, msgSparesSelf, m', Bool.or_eq_true, beq_iff_eq]
    have hsnp : d.snoopTo ln (if reads then opSnpS else opSnpI) req m'.tag = snp := by
      funext a
      simp [Dev.snoopTo, snp, ln, m']
    obtain ⟨htxn, hnet, hsf⟩ := Dev.openReq_snoops trained rfl (request_not_atom (m := m') hmem) ha hw hm hr asks
      (by rw [Dev.take_txn]; exact ht) fpeers (by rwa [fsori]) (by rwa [fsori, fhosts])
    rw [fsori, fhosts, hreq, hsnp, ← List.append_assoc] at hnet
    exact ⟨_, _, opens, htxn, Dev.asking_kind .., fsori, fhosts, fpeers, hnet, hsf⟩
end

section
/-! Bytes of numbers, lines and home memory: each byte of a line, read one at a time. -/

namespace Sys2Proof.Machine

/-! ## Bytes of a number -/

theorem getLsbD_byteOf (x i j : Nat) : (byteOf x i).getLsbD j = (decide (j < 8) && x.testBit (8 * i + j)) := by
  rw [byteOf, BitVec.getLsbD_ofNat, Nat.testBit_shiftRight]

theorem byteOf_zero_left (i : Nat) : byteOf 0 i = 0 := by simp [byteOf]

theorem byteOf_div (x i : Nat) : byteOf (x / 256) i = byteOf x (i + 1) := by
  rw [byteOf, byteOf, ← Nat.shiftRight_eq_div_pow x 8, ← Nat.shiftRight_add]
  congr 2
  omega

/-- Byte `i` of the number that bytes give is the `i`-th of them. -/
theorem byteOf_leNat (bs : List Byte) (i : Nat) : byteOf (leNat bs) i = bs.getD i 0 := by
  induction bs generalizing i with
  | nil => exact byteOf_zero_left i
  | cons b bs ih =>
    cases i with
    | zero => apply BitVec.eq_of_toNat_eq; simp [leNat, byteOf]; omega
    | succ i =>
      have rest : leNat (b :: bs) / 256 = leNat bs := by have := b.isLt; simp only [leNat]; omega
      rw [← byteOf_div, rest, ih]
      rfl

theorem getD_leBytes {n i : Nat} (h : i < n) (x : Nat) : (leBytes n x).getD i 0 = byteOf x i := by
  induction n generalizing x i with
  | zero => omega
  | succ n ih =>
    cases i with
    | zero => rfl
    | succ i => rw [← byteOf_div, ← ih (by omega)]; rfl

/-- Lists of bytes of one length are the same where every byte is. -/
theorem bytes_ext {l k : List Byte} (hn : l.length = k.length) (h : ∀ i < l.length, l.getD i 0 = k.getD i 0) : l = k := by
  refine List.ext_getElem hn fun i hi hk => ?_
  have := h i hi
  rwa [List.getD_eq_getElem _ _ hi, List.getD_eq_getElem _ _ hk] at this

/-! ## Bytes of a line -/

theorem byteOf_ofNat_line {i : Nat} (h : i < 64) (x : Nat) : byteOf (BitVec.ofNat 512 x).toNat i = byteOf x i := by
  apply BitVec.eq_of_getLsbD_eq
  intro j hj
  rw [getLsbD_byteOf, getLsbD_byteOf, BitVec.testBit_toNat, BitVec.getLsbD_ofNat, decide_eq_true (show 8 * i + j < 512 by omega),
    Bool.true_and]

/-- Lines are the same where every byte is. -/
theorem line_ext {x y : Line} (h : ∀ i < 64, byteOf x.toNat i = byteOf y.toNat i) : x = y := by
  apply BitVec.eq_of_getLsbD_eq
  intro k hk
  have bit : ∀ z : Line, z.getLsbD k = (byteOf z.toNat (k / 8)).getLsbD (k % 8) := fun z => by
    rw [getLsbD_byteOf, decide_eq_true (by omega), Bool.true_and, Nat.div_add_mod, BitVec.testBit_toNat]
  rw [bit x, bit y, h _ (by omega)]

/-- A line built byte by byte. -/
theorem byteOf_line_of {i : Nat} (h : i < 64) (f : Nat → Byte) :
    byteOf (BitVec.ofNat 512 (leNat ((List.range 64).map f))).toNat i = f i := by
  rw [byteOf_ofNat_line h, byteOf_leNat, List.getD_eq_getElem _ _ (by simpa using h)]
  simp

theorem byteOf_linePatch {i : Nat} (h : i < 64) (x : Line) (off : Nat) (bs : List Byte) : byteOf (linePatch x off bs).toNat i =
    if off ≤ i ∧ i < off + bs.length then bs.getD (i - off) 0 else byteOf x.toNat i := by
  rw [linePatch, byteOf_line_of h]
  simp only [Bool.and_eq_true, decide_eq_true_eq]

theorem byteOf_mergeLine {i : Nat} (h : i < 64) (old x : Line) (mask : BitVec 64) : byteOf (mergeLine old x mask).toNat i =
    if mask.getLsbD i then byteOf x.toNat i else byteOf old.toNat i := byteOf_line_of h _

@[simp] theorem length_lineBytes (x : Line) : (lineBytes x).length = 64 := length_leBytes 64 _

theorem getD_lineBytes {i : Nat} (h : i < 64) (x : Line) : (lineBytes x).getD i 0 = byteOf x.toNat i := getD_leBytes h _

theorem length_lineSlice {off n : Nat} (h : off + n ≤ 64) (x : Line) : (lineSlice x off n).length = n := by
  rw [lineSlice, List.length_take, List.length_drop, length_lineBytes]
  omega

theorem getD_lineSlice {off n i : Nat} (h : off + n ≤ 64) (hi : i < n) (x : Line) :
    (lineSlice x off n).getD i 0 = byteOf x.toNat (off + i) := by
  rw [← getD_lineBytes (by omega) x, List.getD_eq_getElem _ _ (by rw [length_lineSlice h]; exact hi),
    List.getD_eq_getElem _ _ (by rw [length_lineBytes]; omega)]
  simp [lineSlice]

/-- What was patched into a line is what is read there. -/
theorem lineSlice_linePatch (x : Line) {off n : Nat} {bs : List Byte} (hn : bs.length = n) (h : off + n ≤ 64) :
    lineSlice (linePatch x off bs) off n = bs := by
  refine bytes_ext ((length_lineSlice h _).trans hn.symm) fun i hi => ?_
  rw [length_lineSlice h] at hi
  rw [getD_lineSlice h hi, byteOf_linePatch (by omega), if_pos (by omega), Nat.add_sub_cancel_left]

/-! ## Bytes of home memory -/

theorem Tbl.length_range {α : Type} (z : α) (t : Tbl α) (k n : Nat) : (Tbl.range z t k n).length = n := by
  induction n generalizing k with
  | zero => rfl
  | succ n ih => rw [Tbl.range, List.length_cons, ih]

theorem Tbl.getD_range {α : Type} (z : α) (t : Tbl α) (k : Nat) {n i : Nat} (h : i < n) :
    (Tbl.range z t k n).getD i z = Tbl.get z t (k + i) := by
  induction n generalizing k i with
  | zero => omega
  | succ n ih =>
    cases i with
    | zero => rfl
    | succ i => rw [Tbl.range, List.getD_cons_succ, ih _ (by omega), Nat.add_right_comm, Nat.add_assoc]

variable (d : Dev)

theorem Dev.getD_bytes (a : Nat) {n i : Nat} (h : i < n) : (d.bytes a n).getD i 0 = d.byte (a + i) := Tbl.getD_range _ _ _ h

theorem Dev.length_bytes (a n : Nat) : (d.bytes a n).length = n := Tbl.length_range _ _ _ _

theorem Dev.byteOf_line {i : Nat} (h : i < 64) (ln : Nat) : byteOf (d.line ln).toNat i = d.byte (ln * 64 + i) := by
  rw [Dev.line, byteOf_ofNat_line h, byteOf_leNat, Dev.getD_bytes _ _ h]

/-- Bytes written within a line of memory patch it. -/
theorem Dev.line_putBytes (ln off : Nat) (bs : List Byte) :
    (d.putBytes (ln * 64 + off) bs).line ln = linePatch (d.line ln) off bs := by
  refine line_ext fun i hi => ?_
  rw [Dev.byteOf_line _ hi, Dev.byte_putBytes, byteOf_linePatch hi, Dev.byteOf_line _ hi]
  by_cases hm : off ≤ i ∧ i < off + bs.length
  · rw [if_pos hm, if_pos (by omega), Nat.add_sub_add_left]
  · rw [if_neg hm, if_neg (by omega)]

/-- Bytes of a line in memory, where they lie. -/
theorem Dev.lineSlice_line {ln off n : Nat} (h : off + n ≤ 64) : lineSlice (d.line ln) off n = d.bytes (ln * 64 + off) n := by
  refine bytes_ext ((length_lineSlice h _).trans (d.length_bytes _ _).symm) fun i hi => ?_
  rw [length_lineSlice h] at hi
  rw [getD_lineSlice h hi, d.byteOf_line (by omega), d.getD_bytes _ hi, Nat.add_assoc]

/-- Bytes read back where they were written. -/
theorem Dev.bytes_putBytes (a : Nat) (bs : List Byte) : (d.putBytes a bs).bytes a bs.length = bs := by
  refine bytes_ext (Dev.length_bytes _ _ _) fun i hi => ?_
  rw [Dev.length_bytes] at hi
  rw [Dev.getD_bytes _ _ hi, Dev.byte_putBytes, if_pos (by omega), Nat.add_sub_cancel_left]

/-- A line written whole: its own bytes are those of the line, every other is as before. -/
theorem Dev.byte_putLine (ln a : Nat) (x : Line) :
    (d.putLine ln x).byte a = if a / 64 = ln then byteOf x.toNat (a % 64) else d.byte a := by
  have hlen := length_lineBytes x
  rw [Dev.putLine, Dev.byte_putBytes, hlen]
  by_cases h : a / 64 = ln
  · rw [if_pos (by omega), if_pos h, show a - ln * 64 = a % 64 by omega, getD_lineBytes (by omega)]
  · rw [if_neg (by omega), if_neg h]

end Sys2Proof.Machine
end

section
/-! Table entries as the binding unit writes them (R28, R29), and an extent's zero-fill (R38). -/

namespace Sys2Proof.Machine

variable (d : Dev)

/-! ## An entry of a table -/

/-- What picks an entry of a list picks it again after a change that it does not look at. -/
theorem find?_map_of_same {α : Type} {f : α → α} {p : α → Bool} (h : ∀ a, p (f a) = p a) (l : List α) :
    (l.map f).find? p = (l.find? p).map f := by
  rw [List.find?_map, show p ∘ f = p from funext h]

/-- A table's line as a coherent read gives it follows the write, whoever holds the line. -/
theorem Dev.freshLine_putTable (a w : Nat) :
    (d.putTable a w).freshLine (a / 64) = linePatch (d.freshLine (a / 64)) (a % 64) (leBytes 4 w) := by
  have at_home : (d.putTable a w).line (a / 64) = linePatch (d.line (a / 64)) (a % 64) (leBytes 4 w) := by
    rw [← d.line_putBytes, Nat.div_add_mod' a 64]
    rfl
  unfold Dev.freshLine
  rw [at_home]
  simp only [Dev.putTable, Dev.putBytes_coh]
  rw [find?_map_of_same (fun e => by split <;> rfl), find?_map_of_same (fun m => by split <;> rfl)]
  cases hl : d.coh.l1.find? fun e => e.1 % 2 ^ 46 == a / 64 && e.2.st == some .m with
  | some e =>
    have held := List.find?_some hl
    have present : (e.1 % 2 ^ 46 == a / 64 && e.2.st.isSome) = true := by
      simp only [Bool.and_eq_true, beq_iff_eq] at held ⊢
      exact ⟨held.1, by rw [held.2]; rfl⟩
    simp only [Option.map_some, present, if_true]
  | none =>
    cases hn : d.coh.net.find? fun m => (m.op == 0x25 || m.op == 0x43) && m.addr.toNat == a / 64 with
    | some m =>
      have carried := List.find?_some hn
      simp only [Option.map_none, Option.map_some, carried, if_true]
    | none => simp only [Option.map_none]

theorem Dev.tableEntry_putTable {a : Nat} (w : Nat) (h : a % 64 + 4 ≤ 64) : (d.putTable a w).tableEntry a = w % 256 ^ 4 := by
  rw [Dev.tableEntry, d.freshLine_putTable, lineSlice_linePatch _ (length_leBytes 4 w) h, leNat_leBytes]

/-- The entry that the binding unit wrote reads back. -/
theorem Dev.extEntry_setExt (x w : Nat) : (d.setExt x w).extEntry x = w % 256 ^ 4 := by
  have aligned : d.extAddr x % 4 = 0 := by unfold Dev.extAddr; omega
  exact d.tableEntry_putTable w (by omega)

theorem Dev.byte_setExt {x a : Nat} (w : Nat) (h : a < d.extAddr x ∨ d.extAddr x + 4 ≤ a) : (d.setExt x w).byte a = d.byte a :=
  d.byte_putBytes_other _ _ (leBytes 4 w) (by rwa [length_leBytes])

theorem Dev.setExt_mem_wf (x w : Nat) (h : Tbl.wf 0 d.pool.mem = true) : Tbl.wf 0 (d.setExt x w).pool.mem = true :=
  d.putBytes_memory_wf _ _ h

theorem extWord_lt (o st l : Nat) : extWord o st l < 256 ^ 4 := by unfold extWord; omega

/-- The fields of an entry's word. -/
theorem ext_extWord (o st l : Nat) : extOwner (extWord o st l) = o % 4096 ∧ extState (extWord o st l) = st % 8 ∧
    extLast (extWord o st l) = l % 4096 := by
  simp only [extOwner, extState, extLast, extWord, bitsN, Nat.shiftRight_eq_div_pow]
  omega

/-- The entry that was written, as a word of its fields. -/
theorem Dev.extEntry_setExt_extWord (x o st l : Nat) : (d.setExt x (extWord o st l)).extEntry x = extWord o st l := by
  rw [d.extEntry_setExt, Nat.mod_eq_of_lt (extWord_lt o st l)]

/-! ## The zero-fill -/

/-- A tag of the memory-side cache written leaves the bytes and the metadata of memory as they are. -/
theorem Dev.setMsc_mem (ln : Nat) (t : MscT) : ((d.setMsc ln t).pool.mem, (d.setMsc ln t).pool.lmeta) = (d.pool.mem, d.pool.lmeta) := by
  unfold Dev.setMsc
  dsimp only
  split_ifs <;> rfl

/-- The lines of extent `x` of device `v`. -/
def extHas (v x ln : Nat) : Bool := ln / 2 ^ 24 == v * 2 ^ 19 + x

theorem Dev.zeroExt_mem (x : Nat) : ((d.zeroExt x).pool.mem, (d.zeroExt x).pool.lmeta) =
    (Tbl.drop (fun a => extHas d.devId x (a / 64)) d.pool.mem, Tbl.drop (extHas d.devId x) d.pool.lmeta) := by
  have tags := foldl_frame (fun e : Dev => (e.pool.mem, e.pool.lmeta)) (fun d ln => d.setMsc ln MscT.none)
    (fun e ln => e.setMsc_mem ln MscT.none) ((d.pool.msc.map (·.1)).filter (extHas d.devId x)) d
  generalize he : ((d.pool.msc.map (·.1)).filter (extHas d.devId x)).foldl (fun d ln => d.setMsc ln MscT.none) d = e at tags
  have counts := foldl_frame (fun e : Dev => (e.pool.mem, e.pool.lmeta))
    (fun (d : Dev) c => d.count (1792 + 8 * (16 * hbmStack (x * 2 ^ 24) + c) + 1) (2 ^ 20)) (fun e c => by rw [Dev.count_pool]) (List.range 16) e
  simp only [Prod.mk.injEq] at tags counts
  unfold extHas at he
  simp only [Dev.zeroExt, he]
  split
  · simp only [counts, tags]; rfl
  · simp only [tags]; rfl

/-- An extent without a mirror copy is filled alone. -/
theorem Dev.zeroFill_unmirrored {x : Nat} (h : mirState (d.mirEntry x) = 0) : d.zeroFill x = d.zeroExt x := by
  simp [Dev.zeroFill, Dev.extCopies, h]

theorem Dev.byte_zeroExt (x a : Nat) : (d.zeroExt x).byte a = if extHas d.devId x (a / 64) then 0 else d.byte a := by
  obtain ⟨mem, -⟩ := Prod.mk.inj (d.zeroExt_mem x)
  rw [Dev.byte, mem, Tbl.drop, Tbl.get_filter 0 (fun a => !extHas d.devId x (a / 64))]
  cases extHas d.devId x (a / 64) <;> rfl

theorem Dev.lmeta_zeroExt {x ln : Nat} (h : extHas d.devId x ln = true) : (d.zeroExt x).lmeta ln = LMeta.clean := by
  obtain ⟨-, marks⟩ := Prod.mk.inj (d.zeroExt_mem x)
  rw [Dev.lmeta, marks, Tbl.drop, Tbl.get_filter LMeta.clean (fun ln => !extHas d.devId x ln), h]
  rfl

theorem Dev.zeroExt_mem_wf (x : Nat) (h : Tbl.wf 0 d.pool.mem = true) : Tbl.wf 0 (d.zeroExt x).pool.mem = true := by
  obtain ⟨mem, -⟩ := Prod.mk.inj (d.zeroExt_mem x)
  rw [mem]
  exact Tbl.wf_drop _ _ _ h

end Sys2Proof.Machine

open Sys2Proof.Machine in
/-- Settles O26: an extent's bytes and marks are dropped from their tables, and the lists that hold a table's line follow its write. -/
theorem zeroFillIsExact : Obligations.ZeroFillIsExact := by
  refine ⟨fun d x a _ hm => ?fill, fun d x o st l ho hs hl => ?entry⟩
  case fill =>
    have within : extHas d.devId x (a / 64) = true ↔ a / 2 ^ 30 = d.devId * 2 ^ 19 + x := by
      rw [extHas, beq_iff_eq, Nat.div_div_eq_div_mul, show 64 * 2 ^ 24 = 2 ^ 30 from rfl]
    rw [d.zeroFill_unmirrored hm, ne_eq, ← within]
    refine ⟨fun h => ⟨?_, ?_⟩, fun h => ?_, d.zeroExt_mem_wf x⟩
    · rw [d.byte_zeroExt, if_pos h]
    · rw [d.lmeta_zeroExt h]; rfl
    · rw [d.byte_zeroExt, if_neg h]
  case entry =>
    obtain ⟨owner, state, last⟩ := ext_extWord o st l
    refine ⟨?_, ?_, ?_, fun a => d.byte_setExt _, d.setExt_mem_wf _ _⟩
    · rw [d.extEntry_setExt_extWord, owner, Nat.mod_eq_of_lt ho]
    · rw [d.extEntry_setExt_extWord, state, Nat.mod_eq_of_lt hs]
    · rw [d.extEntry_setExt_extWord, last, Nat.mod_eq_of_lt hl]
end

section
/-! What a read of home memory, of a table and of an effective address leaves alone (R33, R98, R201). -/

namespace Sys2Proof.Machine

/-- `e` is `d` with other counters and other candidates for retirement: what a read of one copy can reach (R98, R103). -/
def Dev.Tallied (d e : Dev) : Prop := e = { d with ctr := e.ctr, pool := { d.pool with cand := e.pool.cand } }

/-- A page's candidacy is kept apart from what memory holds. -/
theorem Dev.candidate_eq (d : Dev) (ln : Nat) : ∃ c, d.candidate ln = { d with pool := { d.pool with cand := c } } := by
  unfold Dev.candidate
  split
  · exact ⟨_, rfl⟩
  · exact ⟨_, Eq.refl _⟩

namespace Dev.Tallied

variable {d e u : Dev}

theorem refl (d : Dev) : d.Tallied d := rfl

theorem trans (h : d.Tallied e) (k : e.Tallied u) : d.Tallied u := by
  unfold Dev.Tallied at *
  rw [k, h]

theorem ite {c : Prop} [Decidable c] {a b : Dev} (h : d.Tallied a) (k : d.Tallied b) : d.Tallied (if c then a else b) := by
  split
  · exact h
  · exact k

theorem csr (h : d.Tallied e) : e.csr = d.csr := by rw [h]
theorem coh (h : d.Tallied e) : e.coh = d.coh := by rw [h]
theorem byte (h : d.Tallied e) (a : Nat) : e.byte a = d.byte a := by rw [h]; rfl
theorem lnKind (h : d.Tallied e) (ln : Nat) : e.lnKind ln = d.lnKind ln := by rw [h]; rfl
theorem remote (h : d.Tallied e) (ln : Nat) : e.remote ln = d.remote ln := by rw [h]; rfl
theorem partnerOf (h : d.Tallied e) (ln : Nat) : e.partnerOf ln = d.partnerOf ln := by rw [h]; rfl

theorem hbmOp (d : Dev) (ln k : Nat) : d.Tallied (d.hbmOp ln k) := by
  unfold Dev.hbmOp
  split <;> rfl

theorem countErr (d : Dev) (ln : Nat) (ue : Bool) : d.Tallied (d.countErr ln ue) := by
  unfold Dev.countErr
  split <;> rfl

theorem candidate (d : Dev) (ln : Nat) : d.Tallied (d.candidate ln) := by
  obtain ⟨c, e⟩ := d.candidate_eq ln
  rw [e]
  rfl

theorem readOne (d : Dev) (ln : Nat) (err : BitVec 560) : d.Tallied (d.readOne ln err).2 := by
  have counted := hbmOp d ln 0
  have corrected : ∀ e, Dev.Tallied e ((e.countErr ln false).candidate ln) := fun e => (countErr _ _ _).trans (candidate _ _)
  unfold Dev.readOne
  dsimp only
  generalize d.hbmOp ln 0 = e at counted
  split
  · exact counted
  · split
    · cases rsRead false (e.line ln) 0 err with
      | clean x md ce => exact counted.trans (ite (corrected e) (refl _))
      | poison x md ce => exact counted
      | bad => exact counted.trans (countErr _ _ _)
    · cases rsRead (d.lmeta ln).psn (e.line ln) (e.mdOf ln) err with
      | clean x md ce => exact counted.trans (ite (corrected e) (refl _))
      | poison x md ce => exact counted.trans (ite (corrected e) (refl _))
      | bad => exact counted.trans (countErr _ _ _)

end Dev.Tallied

/-- `e` is `d` with other memory, registers, counters and cached leaves, and with other requests of the device's own units: what
reading through the homes can reach. Strands, lines, holders and messages on their way stand. -/
def Dev.Looked (d e : Dev) : Prop :=
  e = { d with csr := e.csr, fresh := e.fresh, ctr := e.ctr, pool := e.pool, bind := e.bind,
               coh := { d.coh with own := e.coh.own, need := e.coh.need } }

namespace Dev.Looked

variable {d e u : Dev}

theorem refl (d : Dev) : d.Looked d := rfl

theorem trans (h : d.Looked e) (k : e.Looked u) : d.Looked u := by
  unfold Dev.Looked at *
  rw [k, h]

theorem sor (h : d.Looked e) : e.sor = d.sor := by rw [h]
theorem str (h : d.Looked e) (t : Nat) : e.str t = d.str t := by rw [h]; rfl
theorem net (h : d.Looked e) : e.coh.net = d.coh.net := by rw [h]
theorem lines (h : d.Looked e) : e.coh.l1 = d.coh.l1 := by rw [h]

theorem ite {c : Prop} [Decidable c] {a b : Dev} (h : d.Looked a) (k : d.Looked b) : d.Looked (if c then a else b) := by
  split
  · exact h
  · exact k

theorem binding (d : Dev) (b : Bind) : d.Looked { d with bind := b } := rfl

theorem ofTallied (h : d.Tallied e) : d.Looked e := by
  unfold Dev.Looked
  rw [h]

/-! ## Reads of home memory -/

theorem hbmOp (d : Dev) (ln k : Nat) : d.Looked (d.hbmOp ln k) := ofTallied (.hbmOp _ _ _)

theorem readOne (d : Dev) (ln : Nat) (err : BitVec 560) : d.Looked (d.readOne ln err).2 := ofTallied (.readOne _ _ _)

theorem mscTouch (d : Dev) (ln : Nat) : d.Looked (d.mscTouch ln) := rfl

theorem setMeta (d : Dev) (ln : Nat) (m : LMeta) : d.Looked (d.setMeta ln m) := rfl

theorem putLine (d : Dev) (ln : Nat) (x : Line) : d.Looked (d.putLine ln x) := rfl

theorem setReg (d : Dev) (r : FRef) (v : Word) : d.Looked (d.setReg r v) := rfl

theorem setF (d : Dev) (r : FRef) (v : Nat) : d.Looked (d.setF r v) := rfl

theorem raise (d : Dev) (k det : Nat) : d.Looked (d.raise k det) := by
  unfold Dev.raise
  exact ite (refl _) (ite (setReg _ _ _) (((setReg _ _ _).trans (setReg _ _ _)).trans (setF _ _ _)))

theorem raiseFpa (d : Dev) (k det j ln : Nat) : d.Looked (d.raiseFpa k det j ln) :=
  (ite (refl _) (setF _ _ _)).trans (raise _ _ _)

theorem reconcile (d : Dev) (c q : Nat) : d.Looked (d.reconcile c q) := by
  unfold Dev.reconcile
  dsimp only
  split_ifs
  · exact (((putLine _ _ _).trans (setMeta _ _ _)).trans (hbmOp _ _ _)).trans (raiseFpa _ _ _ _ _)
  · exact (((putLine _ _ _).trans (setMeta _ _ _)).trans (hbmOp _ _ _)).trans (raiseFpa _ _ _ _ _)
  · exact (setMeta _ _ _).trans (hbmOp _ _ _)
  · rfl

theorem homeRead (d : Dev) (ln : Nat) (err : BitVec 560) : d.Looked (d.homeRead ln err).2 := by
  unfold Dev.homeRead
  split
  · rfl
  split
  case h_1 =>
    have read := (mscTouch d ln).trans (readOne (d.mscTouch ln) ln err)
    dsimp only
    split
    case h_1 r e he => rw [he] at read; exact read
    case h_2 e he => rw [he] at read; exact read.trans (setMeta _ _ _)
  case h_2 =>
    have first := readOne d (d.readCopy ln) err
    dsimp only
    split
    case h_1 r e he =>
      rw [he] at first
      split
      · exact first
      case h_2 q hq =>
        have second := first.trans (readOne e q 0)
        split
        case h_1 y u hu =>
          rw [hu] at second
          split
          · exact second
          · dsimp only at second ⊢
            exact second.trans (reconcile _ _ _)
        case h_2 u hu =>
          rw [hu] at second
          exact second.trans (ite (refl _) (((putLine _ _ _).trans (setMeta _ _ _)).trans (hbmOp _ _ _)))
    case h_2 e he =>
      rw [he] at first
      split
      case h_1 q hq =>
        have second := first.trans (readOne e q 0)
        split
        case h_1 r u hu =>
          rw [hu] at second
          split
          · exact second.trans (setMeta _ _ _)
          · exact second.trans (ite (refl _) (((putLine _ _ _).trans (setMeta _ _ _)).trans (hbmOp _ _ _)))
        case h_2 u hu =>
          rw [hu] at second
          exact second.trans ((setMeta _ _ _).trans (setMeta _ _ _))
      case h_2 =>
        split
        · exact first
        · exact first.trans (setMeta _ _ _)

/-! ## Reads by the device's own units -/

theorem ownAsk {o : Own} {m : Msg} {ready : Bool} {k : Dev → Msg × Dev} (h : d.Looked (k d).2) : d.Looked (d.ownAsk o m ready k).2 := by
  rcases d.ownAsk_cases o m ready k with ⟨r, a, -, -, e⟩ | ⟨e, -⟩ | ⟨-, -, -, e⟩
  · rw [e]; rfl
  · rw [e]; rfl
  · rw [e]
    split
    · rfl
    · exact h

theorem cohRead (d : Dev) (o : Own) (ln : Nat) : d.Looked (d.cohRead o ln).2 := by
  have read : d.Looked (if d.lostExp ln then ((⟨0, true, 8, 0⟩ : LRead), d) else d.homeRead ln 0).2 := by
    split
    · exact refl _
    · exact homeRead _ _ _
  unfold Dev.cohRead
  exact ownAsk read

theorem tableWord (d : Dev) (o : OwnFor) (a : Nat) : d.Looked (d.tableWord o a).2 := by
  unfold Dev.tableWord
  exact cohRead _ _ _

theorem walk (d : Dev) (o : OwnFor) (n page : Nat) : d.Looked (d.walk o n page).2 := by
  unfold Dev.walk
  dsimp only
  split_ifs
  · rfl
  · exact tableWord _ _ _
  · exact (tableWord _ _ _).trans (tableWord _ _ _)
  · exact (tableWord _ _ _).trans (tableWord _ _ _)

theorem pick {α : Type} (d : Dev) (l : List α) : d.Looked (d.pick l).2 := by
  unfold Dev.pick
  split <;> rfl

theorem leaf (d : Dev) (o : OwnFor) (unit n page : Nat) : d.Looked (d.leaf o unit n page).2 := by
  unfold Dev.leaf
  dsimp only
  split
  · rfl
  · have walked := walk d o n page
    split
    case h_1 e hw => rw [hw] at walked; exact walked
    case h_2 x e hw =>
      rw [hw] at walked
      refine walked.trans (trans ?_ (binding _ _))
      split
      · rfl
      · exact pick _ _

theorem translate (d : Dev) (o : OwnFor) (unit n sa : Nat) (q : Want) : d.Looked (d.translate o unit n sa q).2 := by
  unfold Dev.translate
  split
  · rfl
  · have found := leaf d o unit n (sa / 2 ^ 21)
    split
    case h_1 x e hl => rw [hl] at found; exact found
    case h_2 e hl => rw [hl] at found; exact found

theorem eaOf (d : Dev) (t ea : Nat) (q : Want) : d.Looked (d.eaOf t ea q).2 := by
  unfold Dev.eaOf
  dsimp only
  split
  · rfl
  · split
    · rfl
    · have found := translate d (.strand t) (sorusUnit (sorusOf t)) (d.str t).slice ea q
      split
      case h_1 x e hl => rw [hl] at found; exact found
      case h_2 e hl => rw [hl] at found; exact found

/-- What an effective address comes to without waiting. -/
theorem leads {t ea : Nat} {q : Want} {a : Ea} (h : d.leads t ea q = (some a, e)) : d.Looked e := by
  rcases d.tryOwn_cases fun d => d.eaOf t ea q with hd | ⟨o, m, hw⟩
  · rw [Dev.leads, hd] at h
    obtain ⟨-, rfl⟩ := Prod.mk.inj h
    have found : d.Looked _ := trans (e := d.noNeed) rfl (eaOf d.noNeed t ea q)
    exact found.trans rfl
  · rw [Dev.leads, hw] at h
    cases h

end Dev.Looked

end Sys2Proof.Machine
end

section
/-! An access of a strand by what its effective address comes to (R195, R201), and the loads that the L1D or the store buffer serves
(R202–R204). -/

namespace Sys2Proof.Machine

/-! ## Bytes gathered one by one -/

theorem getD_map_range {α : Type} (f : Nat → α) (n i : Nat) (z : α) :
    ((List.range n).map f).getD i z = if i < n then f i else z := by
  by_cases h : i < n
  · rw [List.getD_eq_getElem _ _ (by simpa using h), if_pos h]; simp
  · rw [List.getD_eq_default _ _ (by simpa using h), if_neg h]

/-- A bit of a word made of bytes. -/
theorem getLsbD_w64_leNat (l : List Byte) {i j : Nat} (hi : i < 8) (hj : j < 8) :
    (w64 (leNat l)).getLsbD (8 * i + j) = (l.getD i 0).getLsbD j := by
  rw [← byteOf_leNat, getLsbD_byteOf, w64, BitVec.getLsbD_ofNat, decide_eq_true hj, decide_eq_true (by omega)]

theorem getLsbD_gathered (g : Nat → Byte) (n : Nat) {i j : Nat} (hi : i < 8) (hj : j < 8) :
    (w64 (leNat ((List.range n).map g))).getLsbD (8 * i + j) = (decide (i < n) && (g i).getLsbD j) := by
  rw [getLsbD_w64_leNat _ hi hj, getD_map_range]
  by_cases hin : i < n
  · rw [if_pos hin, decide_eq_true hin, Bool.true_and]
  · rw [if_neg hin, decide_eq_false hin]; simp

/-- The `n` bytes of a line from `o` on, as a word extended with zeros. -/
theorem getLsbD_loaded (y : Line) (o n : Nat) {i : Nat} (hi : i < 64) :
    (w64 (leNat ((List.range n).map fun k => byteOf y.toNat (o + k)))).getLsbD i = (decide (i < 8 * n) && y.getLsbD (8 * o + i)) := by
  have split : 8 * (i / 8) + i % 8 = i := Nat.div_add_mod i 8
  have within : (i / 8 < n) = (i < 8 * n) := propext (by omega)
  rw [← split, getLsbD_gathered _ n (by omega) (by omega), getLsbD_byteOf, decide_eq_true (show i % 8 < 8 by omega), split,
    BitVec.testBit_toNat, Bool.true_and, show 8 * (o + i / 8) + i % 8 = 8 * o + i by omega]
  simp only [within]

/-! ## Effective addresses -/

section Access

variable {d e : Dev} {t ea n fpa c : Nat} {q : Want} (k : Nat → Dev → Dev)

theorem Dev.access_misaligned (ha : ea % n ≠ 0) : d.access t ea n q k = d.strandFault t cALIGN (ea % 2 ^ 52) := by
  simp only [Dev.access, bne_iff_ne, ne_eq, ha, not_false_eq_true, if_true]

variable (ha : ea % n = 0)
include ha

theorem Dev.access_ok (h : d.leads t ea q = (some (.ok fpa), e)) : d.access t ea n q k = k fpa e := by
  rw [Dev.leads] at h
  simp only [Dev.access, ha, bne_self_eq_false, Bool.false_eq_true, if_false, h]

theorem Dev.access_fault (h : d.leads t ea q = (some (.fault c), e)) :
    d.access t ea n q k = e.strandFault t c (ea % 2 ^ 52) := by
  rw [Dev.leads] at h
  simp only [Dev.access, ha, bne_self_eq_false, Bool.false_eq_true, if_false, h]

theorem Dev.access_waits (h : d.leads t ea q = (none, e)) : d.access t ea n q k = e.waitOn t (.hold 2) := by
  rw [Dev.leads] at h
  simp only [Dev.access, ha, bne_self_eq_false, Bool.false_eq_true, if_false, h]

end Access

/-- An access that completes while its strand is not being stopped gives its result. -/
theorem Dev.finishAccess_running {d : Dev} {t : Nat} (h : (d.str t).stop = 0) (k : Dev → Dev) : d.finishAccess t k = k d := by
  simp [Dev.finishAccess, h]

/-! ## LD -/

/-- A Frond's stores reach a byte only where they overlap it. -/
theorem Dev.sbByte_untouched {d : Dev} {p a : Nat} (h : ∀ e ∈ d.sor.sb, e.p = p → e.fpa + e.bs.length ≤ a ∨ a < e.fpa) (t : Nat) :
    d.sbByte p t a = .none := by
  have none_hit : (d.sor.sb.filter fun e => e.p == p && e.fpa ≤ a && a < e.fpa + e.bs.length) = [] := by
    rw [List.filter_eq_nil_iff]
    intro e he hit
    simp only [Bool.and_eq_true, beq_iff_eq, decide_eq_true_eq] at hit
    have := h e he hit.1.1
    omega
  rw [Dev.sbByte, none_hit]
  rfl

/-- A byte of the store that was buffered last is read from it by its own strand. -/
theorem Dev.sbByte_last {d : Dev} {p t a : Nat} {xs : List SbE} {e : SbE} (hs : d.sor.sb = xs ++ [e]) (hp : e.p = p) (ht : e.t = t)
    (h₁ : e.fpa ≤ a) (h₂ : a < e.fpa + e.bs.length) : d.sbByte p t a = .mine (e.bs.getD (a - e.fpa) 0) := by
  simp [Dev.sbByte, hs, hp, ht, h₁, h₂]

section Ld

variable {d : Dev} {t rd n fpa : Nat} (hpost : d.postOn t (fpa / 64) = false) (hstop : (d.str t).stop = 0)
include hpost hstop

/-- A load of bytes that no store of the Frond reaches is served from a line held without poison. -/
theorem Dev.ldGo_held {st : L1St} (hn : 0 < n) (hst : (d.l1 (d.physOf t) (fpa / 64)).st = some st)
    (hh : st = .m ∨ st = .o ∨ st = .e ∨ st = .s) (hpsn : (d.l1 (d.physOf t) (fpa / 64)).psn = false)
    (hsb : ∀ e ∈ d.sor.sb, e.p = d.physOf t → e.fpa + e.bs.length ≤ fpa ∨ fpa + n ≤ e.fpa) (va : Nat) :
    d.ldGo t rd n fpa va true = (d.frEvent (d.physOf t) 4 1).give t rd
      (w64 (leNat ((List.range n).map fun i => byteOf (d.l1 (d.physOf t) (fpa / 64)).data.toNat (fpa % 64 + i)))) := by
  have untouched : ((List.range n).map fun i => d.sbByte (d.physOf t) t (fpa + i)) = (List.range n).map fun _ => SbByte.none := by
    refine List.map_congr_left fun i hi => Dev.sbByte_untouched (fun e he hp => ?_) t
    have hlt := List.mem_range.1 hi
    have := hsb e he hp
    omega
  have not_covered : ((List.range n).map fun _ => SbByte.none).any (· == .covered) = false := by simp
  have none_of : ∀ i, ((List.range n).map fun _ => SbByte.none).getD i .none = .none := fun i => by
    rw [getD_map_range]; split <;> rfl
  simp only [Dev.ldGo, untouched, not_covered, hpost, none_of, hst, hpsn, Bool.or_self, Bool.false_eq_true, if_false,
    Dev.finishAccess_running hstop, if_true]
  rw [if_neg]
  · rcases hh with rfl | rfl | rfl | rfl <;> rfl
  · simp [hn.ne']

/-- A load of bytes that the strand's own last store holds gets them from it. -/
theorem Dev.ldGo_buffered {xs : List SbE} {e : SbE} (hs : d.sor.sb = xs ++ [e]) (hp : e.p = d.physOf t) (ht : e.t = t)
    (h₁ : e.fpa ≤ fpa) (h₂ : fpa + n ≤ e.fpa + e.bs.length) (va : Nat) :
    d.ldGo t rd n fpa va true = d.give t rd (w64 (leNat ((List.range n).map fun i => e.bs.getD (fpa - e.fpa + i) 0))) := by
  have own : ((List.range n).map fun i => d.sbByte (d.physOf t) t (fpa + i)) =
      (List.range n).map fun i => SbByte.mine (e.bs.getD (fpa - e.fpa + i) 0) := by
    refine List.map_congr_left fun i hi => ?_
    have hlt := List.mem_range.1 hi
    rw [Dev.sbByte_last hs hp ht (by omega) (by omega), show fpa + i - e.fpa = fpa - e.fpa + i by omega]
  have not_covered : ((List.range n).map fun i => SbByte.mine (e.bs.getD (fpa - e.fpa + i) 0)).any (· == .covered) = false := by simp
  simp only [Dev.ldGo, own, not_covered, hpost, Bool.or_self, Bool.false_eq_true, if_false, Dev.finishAccess_running hstop]
  rw [if_pos (by simp)]
  congr 3
  refine List.map_congr_left fun i hi => ?_
  rw [getD_map_range, if_pos (List.mem_range.1 hi)]

end Ld

/-! ## LDL -/

/-- Without a buffered store of its own to the line, a strand reads the line as it is. -/
theorem Dev.ownLine_unstored {d : Dev} {t ln : Nat} (h : ∀ e ∈ d.sor.sb, e.t = t → e.fpa / 64 ≠ ln) (y : Line) :
    d.ownLine t ln y = some y := by
  have none_own : (d.sor.sb.any fun e => e.t == t && e.fpa / 64 == ln) = false := by simpa using h
  simp [Dev.ownLine, none_own]

section Ldl

variable {d : Dev} {t fpa : Nat} (hpost : d.postOn t (fpa / 64) = false)
  (hsb : ∀ e ∈ d.sor.sb, e.t = t → e.fpa / 64 ≠ fpa / 64)
include hpost hsb

/-- A line held without poison, exclusively where the hint is OWN, is read at once. -/
theorem Dev.ldlGo_held {st : L1St} {hint : Nat} (hst : (d.l1 (d.physOf t) (fpa / 64)).st = some st)
    (hh : st = .m ∨ st = .e ∨ hint ≠ 2 ∧ (st = .o ∨ st = .s)) (hpsn : (d.l1 (d.physOf t) (fpa / 64)).psn = false)
    (hstop : (d.str t).stop = 0) (rd va : Nat) :
    d.ldlGo t rd fpa va hint 0 =
      ((if hint = 2 ∧ st = .e then d.setL1 (d.physOf t) (fpa / 64) { d.l1 (d.physOf t) (fpa / 64) with st := some .m } else d).countLook
        t true).giveLine t rd (d.l1 (d.physOf t) (fpa / 64)).data := by
  rcases hh with rfl | rfl | ⟨hint_ne, rfl | rfl⟩ <;>
    simp [Dev.ldlGo, Dev.ownLine_unstored hsb, Dev.finishAccess_running hstop, *]

/-- With hint OWN a line that is shared is asked for with Upg. -/
theorem Dev.ldlGo_upgrades (hst : (d.l1 (d.physOf t) (fpa / 64)).st = some .s ∨ (d.l1 (d.physOf t) (fpa / 64)).st = some .o)
    (hpsn : (d.l1 (d.physOf t) (fpa / 64)).psn = false)
    (hv : d.check fpa (strDom (d.str t).priv) .rd (d.str t).slice = .ok) (rd va : Nat) :
    d.ldlGo t rd fpa va 2 0 =
      ((d.setL1 (d.physOf t) (fpa / 64) { d.l1 (d.physOf t) (fpa / 64) with st := some .sm }).frReqC (d.physOf t) opUpg (fpa / 64)
        (d.str t).slice (d.str t).priv 6).waitOn t (.ldl rd fpa va 2 0) := by
  rcases hst with hst | hst <;> simp [Dev.ldlGo, hpost, Dev.ownLine_unstored hsb, hst, hpsn, hv]

/-- A line that the L1D does not hold, with RdX where its set has room. -/
theorem Dev.ldlGo_fetches (hst : (d.l1 (d.physOf t) (fpa / 64)).st = none)
    (hv : d.check fpa (strDom (d.str t).priv) .rd (d.str t).slice = .ok)
    (hroom : (d.l1Mates (d.physOf t) (fpa / 64)).length < 8) (rd va : Nat) :
    d.ldlGo t rd fpa va 2 0 =
      (((d.countLook t false).setL1 (d.physOf t) (fpa / 64) { L1Line.none with st := some .im }).frReqC (d.physOf t) opRdX (fpa / 64)
        (d.str t).slice (d.str t).priv 6).waitOn t (.ldl rd fpa va 2 0) := by
  have room : (d.countLook t false).l1Room (d.physOf t) (fpa / 64) = (true, d.countLook t false) := by
    have same : (d.countLook t false).l1Mates (d.physOf t) (fpa / 64) = d.l1Mates (d.physOf t) (fpa / 64) := by
      unfold Dev.countLook; split <;> rfl
    simp only [Dev.l1Room, same, hroom, if_true]
  simp [Dev.ldlGo, hpost, Dev.ownLine_unstored hsb, hst, hv, room]

end Ldl

/-! ## A Frond's request for a line -/

theorem homeOf_lt (ln : Nat) : homeOf ln < 64 :=
  Nat.xor_lt_two_pow (n := 6) (Nat.xor_lt_two_pow (Nat.xor_lt_two_pow (bitsN_lt ..) (bitsN_lt ..)) (bitsN_lt ..)) (bitsN_lt ..)

/-- A line's home, or its shadow home, is an agent of this device. -/
theorem Dev.agDev_homeAg (d : Dev) (ln : Nat) : agDev (d.homeAg ln) = d.devId :=
  d.agDev_ag (by have := homeOf_lt ln; omega)

/-- It is one message more on its way, and counted. -/
theorem Dev.frReqC_eq (d : Dev) (p : Nat) (op : BitVec 6) (ln n : Nat) (priv : Bool) (i : Nat) : ∃ m c,
    d.frReqC p op ln n priv i = { d with coh := { d.coh with net := d.coh.net ++ [m] }, ctr := c } ∧
    m.op = op ∧ m.src = d.ag p ∧ m.addr = BitVec.ofNat 46 ln := by
  have counted : d.Counted (d.countReq n priv i) := by unfold Dev.countReq; split <;> rfl
  unfold Dev.frReqC
  dsimp only
  generalize d.countReq n priv i = e at counted
  rw [Dev.send_of_local (e.agDev_homeAg ln), counted]
  exact ⟨_, _, rfl, rfl, rfl, rfl⟩

/-- A strand that waits for a line it has asked for: the request is on its way, the line is on its way to the Frond, and the strand
stays where it is. -/
theorem Dev.asked_for {d e : Dev} {t ln p n i : Nat} {op : BitVec 6} {y : L1Line} {priv : Bool} {w : Wait}
    (hnet : e.coh.net = d.coh.net) (hcsr : e.csr = d.csr) (hstr : e.str t = d.str t) :
    let u := ((e.setL1 p ln y).frReqC p op ln n priv i).waitOn t w
    ∃ m, u.coh.net = d.coh.net ++ [m] ∧ m.op = op ∧ m.src = d.ag p ∧ m.addr = BitVec.ofNat 46 ln ∧ u.l1 p ln = y ∧
      (u.str t).wait = w ∧ (u.str t).pc = (d.str t).pc := by
  obtain ⟨m, c, request, hop, hsrc, haddr⟩ := (e.setL1 p ln y).frReqC_eq p op ln n priv i
  have ag_eq : (e.setL1 p ln y).ag p = d.ag p := Dev.ag_congr hcsr p
  intro u
  have u_eq : u = Dev.waitOn { e.setL1 p ln y with coh := { (e.setL1 p ln y).coh with net := e.coh.net ++ [m] }, ctr := c } t w :=
    congrArg (fun d => d.waitOn t w) request
  have strand : u.str t = { e.str t with wait := w } := by rw [u_eq]; exact Dev.str_setStr_same _ _ _
  refine ⟨m, ?_, hop, hsrc.trans ag_eq, haddr, ?_, ?_, ?_⟩
  · rw [u_eq, ← hnet]; rfl
  · rw [u_eq]; exact Tbl.get_put_same _ _ _ _
  · rw [strand]
  · rw [strand, hstr]

theorem blockReg_of {r : BitVec 5} (h : r = 8 ∨ r = 16 ∨ r = 24) : blockReg r = true := by
  rcases h with rfl | rfl | rfl <;> rfl

/-! ## The commands -/

section Commands

variable {s : State} {t : StrandIx} {f : FM} {d : Dev} {fpa c : Nat} (hi : s.dev.issues t = true)
include hi

/-- A load or store whose address does not fit its size. -/
theorem exec_misaligned (ha : s.dev.eaM t f % 2 ^ f.sz.toNat ≠ 0) :
    exec (.ld t f) s = .next (s.after (s.dev.strandFault t cALIGN (s.dev.eaM t f % 2 ^ 52))) ∧
    exec (.st t f) s = .next (s.after (s.dev.strandFault t cALIGN (s.dev.eaM t f % 2 ^ 52))) := by
  rw [exec_ld, exec_st]
  exact ⟨State.act_of_eq ((s.dev.issue_legal hi _).trans (Dev.access_misaligned _ ha)),
    State.act_of_eq ((s.dev.issue_legal hi _).trans (Dev.access_misaligned _ ha))⟩

section Ld

variable (ha : s.dev.eaM t f % 2 ^ f.sz.toNat = 0)
include ha

/-- The walk of its address leaves the strand as it is, so that the load goes on with the address it has formed. -/
theorem exec_ld_ok (hl : s.dev.leads t (s.dev.eaM t f) .r = (some (.ok fpa), d)) :
    exec (.ld t f) s = .next (s.after (d.ldGo t f.rd.toNat (2 ^ f.sz.toNat) fpa (s.dev.eaM t f) true)) := by
  have ea_eq : d.eaM t f = s.dev.eaM t f := by unfold Dev.eaM; rw [(Dev.Looked.leads hl).str]
  rw [exec_ld, ← ea_eq]
  exact State.act_of_eq ((s.dev.issue_legal hi _).trans (Dev.access_ok _ ha hl))

theorem exec_ld_waits (hl : s.dev.leads t (s.dev.eaM t f) .r = (none, d)) :
    exec (.ld t f) s = .next (s.after (d.waitOn t (.hold 2))) := by
  rw [exec_ld]
  exact State.act_of_eq ((s.dev.issue_legal hi _).trans (Dev.access_waits _ ha hl))

theorem exec_ld_faults (hl : s.dev.leads t (s.dev.eaM t f) .r = (some (.fault c), d)) :
    exec (.ld t f) s = .next (s.after (d.strandFault t c (s.dev.eaM t f % 2 ^ 52))) := by
  rw [exec_ld]
  exact State.act_of_eq ((s.dev.issue_legal hi _).trans (Dev.access_fault _ ha hl))

end Ld

theorem exec_ldl_ok (hr : f.rd = 8 ∨ f.rd = 16 ∨ f.rd = 24) (hz : f.sz ≠ 3) (ha : s.dev.eaM t f % 64 = 0)
    (hl : s.dev.leads t (s.dev.eaM t f) .r = (some (.ok fpa), d)) :
    exec (.ldl t f) s = .next (s.after (d.ldlGo t f.rd.toNat fpa (s.dev.eaM t f) f.sz.toNat 0)) := by
  have legal : (!blockReg f.rd || f.sz == 3) = false := by
    rw [blockReg_of hr, Bool.not_true, Bool.false_or]
    exact beq_eq_false_iff_ne.2 hz
  have ea_eq : d.eaM t f = s.dev.eaM t f := by unfold Dev.eaM; rw [(Dev.Looked.leads hl).str]
  rw [exec_ldl, ← ea_eq]
  refine State.act_of_eq ?_
  rw [legal]
  exact (s.dev.issue_legal hi _).trans (Dev.access_ok _ ha hl)

end Commands

end Sys2Proof.Machine

open Sys2Proof.Machine in
/-- Settles O39: by what the effective address comes to, then by what the L1D and the store buffer hold of the line. -/
theorem loadsThatHit : Obligations.LoadsThatHit := by
  refine ⟨?held, ?line, ?buffered, ?own, ?waits, ?misaligned, ?faults⟩
  case held =>
    intro s t f fpa d st hi n l ha hl hst hh hpsn hsb hpost hstop
    exact ⟨_, by rw [exec_ld_ok hi ha hl, Dev.ldGo_held hpost hstop (Nat.two_pow_pos _) hst hh hpsn hsb],
      fun i => getLsbD_loaded _ _ _⟩
  case line =>
    intro s t f fpa d hi hr hz ha hl ⟨⟨st, hst, hh⟩, hpsn, hsb, hpost, hstop⟩
    have hint_ne : f.sz.toNat ≠ 2 := by omega
    have read_at_once : st = .m ∨ st = .e ∨ f.sz.toNat ≠ 2 ∧ (st = .o ∨ st = .s) := by tauto
    have hint_legal : f.sz ≠ 3 := by rintro h; rw [h] at hz; exact absurd hz (by decide)
    rw [exec_ldl_ok hi hr hint_legal ha hl, Dev.ldlGo_held hpost hsb hst read_at_once hpsn hstop, if_neg (fun h => hint_ne h.1)]
    rfl
  case buffered =>
    intro s t f fpa d xs e hi n ha hl hs hp ht h₁ h₂ hpost hstop
    exact ⟨_, by rw [exec_ld_ok hi ha hl, Dev.ldGo_buffered hpost hstop hs hp ht h₁ h₂],
      fun i hi j hj => getLsbD_gathered _ _ hi hj⟩
  case own =>
    intro s t f fpa d hi hr hz ha hl hstop hpost hsb p ln x l asks
    have size : f.sz.toNat = 2 := by rw [hz]; rfl
    have goes : exec (.ldl t f) s = .next (s.after (d.ldlGo t f.rd.toNat fpa (s.dev.eaM t f) 2 0)) := by
      rw [exec_ldl_ok hi hr (by rw [hz]; decide) ha hl, size]
    refine ⟨fun hst hpsn => ?modified, fun hst hpsn => ?exclusive, fun hv => ⟨fun hst hpsn => ?shared, fun hst hroom => ?absent⟩⟩
    case modified =>
      rw [goes, Dev.ldlGo_held hpost hsb hst (.inl rfl) hpsn hstop, if_neg (by decide)]
    case exclusive =>
      rw [goes, Dev.ldlGo_held hpost hsb hst (.inr (.inl rfl)) hpsn hstop, if_pos (by decide)]
    case shared =>
      obtain ⟨m, hnet, hop, hsrc, haddr, hline, hwait, hpc⟩ := Dev.asked_for (d := d) (e := d) (t := t) (ln := ln) (p := p)
        (n := x.slice) (i := 6) (op := opUpg) (y := { l with st := some .sm }) (priv := x.priv)
        (w := .ldl f.rd.toNat fpa (s.dev.eaM t f) 2 0) rfl rfl rfl
      exact ⟨_, m, goes.trans (by rw [Dev.ldlGo_upgrades hpost hsb hst hpsn hv]), hnet, hop, hsrc, haddr, congrArg L1Line.st hline, hwait, hpc⟩
    case absent =>
      have counted : d.Counted (d.countLook t false) := by unfold Dev.countLook; split <;> rfl
      obtain ⟨m, hnet, hop, hsrc, haddr, hline, hwait, hpc⟩ := Dev.asked_for (d := d) (e := d.countLook t false) (t := t) (ln := ln)
        (p := p) (n := x.slice) (i := 6) (op := opRdX) (y := { L1Line.none with st := some .im }) (priv := x.priv)
        (w := .ldl f.rd.toNat fpa (s.dev.eaM t f) 2 0) (by rw [counted]) (by rw [counted]) (by rw [counted]; rfl)
      exact ⟨_, m, goes.trans (by rw [Dev.ldlGo_fetches hpost hsb hst hv hroom]), hnet, hop, hsrc, haddr, congrArg L1Line.st hline, hwait, hpc⟩
  case waits => exact fun s t f d hi ha hl => exec_ld_waits hi ha hl
  case misaligned => exact fun s t f hi ha => exec_misaligned hi ha
  case faults => exact fun s t f c d hi ha hl => exec_ld_faults hi ha hl
end

section
/-! A store made in the L1D, and the dirty-page log that it keeps (R47, R48, R67). -/

namespace Sys2Proof.Machine

/-! ## Lines of the L1Ds -/

theorem Dev.l1_setL1_same (d : Dev) (p ln : Nat) (x : L1Line) : (d.setL1 p ln x).l1 p ln = x := Tbl.get_put_same _ _ _ _

/-- Every other line of every Frond stands. -/
theorem Dev.l1_setL1_other (d : Dev) {p ln q k : Nat} (x : L1Line) (hln : ln < 2 ^ 46) (hk : k < 2 ^ 46) (h : q ≠ p ∨ k ≠ ln) :
    (d.setL1 p ln x).l1 q k = d.l1 q k := by
  have keys_differ : l1Key q k ≠ l1Key p ln := by unfold l1Key; omega
  exact Tbl.get_put_other _ _ _ _ keys_differ

theorem getLsbD_eq_byteOf (y : Line) (i : Nat) {j : Nat} (hj : j < 8) : y.getLsbD (8 * i + j) = (byteOf y.toNat i).getLsbD j := by
  rw [getLsbD_byteOf, decide_eq_true hj, Bool.true_and, BitVec.testBit_toNat]

/-! ## Counting in a field -/

theorem Dev.f_incF (d : Dev) (r : FRef) (h : r.lo + r.w ≤ 64) : (d.incF r).f r = min (d.f r + 1) (2 ^ r.w - 1) := by
  have := Nat.two_pow_pos r.w
  rw [Dev.incF, Dev.f_setF_same _ _ _ h, Nat.mod_eq_of_lt (by unfold satAdd; omega), satAdd, Nat.min_comm]

/-! ## A line of plain memory read and written at home -/

/-- The line as its home reads and writes it: on this device, in HBM or fabric memory, without a mirror copy. -/
structure Dev.Plain (d : Dev) (ln : Nat) : Prop where
  here : d.remote ln = false
  kind : d.lnKind ln = .hbm ∨ d.lnKind ln = .fab
  single : d.partnerOf ln = none

variable {d e : Dev} {ln : Nat}

theorem Dev.Plain.of_tallied (h : d.Plain ln) (k : d.Tallied e) : e.Plain ln :=
  ⟨(k.remote ln).trans h.here, by rw [k.lnKind]; exact h.kind, (k.partnerOf ln).trans h.single⟩

/-- A read that finds the line intact changes counters alone. -/
theorem Dev.Plain.homeRead (h : d.Plain ln) {err : BitVec 560} (hg : (d.homeRead ln err).1.psn = false) :
    d.Tallied (d.homeRead ln err).2 := by
  have copy : d.readCopy ln = ln := by rw [Dev.readCopy, h.single]
  have spare : d.spareCopy ln = none := by rw [Dev.spareCopy, h.single]
  have tallied := Dev.Tallied.readOne d ln err
  rcases hr : d.readOne ln err with ⟨_ | r, e⟩ <;> rw [hr] at tallied
  · exfalso
    rcases h.kind with hk | hk <;>
      simp only [Dev.homeRead, h.here, hk, copy, spare, hr, Bool.false_eq_true, if_false] at hg <;> split at hg <;> cases hg
  · rcases h.kind with hk | hk <;>
      simpa only [Dev.homeRead, h.here, hk, copy, spare, hr, Bool.false_eq_true, if_false, ite_self] using tallied

/-- A write changes the bytes that its mask names, and no other byte of memory. -/
theorem Dev.Plain.byte_homeWrite (h : d.Plain ln) (x : Line) (mask : BitVec 64) (b : Nat) : (d.homeWrite ln x mask).byte b =
    if b / 64 = ln ∧ mask.getLsbD (b % 64) = true then byteOf x.toNat (b % 64) else d.byte b := by
  have written : (d.homeWrite ln x mask).byte b = ((d.hbmOp ln 1).putLine ln (mergeLine ((d.hbmOp ln 1).line ln) x mask)).byte b := by
    rcases h.kind with hk | hk <;> simp only [Dev.homeWrite, h.here, hk, h.single, Bool.false_eq_true, if_false] <;> rfl
  have counted : (d.hbmOp ln 1).byte b = d.byte b := (Dev.Tallied.hbmOp d ln 1).byte b
  rw [written, Dev.byte_putLine, counted]
  by_cases hb : b / 64 = ln
  · rw [if_pos hb, byteOf_mergeLine (by omega), Dev.byteOf_line _ (by omega), show ln * 64 + b % 64 = b by omega, counted]
    by_cases hm : mask.getLsbD (b % 64) = true
    · rw [if_pos hm, if_pos ⟨hb, hm⟩]
    · rw [if_neg hm, if_neg (fun h => hm h.2)]
  · rw [if_neg hb, if_neg (fun h => hb h.1)]

/-! ## Bits set by one of the device's own units -/

theorem leNat_lt (l : List Byte) : leNat l < 256 ^ l.length := by
  induction l with
  | nil => exact Nat.one_pos
  | cons b l ih =>
    have := b.isLt
    rw [List.length_cons, Nat.pow_succ]
    simp only [leNat]
    omega

/-- The mask that names the eight bytes of an aligned word. -/
theorem getLsbD_wordMask (o : Nat) {i : Nat} (hi : i < 64) :
    (BitVec.ofNat 64 (255 * 2 ^ o)).getLsbD i = decide (o ≤ i ∧ i < o + 8) := by
  rw [BitVec.getLsbD_ofNat, decide_eq_true hi, Bool.true_and, Nat.testBit_mul_two_pow, show 255 = 2 ^ 8 - 1 from rfl,
    Nat.testBit_two_pow_sub_one, Bool.eq_iff_iff]
  simp only [Bool.and_eq_true, decide_eq_true_eq]
  omega

theorem Dev.plain_of_plainLine (h : d.plainLine ln) : d.Plain ln := by
  obtain ⟨still, -, kind, -, single⟩ := h
  simp only [Dev.still, Bool.and_eq_true, beq_iff_eq] at still
  exact ⟨Dev.remote_eq_false still.1.1.1.1, kind, single⟩

/-- The request of the unit that writes the log, for the bits `v` of the word at `a`. -/
def Dev.logMsg (d : Dev) (w : OwnFor) (a : Nat) (v : Word) : Msg :=
  { d.ownMsg (logOwn w) opAtom (a / 64) with aop := 8, sz := true, place := 2, off := BitVec.ofNat 3 (a % 64 / 8), opa := v }

/-- Nothing stands in the way of that unit at a line of plain memory (R29, R330). -/
theorem Dev.ownRefused_logMsg {a : Nat} (h : d.plainLine (a / 64)) (ha : a < 2 ^ 52) (w : OwnFor) (v : Word) :
    d.ownRefused (d.logMsg w a v) = false := by
  obtain ⟨-, -, kind, outside, -⟩ := h
  have addr : (d.logMsg w a v).addr.toNat = a / 64 := by
    show (BitVec.ofNat 46 (a / 64)).toNat = a / 64
    rw [BitVec.toNat_ofNat, Nat.mod_eq_of_lt (by omega)]
  have unjudged : d.judged { d.logMsg w a v with place := 2 } = false := by
    have here : agDev (d.ag 0x300) = d.devId := d.agDev_ag (by decide)
    simp [Dev.judged, Dev.logMsg, Dev.ownMsg, logOwn, here]
  have admitted : d.homeRefuses (a / 64) (agId (d.logMsg w a v).src) true 0 true = false := by
    rcases kind with k | k <;> simp [Dev.homeRefuses, k, outside]
  simp only [Dev.ownRefused, Dev.turnsAway, unjudged, addr]
  exact (congrArg (· || _) (congrArg (· || _) admitted)).trans rfl

/-- It reads and writes the line at once. -/
theorem Dev.cohOr_at_once {a : Nat} (h : d.plainLine (a / 64)) (ha : a < 2 ^ 52) (hown : d.coh.own = [])
    (hg : (d.homeRead (a / 64) 0).1.psn = false) (w : OwnFor) (v : Word) :
    d.cohOr (logOwn w) a v = (d.homeRead (a / 64) 0).2.homeWrite (a / 64)
      (linePatch 0 (a % 64) (leBytes 8 (leNat (lineSlice (d.homeRead (a / 64) 0).1.data (a % 64) 8) ||| v.toNat)))
      (BitVec.ofNat 64 (255 * 2 ^ (a % 64))) := by
  have granted := Dev.ownRefused_logMsg h ha w v
  obtain ⟨still, free, kind, -, -⟩ := h
  have ready : (d.sfe (a / 64) == SfE.empty && d.mscHolds (a / 64)) = true := by
    rcases kind with k | k <;> simp [free, Dev.mscHolds, k]
  have addr : (d.logMsg w a v).addr.toNat = a / 64 := by
    show (BitVec.ofNat 46 (a / 64)).toNat = a / 64
    rw [BitVec.toNat_ofNat, Nat.mod_eq_of_lt (by omega)]
  have asked : ∀ k, (d.ownAsk (logOwn w) (d.logMsg w a v) true k).2 = (k d).2 := fun k => by
    simp only [Dev.ownAsk, Dev.ownOf, hown, List.find?_nil, addr, still, granted, Bool.not_true, Bool.or_self, Bool.false_eq_true, if_false]
  have goes : ∀ k, (d.ownAsk (logOwn w) (d.logMsg w a v) (d.sfe (a / 64) == SfE.empty && d.mscHolds (a / 64)) k).2 = (k d).2 :=
    fun k => by rw [ready, asked]
  refine (goes _).trans ?_
  simp only [hg, Bool.false_eq_true, if_false]

/-- The word at `a` has the bits `v` set, and no other byte of memory changes. -/
theorem Dev.byte_cohOr {a : Nat} (h : d.plainLine (a / 64)) (ha : a < 2 ^ 52) (h8 : a % 8 = 0) (hown : d.coh.own = [])
    (hg : (d.homeRead (a / 64) 0).1.psn = false) (w : OwnFor) (v : Word) (b : Nat) : (d.cohOr (logOwn w) a v).byte b =
    if a ≤ b ∧ b < a + 8 then
      (leBytes 8 (leNat (lineSlice (d.homeRead (a / 64) 0).1.data (a % 64) 8) ||| v.toNat)).getD (b - a) 0 else d.byte b := by
  have plain := Dev.plain_of_plainLine h
  have tallied := plain.homeRead hg
  rw [Dev.cohOr_at_once h ha hown hg, (plain.of_tallied tallied).byte_homeWrite, tallied.byte]
  simp only [getLsbD_wordMask _ (show b % 64 < 64 by omega), decide_eq_true_eq]
  by_cases hb : a ≤ b ∧ b < a + 8
  · rw [if_pos hb, if_pos (by omega), byteOf_linePatch (by omega), length_leBytes, if_pos (by omega), show b % 64 - a % 64 = b - a by omega]
  · rw [if_neg hb, if_neg (by omega)]

/-! ## The store -/

section Store

variable {p n off sa : Nat} {bs : List Byte} {priv : Bool} {w : OwnFor}

/-- A store that logs nothing changes its line alone. -/
theorem Dev.storeL1_unlogged (h : d.logsStore p ln n priv = false) : d.storeL1 w p ln off bs n priv sa =
    d.setL1 p ln { d.l1 p ln with
      st := some .m, data := linePatch (d.l1 p ln).data off bs, psn := (d.l1 p ln).psn && bs.length != 64
      log := if priv = false ∧ d.fb (SLICE.DLOG_BASE.EN n) = true then d.f (SLICE.DLOG_CTL.EPOCH n) + 1 else (d.l1 p ln).log } := by
  simp [Dev.storeL1, h]

/-- A store within one page that is the first of its epoch logs the page before it changes the line. -/
theorem Dev.storeL1_logged (h : d.logsStore p ln n priv = true) (hb : 0 < bs.length)
    (hp : sa / 4096 = (sa + bs.length - 1) / 4096) : d.storeL1 w p ln off bs n priv sa =
    (d.dlogPage w n sa).setL1 p ln { (d.dlogPage w n sa).l1 p ln with
      st := some .m, data := linePatch ((d.dlogPage w n sa).l1 p ln).data off bs
      psn := ((d.dlogPage w n sa).l1 p ln).psn && bs.length != 64, log := d.f (SLICE.DLOG_CTL.EPOCH n) + 1 } := by
  obtain ⟨rfl, logs⟩ : priv = false ∧ d.fb (SLICE.DLOG_BASE.EN n) = true := by
    simp only [Dev.logsStore, Bool.and_eq_true, Bool.not_eq_true'] at h
    exact h.1
  have one_page : d.dlog w n sa bs.length = d.dlogPage w n sa := by
    simp [Dev.dlog, logs, hb.ne', hp]
  simp only [Dev.storeL1, h, logs, one_page, if_true, Bool.not_false, Bool.and_self]

end Store

end Sys2Proof.Machine

open Sys2Proof.Machine in
/-- Settles O41: by whether the store is logged, and by where its page lies. -/
theorem storeFrame : Obligations.StoreFrame := by
  intro d w p ln off n sa bs priv hoff e epoch
  refine ⟨fun hlog => ?unlogged, fun hlog hbs hpage => ?logged⟩
  case unlogged =>
    have stored : e = _ := Dev.storeL1_unlogged hlog
    have line : e.l1 p ln = _ := (congrArg (Dev.l1 · p ln) stored).trans (Dev.l1_setL1_same _ _ _ _)
    refine ⟨congrArg L1Line.st line, fun i hi j hj => ?bytes, congrArg L1Line.log line, fun q k hk hln h => ?_, ?_⟩
    case bytes =>
      rw [congrArg L1Line.data line, getLsbD_eq_byteOf _ _ hj, byteOf_linePatch hi, getLsbD_eq_byteOf _ _ hj]
      split <;> rfl
    · rw [stored]
      exact Dev.l1_setL1_other _ _ hln hk h
    · rw [stored]
      exact ⟨rfl, rfl, rfl, rfl⟩
  case logged =>
    have stored : e = _ := Dev.storeL1_logged hlog hbs hpage
    have line : e.l1 p ln = _ := (congrArg (Dev.l1 · p ln) stored).trans (Dev.l1_setL1_same _ _ _ _)
    intro pg base miss
    refine ⟨fun hout => ?outside, fun hlo hhi => ?inside⟩
    case outside =>
      have missed : d.dlogPage w n sa = d.incF miss := by
        have out : (decide (pg < base) || decide (d.f (SLICE.DLOG_RANGE.LIMIT_PG n) < pg)) = true := by simpa using hout
        exact if_pos out
      rw [missed] at stored
      refine ⟨congrArg L1Line.log line, ?_, ?_⟩
      · rw [stored]; exact d.f_incF miss (show 32 + 32 ≤ 64 by decide)
      · rw [stored]; rfl
    case inside =>
      intro i a j ha hown hplain hpsn
      have logged : d.dlogPage w n sa = d.cohOr (logOwn w) a (BitVec.twoPow 64 (i % 64)) := by
        have within : ¬ (decide (pg < base) || decide (d.f (SLICE.DLOG_RANGE.LIMIT_PG n) < pg)) = true := by
          simp only [Bool.or_eq_true, decide_eq_true_eq]; omega
        exact if_neg within
      have memory : ∀ b, e.byte b = (d.cohOr (logOwn w) a (BitVec.twoPow 64 (i % 64))).byte b := fun b => by
        rw [stored, logged]
        rfl
      have byte_eq := fun b => (memory b).trans
        (Dev.byte_cohOr hplain ha (show a % 8 = 0 by omega) hown hpsn w (BitVec.twoPow 64 (i % 64)) b)
      refine ⟨congrArg L1Line.st line, congrArg L1Line.log line, ?word, fun b hb => ?_⟩
      case word =>
        have bound : leNat (lineSlice (d.homeRead j 0).1.data (a % 64) 8) ||| 2 ^ (i % 64) < 2 ^ 64 :=
          Nat.or_lt_two_pow ((leNat_lt _).trans_eq (by rw [length_lineSlice (by omega)]; norm_num))
            (Nat.pow_lt_pow_right (by decide) (Nat.mod_lt _ (by decide)))
        have bits : (BitVec.twoPow 64 (i % 64)).toNat = 2 ^ (i % 64) := by
          rw [BitVec.toNat_twoPow, Nat.mod_eq_of_lt (Nat.pow_lt_pow_right (by decide) (Nat.mod_lt _ (by decide)))]
        have word : e.bytes a 8 = leBytes 8 (leNat (lineSlice (d.homeRead j 0).1.data (a % 64) 8) ||| 2 ^ (i % 64)) := by
          refine bytes_ext (by rw [Dev.length_bytes, length_leBytes]) fun k hk => ?_
          rw [Dev.length_bytes] at hk
          rw [Dev.getD_bytes _ _ hk, byte_eq, if_pos (by omega), bits, Nat.add_sub_cancel_left]
        rw [word, leNat_leBytes, show 256 ^ 8 = 2 ^ 64 by norm_num, Nat.mod_eq_of_lt bound]
      · rw [byte_eq, if_neg (by omega)]
end

section
/-! The binding instructions and SLSET (R38–R40, R252). -/

namespace Sys2Proof.Machine

/-! ## An instruction that gives a status -/

/-- A privileged instruction whose fields are legal gives the status, on the device, that its rule answers. -/
theorem exec_bindOp {s : State} {t : StrandIx} {f : FX} {i : Instr} {illegal : Bool} {k : Dev → Nat → Nat → Nat × Dev} {st : Nat} {e : Dev}
    (hi : s.dev.issues t = true) (hp : (s.dev.str t).priv = true) (hl : illegal = false)
    (hk : exec i s = s.act fun _ d => d.bindOp t f illegal k)
    (h : k s.dev ((s.dev.str t).g f.ra.toNat).toNat ((s.dev.str t).g f.rb.toNat).toNat = (st, e)) :
    exec i s = .next (s.after (e.give t f.rd.toNat (w64 st))) := by
  rw [hk]
  refine State.act_of_eq ?_
  subst hl
  rw [Dev.bindOp, Dev.issue_priv _ hi hp]
  simp only [h]

variable {d : Dev} {n : Nat}

/-! ## FBIND and FUNBIND -/

section Bind

variable {ea x w : Nat} (hn : n < 4096) (ha : ea < 2 ^ 52) (ha' : ea % 2 ^ 30 = 0) (hd : ea / 2 ^ 49 = d.devId)
  (hen : d.fb BIND.EXTTBL.EN = true) (hs : d.sliceState n ≠ 0)
include hn ha ha' hd hen hs

/-- With its operands in order, a binding instruction goes by the state of the extent. -/
theorem Dev.bindCheck_ordered : d.bindCheck ea n =
    if extState (d.extEntry (ea / 2 ^ 30 % 2 ^ 19)) ≥ 4 then some bNO_BACKING
    else if extState (d.extEntry (ea / 2 ^ 30 % 2 ^ 19)) = 2 ∨ extState (d.extEntry (ea / 2 ^ 30 % 2 ^ 19)) = 3 then some bBUSY
    else none := by
  have in_range : ¬ (n ≥ 4096 ∨ ea ≥ 2 ^ 52) := by omega
  simp only [Dev.bindCheck, Bool.or_eq_true, decide_eq_true_eq, in_range, if_false, hen, Bool.not_true, Bool.false_eq_true, beq_iff_eq,
    hs, bne_iff_ne, ne_eq, ha', not_true_eq_false, hd]

variable (hx : ea / 2 ^ 30 % 2 ^ 19 = x) (hw : d.extEntry x = w)
include hx hw

/-- A FREE extent is zeroed for the slice, or handed back to its last owner with KEEP. -/
theorem Dev.fbind_free (h : extState w = 0) :
    d.fbind ea n false = (bSTARTED, (d.setExt x (extWord n 2 (extLast w))).recallExt x) ∧
    (extLast w = n → d.fbind ea n true = (bOK, d.setExt x (extWord n 1 (extLast w)))) ∧
    (extLast w ≠ n → d.fbind ea n true = (bSTARTED, (d.setExt x (extWord n 2 (extLast w))).recallExt x)) := by
  have free : d.bindCheck ea n = none := by rw [Dev.bindCheck_ordered hn ha ha' hd hen hs, hx, hw, h]; rfl
  have reached : ∀ keep, d.fbind ea n keep = if (keep && extLast w == n) = true then (bOK, d.setExt x (extWord n 1 (extLast w)))
      else (bSTARTED, (d.setExt x (extWord n 2 (extLast w))).recallExt x) := fun keep => by
    simp only [Dev.fbind, free, hx, hw, h, bne_self_eq_false, Bool.false_eq_true, if_false]
  exact ⟨reached false, fun hl => (reached true).trans (if_pos (by simpa using hl)), fun hl => (reached true).trans (if_neg (by simpa using hl))⟩

/-- An OWNED extent is not free, and leaves its owner alone. -/
theorem Dev.fbind_owned (h : extState w = 1) : d.fbind ea n false = (bNOT_FREE, d) ∧
    (extOwner w ≠ n → d.funbind ea n = (bNOT_OWNER, d)) ∧
    (extOwner w = n → d.funbind ea n = (bSTARTED, ((d.setExt x (extWord n 3 (extLast w))).dropTlb
      fun _ e => getBits e 30 22 == d.devId * 2 ^ 19 + x).recallExt x)) := by
  have owned : d.bindCheck ea n = none := by rw [Dev.bindCheck_ordered hn ha ha' hd hen hs, hx, hw, h]; rfl
  have reached : d.funbind ea n = if (!(extState w == 1 && extOwner w == n)) = true then (bNOT_OWNER, d)
      else (bSTARTED, ((d.setExt x (extWord n 3 (extLast w))).dropTlb
        fun _ e => getBits e 30 22 == (d.setExt x (extWord n 3 (extLast w))).devId * 2 ^ 19 + x).recallExt x) := by
    simp only [Dev.funbind, owned, hx, hw]
  refine ⟨?_, fun ho => reached.trans (if_pos (by simp [h, ho])), fun ho => reached.trans (if_neg (by simp [h, ho]))⟩
  simp only [Dev.fbind, owned, hx, hw, h]
  exact if_pos rfl

/-- One that is ZEROING or UNBINDING is busy. -/
theorem Dev.fbind_busy (h : extState w = 2 ∨ extState w = 3) : d.fbind ea n false = (bBUSY, d) ∧ d.funbind ea n = (bBUSY, d) := by
  have busy : d.bindCheck ea n = some bBUSY := by
    rw [Dev.bindCheck_ordered hn ha ha' hd hen hs, hx, hw, if_neg (by omega), if_pos h]
  simp only [Dev.fbind, Dev.funbind, busy, and_self]

end Bind

/-! ## SLSET -/

/-- Entries dropped from a table read as those that nothing has written. -/
theorem Tbl.get_drop {α : Type} (z : α) (p : Nat → Bool) (t : Tbl α) (k : Nat) :
    Tbl.get z (Tbl.drop p t) k = if p k then z else Tbl.get z t k := by
  rw [Tbl.drop, Tbl.get_filter z (fun k => !p k)]
  cases p k <;> rfl

/-- A register of a slice that was made cold. -/
theorem Dev.reg_sliceCold (d : Dev) (n : Nat) {r : FRef} (h : 0x1000000 + n * 0x1000 ≤ r.addr ∧ r.addr < 0x1000000 + n * 0x1000 + 0x1000) :
    (d.sliceCold n).reg r = w64 r.cold := by
  have dropped := Tbl.get_drop (w64 r.cold) (fun k => decide (0x1000000 + n * 0x1000 ≤ k) && decide (k < 0x1000000 + n * 0x1000 + 0x1000))
    d.csr r.addr
  rwa [if_pos (by simpa only [Bool.and_eq_true, decide_eq_true_eq] using h)] at dropped

/-- A slice created: QUIESCED, its counters at 0 and its queues disabled. -/
theorem Dev.slCreate_free (hn : n < 4096) (h : d.sliceState n = 0) : ∃ e, d.slCreate n = (bOK, e) ∧ e.sliceState n = 3 ∧
    (∀ i, i < 16 → Tbl.get 0 e.ctr.slice (n * 16 + i) = 0) ∧ ∀ q, q < 8 → e.fb (SLICE.SQA.EN n q) = false := by
  have in_order : ¬ n ≥ 4096 := by omega
  refine ⟨_, by simp only [Dev.slCreate, in_order, if_false, h, bne_self_eq_false, Bool.false_eq_true]; rfl, ?state, fun i hi => ?counter,
    fun q hq => ?queue⟩
  case state => exact Dev.f_setF_same _ _ _ (show 0 + 2 ≤ 64 by decide)
  case counter =>
    have dropped := Tbl.get_drop 0 (fun k => k / 16 == n) (d.sliceCold n).ctr.slice (n * 16 + i)
    rwa [if_pos (by rw [beq_iff_eq]; omega)] at dropped
  case queue =>
    have cold := d.reg_sliceCold n (r := SLICE.SQA.EN n q) (by simp only [SLICE.SQA.EN, SLICE.SQA.reg]; omega)
    have apart : (SLICE.SQA.EN n q).addr ≠ (SLICE.STATE.STATE n).addr := by
      simp only [SLICE.SQA.EN, SLICE.SQA.reg, SLICE.STATE.STATE, SLICE.STATE.reg]; omega
    have disabled : (d.sliceCold n).f (SLICE.SQA.EN n q) = 0 := by rw [Dev.f, cold]; exact (by decide : getBits (w64 8) 0 1 = 0)
    have field := Dev.f_setF_reg { d.sliceCold n with ctr := { (d.sliceCold n).ctr with
      slice := Tbl.drop (fun k => k / 16 == n) (d.sliceCold n).ctr.slice } } (SLICE.STATE.STATE n) (SLICE.SQA.EN n q) 3 apart
    rw [Dev.fb, field]
    exact beq_eq_false_iff_ne.2 (fun h => absurd (disabled.symm.trans h) (by decide))

theorem Dev.slDestroy_quiesced (hn : n < 4096) (h : d.sliceState n = 3) (he : d.extents n = 0)
    (hA : d.bind.frA.any (·.2 == n + 1) = false) (hS : d.bind.frS.any (·.2 == n + 1) = false) :
    d.slDestroy n = (bOK, d.setF (SLICE.STATE.STATE n) 0) := by
  simp [Dev.slDestroy, Nat.not_le.2 hn, h, he, hA, hS]

theorem Dev.slRoot_written (hn : n < 4096) {a : Nat} (ha : a < 2 ^ 52) (hz : a % 2 ^ 17 = a % 2) (hs : d.sliceState n ≠ 0) (t rd : Nat) :
    d.slRoot t rd a n = (d.setReg (SLICE.XLAT_ROOT.V n) (w64 a)).waitOn t (.root rd n) := by
  have in_order : ¬ (n ≥ 4096 ∨ a % 2 ≠ a % 2 ^ 17 ∨ a ≥ 2 ^ 52) := by omega
  simp only [Dev.slRoot, Bool.or_eq_true, decide_eq_true_eq, bne_iff_ne, beq_iff_eq, or_assoc, in_order, hs, if_false]

/-- HOSTOPEN of a host and frame in order, for a slice that exists, while no generation change is pending. -/
theorem Dev.hostOpen_ordered (hn : n < 4096) {a : Nat} (ha : a < 2 ^ 15) (hf : a / 64 ≠ 0) (hs : d.sliceState n ≠ 0)
    (hp : d.fb (BIND.HGEN.PEND (a % 64)) = false) :
    (framesOf d.bind.frS (a % 64) n ≠ [] → d.hostOpen a n = (bBAD_ARG, d)) ∧
    (framesOf d.bind.frS (a % 64) n = [] → Tbl.get 0 d.bind.frS (frameKey (a % 64) (a / 64)) = 0 → d.hostOpen a n =
      (bOK, { d with bind := { d.bind with frS := Tbl.put 0 d.bind.frS (frameKey (a % 64) (a / 64)) (n + 1) } })) := by
  have frame : a / 64 % 512 = a / 64 := Nat.mod_eq_of_lt (by omega)
  have in_range : ¬ (n ≥ 4096 ∨ a ≥ 2 ^ 15) := by omega
  constructor
  · intro h
    have open_ : framesOf d.bind.frS (a % 64) n = [] ↔ False := iff_false_intro h
    simp only [Dev.hostOpen, frame, Bool.or_eq_true, decide_eq_true_eq, beq_iff_eq, in_range, hf, hs, hp, or_self, Bool.false_eq_true,
      if_false, Bool.not_eq_true', List.isEmpty_eq_false_iff, ne_eq, open_, not_false_eq_true, if_true]
  · intro h hk
    simp only [Dev.hostOpen, frame, Bool.or_eq_true, decide_eq_true_eq, beq_iff_eq, in_range, hf, hs, hp, or_self, Bool.false_eq_true,
      if_false, h, hk, List.isEmpty_nil, Bool.not_true, bne_self_eq_false]

theorem Dev.hostClose_ordered (hn : n < 4096) {a : Nat} (ha : a < 64) (hs : d.sliceState n ≠ 0) (hp : d.fb (BIND.HGEN.PEND a) = false) :
    d.hostClose a n = (bOK, { d with bind := { d.bind with
      frS := (framesOf d.bind.frS a n).foldl (fun m f => Tbl.put 0 m (frameKey a f) 0) d.bind.frS
      decS := Tbl.drop (fun k => k / 16 / 512 == a && (framesOf d.bind.frS a n).contains (k / 16 % 512)) d.bind.decS } }) := by
  simp [Dev.hostClose, Nat.not_le.2 hn, Nat.not_le.2 ha, hs, hp]

/-- The only frame of the host that carried the slice is vacant, and its decoders are gone. -/
theorem Dev.hostClose_vacates {k : Nat} {a : Nat} (h : framesOf d.bind.frS a n = [k]) :
    Tbl.get 0 ((framesOf d.bind.frS a n).foldl (fun m f => Tbl.put 0 m (frameKey a f) 0) d.bind.frS) (frameKey a k) = 0 ∧
    ∀ j, j < 16 → Tbl.get Dec.none (Tbl.drop (fun k => k / 16 / 512 == a && (framesOf d.bind.frS a n).contains (k / 16 % 512)) d.bind.decS)
      (decKey a k j) = Dec.none := by
  have hk : k < 512 := by
    have member : k ∈ framesOf d.bind.frS a n := by rw [h]; exact List.mem_singleton_self _
    obtain ⟨e, -, rfl⟩ := List.mem_map.1 member
    exact Nat.mod_lt _ (by decide)
  refine ⟨?_, fun j hj => ?_⟩
  · rw [h]
    exact Tbl.get_put_same 0 d.bind.frS (frameKey a k) 0
  · rw [Tbl.get_drop, if_pos]
    have host : decKey a k j / 16 / 512 = a := by unfold decKey frameKey; omega
    have frame : decKey a k j / 16 % 512 = k := by unfold decKey frameKey; omega
    simp [h, host, frame]

end Sys2Proof.Machine

open Sys2Proof.Machine in
/-- Settles O24: each instruction by what its rule answers for the extent, the slice or the host. -/
theorem bindingInstructionsComplete : Obligations.BindingInstructionsComplete := by
  intro s t f hi hp hc d a n gives hn
  have legal : (f.rc != 0) = false := by simp [hc]
  have binds : ∀ {i k st e}, exec i s = s.act (fun _ d => d.bindOp t f (f.rc != 0) k) → k d a n = (st, e) → gives i st e :=
    fun hk h => exec_bindOp hi hp legal hk h
  refine ⟨fun ha ha' hd hen hs => ?extent, fun hra => ?slice, fun hs => ⟨fun ha hz => ?root, fun ha hf hp => ?open_, fun ha hp => ?close⟩⟩
  case extent =>
    intro x w
    refine ⟨fun h => ?free, fun h => ?owned, fun h => ?busy⟩
    case free =>
      obtain ⟨plain, kept, fresh⟩ := Dev.fbind_free hn ha ha' hd hen hs rfl rfl h
      exact ⟨binds rfl plain, fun hl => binds rfl (kept hl), fun hl => binds rfl (fresh hl)⟩
    case owned =>
      obtain ⟨taken, other, own⟩ := Dev.fbind_owned hn ha ha' hd hen hs rfl rfl h
      exact ⟨binds rfl taken, fun ho => binds rfl (other ho), fun ho => binds rfl (own ho)⟩
    case busy =>
      obtain ⟨bind, unbind⟩ := Dev.fbind_busy hn ha ha' hd hen hs rfl rfl h
      exact ⟨binds rfl bind, binds rfl unbind⟩
  case slice =>
    have legal' : (f.rc != 0 || f.ra != 0) = false := by simp [hc, hra]
    refine ⟨fun h => ?create, fun h he hA hS => ?destroy⟩
    case create =>
      obtain ⟨e, made, state, counters, queues⟩ := Dev.slCreate_free hn h
      exact ⟨e, exec_bindOp hi hp legal' rfl made, state, counters, queues⟩
    case destroy => exact exec_bindOp hi hp legal' rfl (Dev.slDestroy_quiesced hn h he hA hS)
  case root =>
    rw [exec_slsetRoot]
    refine State.act_of_eq ?_
    rw [legal, Dev.issue_priv _ hi hp]
    exact Dev.slRoot_written hn ha hz hs _ _
  case open_ =>
    obtain ⟨used, vacant⟩ := Dev.hostOpen_ordered hn ha hf hs hp
    exact ⟨fun h => binds rfl (used h), fun h hk => binds rfl (vacant h hk)⟩
  case close =>
    exact ⟨_, binds rfl (Dev.hostClose_ordered hn ha hs hp), fun k hk => Dev.hostClose_vacates hk⟩
end

section
/-! The life cycle of a slice (R41–R45, R254) and the ends of an extent's transitions (R38, R39). -/

namespace Sys2Proof.Machine

variable {d : Dev} {n : Nat}

/-! ## Quiescing -/

section Quiesce

variable {t : Nat} {f : FX} (hn : ((d.str t).g f.rb.toNat).toNat = n) (hlt : n < 4096)
  (ha : ((d.str t).g f.ra.toNat).toNat < 2 ^ 16)
include hn hlt ha

/-- An ACTIVE slice becomes QUIESCING, its work stopped with ABORT, and the strand waits. -/
theorem Dev.slQuiesce_active (hs : d.sliceState n = 1) (abort : Bool) : d.slQuiesce t f abort =
    let e := if abort then (d.setF (SLICE.STATE.STATE n) 2).abortSlice n else d.setF (SLICE.STATE.STATE n) 2
    let a := ((d.str t).g f.ra.toNat).toNat
    e.waitOn t (.slq f.rd.toNat n (e.now + (if a = 0 then e.f (SLICE.CTL.QTMO n) else a) * 10000)) := by
  have in_range : ¬ (n ≥ 4096 ∨ ((d.str t).g f.ra.toNat).toNat ≥ 2 ^ 16) := by omega
  simp only [Dev.slQuiesce, hn, Bool.or_eq_true, decide_eq_true_eq, in_range, if_false, hs, beq_iff_eq, if_true, Dev.quiesce,
    show ¬ (1 = 0) by decide, show ¬ (1 = 3) by decide]

theorem Dev.slQuiesce_quiesced (hs : d.sliceState n = 3) (abort : Bool) : d.slQuiesce t f abort = d.give t f.rd.toNat (w64 bOK) := by
  have in_range : ¬ (n ≥ 4096 ∨ ((d.str t).g f.ra.toNat).toNat ≥ 2 ^ 16) := by omega
  simp only [Dev.slQuiesce, hn, Bool.or_eq_true, decide_eq_true_eq, in_range, if_false, hs, beq_iff_eq, if_true,
    show ¬ (3 = 0) by decide]

end Quiesce

/-- The timeout of a slice is of another register than its state. -/
theorem Dev.qtmo_setState (d : Dev) (n v : Nat) : (d.setF (SLICE.STATE.STATE n) v).f (SLICE.CTL.QTMO n) = d.f (SLICE.CTL.QTMO n) :=
  d.f_setF_reg _ _ _ (by simp only [SLICE.CTL.QTMO, SLICE.CTL.reg, SLICE.STATE.STATE, SLICE.STATE.reg]; omega)

/-! ## Resuming and resetting -/

theorem Dev.slResume_active (hlt : n < 4096) (hs : d.sliceState n = 1) : d.slResume n = (bOK, d) := by
  simp only [Dev.slResume, Nat.not_le.2 hlt, if_false, hs]

theorem Dev.slResume_quiesced (hlt : n < 4096) (hs : d.sliceState n = 3) : d.slResume n =
    (bOK, ((d.setF (SLICE.STATE.STATE n) 1).setF (SLICE.STATE.AUTOQ n) 0).slqReturn n bRESUMED) := by
  simp only [Dev.slResume, Nat.not_le.2 hlt, if_false, hs]

theorem Dev.slReset_active (hlt : n < 4096) (hs : d.sliceState n = 1) : d.slReset n = (bNOT_QUIESCED, d) := by
  simp only [Dev.slReset, Nat.not_le.2 hlt, if_false, hs]

theorem Dev.slReset_quiesced (hlt : n < 4096) (hs : d.sliceState n = 3) : d.slReset n =
    (bOK, ((((d.resetQueues n).resetWindows n).resetChannels n).resetEvents n).qmReset n) := by
  simp only [Dev.slReset, Nat.not_le.2 hlt, if_false, hs]

end Sys2Proof.Machine

open Sys2Proof.Machine in
/-- Settles O25: each step of the life cycle by the state of the slice, each end of a transition by what is awaited for it. -/
theorem sliceLifeCycleCompletes : Obligations.SliceLifeCycleCompletes := by
  refine ⟨fun s t f hi hp hc => ?instructions, fun s n hs hidle => ?quiesced, fun s t rd n lim hw hstop => ?timeout,
    fun s x hu hen hq => ?extents⟩
  case instructions =>
    intro d a n gives hn
    have legal : (f.rc != 0) = false := by simp [hc]
    refine ⟨fun ha => ?quiesce, fun hra => ?resume⟩
    case quiesce =>
      have waits : ∀ {e}, d.slQuiesce t f false = e → exec (.slquiesce t f) s = .next (s.after e) := fun h => by
        rw [exec_slquiesce]
        refine State.act_of_eq ?_
        rw [legal, Dev.issue_priv _ hi hp]
        exact h
      have aborts : ∀ {e}, d.slQuiesce t f true = e → exec (.slquiesceAbort t f) s = .next (s.after e) := fun h => by
        rw [exec_slquiesceAbort]
        refine State.act_of_eq ?_
        rw [legal, Dev.issue_priv _ hi hp]
        exact h
      intro lim
      refine ⟨fun hs => waits ?_, fun hs => ⟨_, _, aborts (Dev.slQuiesce_active rfl hn ha hs true), rfl, _, rfl⟩,
        fun hs => ⟨waits (Dev.slQuiesce_quiesced rfl hn ha hs false), aborts (Dev.slQuiesce_quiesced rfl hn ha hs true)⟩⟩
      rw [Dev.slQuiesce_active rfl hn ha hs false]
      simp only [Bool.false_eq_true, if_false, Dev.qtmo_setState]
      rfl
    case resume =>
      have legal' : (f.rc != 0 || f.ra != 0) = false := by simp [hc, hra]
      exact ⟨fun hs => ⟨exec_bindOp hi hp legal' rfl (Dev.slResume_active hn hs), exec_bindOp hi hp legal' rfl (Dev.slReset_active hn hs)⟩,
        fun hs => ⟨exec_bindOp hi hp legal' rfl (Dev.slResume_quiesced hn hs), exec_bindOp hi hp legal' rfl (Dev.slReset_quiesced hn hs)⟩⟩
  case quiesced =>
    rw [exec_sliceQuiesced]
    exact State.act_of_eq (Dev.when_of_true (by simp [hs, hidle]))
  case timeout =>
    rw [exec_quiesceTimeout]
    refine State.act_of_eq ?_
    simp only [hw]
    exact Dev.finishAccess_running hstop _
  case extents =>
    intro w
    have ends : ∀ k, extState w = k → (s.dev.fdUp && s.dev.fb BIND.EXTTBL.EN && extState (s.dev.extEntry x) == k) = true :=
      fun k h => by rw [hu, hen, Bool.true_and, Bool.true_and, beq_iff_eq]; exact h
    refine ⟨fun hz => ⟨fun hdue => ?sent, fun hdue hawait => ?filled⟩, fun hz => ?unbound⟩
    case sent =>
      rw [exec_zeroingComplete]
      refine State.act_of_eq ((Dev.when_of_true (ends _ hz)).trans ?_)
      simp only [hq, hdue, Bool.not_true, Bool.false_eq_true, if_false, if_true]
    case filled =>
      rw [exec_zeroingComplete]
      refine State.act_of_eq ((Dev.when_of_true (ends _ hz)).trans ?_)
      simp only [hq, hdue, hawait, Bool.not_true, Bool.false_eq_true, if_false]
      rfl
    case unbound =>
      rw [exec_unbindComplete]
      refine State.act_of_eq ((Dev.when_of_true (ends _ hz)).trans ?_)
      simp only [hq, Bool.not_true, Bool.false_eq_true, if_false]
      rfl
end

section
/-! The binding unit: invalidations (R34), the generation change (R36, R37), the extent table's register (R30, R405) and the dirty-log
epoch (R49). -/

namespace Sys2Proof.Machine

variable {d : Dev}

theorem Dev.cspOn_of (hu : d.fdUp = true) (hs : d.safe = false) : d.cspOn = true := by
  rw [Dev.cspOn, hu, hs]; rfl

/-- A one-bit field set, or cleared. -/
theorem Dev.fb_setF_same (d : Dev) (r : FRef) (v : Nat) (h : r.lo + r.w ≤ 64) : (d.setF r v).fb r = (v % 2 ^ r.w == 1) := by
  rw [Dev.fb, Dev.f_setF_same _ _ _ h]

/-! ## Invalidation -/

/-- A write of BIND.XINV, its fields taken. -/
def Dev.xinvTaken (d : Dev) (v : Word) : Dev :=
  ((d.setF BIND.XINV.PAGE (bitsN v.toNat 0 27)).setF BIND.XINV.SLICE (bitsN v.toNat 27 12)).setF BIND.XINV.ALL (bitsN v.toNat 39 1)

theorem Dev.xinvTaken_slice (d : Dev) (v : Word) : (d.xinvTaken v).f BIND.XINV.SLICE = getBits v 27 12 :=
  (Dev.f_setF_field _ BIND.XINV.ALL BIND.XINV.SLICE _ (by decide) rfl rfl (by decide)).trans
    ((Dev.f_setF_same _ BIND.XINV.SLICE _ (by decide)).trans (Nat.mod_eq_of_lt (bitsN_lt ..)))

/-- GO starts an invalidation of what the fields name. -/
theorem Dev.xinvGo_starts {v : Word} (hb : d.fb BIND.XINV.BUSY = false) (hv : v.getLsbD 62 = true) :
    d.xinvGo v =
      ({ d.xinvTaken v with bind := { (d.xinvTaken v).bind with xinv := v.toNat % 2 ^ 40 } } : Dev).setF BIND.XINV.BUSY 1 := by
  have go : ¬ (d.fb BIND.XINV.BUSY || !bitN v.toNat 62) = true := by
    rw [hb, bitN, BitVec.testBit_toNat, hv]; decide
  unfold Dev.xinvGo
  dsimp only
  rw [if_neg go]
  rfl

/-- An invalidation started names its slice, holds what was written, and has dropped nothing yet. -/
theorem Dev.xinvGo_state {v : Word} (hb : d.fb BIND.XINV.BUSY = false) (hv : v.getLsbD 62 = true) :
    (d.xinvGo v).fb BIND.XINV.BUSY = true ∧ (d.xinvGo v).f BIND.XINV.SLICE = getBits v 27 12 ∧
    (d.xinvGo v).bind.xinv = getBits v 0 40 ∧ (d.xinvGo v).bind.tlb = d.bind.tlb := by
  rw [Dev.xinvGo_starts hb hv]
  refine ⟨Dev.fb_setF_same _ _ _ (by decide), ?_, ?_, rfl⟩
  · exact (Dev.f_setF_field _ BIND.XINV.BUSY BIND.XINV.SLICE _ (by decide) rfl rfl (by decide)).trans (d.xinvTaken_slice v)
  · simp [getBits, bitsN, Dev.setF, Dev.setReg]

theorem Dev.xinv_free {n : Nat} {page : Option Nat} (h : d.pagesBusy n ((d.xinvLeaves n page).map fun e => getBits e.2 21 31) = false) :
    d.xinv n page = (true, d.dropTlb fun k _ => (d.xinvLeaves n page).any (·.1 == k)) := by
  rw [Dev.xinv]; simp only [h, Bool.false_eq_true, if_false]

theorem Dev.xinv_busy {n : Nat} {page : Option Nat} (h : d.pagesBusy n ((d.xinvLeaves n page).map fun e => getBits e.2 21 31) = true) :
    d.xinv n page = (false, d) := by
  rw [Dev.xinv]; simp only [h, if_true]

/-- No strand waits for the invalidation of its SLSET ROOT. -/
def Dev.Rootless (d : Dev) : Prop := ∀ e ∈ d.sor.strand, ∀ rd n, e.2.wait ≠ .root rd n

/-- Where no SLSET ROOT waits, XINV_DONE ends at the invalidation of BIND.XINV. -/
theorem Dev.xinvDone_free (hb : d.fb BIND.XINV.BUSY = true) {n : Nat} {page : Option Nat} {e u : Dev}
    (hn : n = bitsN d.bind.xinv 27 12) (hp : page = if bitN d.bind.xinv 39 then none else some (bitsN d.bind.xinv 0 27))
    (hx : d.xinv n page = (true, u)) (he : (u.setF BIND.XINV.BUSY 0).retryAll n = e) (hr : e.Rootless) : d.xinvDone = e := by
  subst hn hp
  unfold Dev.xinvDone
  simp only [hb, hx, he, if_true]
  rw [List.filterMap_eq_nil_iff.2, List.foldl_nil]
  intro x hxe
  split
  · next h => exact absurd h (hr x hxe _ _)
  · rfl

theorem Dev.xinvDone_busy (hb : d.fb BIND.XINV.BUSY = true) {n : Nat} {page : Option Nat}
    (hn : n = bitsN d.bind.xinv 27 12) (hp : page = if bitN d.bind.xinv 39 then none else some (bitsN d.bind.xinv 0 27))
    (hx : d.xinv n page = (false, d)) (hr : d.Rootless) : d.xinvDone = d := by
  subst hn hp
  unfold Dev.xinvDone
  simp only [hb, hx, if_true]
  rw [List.filterMap_eq_nil_iff.2, List.foldl_nil]
  intro x hxe
  split
  · next h => exact absurd h (hr x hxe _ _)
  · rfl

/-! ## The generation change -/

theorem Dev.hgenReq_accepted {h p : Nat} (hp : d.fb (BIND.HGEN.PEND h) = false) (ho : Dev.overlaps (d.staged h) = false)
    (hr : d.bind.decS.any (fun e => e.1 / 16 / 512 == h && decide (e.2.sa + e.2.size > 2 ^ 27)) = false) (hq : d.portOfHost h = some p)
    (hm : d.f (PORT.CFG.MODE p) = 2) :
    d.hgenReq h = (d.setF (BIND.HGEN.PEND h) 1).setF (BIND.HGEN.DRAINED h) 0 := by
  have hosted : ¬ (d.f (PORT.CFG.MODE p) == 1 &&
      d.bind.frS.any fun e => e.1 / 512 == h && decide (e.1 % 512 > 15) && e.2 != 0) = true := by
    rw [hm]; exact Bool.false_ne_true
  have decoders : ¬ (d.bind.decS.any fun e => e.1 / 16 / 512 == h && decide (e.2.sa + e.2.size > 2 ^ 27)) = true := by
    rw [hr]; decide
  unfold Dev.hgenReq
  simp only [hp, ho, hq, if_neg decoders, if_neg hosted, Bool.false_eq_true, if_false]

/-- A port where nothing waits for a walk. -/
theorem Dev.walksOn_none (h : d.host.walks = []) (p : Nat) : d.walksOn p = d := by
  unfold Dev.walksOn
  split
  · rfl
  · have left : ({ d with host := { d.host with walks := [] } } : Dev) = d := by rw [← h]
    simp only [h, List.filter_nil, List.foldl_nil, left]

theorem Dev.msixRaise_walks (d : Dev) (p tbl i : Nat) (slice : Option Nat) : (d.msixRaise p tbl i slice).host.walks = d.host.walks := by
  unfold Dev.msixRaise
  dsimp only
  split_ifs
  · unfold Dev.msixSend; cases slice <;> rfl
  · rfl
  · rfl

theorem Dev.updF_walks (d : Dev) (r : FRef) (g : Nat → Nat) : (d.updF r g).host.walks = d.host.walks := rfl

/-- The swap leaves the requests that wait for a walk alone. -/
theorem Dev.genSwap_walks (d : Dev) (h : Nat) : (d.genSwap h).host.walks = d.host.walks := by
  have masks : ∀ (g : Nat → Nat) (l : Tbl Nat) (e : Dev),
      (l.foldl (fun d x => d.updF (SLICE.HOSTS.MASK (x.2 - 1)) g) e).host.walks = e.host.walks := by
    intro g l e
    induction l generalizing e with
    | nil => rfl
    | cons x l ih => rw [List.foldl_cons, ih, Dev.updF_walks]
  unfold Dev.genSwap
  dsimp only
  split
  · exact (masks ..).trans ((masks ..).trans rfl)
  · split_ifs
    · exact (Dev.msixRaise_walks ..).trans ((masks ..).trans ((masks ..).trans rfl))
    · exact (masks ..).trans ((masks ..).trans rfl)

theorem Dev.swapBanks_unheld {h : Nat} (hh : d.bind.held.all (fun r => d.hostOf (heldPort r) != h) = true) (hw : d.host.walks = []) :
    d.swapBanks h =
      { d with bind := { d.bind with held := d.bind.held.filter fun r => d.hostOf (heldPort r) != h } }.genSwap h := by
  have none_held : (d.bind.held.filter fun r => d.hostOf (heldPort r) == h) = [] := by
    rw [List.filter_eq_nil_iff]
    intro r hr
    have := List.all_eq_true.1 hh r hr
    simpa using this
  have settled : ∀ (e : Dev), e.host.walks = [] → (match e.portOfHost h with | some p => e.walksOn p | none => e) = e := by
    intro e he
    split
    · exact Dev.walksOn_none he _
    · rfl
  unfold Dev.swapBanks
  rw [none_held, List.foldl_nil]
  exact settled _ ((Dev.genSwap_walks _ _).trans hw)

/-! ### The banks -/

theorem Tbl.get_above {α : Type} (z : α) {t : Tbl α} {lo k : Nat} (h : Tbl.above lo t) (hk : k ≤ lo) : Tbl.get z t k = z := by
  induction t with
  | nil => rfl
  | cons e t ih =>
    obtain ⟨j, v⟩ := e
    have head := h (j, v) List.mem_cons_self
    rw [Tbl.get, if_neg (by omega)]
    exact ih fun e he => h e (List.mem_cons_of_mem _ he)

/-- A table's entries written into another: they are read where there are such, and the other table's elsewhere. -/
theorem Tbl.get_foldl_put {α : Type} [DecidableEq α] (z : α) {l : Tbl α} (h : Tbl.wf z l = true) (t : Tbl α) (k : Nat) :
    Tbl.get z (l.foldl (fun t e => Tbl.put z t e.1 e.2) t) k = if Tbl.get z l k = z then Tbl.get z t k else Tbl.get z l k := by
  induction l generalizing t with
  | nil => rw [List.foldl_nil, Tbl.get_nil, if_pos rfl]
  | cons e l ih =>
    obtain ⟨j, v⟩ := e
    obtain ⟨hv, habove, hl⟩ := (Tbl.wf_cons z j v l).1 h
    rw [List.foldl_cons, ih hl, Tbl.get_put, Tbl.get]
    by_cases hj : j = k
    · subst hj
      rw [Tbl.get_above z habove le_rfl, if_pos rfl, if_pos rfl, if_pos rfl, if_neg hv]
    · rw [if_neg hj, if_neg (Ne.symm hj)]

/-- After the swap a host's entries are those that were staged, every other host's stand. -/
theorem get_hostSwap {α : Type} [DecidableEq α] (z : α) {act st : Tbl α} (hs : Tbl.wf z st = true) {m f : Nat} (hf : f < m) (h n : Nat) :
    Tbl.get z (hostSwap z act st h m) (n * m + f) = Tbl.get z (if n = h then st else act) (n * m + f) := by
  have host : (n * m + f) / m = n := by
    rw [Nat.mul_comm, Nat.mul_add_div (by omega), Nat.div_eq_of_lt hf, Nat.add_zero]
  have staged : Tbl.get z (hostPart st h m) (n * m + f) = if n = h then Tbl.get z st (n * m + f) else z := by
    rw [hostPart, Tbl.get_filter z (fun k => k / m == h), host]
    simp only [beq_iff_eq]
  have parted : Tbl.wf z (hostPart st h m) = true := Tbl.wf_filter z _ st hs
  rw [hostSwap, Tbl.get_foldl_put z parted, staged, Tbl.get_drop, host]
  by_cases hn : n = h
  · simp only [hn, beq_self_eq_true, if_true]
    split
    · next h => exact h.symm
    · rfl
  · simp only [hn, beq_iff_eq, if_false, if_true]

/-! ### The end of a change -/

/-- What a raise records lies in the registers of its source. -/
theorem Dev.f_raise (d : Dev) (k det : Nat) {r : FRef} (hr : 0xBA0000 ≤ r.addr) (hk : k < 1024) : (d.raise k det).f r = d.f r := by
  have head : r.addr ≠ (EVT.RECA.HEAD k).addr := by show r.addr ≠ 0xB94000 + k * 16; omega
  have time : r.addr ≠ (EVT.RECB.TIME k).addr := by show r.addr ≠ 0xB94008 + k * 16; omega
  have pend : r.addr ≠ (EVT.ROUTE.PEND k).addr := by show r.addr ≠ 0xB90000 + k * 8; omega
  unfold Dev.raise
  split_ifs
  · rfl
  · exact Dev.f_setReg_other _ _ _ _ head
  · rw [Dev.f_setF_reg _ _ _ _ pend, Dev.f_setReg_other _ _ _ _ time, Dev.f_setReg_other _ _ _ _ head]

/-- A change ended: PEND clears, DRAINED is set, the banks count as not swapped, and event 965 is raised. -/
def Dev.genEnded (d : Dev) (h : Nat) : Dev :=
  ((({ d with bind := { d.bind with swapped := Tbl.put 0 d.bind.swapped h 0 } } : Dev).setF (BIND.HGEN.PEND h) 0).setF (BIND.HGEN.DRAINED h) 1)

theorem Dev.genEnded_state (d : Dev) (h : Nat) : (d.genEnded h).fb (BIND.HGEN.PEND h) = false ∧
    (d.genEnded h).fb (BIND.HGEN.DRAINED h) = true ∧ Tbl.get 0 (d.genEnded h).bind.swapped h = 0 := by
  refine ⟨?_, Dev.fb_setF_same _ _ _ (show 9 + 1 ≤ 64 by decide), Tbl.get_put_same 0 d.bind.swapped h 0⟩
  have pend : (d.genEnded h).f (BIND.HGEN.PEND h) = 0 :=
    (Dev.f_setF_field _ (BIND.HGEN.DRAINED h) (BIND.HGEN.PEND h) _ (show 9 + 1 ≤ 64 by decide) rfl rfl (show 8 + 1 ≤ 9 ∨ 9 + 1 ≤ 8 by decide)).trans
      (Dev.f_setF_same _ _ _ (show 8 + 1 ≤ 64 by decide))
  rw [Dev.fb, pend]; rfl

theorem Dev.genEnded_raised_state (d : Dev) (h det : Nat) : ((d.genEnded h).raiseSys 5 det).fb (BIND.HGEN.PEND h) = false ∧
    ((d.genEnded h).raiseSys 5 det).fb (BIND.HGEN.DRAINED h) = true ∧ Tbl.get 0 ((d.genEnded h).raiseSys 5 det).bind.swapped h = 0 := by
  have fields : ∀ r : FRef, 0xBA0000 ≤ r.addr → ((d.genEnded h).raiseSys 5 det).fb r = (d.genEnded h).fb r := fun r hr => by
    rw [Dev.fb, Dev.fb, Dev.raiseSys, Dev.f_raise _ _ _ hr (by decide)]
  rw [fields _ (show 0xBA0000 ≤ 0xBC1000 + h * 8 by omega), fields _ (show 0xBA0000 ≤ 0xBC1000 + h * 8 by omega)]
  have bind : ((d.genEnded h).raiseSys 5 det).bind = (d.genEnded h).bind := by
    have outer := Dev.Outer.raise (d.genEnded h) 965 det
    unfold Dev.Outer at outer
    have bind := congrArg Dev.bind outer
    exact bind
  rw [bind]
  exact d.genEnded_state h

/-! ## The extent table's register and the epochs of the dirty log -/

/-- While EN is set, BASE stands and EN takes what is written. -/
theorem Dev.exttblWrite_enabled (v : Word) (h : d.fb BIND.EXTTBL.EN = true) : d.exttblWrite v = d.setF BIND.EXTTBL.EN (getBits v 0 1) := by
  unfold Dev.exttblWrite
  simp only [h, if_true, Bool.true_or]

/-- With EN clear and left so, both fields take what is written. -/
theorem Dev.exttblWrite_disabled {v : Word} (h : d.fb BIND.EXTTBL.EN = false) (hv : getBits v 0 1 = 0) :
    d.exttblWrite v = (d.setF BIND.EXTTBL.BASE (getBits v 21 31)).setF BIND.EXTTBL.EN 0 := by
  unfold Dev.exttblWrite
  simp only [h, hv, Bool.false_or, Bool.false_eq_true, if_false, beq_self_eq_true, if_true]

theorem Dev.base_setF_en (d : Dev) (v : Nat) : (d.setF BIND.EXTTBL.EN v).f BIND.EXTTBL.BASE = d.f BIND.EXTTBL.BASE :=
  Dev.f_setF_field _ _ _ _ (by decide) rfl rfl (by decide)

theorem getBits_bit_clear {v : Word} {i : Nat} (h : v.getLsbD i = false) : getBits v i 1 = 0 := by
  have bit : v.toNat.testBit i = false := (BitVec.testBit_toNat v).trans h
  rw [Nat.testBit_eq_decide_div_mod_eq, decide_eq_false_iff_not] at bit
  rw [getBits, bitsN]
  omega

section
variable {n : Nat}

/-- An epoch bumped: EPOCH advances, MISS is 0, and BUSY stands until it is adopted. -/
theorem Dev.dlogBump_state (h : d.fb (SLICE.DLOG_CTL.BUSY n) = false) :
    (d.dlogBump n).f (SLICE.DLOG_CTL.EPOCH n) = (d.f (SLICE.DLOG_CTL.EPOCH n) + 1) % 256 ∧
    (d.dlogBump n).f (SLICE.DLOG_CTL.MISS n) = 0 ∧ (d.dlogBump n).fb (SLICE.DLOG_CTL.BUSY n) = true := by
  have busy : (9 : Nat) + 1 ≤ 64 := by decide
  have miss : (32 : Nat) + 32 ≤ 64 := by decide
  have bumped : d.dlogBump n = _ := if_neg (by rw [h]; decide)
  rw [bumped]
  refine ⟨?_, ?_, Dev.fb_setF_same _ _ _ busy⟩
  · rw [Dev.f_setF_field _ (SLICE.DLOG_CTL.BUSY n) (SLICE.DLOG_CTL.EPOCH n) _ busy rfl rfl (.inl (show 0 + 8 ≤ 9 by decide)),
      Dev.f_setF_field _ (SLICE.DLOG_CTL.MISS n) (SLICE.DLOG_CTL.EPOCH n) _ miss rfl rfl (.inl (show 0 + 8 ≤ 32 by decide)), Dev.updF,
      Dev.f_setF_same _ _ _ (show 0 + 8 ≤ 64 by decide)]
    exact Nat.mod_mod _ 256
  · rw [Dev.f_setF_field _ (SLICE.DLOG_CTL.BUSY n) (SLICE.DLOG_CTL.MISS n) _ busy rfl rfl (.inr (show 9 + 1 ≤ 32 by decide)), Dev.f_setF_same _ _ _ miss]
    rfl

theorem Dev.dlogAdopted_state (d : Dev) (n : Nat) : (d.setF (SLICE.DLOG_CTL.BUSY n) 0).fb (SLICE.DLOG_CTL.BUSY n) = false ∧
    (d.setF (SLICE.DLOG_CTL.BUSY n) 0).f (SLICE.DLOG_CTL.EPOCH n) = d.f (SLICE.DLOG_CTL.EPOCH n) :=
  ⟨Dev.fb_setF_same _ _ _ (show 9 + 1 ≤ 64 by decide),
    Dev.f_setF_field _ _ _ _ (show 9 + 1 ≤ 64 by decide) rfl rfl (.inl (show 0 + 8 ≤ 9 by decide))⟩

end

/-- A command that is taken where its device is in condition for it. -/
theorem State.act_when {s : State} {c : Dev → Bool} {g : Dev → Dev → Dev} (h : c s.dev = true) :
    (s.act fun _ d => d.when (c d) (g d)) = .next (s.after (g s.dev s.dev)) :=
  State.act_of_eq (Dev.when_of_true h)

end Sys2Proof.Machine

open Sys2Proof.Machine in
/-- Settles O27: each command of the binding unit is taken by its lemma above; the banks are compared entry by entry. -/
theorem bindingUnitCompletes : Obligations.BindingUnitCompletes := by
  refine ⟨fun s hu => ⟨?invalidation, ?completion, ?request, ?swap, ?enabled, ?disabled, ?bump⟩, ?drained, ?adopted, ?banks⟩
  case invalidation =>
    intro v hs hb hv
    refine ⟨_, (exec_xinvGo s).trans (State.act_when (Dev.cspOn_of hu hs)), ?_⟩
    exact Dev.xinvGo_state hb hv
  case completion =>
    intro hb hr n ls e
    have done : ∀ {u : Dev}, s.dev.xinvDone = u → exec .xinvDone s = .next (s.after u) := fun h =>
      ((exec_xinvDone s).trans (State.act_when hu)).trans (h ▸ rfl)
    refine ⟨fun free same => done ?_, fun busy => done ?_⟩
    · exact Dev.xinvDone_free hb rfl rfl (Dev.xinv_free free) rfl (by unfold Dev.Rootless; rw [same]; exact hr)
    · exact Dev.xinvDone_busy hb rfl rfl (Dev.xinv_busy busy) hr
  case request =>
    intro h p hs hp ho hd hq hm
    rw [← Dev.hgenReq_accepted hp ho hd hq hm]
    exact (exec_hgenReq s).trans (State.act_when (Dev.cspOn_of hu hs))
  case swap =>
    intro h hp hsw hh hw
    have due : (s.dev.fdUp && s.dev.fb (BIND.HGEN.PEND h) && Tbl.get 0 s.dev.bind.swapped h == 0) = true := by
      rw [hu, hp, hsw]; rfl
    rw [← Dev.swapBanks_unheld hh hw]
    exact (exec_genSwap s).trans (State.act_when due)
  case enabled =>
    intro v hs he
    refine ⟨_, (exec_exttblWrite s).trans (State.act_when (Dev.cspOn_of hu hs)), ?_⟩
    show (s.dev.exttblWrite v).f _ = _ ∧ (s.dev.exttblWrite v).f _ = _ ∧ (s.dev.exttblWrite v).pool = _
    rw [Dev.exttblWrite_enabled v he]
    exact ⟨Dev.base_setF_en _ _, (Dev.f_setF_same _ _ _ (by decide)).trans (Nat.mod_eq_of_lt (getBits_lt ..)), rfl⟩
  case disabled =>
    intro v hs he hv
    refine ⟨_, (exec_exttblWrite s).trans (State.act_when (Dev.cspOn_of hu hs)), ?_⟩
    show (s.dev.exttblWrite v).f _ = _ ∧ (s.dev.exttblWrite v).f _ = _
    rw [Dev.exttblWrite_disabled he (getBits_bit_clear hv)]
    exact ⟨(Dev.base_setF_en _ _).trans ((Dev.f_setF_same _ _ _ (by decide)).trans (Nat.mod_eq_of_lt (getBits_lt ..))),
      Dev.f_setF_same _ _ _ (by decide)⟩
  case bump =>
    intro n hs hb
    refine ⟨_, (exec_dlogBump s).trans (State.act_when (Dev.cspOn_of hu hs)), ?_⟩
    exact Dev.dlogBump_state hb
  case drained =>
    intro s h hg
    refine ⟨_, (exec_genDrained s).trans (State.act_when hg), ?_⟩
    exact Dev.genEnded_raised_state s.dev h _
  case adopted =>
    intro s n
    refine ⟨_, (exec_dlogEpochAdopted s).trans (State.act_of_eq rfl), ?_⟩
    exact Dev.dlogAdopted_state s.dev n
  case banks =>
    intro d h f n _ hf _ hs
    exact get_hostSwap 0 hs hf h n

end

section
/-! Host requests at their ports (R70, R71, R75, R130, R131): what a request is once its way to the home is known, what its port does
with it, and the answers to back-invalidates. -/

namespace Sys2Proof.Machine

variable {d e : Dev} {p : Nat} {q : HostReq}

/-! ## Sending asks the homes for nothing -/

theorem Dev.flitTx_coh (d : Dev) (p mask seq vc type : Nat) (bs : List Byte) : (d.flitTx p mask seq vc type bs).coh = d.coh := rfl

theorem Dev.msgOut_coh (d : Dev) (p vc : Nat) (bs : List Byte) : (d.msgOut p vc bs).coh = d.coh := by
  unfold Dev.msgOut Dev.ctrlOut
  dsimp only
  split_ifs <;> rfl

theorem Dev.linkSend_coh (d : Dev) (p vc : Nat) (bs : List Byte) : (d.linkSend p vc bs).coh = d.coh := by
  unfold Dev.linkSend Dev.linkFlush
  refine (foldl_frame (fun x : List (Nat × List Byte) × Dev => x.2.coh) _ ?_ _ _).trans rfl
  rintro ⟨keep, e⟩ x
  dsimp only
  split
  · rfl
  · exact Dev.msgOut_coh ..

theorem Dev.send_need (d : Dev) (m : Msg) : (d.send m).coh.need = d.coh.need := by
  unfold Dev.send
  split
  · rfl
  · unfold Dev.sendPeer
    dsimp only
    split_ifs <;> (try split) <;> simp [Dev.linkSend_coh]

theorem Dev.hostSend_need (d : Dev) (p : Nat) (m : Msg) (r : PortReq) : (d.hostSend p m r).coh.need = d.coh.need := by
  unfold Dev.hostSend
  exact Dev.send_need _ _

/-! ## A request at its port -/

/-- The command brings the request to the port. -/
def Comes (s : State) (i : Instr) (p : Nat) (q : HostReq) : Prop :=
  heldPort q = p ∧ exec i s = .next (s.after (s.dev.hostMem p q))

section
variable {s : State} {p : Fin 96}

theorem comes_memrd (h : s.dev.cxlPort p = true) (r : CxlReq) : Comes s (.memrd p r) p (.memRd p r) :=
  ⟨rfl, (exec_memrd s).trans (State.act_when h)⟩
theorem comes_memrddata (h : s.dev.cxlPort p = true) (r : CxlReq) : Comes s (.memrddata p r) p (.memRdData p r) :=
  ⟨rfl, (exec_memrddata s).trans (State.act_when h)⟩
theorem comes_memwr (h : s.dev.cxlPort p = true) (r : CxlReq) : Comes s (.memwr p r) p (.memWr p r) :=
  ⟨rfl, (exec_memwr s).trans (State.act_when h)⟩
theorem comes_memwrptl (h : s.dev.cxlPort p = true) (r : CxlReq) : Comes s (.memwrptl p r) p (.memWrPtl p r) :=
  ⟨rfl, (exec_memwrptl s).trans (State.act_when h)⟩
theorem comes_memclnevct (h : s.dev.cxlPort p = true) (r : CxlReq) : Comes s (.memclnevct p r) p (.memClnEvct p r) :=
  ⟨rfl, (exec_memclnevct s).trans (State.act_when h)⟩
theorem comes_pcieRead (h : s.dev.pciePort p = true) (r : PcieReq) (hr : r.len.toNat ≤ 4096) :
    Comes s (.pcieMemoryRead p r) p (.pcieRd p r) :=
  ⟨rfl, (exec_pcieMemoryRead s).trans (State.act_when (by rw [h, decide_eq_true hr]; rfl))⟩
theorem comes_pcieWrite (h : s.dev.pciePort p = true) (off : BitVec 46) (bs : List Byte) (hb : bs.length ≤ 512) :
    Comes s (.pcieMemoryWrite p off bs) p (.pcieWr p off.toNat bs) :=
  ⟨rfl, (exec_pcieMemoryWrite s).trans (State.act_when (by rw [h, decide_eq_true hb]; rfl))⟩
theorem comes_pcieAtomic (h : s.dev.pciePort p = true) (tag : BitVec 10) (o : PcieAop) (sz : Bool) (off : BitVec 46) (a b : Word) :
    Comes s (.pcieAtomicop p tag o sz off a b) p (.pcieAt p tag.toNat o sz off.toNat a b) :=
  ⟨rfl, (exec_pcieAtomicop s).trans (State.act_when h)⟩

end

variable {s : State} {i : Instr}

/-- While decoding is paused the port holds what comes. -/
theorem Comes.held (c : Comes s i p q) (hp : s.dev.paused p = true) :
    exec i s = .next (s.after { s.dev with bind := { s.dev.bind with held := s.dev.bind.held ++ [q] } }) := by
  rw [c.2, Dev.hostMem, Dev.hold, if_pos hp]

/-- A port that takes requests: decoding is not paused, and nothing waits there for a walk. -/
def Dev.Open (d : Dev) (p : Nat) : Prop := d.paused p = false ∧ ∀ u ∈ d.host.walks, heldPort u ≠ p

theorem Dev.hostMem_open (h : d.Open p) : d.hostMem p q = d.memReq q := by
  rw [Dev.hostMem, Dev.hold, if_neg (by rw [h.1]; decide)]

theorem Dev.Open.first (h : d.Open p) (hq : heldPort q = p) : ¬ (d.host.walks.any fun u => heldPort u == heldPort q) = true := by
  rw [List.any_eq_true]
  rintro ⟨u, hu, hup⟩
  exact h.2 u hu ((beq_iff_eq.1 hup).trans hq)

/-- A request that needs no walk is done at once. -/
theorem Comes.done (c : Comes s i p q) (ho : s.dev.Open p) {u : Dev} (hu : s.dev.noNeed.memTake q = u) (hn : u.coh.need = none) :
    exec i s = .next (s.after (u.needOf s.dev)) := by
  subst hu
  have made := Dev.tryOwn_done (g := fun d => ((), d.memTake q)) hn
  rw [c.2, Dev.hostMem_open ho, Dev.memReq, if_neg (ho.first c.1), made]

/-- One that must wait for a home asks for what its walk needs, and is kept at its port. -/
theorem Comes.walks (c : Comes s i p q) (ho : s.dev.Open p) {o : Own} {m : Msg} (hn : (s.dev.noNeed.memTake q).coh.need = some (o, m)) :
    exec i s = .next (s.after ((s.dev.ownSend o m).memWalk q)) := by
  have asked := Dev.tryOwn_wait (g := fun d => ((), d.memTake q)) hn
  rw [c.2, Dev.hostMem_open ho, Dev.memReq, if_neg (ho.first c.1), asked]

/-! ## What a request is, once its way is known -/

section
variable {p : Nat} {r : CxlReq} {fpa n : Nat}

/-- A read that caches nothing, or shares. -/
theorem Dev.memRead_goes {caching : Bool} (ha : (caching && r.mv == .a) = false)
    (h : d.reach p r.ld.toNat r.hpa.toNat .r .r .rd false (fun _ => true) = (.ok fpa n, e)) :
    d.memRead p r caching = (e.countSlice n 6 1).hostSend p
      { op := if caching = true ∧ d.hdmDb p r.ld.toNat = true ∧ r.mv = .s then opRdS else opRdU, addr := BitVec.ofNat 46 (fpa / 64),
        slice := BitVec.ofNat 12 n } { PortReq.blank with tag := r.tag.toNat, kind := 0, ld := r.ld.toNat } := by
  unfold Dev.memRead
  simp only [ha, Bool.false_eq_true, if_false, h]
  congr 2
  obtain ⟨tag, ld, hpa, mv, data, mask⟩ := r
  cases caching <;> cases d.hdmDb p ld.toNat <;> cases mv <;> simp_all

/-- A read for ownership. -/
theorem Dev.memRead_owns (ha : r.mv = .a)
    (h : d.reach p r.ld.toNat r.hpa.toNat .rw .w .wr false (fun _ => true) = (.ok fpa n, e)) :
    d.memRead p r true = (e.countSlice n 6 1).hostSend p
      { op := if d.hdmDb p r.ld.toNat = true then opRdX else opRdU, addr := BitVec.ofNat 46 (fpa / 64),
        slice := BitVec.ofNat 12 n } { PortReq.blank with tag := r.tag.toNat, kind := 0, ld := r.ld.toNat } := by
  unfold Dev.memRead
  simp only [ha, beq_self_eq_true, Bool.and_self, if_true, h]
  congr 2
  cases d.hdmDb p r.ld.toNat <;> simp

/-- A read that goes no further: poison, counted. -/
theorem Dev.memRead_fails {caching : Bool} (ha : (caching && r.mv == .a) = false) {why : Reach} (hw : why = .xlat ∨ why = .prot)
    (h : d.reach p r.ld.toNat r.hpa.toNat .r .r .rd false (fun _ => true) = (why, e)) :
    d.memRead p r caching = e.readFails p r.ld.toNat r.tag.toNat := by
  unfold Dev.memRead
  simp only [ha, Bool.false_eq_true, if_false, h]
  rcases hw with rfl | rfl <;> rfl

theorem Dev.memRead_ownFails (ha : r.mv = .a) {why : Reach} (hw : why = .xlat ∨ why = .prot)
    (h : d.reach p r.ld.toNat r.hpa.toNat .rw .w .wr false (fun _ => true) = (why, e)) :
    d.memRead p r true = e.readFails p r.ld.toNat r.tag.toNat := by
  unfold Dev.memRead
  simp only [ha, beq_self_eq_true, Bool.and_self, if_true, h]
  rcases hw with rfl | rfl <;> rfl

/-- A write of part of a line is checked as every line is, and goes as WrP. -/
theorem Dev.memWrite_part (h : d.reach p r.ld.toNat r.hpa.toNat .w .w .wr true (fun _ => true) = (.ok fpa n, e)) :
    d.memWrite p r true = (e.countSlice n 7 1).hostSend p
      { op := opWrP, addr := BitVec.ofNat 46 (fpa / 64), slice := BitVec.ofNat 12 n, data := r.data, mask := r.mask }
      { PortReq.blank with tag := r.tag.toNat, kind := 1, ld := r.ld.toNat } := by
  unfold Dev.memWrite
  simp only [Bool.true_or, h]
  rfl

/-- A whole line that the host does not hold E/M. -/
theorem Dev.memWrite_shared (h : d.reach p r.ld.toNat r.hpa.toNat .w .w .wr true (fun ln => !d.hostEM p ln) = (.ok fpa n, e))
    (hem : e.hostEM p (fpa / 64) = false) :
    d.memWrite p r false = (e.countSlice n 7 1).hostSend p
      { op := opWrU, addr := BitVec.ofNat 46 (fpa / 64), slice := BitVec.ofNat 12 n, data := r.data,
        new := if e.hdmDb p r.ld.toNat = true then mvKeep r.mv else 0 }
      { PortReq.blank with tag := r.tag.toNat, kind := 1, ld := r.ld.toNat } := by
  have counted : (e.countSlice n 7 1).hostEM p (fpa / 64) = false := hem
  unfold Dev.memWrite
  simp only [Bool.false_or, h, hem, counted, Bool.and_false, Bool.false_eq_true, if_false]

/-- A write-back of a line held E/M, with no back-invalidate of it outstanding. -/
theorem Dev.memWrite_owned (h : d.reach p r.ld.toNat r.hpa.toNat .w .w .wr true (fun ln => !d.hostEM p ln) = (.ok fpa n, e))
    (hem : e.hostEM p (fpa / 64) = true) (hbi : e.biOf p (fpa / 64) = none) :
    d.memWrite p r false = e.hostSend p
      { op := opWbM, addr := BitVec.ofNat 46 (fpa / 64), slice := BitVec.ofNat 12 n, data := r.data,
        new := if e.hdmDb p r.ld.toNat = true then mvKeep r.mv else 0 }
      { PortReq.blank with tag := r.tag.toNat, kind := 1, ld := r.ld.toNat } := by
  unfold Dev.memWrite
  simp only [Bool.false_or, h, hem, hbi, Bool.not_false, Bool.and_self, Bool.false_eq_true, if_false, if_true, Option.isSome_none]

/-- A write that goes no further: discarded, counted and completed. -/
theorem Dev.memWrite_fails {part : Bool} {why : Reach} (hw : why = .xlat ∨ why = .prot)
    (h : d.reach p r.ld.toNat r.hpa.toNat .w .w .wr true (fun ln => part || !d.hostEM p ln) = (why, e)) :
    d.memWrite p r part = e.writeFails p r.ld.toNat r.tag.toNat := by
  unfold Dev.memWrite
  simp only [h]
  rcases hw with rfl | rfl <;> rfl

theorem Dev.memClean_goes (h : d.reach p r.ld.toNat r.hpa.toNat .none .r .rd true (fun _ => false) = (.ok fpa n, e)) :
    d.memClean p r = e.hostSend p { op := opEvictC, addr := BitVec.ofNat 46 (fpa / 64), slice := BitVec.ofNat 12 n }
      { PortReq.blank with tag := r.tag.toNat, kind := 5, ld := r.ld.toNat } := by
  unfold Dev.memClean
  simp only [h]

end

section
variable {p tag off fpa n : Nat} {o : PcieAop} {sz : Bool} {a b : Word}

/-- A CAS of 128 bits and an AtomicOp on BAR0 are Unsupported Requests. -/
theorem Dev.pcieAtomic_unsupported (d : Dev) (p tag off : Nat) (sz : Bool) (a b : Word) (ho : o = .cas128 ∨ o = .bar0) :
    d.pcieAtomic p tag o sz off a b = d.emit (.pcieStat p tag 1) := by
  rcases ho with rfl | rfl <;> rfl

/-- The Atom of an AtomicOp on memory. -/
def atomicMsg (fpa n aop : Nat) (sz : Bool) (a b : Word) : Msg :=
  { op := opAtom, addr := BitVec.ofNat 46 (fpa / 64), slice := BitVec.ofNat 12 n, aop := BitVec.ofNat 4 aop, sz := sz, place := 2,
    off := BitVec.ofNat 3 (fpa % 64 / 8), mask := BitVec.ofNat 64 (fpa % 8), opa := a, opb := b }

/-- The code of an AtomicOp in its Atom. -/
def aopCode (o : PcieAop) : Nat := if o = .fetchAdd then 0 else if o = .cas then 1 else 2

theorem Dev.pcieAtomic_goes (ho : o = .fetchAdd ∨ o = .cas ∨ o = .swap)
    (h : d.reach p (d.bar2 p off).1 (d.bar2 p off).2 .rw .a .at false (fun _ => true) = (.ok fpa n, e)) :
    d.pcieAtomic p tag o sz off a b = (e.countSlice n 6 1).hostSend p (atomicMsg fpa n (aopCode o) sz a b)
      { PortReq.blank with tag := tag, kind := 4, len := if sz then 8 else 4 } := by
  unfold Dev.pcieAtomic
  simp only [h]
  rcases ho with rfl | rfl | rfl <;> rfl

end

/-! ## The answers to back-invalidates -/

/-- A message of a host's port about a line that is on its way. -/
def Dev.Leaves (d : Dev) (p : Nat) (ln : BitVec 46) (op : BitVec 6) : Prop :=
  ∃ m ∈ d.coh.net, m.src = d.ag (0x280 + p) ∧ m.addr = ln ∧ m.op = op

/-- A host's write-back or clean notice of a line. -/
def Dev.isNotice (d : Dev) (p : Nat) (ln : BitVec 46) (m : Msg) : Bool :=
  m.src == d.ag (0x280 + p) && m.addr == ln && (m.op == opWbM || m.op == opEvictC)

/-- The device with a back-invalidate ended, and the answer to its home. -/
def Dev.biEnded (d : Dev) (b : BiSnp) : Dev := { d with coh := { d.coh with bisnp := d.coh.bisnp.erase b } }
def Dev.biMsg (d : Dev) (p : Nat) (ln : BitVec 46) (b : BiSnp) (op : BitVec 6) : Msg :=
  { op := op, src := d.ag (0x280 + p), dst := b.home, tag := b.tag, addr := ln }

section
variable {p : Nat} {ln : BitVec 46} {b : BiSnp} {op : BitVec 6}

theorem Dev.isNotice_iff (m : Msg) :
    d.isNotice p ln m = true ↔ m.src = d.ag (0x280 + p) ∧ m.addr = ln ∧ (m.op = opWbM ∨ m.op = opEvictC) := by
  simp [Dev.isNotice, and_assoc]

/-- Where the host's notices on their way are all of one kind, the one found is of it. -/
theorem Dev.find_notice (hop : op = opWbM ∨ op = opEvictC) (h : d.Leaves p ln op)
    (hall : ∀ k, k = opWbM ∨ k = opEvictC → d.Leaves p ln k → k = op) :
    ∃ w, d.coh.net.find? (d.isNotice p ln) = some w ∧ w.op = op := by
  obtain ⟨m, hm, hsrc, haddr, rfl⟩ := h
  have found : (d.coh.net.find? (d.isNotice p ln)).isSome := by
    rw [List.find?_isSome]
    exact ⟨m, hm, (Dev.isNotice_iff m).2 ⟨hsrc, haddr, hop⟩⟩
  obtain ⟨w, hw⟩ := Option.isSome_iff_exists.1 found
  obtain ⟨wsrc, waddr, wop⟩ := (Dev.isNotice_iff w).1 (List.find?_some hw)
  exact ⟨w, hw, hall w.op wop ⟨w, List.mem_of_find?_eq_some hw, wsrc, waddr, rfl⟩⟩

theorem Dev.find_notice_none (hm : ¬ d.Leaves p ln opWbM) (he : ¬ d.Leaves p ln opEvictC) :
    d.coh.net.find? (d.isNotice p ln) = none := by
  rw [List.find?_eq_none]
  intro m hmem hn
  obtain ⟨hsrc, haddr, hop | hop⟩ := (Dev.isNotice_iff m).1 hn
  · exact hm ⟨m, hmem, hsrc, haddr, hop⟩
  · exact he ⟨m, hmem, hsrc, haddr, hop⟩

/-- A notice on its way makes the answer RspIWb, which names its kind. -/
theorem Dev.biAnswer_crossed (hb : d.biOf p ln.toNat = some b) {w : Msg} (hw : d.coh.net.find? (d.isNotice p ln) = some w) (keep : Nat)
    (wasE : Bool) : d.biAnswer p ln.toNat keep wasE =
      (d.biEnded b).send { d.biMsg p ln b opRspIWb with wb := if w.op == opWbM then 1 else 3 } := by
  have line : BitVec.ofNat 46 ln.toNat = ln := by rw [BitVec.ofNat_toNat, BitVec.setWidth_eq]
  unfold Dev.isNotice at hw
  unfold Dev.biAnswer
  simp only [hb, line]
  erw [hw]
  rfl

/-- With no notice on its way, a write that came first goes with the answer. -/
theorem Dev.biAnswer_data (hb : d.biOf p ln.toNat = some b) (hw : d.coh.net.find? (d.isNotice p ln) = none) {x : Line}
    (hx : b.wr = some x) (keep : Nat) (wasE : Bool) : d.biAnswer p ln.toNat keep wasE =
      (d.biEnded b).send { d.biMsg p ln b opRspD with data := x, new := BitVec.ofNat 2 keep } := by
  have line : BitVec.ofNat 46 ln.toNat = ln := by rw [BitVec.ofNat_toNat, BitVec.setWidth_eq]
  unfold Dev.isNotice at hw
  unfold Dev.biAnswer
  simp only [hb, line]
  erw [hw]
  simp only [hx]
  rfl

/-- With neither, the answer says what the host keeps. -/
theorem Dev.biAnswer_plain (hb : d.biOf p ln.toNat = some b) (hw : d.coh.net.find? (d.isNotice p ln) = none) (hx : b.wr = none)
    (keep : Nat) (wasE : Bool) : d.biAnswer p ln.toNat keep wasE =
      (d.biEnded b).send { d.biMsg p ln b (if keep == 1 then opRspS else opRspI) with new := if wasE then 3 else 0 } := by
  have line : BitVec.ofNat 46 ln.toNat = ln := by rw [BitVec.ofNat_toNat, BitVec.setWidth_eq]
  unfold Dev.isNotice at hw
  unfold Dev.biAnswer
  simp only [hb, line]
  erw [hw]
  simp only [hx]
  rfl

end

section
variable {s : State} {p : Fin 96} {ln : BitVec 46}

/-- The three answers of a host, each by what the port makes of it. -/
theorem exec_birsp (h : s.dev.cxlPort p = true) {u v w : Dev} (hi : s.dev.biAnswer p ln.toNat 0 false = u)
    (hs : s.dev.biAnswer p ln.toNat 1 false = v) (he : s.dev.biAnswer p ln.toNat 0 true = w) :
    exec (.birspi p ln) s = .next (s.after u) ∧ exec (.birsps p ln) s = .next (s.after v) ∧
    exec (.birspe p ln) s = .next (s.after w) := by
  subst hi hs he
  exact ⟨(exec_birspi s).trans (State.act_when h), (exec_birsps s).trans (State.act_when h), (exec_birspe s).trans (State.act_when h)⟩

/-- A back-invalidate decoder committed, or not. -/
theorem Dev.get_setCommit (d : Dev) (p k v : Nat) : Tbl.get 0 (d.setCommit p k v).host.commit (p * 16 + k) = v := Tbl.get_put_same ..

/-- A back-invalidate that nobody answers takes its link down, unless the link retrains. -/
theorem exec_bisnpTimeout_down (hb : (s.dev.biOf p ln.toNat).isSome = true) (hl : s.dev.f (PORT.STAT.LINK p) ≠ 3) :
    exec (.bisnpTimeout p ln) s = .next (s.after
      (((s.dev.setF (HOME.ERR.TBI_EXP (homeOf ln.toNat)) 1).raise 866 (homeOf ln.toNat + s.dev.hostOf p * 64)).linkDown p 5)) :=
  (exec_bisnpTimeout s).trans (State.act_when (by rw [hb, bne_iff_ne.2 hl]; rfl))

theorem exec_bisnpTimeout_retrains (hl : s.dev.f (PORT.STAT.LINK p) = 3) : exec (.bisnpTimeout p ln) s = .next (s.after s.dev) :=
  (exec_bisnpTimeout s).trans (State.act_of_eq (if_neg (by rw [hl]; simp)))

end

end Sys2Proof.Machine

open Sys2Proof.Machine in
/-- Settles O18: a request's way is read off its decoding and translation, and its port does with it what its kind asks; the answers
to back-invalidates by what of the host is on its way home. -/
theorem hostRequestsComplete : Obligations.HostRequestsComplete := by
  refine ⟨?cxl, ?pcie, ?held, ?answers, ?timeout⟩
  case cxl =>
    intro s p r hp hrun hw d is at_ every notOwn msg rq
    have ho : s.dev.Open p := ⟨hrun, hw⟩
    refine ⟨?reads, ?owns, ?writes, ?cleans, ?fails, ?walks⟩
    case reads =>
      intro fpa n e he hr
      have need : ∀ m q, ((e.countSlice n 6 1).hostSend p m q).coh.need = none := fun m q => (Dev.hostSend_need ..).trans he
      refine ⟨(comes_memrddata hp r).done ho ((Dev.memRead_goes rfl hr).trans ?_) (need _ _), fun hmv =>
        (comes_memrd hp r).done ho ((Dev.memRead_goes ?_ hr).trans ?_) (need _ _)⟩
      · rfl
      · exact (Bool.true_and _).trans (beq_false_of_ne hmv)
      · simp only [true_and]; rfl
    case owns =>
      intro fpa n e he hmv hr
      exact (comes_memrd hp r).done ho (Dev.memRead_owns hmv hr) ((Dev.hostSend_need ..).trans he)
    case writes =>
      intro fpa n e he q keep
      refine ⟨fun hr => (comes_memwrptl hp r).done ho (Dev.memWrite_part hr) ((Dev.hostSend_need ..).trans he), fun hr => ⟨fun hem =>
        (comes_memwr hp r).done ho (Dev.memWrite_shared hr hem) ((Dev.hostSend_need ..).trans he), fun hem hbi =>
        (comes_memwr hp r).done ho (Dev.memWrite_owned hr hem hbi) ((Dev.hostSend_need ..).trans he)⟩⟩
    case cleans =>
      intro fpa n e he hr
      exact (comes_memclnevct hp r).done ho (Dev.memClean_goes hr) ((Dev.hostSend_need ..).trans he)
    case fails =>
      intro why e he hwhy poison drops
      refine ⟨fun hr => ⟨?_, fun hmv => ?_⟩, fun hr hmv => ?_, fun hr => ?_, fun hr => ?_⟩
      · exact (comes_memrddata hp r).done ho (Dev.memRead_fails rfl hwhy hr) he
      · exact (comes_memrd hp r).done ho (Dev.memRead_fails ((Bool.true_and _).trans (beq_false_of_ne hmv)) hwhy hr) he
      · exact (comes_memrd hp r).done ho (Dev.memRead_ownFails hmv hwhy hr) he
      · exact (comes_memwr hp r).done ho (Dev.memWrite_fails hwhy hr) he
      · exact (comes_memwrptl hp r).done ho (Dev.memWrite_fails hwhy hr) he
    case walks =>
      intro q i hi o m hn
      have comes : Comes s i p q := by
        simp only [List.mem_cons, List.not_mem_nil, or_false, Prod.mk.injEq] at hi
        rcases hi with ⟨rfl, rfl⟩ | ⟨rfl, rfl⟩ | ⟨rfl, rfl⟩ | ⟨rfl, rfl⟩ | ⟨rfl, rfl⟩
        · exact comes_memrd hp r
        · exact comes_memrddata hp r
        · exact comes_memwr hp r
        · exact comes_memwrptl hp r
        · exact comes_memclnevct hp r
      exact comes.walks ho hn
  case pcie =>
    intro s p hp hrun hw d is
    have ho : s.dev.Open p := ⟨hrun, hw⟩
    refine ⟨fun r hr hn => (comes_pcieRead hp r hr).done ho rfl hn, fun off bs hb hn => (comes_pcieWrite hp off bs hb).done ho rfl hn, ?_⟩
    intro tag o sz off a b fpa n e
    have comes := comes_pcieAtomic hp tag o sz off a b
    refine ⟨fun h => comes.done ho (Dev.pcieAtomic_unsupported _ _ _ _ _ _ _ h) rfl, fun h hr => ?_⟩
    refine ⟨atomicMsg fpa n (aopCode o) sz a b, rfl, rfl, ?_, rfl, rfl, rfl, rfl, comes.done ho (Dev.pcieAtomic_goes h hr)⟩
    rcases h with rfl | rfl | rfl <;> rfl
  case held =>
    intro s p r hp hpause holds
    exact ⟨(comes_memrd hp r).held hpause, (comes_memrddata hp r).held hpause, (comes_memwr hp r).held hpause,
      (comes_memwrptl hp r).held hpause, (comes_memclnevct hp r).held hpause⟩
  case answers =>
    intro s p hp
    refine ⟨fun k => ⟨⟨_, (exec_biDecoderCommit s).trans (State.act_when hp), ?_⟩,
      ⟨_, (exec_biDecoderUncommit s).trans (State.act_when hp), ?_⟩⟩, ?_⟩
    · exact Dev.get_setCommit ..
    · exact Dev.get_setCommit ..
    intro ln b hb d m sends leaves wb
    refine ⟨fun hm he => ?_, fun he hm => ?_, fun hm he => ?_⟩
    · obtain ⟨w, hw, hop⟩ := Dev.find_notice (d := s.dev) (p := p) (ln := ln) (.inl rfl) hm
        (by rintro k (rfl | rfl) h; exacts [rfl, absurd h he])
      have answer := fun keep wasE => s.dev.biAnswer_crossed hb hw keep wasE
      rw [hop] at answer
      exact exec_birsp hp (answer 0 false) (answer 1 false) (answer 0 true)
    · obtain ⟨w, hw, hop⟩ := Dev.find_notice (d := s.dev) (p := p) (ln := ln) (.inr rfl) he
        (by rintro k (rfl | rfl) h; exacts [absurd h hm, rfl])
      have answer := fun keep wasE => s.dev.biAnswer_crossed hb hw keep wasE
      rw [hop] at answer
      exact exec_birsp hp (answer 0 false) (answer 1 false) (answer 0 true)
    · have clear := Dev.find_notice_none (d := s.dev) (p := p) (ln := ln) hm he
      refine ⟨fun hx => ?_, fun x hx => ?_⟩
      · have answer := Dev.biAnswer_plain hb clear hx
        exact exec_birsp hp (answer 0 false) (answer 1 false) (answer 0 true)
      · have answer := Dev.biAnswer_data hb clear hx
        obtain ⟨inv, shared, excl⟩ := exec_birsp hp (answer 0 false) (answer 1 false) (answer 0 true)
        exact ⟨inv, excl, shared⟩
  case timeout =>
    intro s p ln hb n
    exact ⟨exec_bisnpTimeout_retrains, exec_bisnpTimeout_down hb⟩

end

section
/-! Coherence messages and training ordered sets as bits (R72, R138, R143): each field read where it was put. -/

namespace Sys2Proof.Machine

/-! ## Bit strings -/

theorem bitCat_lt (l : List (Nat × Nat)) : bitCat l < 2 ^ bitLen l := by
  induction l with
  | nil => exact Nat.one_pos
  | cons e l ih =>
    obtain ⟨w, v⟩ := e
    have low : v % 2 ^ w < 2 ^ w := Nat.mod_lt _ (Nat.two_pow_pos w)
    calc v % 2 ^ w + 2 ^ w * bitCat l < 2 ^ w + 2 ^ w * bitCat l := by omega
      _ = 2 ^ w * (bitCat l + 1) := by ring
      _ ≤ 2 ^ w * 2 ^ bitLen l := Nat.mul_le_mul_left _ ih
      _ = 2 ^ bitLen ((w, v) :: l) := by rw [← Nat.pow_add]; rfl

/-- The first field of a bit string. -/
theorem bitsN_bitCat_head (w v : Nat) (l : List (Nat × Nat)) : bitsN (bitCat ((w, v) :: l)) 0 w = v % 2 ^ w := by
  rw [bitsN, bitCat, Nat.shiftRight_zero, Nat.add_mul_mod_self_left, Nat.mod_mod]

/-- A first field that holds a word, and one that holds a flag. -/
theorem bitsN_bitCat_toNat {w : Nat} (x : BitVec w) (l : List (Nat × Nat)) : bitsN (bitCat ((w, x.toNat) :: l)) 0 w = x.toNat := by
  rw [bitsN_bitCat_head, Nat.mod_eq_of_lt x.isLt]

theorem bitsN_bitCat_flag (b : Bool) (l : List (Nat × Nat)) : (bitsN (bitCat ((1, b2n b) :: l)) 0 1 == 1) = b := by
  rw [bitsN_bitCat_head]
  cases b <;> rfl

/-- The fields of an agent: its device, and its number there. -/
theorem bitsN_bitCat_agent (x : BitVec 13) (l : List (Nat × Nat)) :
    bitsN (bitCat ((3, x.toNat / 1024) :: l)) 0 3 = x.toNat / 1024 ∧ bitsN (bitCat ((10, x.toNat % 1024) :: l)) 0 10 = x.toNat % 1024 := by
  have := x.isLt
  rw [bitsN_bitCat_head, bitsN_bitCat_head]
  omega

/-- What lies past the first field is read from the rest. -/
theorem bitsN_bitCat_tail {w lo : Nat} (h : w ≤ lo) (v k : Nat) (l : List (Nat × Nat)) :
    bitsN (bitCat ((w, v) :: l)) lo k = bitsN (bitCat l) (lo - w) k := by
  have low : v % 2 ^ w < 2 ^ w := Nat.mod_lt _ (Nat.two_pow_pos w)
  rw [bitsN, bitsN, bitCat, ← Nat.add_sub_of_le h, Nat.shiftRight_add, Nat.shiftRight_eq_div_pow _ w,
    Nat.add_mul_div_left _ _ (Nat.two_pow_pos w), Nat.div_eq_of_lt low, Nat.zero_add, Nat.add_sub_cancel_left]

/-- As many bytes as a bit string fills hold it whole. -/
theorem leNat_leBytes_bitCat (l : List (Nat × Nat)) : leNat (leBytes ((bitLen l + 7) / 8) (bitCat l)) = bitCat l := by
  rw [leNat_leBytes, show 256 = 2 ^ 8 from rfl, ← Nat.pow_mul]
  exact Nat.mod_eq_of_lt ((bitCat_lt l).trans_le (Nat.pow_le_pow_right (by decide) (by omega)))

/-! ## Messages -/

/-- The fields that every message has. -/
def msgHead (m : Msg) : List (Nat × Nat) :=
  [(6, m.op.toNat), (3, m.src.toNat / 1024), (10, m.src.toNat % 1024), (3, m.dst.toNat / 1024), (10, m.dst.toNat % 1024),
    (12, m.tag.toNat), (46, m.addr.toNat)]

theorem leNat_msgPack (m : Msg) : leNat (msgPack m) = bitCat (msgHead m ++ msgFields m) := leNat_leBytes_bitCat _

/-- An agent read back from its device and its number there. -/
theorem ofNat_agent (x : BitVec 13) : BitVec.ofNat 13 (x.toNat / 1024 * 1024 + x.toNat % 1024) = x := by
  rw [Nat.div_add_mod', BitVec.ofNat_toNat, BitVec.setWidth_eq]

/-- The head of a message, read from its bits. -/
theorem msgHead_read (m : Msg) (l : List (Nat × Nat)) :
    let x := bitCat (msgHead m ++ l)
    BitVec.ofNat 6 x = m.op ∧ BitVec.ofNat 13 (bitsN x 6 3 * 1024 + bitsN x (6 + 3) 10) = m.src ∧
    BitVec.ofNat 13 (bitsN x 19 3 * 1024 + bitsN x (19 + 3) 10) = m.dst ∧ BitVec.ofNat 12 (bitsN x 32 12) = m.tag ∧
    BitVec.ofNat 46 (bitsN x 44 46) = m.addr ∧ ∀ lo w, bitsN x (90 + lo) w = bitsN (bitCat l) lo w := by
  intro x
  have code : BitVec.ofNat 6 x = m.op := by
    apply BitVec.eq_of_toNat_eq
    have first : bitsN x 0 6 = m.op.toNat % 2 ^ 6 := bitsN_bitCat_head _ _ _
    rw [BitVec.toNat_ofNat, ← Nat.mod_eq_of_lt m.op.isLt, ← first, bitsN, Nat.shiftRight_zero]
  refine ⟨code, ?_, ?_, ?_, ?_, fun lo w => ?_⟩
  iterate 4
    simp [x, msgHead, bitsN_bitCat_tail, bitsN_bitCat_agent, bitsN_bitCat_toNat, ofNat_agent]
  · simp only [x, msgHead, List.cons_append, List.nil_append]
    iterate 7 rw [bitsN_bitCat_tail (by omega)]
    congr 1
    omega

/-- Bytes that hold a message's bits read back as its head and, for each code, the fields that go with it. -/
theorem msgUnpack_read {m : Msg} {bs : List Byte} (h : leNat bs = bitCat (msgHead m ++ msgFields m)) :
    let u := msgUnpack bs
    u.op = m.op ∧ u.src = m.src ∧ u.dst = m.dst ∧ u.tag = m.tag ∧ u.addr = m.addr ∧ msgFields u = msgFields m := by
  obtain ⟨code, src, dst, tag, addr, further⟩ := msgHead_read m (msgFields m)
  intro u
  simp only [u, msgUnpack, h, code, src, dst, tag, addr, further]
  clear h code src dst tag addr further
  generalize hx : bitCat (msgFields m) = x
  unfold msgFields at hx ⊢
  split at hx
  all_goals
    subst hx
    simp_all [bitsN_bitCat_tail, bitsN_bitCat_toNat, bitsN_bitCat_flag, bitsN_bitCat_agent, ofNat_agent, w64]

/-! ## Training ordered sets -/

/-- A CRC of `w` bits stays within them. -/
theorem crcBit_lt {w poly : Nat} (h : poly < 2 ^ w) (c : Nat) (b : Bool) : crcBit w poly c b < 2 ^ w := by
  have shifted : c * 2 % 2 ^ w < 2 ^ w := Nat.mod_lt _ (Nat.two_pow_pos w)
  unfold crcBit
  dsimp only
  split
  · exact Nat.xor_lt_two_pow shifted h
  · exact shifted

theorem foldl_lt {α : Type} {g : Nat → α → Nat} {n : Nat} (hg : ∀ c, c < n → ∀ a, g c a < n) (l : List α) {c : Nat} (hc : c < n) :
    l.foldl g c < n := by
  induction l generalizing c with
  | nil => exact hc
  | cons a l ih => exact ih (hg c hc a)

theorem crc16_lt (bs : List Byte) : crc16 bs < 2 ^ 16 :=
  foldl_lt (fun _ hc _ => foldl_lt (fun _ _ _ => crcBit_lt (by decide) _ _) _ hc) bs (by decide)

/-- Bytes read back from their number. -/
theorem leBytes_leNat (bs : List Byte) : leBytes bs.length (leNat bs) = bs := by
  refine bytes_ext (length_leBytes _ _) fun i hi => ?_
  rw [length_leBytes] at hi
  rw [getD_leBytes hi, byteOf_leNat]

/-- The bytes of a set before its CRC. -/
def tosBody (t : Tos) : List Byte :=
  [t.kind, t.lane % 16 + b2n t.rev * 16, t.rates % 8 + t.rate % 4 * 16, t.width % 8, t.devid % 8, t.port % 128,
      t.action, t.aseq % 256].map (BitVec.ofNat 8) ++ ((List.range 8).map fun v => leBytes 2 (t.cred.getD v 0)).flatten ++
    leBytes 2 t.lmask ++ leBytes 2 (t.nextrx % 4096) ++ [BitVec.ofNat 8 t.preset, 0]

theorem length_tosBody (t : Tos) : (tosBody t).length = 30 := rfl

/-- The bytes of a set, with their CRC. -/
theorem leBytes_tosMake (t : Tos) : leBytes 32 (tosMake t).toNat = tosBody t ++ leBytes 2 (crc16 (tosBody t)) := by
  have whole : (tosBody t ++ leBytes 2 (crc16 (tosBody t))).length = 32 := rfl
  have bound := leNat_lt (tosBody t ++ leBytes 2 (crc16 (tosBody t)))
  rw [whole, show 256 ^ 32 = 2 ^ 256 by norm_num] at bound
  have made : (tosMake t).toNat = leNat (tosBody t ++ leBytes 2 (crc16 (tosBody t))) := Nat.mod_eq_of_lt bound
  rw [made, ← whole, leBytes_leNat]


/-- A number of two bytes, read from them. -/
theorem two_bytes {x : Nat} (h : x < 2 ^ 16) : x % 256 + 256 * (x / 256 % 256) = x := by omega

/-- A list of eight, entry by entry. -/
theorem eight_entries {l : List Nat} (h : l.length = 8) : ∃ a b c d e f g i, l = [a, b, c, d, e, f, g, i] := by
  match l, h with
  | [a, b, c, d, e, f, g, i], _ => exact ⟨a, b, c, d, e, f, g, i, rfl⟩

/-- The check of a set that was made holds. -/
theorem tosMake_checked (t : Tos) :
    let b := leBytes 32 (tosMake t).toNat
    crc16 (b.take 30) = (b.getD 30 0).toNat + 256 * (b.getD 31 0).toNat := by
  intro b
  have parts : b = tosBody t ++ leBytes 2 (crc16 (tosBody t)) := leBytes_tosMake t
  have body : b.take 30 = tosBody t := by rw [parts, List.take_left' (length_tosBody t)]
  have low : b.getD 30 0 = BitVec.ofNat 8 (crc16 (tosBody t)) := by rw [parts]; rfl
  have high : b.getD 31 0 = BitVec.ofNat 8 (crc16 (tosBody t) / 256) := by rw [parts]; rfl
  rw [body, low, high, BitVec.toNat_ofNat, BitVec.toNat_ofNat]
  exact (two_bytes (crc16_lt _)).symm

/-- A set within the ranges of R138. -/
structure Tos.Fits (t : Tos) : Prop where
  kind : t.kind ∈ tosKinds
  lane : t.lane < 16
  rates : t.rates < 8
  rate : t.rate < 3
  width : t.width ≤ 4
  devid : t.devid < 8
  port : t.port < 128
  action : t.action ≤ 5
  aseq : t.aseq < 256
  credLength : t.cred.length = 8
  cred : ∀ c ∈ t.cred, c < 2 ^ 16
  lmask : t.lmask < 2 ^ 16
  nextrx : t.nextrx < 2 ^ 12
  preset : t.preset ≤ 10 ∨ t.preset = 255

/-- The byte that holds a lane and the reversal of lanes. -/
theorem bitN_lane_byte (lane : Nat) (rev : Bool) : bitN ((lane % 16 + b2n rev * 16) % 256) 4 = rev := by
  rw [bitN, Nat.testBit_eq_decide_div_mod_eq]
  cases rev <;> simp [b2n] <;> omega

theorem Tos.Fits.kind_lt {t : Tos} (h : t.Fits) : t.kind < 256 := by
  have listed : ∀ k ∈ tosKinds, k < 256 := by decide
  exact listed _ h.kind

/-- Each field is read from its bytes, and each has a value that is not reserved. -/
theorem tosRead_tosMake {t : Tos} (h : t.Fits) : tosRead (tosMake t) = some t := by
  have checked := tosMake_checked t
  unfold tosRead
  dsimp only at checked ⊢
  rw [checked, bne_self_eq_false]
  clear checked
  have kind_byte : t.kind % 256 = t.kind := Nat.mod_eq_of_lt h.kind_lt
  obtain ⟨c₀, c₁, c₂, c₃, c₄, c₅, c₆, c₇, hc⟩ := eight_entries h.credLength
  obtain ⟨kind, lane, rev, rates, rate, width, devid, port, action, aseq, cred, lmask, nextrx, preset⟩ := t
  obtain ⟨hkind, hlane, hrates, hrate, hwidth, hdevid, hport, haction, haseq, -, hcred, hlmask, hnextrx, hpreset⟩ := h
  dsimp only at *
  subst hc
  simp only [List.forall_mem_cons] at hcred
  obtain ⟨h₀, h₁, h₂, h₃, h₄, h₅, h₆, h₇, -⟩ := hcred
  simp only [Bool.false_eq_true, if_false, leBytes_tosMake]
  simp [tosBody, leBytes, List.range_succ, kind_byte, hkind, bitN_lane_byte]
  omega
end Sys2Proof.Machine

open Sys2Proof.Machine in
/-- Settles O52: each field is read where it was put, and a set's CRC is the one it was made with. A code is the six bits that R72 gives
it: those that R72's table writes from 0x40 on are the codes 0 to 5 here, with the fields of these. -/
theorem messagesReadBackAsSent : Obligations.MessagesReadBackAsSent := by
  refine ⟨fun m _ => msgUnpack_read (leNat_msgPack m), fun t hkind hlane hrates hrate hwidth hdevid hport haction haseq hlen hcred hlmask
    hnextrx hpreset => tosRead_tosMake ?_⟩
  exact ⟨hkind, hlane, hrates, hrate, hwidth, hdevid, hport, haction, haseq, hlen, hcred, hlmask, hnextrx, hpreset⟩
end

section
/-! What resets lose (R84, R399, R401, R403, R413): the dies' state is cold afterwards, and what the darkroom and the slot die do on
the way reaches none of it. -/

namespace Sys2Proof.Machine

/-! ## The dies' state -/

/-- The dies are in reset, and hold nothing besides registers, counters and home memory. -/
structure Dev.DiesCold (d : Dev) : Prop where
  down : d.fdUp = false
  coh : d.coh = Coh.cold
  sor : d.sor = Sori.cold
  moves : d.moves = []
  link : d.link = []
  fpc : d.fpc = Fpc.cold
  wq : d.wq = Wq.cold
  qm : d.qm = Qm.cold

variable {d e : Dev}

theorem Dev.diesCold_diesLost (d : Dev) : d.diesLost.DiesCold := ⟨rfl, rfl, rfl, rfl, rfl, rfl, rfl, rfl⟩

theorem Dev.diesCold_fdCold (d : Dev) : d.fdCold.DiesCold := Dev.diesCold_diesLost _

/-- What changes registers, power and the darkroom alone leaves the dies cold where it leaves them in reset. -/
theorem Dev.DiesCold.outer (h : d.DiesCold) (k : d.Outer e) (hr : e.pwr.fdReset = d.pwr.fdReset) : e.DiesCold :=
  ⟨(congrArg not hr).trans h.down, k.coh.trans h.coh, k.sor.trans h.sor, k.moves.trans h.moves, k.link.trans h.link,
    k.fpc.trans h.fpc, k.wq.trans h.wq, k.qm.trans h.qm⟩

/-! ## The slot die at PWROK deassertion -/

theorem Dev.raise_pwr (d : Dev) (k x : Nat) : (d.raise k x).pwr = d.pwr := by
  rw [Dev.Looked.raise d k x]

theorem Dev.Outer.pwr (d : Dev) (p : Pwr) : d.Outer { d with pwr := p } := rfl

theorem Dev.outer_slotEv (d : Dev) (n k : Nat) : d.Outer (d.slotEv n k) := (Dev.Outer.raise d _ _).trans (.drkRecord _ _ _)

theorem Dev.slotEv_fdReset (d : Dev) (n k : Nat) : (d.slotEv n k).pwr.fdReset = d.pwr.fdReset :=
  (Dev.drkRecord_fdReset _ _ _).trans (congrArg Pwr.fdReset (d.raise_pwr _ _))

theorem Dev.outer_slotOff (d : Dev) (n reason next : Nat) : d.Outer (d.slotOff n reason next) ∧ (d.slotOff n reason next).pwr = d.pwr := by
  unfold Dev.slotOff
  exact ⟨((((Dev.Outer.setF _ _ _).trans (.setF _ _ _)).trans (.setF _ _ _)).trans (.setReg _ _ _)).trans (.setF _ _ _), rfl⟩

/-- One channel's reset reaches registers, events and the slot die's own state alone. -/
theorem Dev.outer_slotColdOne (d : Dev) (n : Nat) : d.Outer (d.slotColdOne n) ∧ (d.slotColdOne n).pwr.fdReset = d.pwr.fdReset := by
  have seq : ∀ e : Dev, e.Outer (e.setSeqNew n false) ∧ (e.setSeqNew n false).pwr.fdReset = e.pwr.fdReset := fun e => by
    unfold Dev.setSeqNew
    exact ⟨.pwr _ _, rfl⟩
  unfold Dev.slotColdOne
  dsimp only
  generalize hc : ({ d with csr := _ } : Dev) = c
  have dropped : d.Outer c ∧ c.pwr = d.pwr := by rw [← hc]; exact ⟨.csr _ _, rfl⟩
  generalize hu : c.setF _ _ = u
  have counted : c.Outer u ∧ u.pwr = c.pwr := by rw [← hu]; exact ⟨.setF _ _ _, rfl⟩
  have off := Dev.outer_slotOff (u.setSeqNew n false) n 12 stOFF
  have outer := ((dropped.1.trans counted.1).trans (seq u).1).trans off.1
  have down : ((u.setSeqNew n false).slotOff n 12 stOFF).pwr.fdReset = d.pwr.fdReset := by
    rw [off.2, (seq u).2, counted.2, dropped.2]
  split
  · exact ⟨outer.trans (Dev.outer_slotEv _ _ _), (Dev.slotEv_fdReset _ _ _).trans down⟩
  · exact ⟨outer, down⟩

theorem Dev.outer_slotCold (d : Dev) : d.Outer d.slotCold ∧ d.slotCold.pwr.fdReset = d.pwr.fdReset := by
  have outer := Dev.Outer.fold Dev.slotColdOne (fun d n => (d.outer_slotColdOne n).1) (List.range 24) d
  have down := foldl_frame (fun d : Dev => d.pwr.fdReset) Dev.slotColdOne (fun d n => (d.outer_slotColdOne n).2) (List.range 24) d
  simp only [Dev.slotCold, Dev.when]
  generalize (List.range 24).foldl Dev.slotColdOne d = e at outer down ⊢
  split
  · exact ⟨outer.trans (.csr _ _), down⟩
  · exact ⟨.refl d, rfl⟩

/-- The device once cold reset has turned every channel off: the darkroom restarts, and PWROK is deasserted. -/
def Dev.pwrokOff (d : Dev) : Dev :=
  ({ d with
    drk := d.drk.restart
    pwr := { d.pwr with
      pwrok := false, locked := false, hbmOrder := false, warm := none, safeDrv := false, startFail := false } } : Dev).alertUpd

theorem Dev.coldStart_eq (d : Dev) : d.coldStart = d.fdCold.slotCold.pwrokOff := rfl

theorem Dev.outer_pwrokOff (d : Dev) : d.Outer d.pwrokOff ∧ d.pwrokOff.pwr.fdReset = d.pwr.fdReset ∧ d.pwrokOff.pwr.pwrok = false :=
  ⟨rfl, rfl, rfl⟩

/-- Cold reset. -/
theorem Dev.coldStart_loses (d : Dev) : d.coldStart.pwr.pwrok = false ∧ d.coldStart.DiesCold ∧ d.coldStart.pool = Pool.cold := by
  obtain ⟨off, down⟩ := d.fdCold.outer_slotCold
  obtain ⟨restarted, down', deasserted⟩ := d.fdCold.slotCold.outer_pwrokOff
  rw [Dev.coldStart_eq]
  have outer := off.trans restarted
  exact ⟨deasserted, d.diesCold_fdCold.outer outer (down'.trans down), outer.pool⟩

/-- A thermal trip; the SLOT block is the slot die's. -/
theorem Dev.trip_loses (d : Dev) (k det : Nat) :
    let e := d.lockDies.drkRaise k det
    e.pwr.locked = true ∧ e.DiesCold ∧ e.pool = Pool.cold ∧ ∀ r : FRef, inSlotBlock r.addr = true → e.reg r = d.reg r := by
  intro e
  have cold : d.lockDies.DiesCold := ⟨rfl, rfl, rfl, rfl, rfl, rfl, rfl, rfl⟩
  refine ⟨Dev.drkRecord_locked _ _ _, cold.outer (.drkRecord _ _ _) (Dev.drkRecord_fdReset _ _ _), Dev.drkRecord_pool _ _ _, fun r hr => ?_⟩
  have kept := Tbl.get_filter (w64 r.cold) inSlotBlock d.csr r.addr
  rw [hr, if_pos rfl] at kept
  exact (Dev.reg_congr (Dev.drkRecord_csr _ _ _) r).trans kept

/-! ## Warm reset -/

theorem Dev.outer_mctpOut_i3c (d : Dev) (dst mt : Nat) (msg : List Byte) : d.Outer (d.mctpOut 0 dst mt msg) := by
  unfold Dev.mctpOut Dev.askIbi
  simp only [beq_self_eq_true, if_true]
  split_ifs <;> rfl

theorem Dev.outer_mbxPlace (d : Dev) (bs : List Byte) : d.Outer (d.mbxPlace bs) := by
  unfold Dev.mbxPlace
  have data := Dev.Outer.fold (fun d i => d.setReg (SYS.MBXRXD.DATA i) (w64 (leNat ((bs.drop (8 * i)).take 8)))) (fun _ _ => .setReg _ _ _)
    (List.range ((bs.length + 7) / 8)) d
  exact ((data.trans (.setF _ _ _)).trans (.setF _ _ _)).trans (.raise _ _ _)

theorem Dev.outer_fmDeliver (d : Dev) (bs : List Byte) : d.Outer (d.fmDeliver bs).2 := by
  unfold Dev.fmDeliver
  split_ifs
  · exact d.outer_mbxPlace bs
  · exact .refl d
  · exact (Dev.Outer.drk _ _).trans (.setF _ _ _)

theorem Dev.outer_fmHold (d : Dev) (bs : List Byte) : d.Outer (d.fmHold bs) := by
  have delivered := d.outer_fmDeliver bs
  unfold Dev.fmHold
  split
  case h_1 e h => rw [h] at delivered; exact delivered
  case h_2 e h => rw [h] at delivered; exact delivered.trans (.drk _ _)

theorem Dev.outer_empSend (d : Dev) (ep mt : Nat) (bs : List Byte) : d.Outer (d.empSend ep mt bs) := by
  unfold Dev.empSend
  dsimp only
  split_ifs
  · exact (Dev.Outer.emit d _).trans (Dev.outer_mctpOut_i3c _ _ _ _)
  · exact (Dev.Outer.emit d _).trans (Dev.outer_fmHold _ _)
  · exact .emit d _
  · exact .emit d _

theorem Dev.outer_relayTimeout (d : Dev) (r : Relay) : d.Outer (d.relayTimeout r) :=
  (Dev.Outer.drk d _).trans (Dev.outer_empSend _ _ _ _)

/-- The answers that end relays reach registers, outputs and the darkroom alone. -/
theorem Dev.outer_relaysEnd (d : Dev) : d.Outer d.relaysEnd :=
  (Dev.Outer.drk d _).trans (Dev.Outer.fold _ (fun d r => d.outer_relayTimeout r) _ _)

/-- `e` is `d` with other registers. -/
def Dev.Regs (d e : Dev) : Prop := e = { d with csr := e.csr }

namespace Dev.Regs

theorem refl (d : Dev) : d.Regs d := rfl

theorem trans {u : Dev} (h : d.Regs e) (k : e.Regs u) : d.Regs u := by
  unfold Dev.Regs at *
  rw [k, h]

theorem fold {α : Type} {g : Dev → α → Dev} (h : ∀ d a, Dev.Regs d (g d a)) (l : List α) (d : Dev) : d.Regs (l.foldl g d) := by
  induction l generalizing d with
  | nil => rfl
  | cons a l ih => exact (h d a).trans (ih _)

theorem setReg (d : Dev) (r : FRef) (v : Word) : d.Regs (d.setReg r v) := rfl

theorem setF (d : Dev) (r : FRef) (v : Nat) : d.Regs (d.setF r v) := rfl

theorem updF (d : Dev) (r : FRef) (g : Nat → Nat) : d.Regs (d.updF r g) := rfl

/-- The Fronds of a sorus are assigned in its registers. -/
theorem rebuild (d : Dev) (s test : Nat) : d.Regs (d.rebuild s test) := by
  have one : ∀ (use : List Nat) (d : Dev) (l : Nat), d.Regs (
      let d := d.setF (SORUS.LFMAP.PHYS s l) (use.getD l 0xF)
      if l < use.length then d else d.updF (SORUS.STAT.DOWN s) fun v => setBitN v l) := by
    intro use d l
    dsimp only
    split
    · exact setF _ _ _
    · exact (setF _ _ _).trans (updF _ _ _)
  unfold Dev.rebuild
  dsimp only at one ⊢
  refine .trans ?_ (.trans (fold (one _) _ _) (setF _ _ _))
  split
  · exact refl d
  · exact updF _ _ _

end Dev.Regs

/-- The dies as warm reset leaves them, before the registers are set that tell of it. -/
def Dev.warmLost (d : Dev) : Dev :=
  let e : Dev := ({ d with csr := d.csr.filterMap d.warmReg, pool := d.warmPool } : Dev).diesLost
  ({ e with pwr := { e.pwr with safeDrv := false } } : Dev).mscGauges

theorem Dev.regs_fdWarm (d : Dev) : d.warmLost.Regs d.fdWarm := by
  have refresh := Dev.Regs.fold (fun d k => Dev.Regs.setF d (HBM.STAT.SREF k) 1) (List.range 4) d.warmLost
  have fronds := Dev.Regs.fold (fun d' s => Dev.Regs.rebuild d' s (Tbl.get 0 d.sor.test s)) (List.range 32)
    ((List.range 4).foldl (fun d k => d.setF (HBM.STAT.SREF k) 1) d.warmLost)
  exact ((refresh.trans fronds).trans (.setReg _ _ _)).trans (.setReg _ _ _)

/-- The on-chip packet buffer is where its addresses are, whatever the partition of HBM. -/
theorem Dev.isOpb_iff (d : Dev) (a : Nat) : d.isOpb a = true ↔ 0x10000000 ≤ a % 2 ^ 49 ∧ a % 2 ^ 49 ≤ 0x12FFFFFF := by
  unfold Dev.isOpb Dev.fpaKind
  dsimp only
  generalize a % 2 ^ 49 = x
  by_cases low : x ≤ 0x5FFFFFF
  · simp [low]
    omega
  by_cases within : 0x10000000 ≤ x ∧ x ≤ 0x12FFFFFF
  · simp [low, within]
  · rw [if_neg low, if_neg (by simpa only [Bool.and_eq_true, decide_eq_true_eq] using within)]
    split_ifs <;> simp [within]

theorem Dev.byte_warmPool (d : Dev) (a : Nat) : Tbl.get 0 d.warmPool.mem a = if d.isOpb a then 0 else d.byte a := by
  have kept := Tbl.get_filter (0 : Byte) (fun a => !d.isOpb a) d.pool.mem a
  rw [Dev.warmPool, kept]
  cases d.isOpb a <;> rfl

/-- Warm reset. -/
theorem Dev.warmStart_loses {d : Dev} (hu : d.fdUp = true) (cause : Nat) :
    (d.warmStart cause).pwr.warm = some cause ∧ (d.warmStart cause).DiesCold ∧
    ∀ a, (d.warmStart cause).byte a = if d.isOpb a then 0 else d.byte a := by
  have started : d.warmStart cause = { d.relaysEnd.fdWarm with pwr := { d.relaysEnd.fdWarm.pwr with warm := some cause } } := by
    simp only [Dev.warmStart, hu, Bool.not_true, Bool.false_eq_true, if_false]
  have ended := d.outer_relaysEnd
  have same_range : ∀ a, d.relaysEnd.isOpb a = d.isOpb a := fun a => Bool.eq_iff_iff.2 ((Dev.isOpb_iff _ a).trans (Dev.isOpb_iff _ a).symm)
  have same_byte : ∀ a, d.relaysEnd.byte a = d.byte a := fun a => congrArg (fun p : Pool => Tbl.get 0 p.mem a) ended.pool
  rw [started]
  generalize d.relaysEnd = e at same_range same_byte
  have regs := e.regs_fdWarm
  unfold Dev.Regs at regs
  rw [regs]
  refine ⟨rfl, ⟨rfl, rfl, rfl, rfl, rfl, rfl, rfl, rfl⟩, fun a => ?_⟩
  rw [← same_range, ← same_byte]
  exact e.byte_warmPool a

theorem Dev.isOpb_eq (d : Dev) (a : Nat) : (d.fpaKind a = .opb → d.isOpb a = true) ∧ (d.fpaKind a ≠ .opb → d.isOpb a = false) :=
  ⟨fun h => beq_iff_eq.2 h, fun h => beq_eq_false_iff_ne.2 h⟩

end Sys2Proof.Machine

open Sys2Proof.Machine in
/-- Settles O10: each reset makes the dies cold; the two that cut power empty memory as well, and warm reset filters it. -/
theorem resetsLoseTheDies : Obligations.ResetsLoseTheDies := by
  refine ⟨fun s hdark hok => ?cold, fun s hok hu => ?warm, fun k tj s hok htj => ?trip⟩
  case cold =>
    obtain ⟨off, ⟨down, coh, sor, moves, link, fpc, wq, qm⟩, pool⟩ := s.dev.coldStart_loses
    exact ⟨_, (exec_pwrokDeassert s).trans (State.act_when (by rw [hdark, hok]; rfl)), off, down, coh, sor, moves, link, fpc, wq, qm, pool⟩
  case warm =>
    obtain ⟨cause, ⟨down, coh, sor, moves, link, fpc, wq, qm⟩, bytes⟩ := Dev.warmStart_loses hu 1
    refine ⟨_, (exec_resetNAssert s).trans (State.act_when hok), cause, down, coh, sor, moves, link, fpc, wq, qm, fun a h => ?_, fun a h => ?_⟩
    · exact (bytes a).trans (if_neg (by rw [(s.dev.isOpb_eq a).2 h]; decide))
    · exact (bytes a).trans (if_pos ((s.dev.isOpb_eq a).1 h))
  case trip =>
    obtain ⟨locked, ⟨down, coh, sor, moves, link, fpc, wq, qm⟩, pool, slots⟩ := s.dev.trip_loses 17 k
    have hot : (s.dev.pwr.pwrok && decide (tjTrip ≤ tj.toNat)) = true := by rw [hok]; exact decide_eq_true htj
    exact ⟨_, (exec_thermalTrip s).trans (State.act_when hot), locked, down, coh, sor, moves, link, fpc, wq, qm, pool, slots⟩
end

section
/-! A request on a line that nobody holds: its transaction opens with nobody to ask and finishes at once (R53, R54, R61, R62, R74,
R79). -/

namespace Sys2Proof.Machine

/-! ## What a read of home memory leaves of the device's identity -/

/-- A raise writes registers of the event block alone. -/
theorem Dev.f_raise_low (d : Dev) (k det : Nat) {r : FRef} (hr : r.addr < 0xB90000) : (d.raise k det).f r = d.f r := by
  have head : r.addr ≠ (EVT.RECA.HEAD k).addr := by show r.addr ≠ 0xB94000 + k * 16; omega
  have time : r.addr ≠ (EVT.RECB.TIME k).addr := by show r.addr ≠ 0xB94008 + k * 16; omega
  have pend : r.addr ≠ (EVT.ROUTE.PEND k).addr := by show r.addr ≠ 0xB90000 + k * 8; omega
  unfold Dev.raise
  split_ifs
  · rfl
  · exact Dev.f_setReg_other _ _ _ _ head
  · rw [Dev.f_setF_reg _ _ _ _ pend, Dev.f_setReg_other _ _ _ _ time, Dev.f_setReg_other _ _ _ _ head]

theorem Dev.f_raiseFpa_low (d : Dev) (k det j ln : Nat) {r : FRef} (hr : r.addr < 0xB90000) : (d.raiseFpa k det j ln).f r = d.f r := by
  have fpa : r.addr ≠ (EVT.XFPA.FPA j).addr := by show r.addr ≠ 0xB9C000 + j * 8; omega
  rw [Dev.raiseFpa, Dev.f_raise_low _ _ _ hr]
  split_ifs
  · rfl
  · exact Dev.f_setF_reg _ _ _ _ fpa

theorem Dev.devId_reconcile (d : Dev) (c q : Nat) : (d.reconcile c q).devId = d.devId := by
  have counted : ∀ (e : Dev) ln k, (e.hbmOp ln k).devId = e.devId := fun e ln k => Dev.f_congr (Dev.Tallied.hbmOp e ln k).csr _
  unfold Dev.reconcile
  dsimp only
  split_ifs
  · exact (Dev.f_raiseFpa_low _ _ _ _ _ (by decide)).trans (counted _ _ _)
  · exact (Dev.f_raiseFpa_low _ _ _ _ _ (by decide)).trans (counted _ _ _)
  · exact counted _ _ _
  · rfl

/-- What the reads of single copies, their rewriting and their comparison keep, a read of home memory keeps. -/
theorem Dev.homeRead_keeps {α : Type} (g : Dev → α) (tallied : ∀ {d e : Dev}, d.Tallied e → g e = g d)
    (touch : ∀ (d : Dev) ln, g (d.mscTouch ln) = g d) (marked : ∀ (d : Dev) ln x, g (d.setMeta ln x) = g d)
    (put : ∀ (d : Dev) ln x, g (d.putLine ln x) = g d) (compared : ∀ (d : Dev) c q, g (d.reconcile c q) = g d)
    (d : Dev) (ln : Nat) (err : BitVec 560) : g (d.homeRead ln err).2 = g d := by
  have one : ∀ {d u : Dev} {c : Nat} {err : BitVec 560} {r : Option LRead}, d.readOne c err = (r, u) → g u = g d := by
    intro d u c err r h
    have := tallied (Dev.Tallied.readOne d c err)
    rwa [h] at this
  have rewritten : ∀ (u : Dev) (p : Bool) q x y, g (if p then u else ((u.putLine q x).setMeta q y).hbmOp q 1) = g u := fun u p q x y => by
    split
    · rfl
    · rw [tallied (Dev.Tallied.hbmOp _ _ _), marked, put]
  unfold Dev.homeRead
  split
  · rfl
  split
  case h_1 =>
    dsimp only
    split
    case h_1 r e he => exact (one he).trans (touch _ _)
    case h_2 e he => exact (marked _ _ _).trans ((one he).trans (touch _ _))
  case h_2 =>
    dsimp only
    split
    case h_1 r e he =>
      split
      · exact one he
      case h_2 q hq =>
        split
        case h_1 y u hu =>
          split
          · exact (one hu).trans (one he)
          · rw [compared]
            exact (one hu).trans (one he)
        case h_2 u hu => exact (rewritten _ _ _ _ _).trans ((one hu).trans (one he))
    case h_2 e he =>
      split
      case h_1 q hq =>
        split
        case h_1 r u hu =>
          split
          · exact (marked _ _ _).trans ((one hu).trans (one he))
          · exact (rewritten _ _ _ _ _).trans ((one hu).trans (one he))
        case h_2 u hu => exact (marked _ _ _).trans ((marked _ _ _).trans ((one hu).trans (one he)))
      case h_2 =>
        split
        · exact one he
        · exact (marked _ _ _).trans (one he)

/-- A read of home memory leaves the device's own number. -/
theorem Dev.devId_homeRead (d : Dev) (ln : Nat) (err : BitVec 560) : (d.homeRead ln err).2.devId = d.devId :=
  Dev.homeRead_keeps Dev.devId (fun h => Dev.f_congr h.csr _) (fun _ _ => rfl) (fun _ _ _ => rfl) (fun _ _ _ => rfl)
    Dev.devId_reconcile d ln err

/-! ## The transaction of a line without holders -/

/-- The transaction of a request that has nobody to ask. -/
def Txn.unasked (m : Msg) (err : BitVec 560) (at_ : Nat) : Txn := { Txn.new m.addr.toNat (.req m) err with at_ := at_ }

theorem Dev.closeTxn_openTxn {d : Dev} {ln : Nat} {t : Txn} (ht : d.txn ln = none) (hl : t.ln = ln) : (d.openTxn t).closeTxn ln = d := by
  have others : d.coh.txns.filter (·.ln != ln) = d.coh.txns := List.filter_eq_self.2 fun u hu => by
    simpa using List.find?_eq_none.1 ht u hu
  simp only [Dev.openTxn, Dev.closeTxn, List.filter_append, others, List.filter_cons, hl, bne_self_eq_false, Bool.false_eq_true,
    if_false, List.filter_nil, List.append_nil]

theorem Dev.noHolder_empty (d : Dev) (ln : Nat) : d.noHolder ln SfE.empty = true := by
  simp only [Dev.noHolder, SfE.empty]
  split <;> rfl

theorem Dev.keepSf_empty (d : Dev) (ln : Nat) : d.keepSf ln SfE.empty = d.setSf ln SfE.empty := by
  rw [Dev.keepSf, ite_self]

theorem afterRead_empty (t : Txn) : afterRead t SfE.empty = SfE.empty := rfl

theorem Dev.afterWrP_empty (d : Dev) (ln : Nat) (x : Holder) : d.afterWrP ln SfE.empty x = SfE.empty := by
  have unowned : ∀ g, ((0 : Nat) == 65 + g) = false := fun g => beq_eq_false_iff_ne.2 (by omega)
  cases x with
  | host h =>
    simp only [Dev.afterWrP]
    cases d.hostGroup (homeOf ln) h with
    | none => rfl
    | some g => simp [SfE.empty, unowned]
  | _ => rfl

section Unheld

variable {d : Dev} {m : Msg} (hs : d.sfe m.addr.toNat = SfE.empty)
include hs

theorem Dev.takeDuty_of_unheld : d.takeDuty m.addr.toNat = d := by
  simp [Dev.takeDuty, Dev.heldO, hs, SfE.empty]

/-- Whatever the request, nobody is asked. -/
theorem Dev.mkTxn_of_unheld (err : BitVec 560) (spare : Bool) : d.mkTxn m err opSnpI spare = Txn.new m.addr.toNat (.req m) err := by
  have unshared : (opSnpI == opSnpS) = false := by decide
  have nobody : SfE.empty.allSori = [] ∧ SfE.empty.allGroups = [] ∧ d.allPeers m.addr.toNat SfE.empty = [] := by
    refine ⟨by decide, by decide, ?_⟩
    rw [Dev.allPeers]
    split <;> decide
  obtain ⟨sori, groups, peers⟩ := nobody
  simp only [Dev.mkTxn, hs, sori, groups, peers, unshared, Bool.false_eq_true, if_false, List.map_nil, List.flatten_nil]
  rfl

theorem Dev.snoopFor_of_unheld : d.snoopFor m false = if m.op = opRdS ∨ m.op = opRdU then none else some opSnpI := by
  by_cases h : m.op = opRdS ∨ m.op = opRdU
  · have read : (m.op == opRdS || m.op == opRdU) = true := by simpa using h
    simp only [Dev.snoopFor, hs, read, if_true, if_pos h]
    rfl
  · rw [if_neg h, Dev.snoopFor_other h]

end Unheld

/-- With nobody to ask, nothing is sent. -/
theorem Dev.sendSnoops_unasked (d : Dev) (m : Msg) (err : BitVec 560) (a : Nat) (op : BitVec 6) (req : BitVec 13) (tag : BitVec 12) :
    d.sendSnoops (Txn.unasked m err a) op req tag = d := rfl

/-- A way that is not needed, or free, holds nothing up. -/
theorem Dev.withWay_goes {d : Dev} {m : Msg} {needs : Bool} (h : needs = false ∨ d.sfRoom m.addr.toNat = (true, d)) (k : Dev → Dev) :
    d.withWay m needs k = k d := by
  rcases h with rfl | h
  · rfl
  · exact Dev.withWay_of_room h needs k

/-- A request other than Atom and Upg that the home takes, on a line that nobody holds and with nothing to wait for. -/
structure Dev.Unheld (d : Dev) (m : Msg) (err : BitVec 560) : Prop where
  taken : d.turnsAway m = false
  here : lnDev m.addr.toNat = d.devId
  bare : d.sfe m.addr.toNat = SfE.empty
  waits : d.coh.waits = []
  closed : d.txn m.addr.toNat = none
  placed : d.needsMsc m.addr.toNat = false
  present : d.present m.addr.toNat = true
  kept : d.lostExp m.addr.toNat = false
  sound : d.mscAgain (Txn.new m.addr.toNat (.req m) err) = false

namespace Dev.Unheld

variable {d : Dev} {m : Msg} {err : BitVec 560}

/-- Training the predictor changes nothing of it. -/
theorem trained (h : d.Unheld m err) : (d.trained m).Unheld m err := by
  obtain ⟨p, e⟩ := d.trained_eq m
  rw [e]
  exact ⟨h.taken, h.here, h.bare, h.waits, h.closed, h.placed, h.present, h.kept, h.sound⟩

/-- Its transaction, once open, has all its answers and what it reads. -/
theorem advance (h : d.Unheld m err) (hop : m.op ≠ opAtom) (a : Nat) :
    (d.openTxn (.unasked m err a)).advance m.addr.toNat = (d.openTxn (.unasked m err a)).finishReq (.unasked m err a) m := by
  have opened : (d.openTxn (.unasked m err a)).txn m.addr.toNat = some (.unasked m err a) := Dev.txn_openTxn h.closed
  have again : (d.openTxn (.unasked m err a)).mscAgain (.unasked m err a) = false := h.sound
  have present : (d.openTxn (.unasked m err a)).present m.addr.toNat = true := h.present
  have other : (m.op == opAtom && (Txn.unasked m err a).ownNew != 7) = false := by simp [hop]
  have ready : (!(Txn.unasked m err a).ready || !(Txn.unasked m err a).exps.isEmpty) = false := rfl
  have kind : (Txn.unasked m err a).kind = .req m := rfl
  have fwd : (Txn.unasked m err a).fwd = false := rfl
  have give : (Txn.unasked m err a).give = false := rfl
  have resp : (Txn.unasked m err a).resp = none := rfl
  simp only [Dev.advance, opened, ready, kind, fwd, give, resp, again, present, other, Bool.and_false, Bool.not_true, Bool.false_eq_true,
    if_false]

/-- It opens its transaction, which finishes at once. -/
theorem openReq (h : d.Unheld m err) (hop : m.op ≠ opAtom ∧ m.op ≠ opUpg)
    (hway : (d.trained m).allocates m false = false ∨ (d.trained m).sfRoom m.addr.toNat = (true, d.trained m)) :
    d.openReq m err = ((d.trained m).openTxn (.unasked m err (d.trained m).now)).finishReq (.unasked m err (d.trained m).now) m := by
  obtain ⟨not_atom, not_upg⟩ := hop
  have atom : (m.op == opAtom) = false := by simpa using not_atom
  have upg : (m.op == opUpg) = false := by simpa using not_upg
  have train_eq : (if (m.op == opRdX || m.op == opUpg || false) && !(d.coh.waits.any (·.1 == m)) then d.train m else d) = d.trained m := by
    simp [Dev.trained, h.waits]
  rw [← h.trained.advance not_atom]
  simp only [Dev.openReq, h.taken, atom, Bool.false_and, Bool.false_eq_true, if_false, train_eq, Dev.withWay_goes hway,
    Dev.waitEnd_of_none h.trained.waits, h.trained.placed, Bool.not_true, Dev.snoopFor_openTxn]
  by_cases read : m.op = opRdS ∨ m.op = opRdU
  · simp only [upg, Bool.false_and, Bool.false_eq_true, if_false, Dev.snoopFor_of_unheld h.trained.bare, if_pos read]
    rfl
  · simp only [upg, Bool.false_and, Bool.false_eq_true, if_false, Dev.snoopFor_of_unheld h.trained.bare, if_neg read,
      Dev.mkTxn_of_unheld h.trained.bare]
    rfl

end Dev.Unheld

/-! ## Its end -/

@[simp] theorem Txn.unasked_ln (m : Msg) (err : BitVec 560) (a : Nat) : (Txn.unasked m err a).ln = m.addr.toNat := rfl
@[simp] theorem Txn.unasked_err (m : Msg) (err : BitVec 560) (a : Nat) : (Txn.unasked m err a).err = err := rfl
@[simp] theorem lostRead_unasked (r : LRead) (m : Msg) (err : BitVec 560) (a : Nat) : lostRead r (.unasked m err a) = r := rfl
@[simp] theorem Dev.settleLost_unasked (d : Dev) (m : Msg) (err : BitVec 560) (a : Nat) :
    d.settleLost (.unasked m err a) = (.unasked m err a, d) := rfl
@[simp] theorem Dev.holderOf_openTxn (d : Dev) (t : Txn) (x : BitVec 13) : (d.openTxn t).holderOf x = d.holderOf x := rfl

section Ends

variable {d : Dev} {m : Msg} {err : BitVec 560} (h : d.Unheld m err) (a : Nat)
include h

/-- Its transaction closes with nothing lost on the way. -/
theorem Dev.Unheld.closes : (d.openTxn (.unasked m err a)).closeTxn m.addr.toNat = d := Dev.closeTxn_openTxn h.closed rfl

theorem Dev.Unheld.own : d.remote m.addr.toNat = false := Dev.remote_eq_false h.here

theorem Dev.Unheld.opened_bare : (d.openTxn (.unasked m err a)).sfe m.addr.toNat = SfE.empty := h.bare

/-- A shared read is answered DataE, and its requester recorded as sole owner. -/
theorem Dev.Unheld.finish_rds (hop : m.op = opRdS) : (d.openTxn (.unasked m err a)).finishReq (.unasked m err a) m =
    ((((d.homeRead m.addr.toNat err).2.granted m).setOwner m.addr.toNat (d.holderOf m.src)).answer m
      { op := opDataE, data := (d.homeRead m.addr.toNat err).1.data, psn := (d.homeRead m.addr.toNat err).1.psn }) := by
  have here : (lnDev m.addr.toNat == (d.homeRead m.addr.toNat err).2.devId) = true := by
    rw [Dev.devId_homeRead, h.here]; exact beq_self_eq_true _
  simp only [Dev.finishReq, Dev.settleLost_unasked, Txn.unasked_ln, Txn.unasked_err, lostRead_unasked, Dev.holderOf_openTxn,
    h.opened_bare, h.closes, afterRead_empty, hop, beq_self_eq_true, if_true, h.kept, Bool.false_eq_true, if_false,
    Dev.noHolder_empty, here, Bool.true_or, Bool.and_self]

/-- A read for a sole owner is answered DataM, and its requester recorded as that. -/
theorem Dev.Unheld.finish_rdx (hop : m.op = opRdX) : (d.openTxn (.unasked m err a)).finishReq (.unasked m err a) m =
    ((((d.homeRead m.addr.toNat err).2.granted m).setOwner m.addr.toNat (d.holderOf m.src)).answer m
      { op := opDataM, data := (d.homeRead m.addr.toNat err).1.data, psn := (d.homeRead m.addr.toNat err).1.psn }) := by
  have other : (opRdX == opRdS) = false ∧ (opRdX == opRdU) = false ∧ (opRdX == opUpg) = false := by decide
  obtain ⟨not_rds, not_rdu, not_upg⟩ := other
  simp only [Dev.finishReq, Dev.settleLost_unasked, Txn.unasked_ln, Txn.unasked_err, lostRead_unasked, Dev.holderOf_openTxn,
    h.opened_bare, h.closes, afterRead_empty, hop, not_rds, not_rdu, not_upg, beq_self_eq_true, if_true, Bool.true_or, Bool.false_and,
    h.kept, Bool.false_eq_true, if_false, Dev.takeDuty_of_unheld h.bare]

/-- A read without a copy is answered DataU, and nobody is recorded. -/
theorem Dev.Unheld.finish_rdu (hop : m.op = opRdU) : (d.openTxn (.unasked m err a)).finishReq (.unasked m err a) m =
    (((d.homeRead m.addr.toNat err).2.setSf m.addr.toNat SfE.empty).answer m
      { op := opDataU, data := (d.homeRead m.addr.toNat err).1.data, psn := (d.homeRead m.addr.toNat err).1.psn }) := by
  have other : (opRdU == opRdS) = false := by decide
  have own : ((d.homeRead m.addr.toNat err).2.setSf m.addr.toNat SfE.empty).remote m.addr.toNat = false :=
    Dev.remote_eq_false (h.here.trans (Dev.devId_homeRead _ _ _).symm)
  simp only [Dev.finishReq, Dev.settleLost_unasked, Txn.unasked_ln, Txn.unasked_err, lostRead_unasked, Dev.holderOf_openTxn,
    h.opened_bare, h.closes, afterRead_empty, hop, other, beq_self_eq_true, if_true, h.kept, Bool.false_eq_true, if_false,
    Dev.keepSf_empty, own, Bool.false_and]

/-- A full write whose host keeps nothing, and a partial one, are answered Cmp once home memory has their bytes. -/
theorem Dev.Unheld.finish_write (hop : m.op = opWrU ∨ m.op = opWrP) (hn : m.new = 0) :
    (d.openTxn (.unasked m err a)).finishReq (.unasked m err a) m =
      ((if m.op = opWrU then d.homeWrite m.addr.toNat m.data (BitVec.allOnes 64)
        else (d.homeRead m.addr.toNat err).2.homeWrite m.addr.toNat m.data m.mask).setSf m.addr.toNat SfE.empty).answer m
          { op := opCmp } := by
  have nothing : ∀ e : Dev, e.keepsCopy m = 0 := fun e => by rw [Dev.keepsCopy, hn, ite_self]
  have other : m.op ≠ opRdS ∧ m.op ≠ opRdU ∧ m.op ≠ opUpg ∧ m.op ≠ opRdX := by
    rcases hop with e | e <;> rw [e] <;> decide
  obtain ⟨not_rds, not_rdu, not_upg, not_rdx⟩ := other
  have kept : ((0 : BitVec 2) == 2) = false ∧ ((0 : BitVec 2) == 1) = false := by decide
  have write : (m.op == opWrU || m.op == opWrP) = true := by simpa using hop
  simp only [Dev.finishReq, Dev.settleLost_unasked, Txn.unasked_ln, Txn.unasked_err, lostRead_unasked, Dev.holderOf_openTxn,
    h.opened_bare, h.closes, afterRead_empty, beq_eq_false_iff_ne.2 not_rds, beq_eq_false_iff_ne.2 not_rdu, beq_eq_false_iff_ne.2 not_upg,
    beq_eq_false_iff_ne.2 not_rdx, write, nothing, kept, h.own, h.kept, Bool.false_and, Bool.and_false, Bool.or_self, Bool.false_eq_true,
    if_false, if_true, Dev.takeDuty_of_unheld h.bare, Dev.afterWrP_empty, ite_self, beq_iff_eq]

end Ends

/-! ## What needs no way and no second read -/

/-- Without an error pattern a line reads as it is, and not again. -/
theorem Dev.mscAgain_of_intact (d : Dev) {t : Txn} (h : t.err = 0) : d.mscAgain t = false := by
  have clean : rsRead false (d.line t.ln) 0 0 = .clean (d.line t.ln) 0 false := by
    rw [rsRead, if_pos rfl]
    rfl
  unfold Dev.mscAgain
  split
  · rw [h, clean, Bool.and_false]
  · rfl

/-- A request that leaves no copy with its requester needs no way. -/
theorem Dev.allocates_eq_false (d : Dev) {m : Msg} (h : m.op = opRdU ∨ (m.op = opWrU ∨ m.op = opWrP) ∧ m.new = 0) :
    d.allocates m false = false := by
  have writes : (m.op == opWrU && m.new != 0) = false := by
    rcases h with e | ⟨-, hn⟩
    · rw [e]; rfl
    · rw [hn]; exact Bool.and_false _
  have other : m.op ≠ opRdS ∧ m.op ≠ opRdX ∧ m.op ≠ opUpg ∧ m.op ≠ opAtom := by
    rcases h with e | ⟨e | e, -⟩ <;> rw [e] <;> decide
  obtain ⟨not_rds, not_rdx, not_upg, not_atom⟩ := other
  simp only [Dev.allocates, shadowKeeps, writes, beq_eq_false_iff_ne.2 not_rds, beq_eq_false_iff_ne.2 not_rdx,
    beq_eq_false_iff_ne.2 not_upg, beq_eq_false_iff_ne.2 not_atom, Bool.or_self, Bool.false_and]

end Sys2Proof.Machine

open Sys2Proof.Machine in
/-- Settles O21: nobody is asked, so the transaction that opens finishes at once. -/
theorem unheldLinesServed : Obligations.UnheldLinesServed := by
  unfold Obligations.UnheldLinesServed
  intro s m err op hu hs hd hh hl ln m' d hturn hgate hq hagain ht he hta hsfe hw hp hm hlost
  have arrives : s.dev.Arrives m' := ⟨hu, hs, hd, hturn⟩
  have unheld : ∀ {err}, d.mscAgain (Txn.new ln (.req m') err) = false → d.Unheld m' err := fun again =>
    ⟨hta, hl.trans (Dev.take_devId _ _).symm, hsfe, hw, (Dev.take_txn _ _ _).trans ht, hm, hp, hlost, again⟩
  have served : ∀ {i err}, exec i s = s.act (fun _ d => d.recvReq m' err) → d.mscAgain (Txn.new ln (.req m') err) = false →
      m'.op ≠ opAtom ∧ m'.op ≠ opUpg →
      (d.trained m').allocates m' false = false ∨ (d.trained m').sfRoom ln = (true, d.trained m') →
      exec i s = .next (s.after (((d.trained m').openTxn (.unasked m' err (d.trained m').now)).finishReq
        (.unasked m' err (d.trained m').now) m')) := fun runs again other way => by
    rw [runs]
    exact State.act_of_eq ((Dev.recvReq_opens arrives hh hgate hl ht hq (.inr he) _).trans ((unheld again).openReq other way))
  have untrained : m'.op ≠ opRdX ∧ m'.op ≠ opUpg → d.trained m' = d := fun ⟨h, k⟩ => by
    rw [Dev.trained, if_neg (by rintro (e | e) <;> contradiction)]
  refine ⟨fun e way => ?rds, fun e way => ?rdx, fun e => ?rdu, fun hn => ⟨fun e => ?wru, fun e => ?wrp⟩⟩
  case rds =>
    subst e
    have same := untrained (show opRdS ≠ opRdX ∧ opRdS ≠ opUpg by decide)
    have run := served (i := .rds m err) rfl hagain (show opRdS ≠ opAtom ∧ opRdS ≠ opUpg by decide) (.inr (by rw [same]; exact way))
    rw [same, (unheld hagain).finish_rds _ rfl] at run
    exact run
  case rdx =>
    subst e
    have run := served (i := .rdx m err) rfl hagain (show opRdX ≠ opAtom ∧ opRdX ≠ opUpg by decide) (.inr way)
    rw [(unheld hagain).trained.finish_rdx _ rfl] at run
    exact run
  case rdu =>
    subst e
    have same := untrained (show opRdU ≠ opRdX ∧ opRdU ≠ opUpg by decide)
    have run := served (i := .rdu m err) rfl hagain (show opRdU ≠ opAtom ∧ opRdU ≠ opUpg by decide)
      (.inl (Dev.allocates_eq_false _ (.inl rfl)))
    rw [same, (unheld hagain).finish_rdu _ rfl] at run
    exact run
  case wru =>
    subst e
    have same := untrained (show opWrU ≠ opRdX ∧ opWrU ≠ opUpg by decide)
    have sound := d.mscAgain_of_intact (t := Txn.new ln (.req m') 0) rfl
    have run := served (i := .wru m) rfl sound (show opWrU ≠ opAtom ∧ opWrU ≠ opUpg by decide)
      (.inl (Dev.allocates_eq_false _ (.inr ⟨.inl rfl, hn⟩)))
    rw [same, (unheld sound).finish_write _ (.inl rfl) hn] at run
    exact run
  case wrp =>
    subst e
    have same := untrained (show opWrP ≠ opRdX ∧ opWrP ≠ opUpg by decide)
    have run := served (i := .wrp m err) rfl hagain (show opWrP ≠ opAtom ∧ opWrP ≠ opUpg by decide)
      (.inl (Dev.allocates_eq_false _ (.inr ⟨.inr rfl, hn⟩)))
    rw [same, (unheld hagain).finish_write _ (.inr rfl) hn, if_neg (show ¬ opWrP = opWrU by decide)] at run
    exact run
end

section
/-! Atomics on a line that the L1D holds exclusively (R67, R208–R210). -/

namespace Sys2Proof.Machine

/-! ## The values -/

theorem sext_mod (w x : Nat) : sext w (x % 2 ^ w) = sext w x := by
  simp [sext]

theorem sext_inj {w x y : Nat} (hx : x < 2 ^ w) (hy : y < 2 ^ w) (h : sext w x = sext w y) : x = y := by
  simp only [sext, Nat.mod_eq_of_lt hx, Nat.mod_eq_of_lt hy] at h
  generalize 2 ^ w = m at *
  split_ifs at h <;> omega

/-- What each atomic but CAS makes of the old value and its operand (R209). -/
def amoValue (op n old b : Nat) : Nat :=
  match op with
  | 0 => (old + b) % 2 ^ (8 * n)
  | 2 => b
  | 3 => if sext (8 * n) old ≤ sext (8 * n) b then old else b
  | 4 => if sext (8 * n) old ≤ sext (8 * n) b then b else old
  | 5 => min old b
  | 6 => max old b
  | 7 => old &&& b
  | 8 => old ||| b
  | _ => old ^^^ b

theorem amoNew_eq {op n old : Nat} (hop : op ∈ [0, 2, 3, 4, 5, 6, 7, 8, 9]) (ho : old < 2 ^ (8 * n)) (x y : Nat) :
    amoNew op n old x y = some (amoValue op n old (x % 2 ^ (8 * n))) := by
  have bound : x % 2 ^ (8 * n) < 2 ^ (8 * n) := Nat.mod_lt _ (Nat.two_pow_pos _)
  simp only [List.mem_cons, List.not_mem_nil, or_false] at hop
  rcases hop with rfl | rfl | rfl | rfl | rfl | rfl | rfl | rfl | rfl
  case inl => simp only [amoNew, amoValue, Nat.add_mod_mod]
  case inr.inr.inl => simp only [amoNew, amoValue, sext_mod]
  case inr.inr.inr.inl =>
    simp only [amoNew, amoValue, sext_mod, Option.some.injEq]
    rcases lt_trichotomy (sext (8 * n) old) (sext (8 * n) x) with h | h | h
    · rw [if_neg (by omega), if_pos (by omega)]
    · rw [if_pos (by omega), if_pos (by omega)]
      exact sext_inj ho bound (h.trans (sext_mod _ _).symm)
    · rw [if_pos (by omega), if_neg (by omega)]
  all_goals rfl

/-- A compare-and-swap stores its new value where the old one is the one expected. -/
theorem amoNew_cas (n old x y : Nat) :
    amoNew 1 n old x y = if old = x % 2 ^ (8 * n) then some (y % 2 ^ (8 * n)) else none := by
  simp only [amoNew, beq_iff_eq]

/-! ## Performed in the L1D -/

/-- Nothing that the atomic must follow is buffered or posted (R210). -/
structure Dev.AmoFree (d : Dev) (t ln : Nat) (rel : Bool) : Prop where
  stores : ∀ e ∈ d.sor.sb, (rel = true → e.p ≠ d.physOf t ∧ e.t ≠ t) ∧ (e.t = t → e.fpa / 64 ≠ ln)
  posts : ∀ e ∈ d.sor.posts, e.t = t → rel = false ∧ e.fpa / 64 ≠ ln

theorem Dev.AmoFree.follows_nothing {d : Dev} {t ln : Nat} {rel : Bool} (h : d.AmoFree t ln rel) :
    ((d.sor.sb.any fun e => if rel then e.p == d.physOf t else e.t == t && e.fpa / 64 == ln) || (rel && d.sbOwn t) || d.postOn t ln) =
      false := by
  have unposted : d.postOn t ln = false := by
    simpa [Dev.postOn] using fun e he ht => (h.posts e he ht).2
  cases rel
  · have unbuffered : ∀ e ∈ d.sor.sb, e.t = t → ¬ e.fpa / 64 = ln := fun e he => (h.stores e he).2
    simpa [unposted] using unbuffered
  · have unbuffered : ∀ e ∈ d.sor.sb, ¬ e.p = d.physOf t := fun e he => ((h.stores e he).1 rfl).1
    have own : d.sbOwn t = false := by
      have no_store : ∀ e ∈ d.sor.sb, ¬ e.t = t := fun e he => ((h.stores e he).1 rfl).2
      have no_post : ∀ e ∈ d.sor.posts, ¬ e.t = t := fun e he ht => by cases (h.posts e he ht).1
      simpa [Dev.sbOwn] using ⟨no_store, no_post⟩
    simpa [unposted, own] using unbuffered

/-- On a line held exclusively it is performed near. -/
theorem Dev.amoGo_near {d : Dev} {t fpa op : Nat} {rel : Bool} {st : L1St} (h : d.AmoFree t (fpa / 64) rel)
    (hst : (d.l1 (d.physOf t) (fpa / 64)).st = some st) (hx : st = .m ∨ st = .e)
    (hpsn : (d.l1 (d.physOf t) (fpa / 64)).psn = false) (hop : op ≠ upMETER) (htab : d.inTables (fpa / 64) = false)
    (hstop : (d.str t).stop = 0) (rd n va : Nat) (a b : Word) (place : Nat) (acq : Bool) :
    d.amoGo t rd op n fpa va a b place acq rel 0 = d.amoNear t rd op n fpa va a b (.amo rd op n fpa va a b place acq rel 0) := by
  have other : (op == upMETER) = false := beq_eq_false_iff_ne.2 hop
  rcases hx with rfl | rfl <;>
    simp only [Dev.amoGo, h.follows_nothing, hst, other, htab, hpsn, Bool.false_eq_true, if_false, Dev.finishAccess_running hstop] <;> rfl

/-- An attempt is what it comes to from the device in which nothing is awaited. -/
theorem Dev.tryOwn_congr {α : Type} {d : Dev} {g k : Dev → α × Dev} (h : g d.noNeed = k d.noNeed) : d.tryOwn g = d.tryOwn k := by
  rw [Dev.noNeed] at h
  rw [Dev.tryOwn, Dev.tryOwn, h]

theorem leNat_lineSlice_lt (x : Line) (off n : Nat) : leNat (lineSlice x off n) < 2 ^ (8 * n) := by
  rw [pow_mul]
  exact (leNat_lt _).trans_le (Nat.pow_le_pow_right (by decide) (List.length_take_le _ _))

/-- What tryOwn makes of a store whose fields are taken from the device that it tries it in. -/
theorem Dev.tryOwn_stores {d : Dev} {stores : Dev → Dev} {w : OwnFor} {p ln off n va : Nat} {priv : Bool} {bs : List Byte}
    (hs : stores d.noNeed = d.noNeed.storeL1 w p ln off bs n priv va) :
    d.tryOwn (fun d => ((), stores d)) = d.tryOwn (fun d => ((), d.storeL1 w p ln off bs n priv va)) :=
  Dev.tryOwn_congr (show ((), stores d.noNeed) = ((), _) by rw [hs])

section Near

variable {d : Dev} {t rd op n fpa va p old : Nat} {a b : Word} (w : Wait) (hp : d.physOf t = p)
  (ho : leNat (lineSlice (d.l1 p (fpa / 64)).data (fpa % 64) n) = old)
include hp ho

/-- With a new value it stores that, once its page is logged. -/
theorem Dev.amoNear_stores {e : Dev} {y : Nat} {stores : Dev → Dev} (hy : amoNew op n old a.toNat b.toNat = some y)
    (hs : stores d.noNeed = d.noNeed.storeL1 (.log p) p (fpa / 64) (fpa % 64) (leBytes n y) (d.str t).slice (d.str t).priv va)
    (he : d.tryOwn (fun d => ((), stores d)) = (some (), e)) :
    d.amoNear t rd op n fpa va a b w = (e.frEvent p 10 1).amoDone t rd op (w64 old) true := by
  rw [Dev.tryOwn_stores hs] at he
  simp only [Dev.amoNear, hp, ho, hy, he]

/-- Without one it leaves the line in M. -/
theorem Dev.amoNear_fails (hy : amoNew op n old a.toNat b.toNat = none) :
    d.amoNear t rd op n fpa va a b w =
      ((d.setL1 p (fpa / 64) { d.l1 p (fpa / 64) with st := some .m }).frEvent p 10 1).amoDone t rd op (w64 old) false := by
  simp only [Dev.amoNear, hp, ho, hy]

end Near

/-! ## The commands -/

/-- The size of an atomic (R208). -/
def amoSize (f : FAt) : Nat := if f.sz then 8 else 4

/-- The operands of operation `op`: CAS compares with rd and stores rb. -/
def Strand.amoOps (x : Strand) (op : Nat) (f : FAt) : Word × Word :=
  if op == 1 then (x.g f.rd.toNat, x.g f.rb.toNat) else (x.g f.rb.toNat, 0)

theorem Strand.amoOps_cas (x : Strand) (f : FAt) : x.amoOps 1 f = (x.g f.rd.toNat, x.g f.rb.toNat) := rfl

/-- An atomic that issues with the fields that it may have goes on with its address. -/
theorem Dev.amo_ok {d e : Dev} {t op fpa : Nat} {f : FAt} (hi : d.issues t = true) (hf : (f.place == 0 || f.z6 || f.z0) = false)
    (ha : ((d.str t).g f.ra.toNat).toNat % amoSize f = 0) (hl : d.leads t ((d.str t).g f.ra.toNat).toNat .a = (some (.ok fpa), e)) :
    d.amo t op f = e.amoGo t f.rd.toNat op (amoSize f) fpa ((d.str t).g f.ra.toNat).toNat ((d.str t).amoOps op f).1
      ((d.str t).amoOps op f).2 f.place.toNat f.acq f.rel 0 := by
  have ops : ((d.str t).amoOps op f).1 = (if op == 1 then (d.str t).g f.rd.toNat else (d.str t).g f.rb.toNat) ∧
      ((d.str t).amoOps op f).2 = if op == 1 then (d.str t).g f.rb.toNat else 0 := by
    unfold Strand.amoOps; split <;> exact ⟨rfl, rfl⟩
  rw [Dev.amo, hf, d.issue_legal hi, ops.1, ops.2]
  exact Dev.access_ok _ ha hl

theorem Dev.amo_illegal {d : Dev} {t : Nat} {f : FAt} (hi : d.issues t = true) (hf : (f.place == 0 || f.z6 || f.z0) = true) (op : Nat) :
    d.amo t op f = d.strandFault t cILLEGAL 0 := by
  rw [Dev.amo, hf, d.issue_illegal hi]

/-- Each of the ten is the operation of its code. -/
theorem atomic_runs {t : StrandIx} {f : FAt} {i : Instr} (h : i ∈ [.amoAdd t f, .amoCas t f, .amoSwap t f, .amoMin t f, .amoMax t f,
    .amoMinu t f, .amoMaxu t f, .amoAnd t f, .amoOr t f, .amoXor t f]) (s : State) : ∃ op, exec i s = s.act fun _ d => d.amo t op f := by
  simp only [List.mem_cons, List.not_mem_nil, or_false] at h
  rcases h with rfl | rfl | rfl | rfl | rfl | rfl | rfl | rfl | rfl | rfl
  exacts [⟨0, rfl⟩, ⟨1, rfl⟩, ⟨2, rfl⟩, ⟨3, rfl⟩, ⟨4, rfl⟩, ⟨5, rfl⟩, ⟨6, rfl⟩, ⟨7, rfl⟩, ⟨8, rfl⟩, ⟨9, rfl⟩]

end Sys2Proof.Machine

open Sys2Proof.Machine in
/-- Settles O42: an atomic on such a line is performed near, where its value is what `amoNew` gives. -/
theorem nearAtomics : Obligations.NearAtomics := by
  unfold Obligations.NearAtomics
  intro s t f hi
  refine ⟨?near, ?illegal⟩
  case illegal =>
    intro hf i hmem
    obtain ⟨op, runs⟩ := atomic_runs hmem s
    have illegal : (f.place == 0 || f.z6 || f.z0) = true := by simpa [or_assoc] using hf
    rw [runs]
    exact State.act_of_eq (Dev.amo_illegal hi illegal op)
  case near =>
    intro fpa d st n x ea p l old b stores done hplace hz6 hz0 ha hl hst hx hpsn hsb hposts hstop htab
    have legal : (f.place == 0 || f.z6 || f.z0) = false := by
      rw [beq_eq_false_iff_ne.2 hplace, hz6, hz0]
      rfl
    have near : ∀ {i op}, exec i s = s.act (fun _ d => d.amo t op f) → op ≠ upMETER →
        exec i s = .next (s.after (d.amoNear t f.rd.toNat op n fpa ea (x.amoOps op f).1 (x.amoOps op f).2
          (.amo f.rd.toNat op n fpa ea (x.amoOps op f).1 (x.amoOps op f).2 f.place.toNat f.acq f.rel 0))) := fun runs hop => by
      rw [runs]
      exact State.act_of_eq ((Dev.amo_ok hi legal ha hl).trans (Dev.amoGo_near ⟨hsb, hposts⟩ hst hx hpsn hop htab hstop ..))
    have ends : ∀ {i op y}, exec i s = s.act (fun _ d => d.amo t op f) → op ≠ upMETER →
        amoNew op n old (x.amoOps op f).1.toNat (x.amoOps op f).2.toNat = some y → done i op y := fun runs hop hy =>
      ⟨fun e he => (near runs hop).trans (by rw [Dev.amoNear_stores _ rfl rfl hy rfl he]),
        fun hlog => (Dev.tryOwn_stores rfl).trans (Dev.tryOwn_storeL1 _ _ _ _ hlog)⟩
    have plain : ∀ {i y} op, op ∈ [0, 2, 3, 4, 5, 6, 7, 8, 9] → exec i s = s.act (fun _ d => d.amo t op f) →
        amoValue op n old b = y → done i op y := fun {i y} op hop runs hy => by
      have other : op ≠ upMETER ∧ (op == 1) = false := by
        simp only [List.mem_cons, List.not_mem_nil, or_false] at hop
        rcases hop with rfl | rfl | rfl | rfl | rfl | rfl | rfl | rfl | rfl <;> decide
      refine ends runs other.1 ?_
      rw [Strand.amoOps, if_neg (by simp [other.2]), ← hy]
      exact amoNew_eq hop (leNat_lineSlice_lt _ _ _) _ _
    refine ⟨plain 0 (by decide) rfl rfl, plain 2 (by decide) rfl rfl, plain 3 (by decide) rfl rfl, plain 4 (by decide) rfl rfl,
      plain 5 (by decide) rfl rfl, plain 6 (by decide) rfl rfl, plain 7 (by decide) rfl rfl, plain 8 (by decide) rfl rfl,
      plain 9 (by decide) rfl rfl, fun he => ?_, fun he => ?_⟩
    · refine ends (i := .amoCas t f) (op := 1) (y := b) rfl (by decide) ?_
      rw [Strand.amoOps_cas, amoNew_cas, if_pos he]
    · refine (near (i := .amoCas t f) (op := 1) rfl (by decide)).trans ?_
      rw [Strand.amoOps_cas, Dev.amoNear_fails _ rfl rfl (by rw [amoNew_cas, if_neg he])]
end

section
/-! The homes' registers and the HBM channels (R91, R92, R101–R103, R109). -/

namespace Sys2Proof.Machine

variable {d : Dev} {n k p : Nat}

/-! ## Cases on a number and on an option

The kernel evaluates what a `match` looks at when it compares two of them. These two lemmas let it take the branch of one without
that, whatever is looked at. -/

theorem casesNat_succ {β : Type} {x p : Nat} (h : x = p + 1) (m : Nat → (Unit → β) → (Nat → β) → β)
    (hm : ∀ p a f, m (p + 1) a f = f p) (a : Unit → β) (f : Nat → β) : m x a f = f p := by
  rw [h, hm]

theorem casesOption_some {α β : Type} {x : Option α} {y : α} (h : x = some y) (m : Option α → (Unit → β) → (α → β) → β)
    (hm : ∀ y a f, m (some y) a f = f y) (a : Unit → β) (f : α → β) : m x a f = f y := by
  rw [h, hm]

/-! ## Recalls (R92) -/

/-- The target written to RECALL, its BUSY as it was. -/
def Dev.recallTarget (d : Dev) (n : Nat) (v : Word) : Dev :=
  (d.setF (HOME.RECALL.INDEX n) (getBits v 0 5)).setF (HOME.RECALL.KIND n) (getBits v 5 2)

theorem Dev.recallIndex_busy (d : Dev) (n : Nat) (v : Nat) :
    (d.setF (HOME.RECALL.INDEX n) v).fb (HOME.RECALL.BUSY n) = d.fb (HOME.RECALL.BUSY n) := by
  rw [Dev.fb, Dev.fb, Dev.f_setF_field _ (HOME.RECALL.INDEX n) (HOME.RECALL.BUSY n) v (show 0 + 5 ≤ 64 by decide) rfl rfl
    (.inr (show 0 + 5 ≤ 63 by decide))]

theorem Dev.recallKind_busy (d : Dev) (n : Nat) (v : Nat) :
    (d.setF (HOME.RECALL.KIND n) v).fb (HOME.RECALL.BUSY n) = d.fb (HOME.RECALL.BUSY n) := by
  rw [Dev.fb, Dev.fb, Dev.f_setF_field _ (HOME.RECALL.KIND n) (HOME.RECALL.BUSY n) v (show 5 + 2 ≤ 64 by decide) rfl rfl
    (.inr (show 5 + 2 ≤ 63 by decide))]

/-- Once BUSY is set, the target reads as it was written. -/
theorem Dev.recallTarget_fields (d : Dev) (n : Nat) (v : Word) :
    let e := (d.recallTarget n v).setF (HOME.RECALL.BUSY n) 1
    e.f (HOME.RECALL.KIND n) = getBits v 5 2 ∧ e.f (HOME.RECALL.INDEX n) = getBits v 0 5 := by
  have kept : ∀ (u : Dev) (r : FRef), r.addr = (HOME.RECALL.reg n).addr → r.cold = 0 → r.lo + r.w ≤ 63 →
      (u.setF (HOME.RECALL.BUSY n) 1).f r = u.f r := fun u r ha hc hw =>
    Dev.f_setF_field _ _ _ _ (show 63 + 1 ≤ 64 by decide) ha hc (.inl hw)
  refine ⟨?_, ?_⟩
  · rw [kept _ (HOME.RECALL.KIND n) rfl rfl (show 5 + 2 ≤ 63 by decide), Dev.recallTarget,
      Dev.f_setF_same _ _ _ (show 5 + 2 ≤ 64 by decide)]
    exact Nat.mod_eq_of_lt (getBits_lt _ _ _)
  · rw [kept _ (HOME.RECALL.INDEX n) rfl rfl (show 0 + 5 ≤ 63 by decide), Dev.recallTarget,
      Dev.f_setF_setF _ (HOME.RECALL.INDEX n) (HOME.RECALL.KIND n) _ _ (show 5 + 2 ≤ 64 by decide) (show 0 + 5 ≤ 64 by decide)
        rfl rfl (.inl (show 0 + 5 ≤ 5 by decide))]
    exact Nat.mod_eq_of_lt (getBits_lt _ _ _)

theorem getBits_one {v : Word} {i : Nat} (h : v.getLsbD i = true) : getBits v i 1 = 1 := by
  have bit := testBit_getBits v i 1 0
  rw [Nat.add_zero, h] at bit
  have := getBits_lt v i 1
  generalize getBits v i 1 = x at *
  interval_cases x
  · cases bit
  · rfl

/-- GO on a home that recalls nothing starts a recall of the target. -/
theorem Dev.recallGo_starts {v : Word} (hb : d.fb (HOME.RECALL.BUSY n) = false) (hgo : v.getLsbD 62 = true) (hk : getBits v 5 2 ≠ 3) :
    d.recallGo n v =
      let e := (d.recallTarget n v).setF (HOME.RECALL.BUSY n) 1
      ({ e with coh := { e.coh with recTgt := Tbl.put 0 e.coh.recTgt n (1 + getBits v 5 2 * 32 + getBits v 0 5) } } : Dev).recallSome n := by
  have idle : (d.recallTarget n v).fb (HOME.RECALL.BUSY n) = false := by
    rw [Dev.recallTarget, Dev.recallKind_busy, Dev.recallIndex_busy, hb]
  obtain ⟨kind, index⟩ := d.recallTarget_fields n v
  rw [Dev.recallTarget] at idle kind index ⊢
  simp only [Dev.recallGo, beq_eq_false_iff_ne.2 hk, Bool.false_eq_true, if_false, getBits_one hgo, idle, kind, index]
  rfl

/-- While one runs the target may be written, and nothing is recalled. -/
theorem Dev.recallGo_busy (hb : d.fb (HOME.RECALL.BUSY n) = true) (v : Word) : (d.recallGo n v).coh = d.coh := by
  have busy : ∀ c : Bool, (if c then d.setF (HOME.RECALL.INDEX n) (getBits v 0 5)
      else (d.setF (HOME.RECALL.INDEX n) (getBits v 0 5)).setF (HOME.RECALL.KIND n) (getBits v 5 2)).fb (HOME.RECALL.BUSY n) = true := by
    intro c
    cases c
    · exact (Dev.recallKind_busy _ _ _).trans ((Dev.recallIndex_busy _ _ _).trans hb)
    · exact (Dev.recallIndex_busy _ _ _).trans hb
  simp only [Dev.recallGo, busy, Bool.or_true, if_true]
  split <;> rfl

/-! ## Pseudo-channels (R101, R102) -/

theorem pairPc_ne (p : Nat) : pairPc p ≠ p := by
  unfold pairPc
  split <;> rename_i h <;> simp only [beq_iff_eq] at h <;> omega

theorem Dev.pcState_setPc_same (d : Dev) (k p v : Nat) : (d.setPc k p v).pcState k p = v := Tbl.get_put_same _ _ _ _

theorem Dev.pcState_setPc_other (d : Dev) (k v : Nat) {p q : Nat} (h : q ≠ p) : (d.setPc k p v).pcState k q = d.pcState k q :=
  Tbl.get_put_other _ _ _ _ (by omega)

/-- The partner's turn touches neither the pseudo-channel itself nor a register. -/
theorem Dev.pcPartner_state (d : Dev) (k p : Nat) : (d.pcPartner k p).pcState k p = d.pcState k p ∧ (d.pcPartner k p).csr = d.csr := by
  unfold Dev.pcPartner
  split
  · exact ⟨Dev.pcState_setPc_other d k 1 (pairPc_ne p).symm, rfl⟩
  · exact ⟨rfl, rfl⟩

theorem Dev.pcPartner_begins (h : d.pcState k (pairPc p) = 3) : (d.pcPartner k p).pcState k (pairPc p) = 1 := by
  rw [Dev.pcPartner, if_pos (by rw [h]; rfl)]
  exact Dev.pcState_setPc_same _ _ _ _

/-- A pseudo-channel that serves, and whose partner does not pause, pauses when it is due. -/
theorem Dev.pcRecal_pauses (h : d.pcState k p = 0) (hf : (d.f (HBM.STAT.PCFAIL k)).testBit p = false) (hp : d.pcState k (pairPc p) ≠ 1) :
    (d.pcRecal k p).pcState k p = 1 := by
  have due : (d.pcState k p != 0 || bitN (d.f (HBM.STAT.PCFAIL k)) p) = false := by rw [h, bitN, hf]; rfl
  rw [Dev.pcRecal, due, if_neg (by decide), if_neg (by simpa using hp)]
  exact Dev.pcState_setPc_same _ _ _ _

/-- The end of a pause. -/
def Dev.pcPauseEnd (d : Dev) (k p ns : Nat) : Dev :=
  ((d.setPc k p 0).updF (HBM.CAL.PAUSEMAX k) fun x => max x (min 65535 ns)).pcPartner k p

theorem Dev.pcRecalDone_eq (h : d.pcState k p = 1) (ns : Nat) : d.pcRecalDone k p ns = d.pcServe fun d => d.pcPauseEnd k p ns := by
  rw [Dev.pcRecalDone, if_neg (by rw [h]; decide)]
  rfl

theorem Dev.pcPauseEnd_state (d : Dev) (k p ns : Nat) : (d.pcPauseEnd k p ns).pcState k p = 0 ∧
    (d.pcState k (pairPc p) = 3 → (d.pcPauseEnd k p ns).pcState k (pairPc p) = 1) ∧
    (d.pcPauseEnd k p ns).f (HBM.CAL.PAUSEMAX k) = max (d.f (HBM.CAL.PAUSEMAX k)) (min 65535 ns) := by
  refine ⟨?_, fun h => ?_, ?_⟩
  · exact (Dev.pcPartner_state _ _ _).1.trans (Dev.pcState_setPc_same _ _ _ _)
  · exact Dev.pcPartner_begins ((Dev.pcState_setPc_other d k 0 (pairPc_ne p)).trans h)
  · rw [Dev.pcPauseEnd, Dev.f_congr (Dev.pcPartner_state _ _ _).2, Dev.updF, Dev.f_setF_same _ _ _ (show 32 + 16 ≤ 64 by decide)]
    have same : (d.setPc k p 0).f (HBM.CAL.PAUSEMAX k) = d.f (HBM.CAL.PAUSEMAX k) := rfl
    have bound : d.f (HBM.CAL.PAUSEMAX k) < 65536 := getBits_lt _ 32 16
    rw [same]
    exact Nat.mod_eq_of_lt (show _ < 65536 by omega)

/-- An interface fault retrains its pseudo-channel. -/
theorem Dev.pcFault_retrains (d : Dev) (k p : Nat) : (d.pcFault k p).pcState k p = 2 := by
  unfold Dev.pcFault
  split
  · exact (Dev.pcPartner_state _ _ _).1.trans (Dev.pcState_setPc_same _ _ _ _)
  · exact Dev.pcState_setPc_same _ _ _ _

/-- A retrain that fails marks its pseudo-channel, with an event. -/
def Dev.pcMarked (d : Dev) (k p : Nat) : Dev :=
  ((d.setPc k p 0).updF (HBM.STAT.PCFAIL k) fun m => setBitN m p).raise (672 + 2 * (16 * k + p / 2)) p

theorem Dev.pcRetrained_eq (h : d.pcState k p = 2) (ok : Bool) : d.pcRetrained k p ok = d.pcServe fun d =>
    if ok then (d.setPc k p 0).count (chanCtr k p 5) 1
    else if ((d.pcMarked k p).mscLoss k p).healthyOn k then ((d.pcMarked k p).mscLoss k p).enterSafe 2 (0x40 + k)
      else (d.pcMarked k p).mscLoss k p := by
  rw [Dev.pcRetrained, if_neg (by rw [h]; decide)]
  rfl

theorem Dev.pcMarked_state (d : Dev) (hk : k < 4) (hp : p < 32) :
    (d.pcMarked k p).pcState k p = 0 ∧ ((d.pcMarked k p).f (HBM.STAT.PCFAIL k)).testBit p = true := by
  refine ⟨?_, ?_⟩
  · have kept : (d.pcMarked k p).pool = (d.setPc k p 0).pool := Dev.Outer.pool ((Dev.Outer.setF _ _ _).trans (Dev.Outer.raise _ _ _))
    rw [Dev.pcState, kept]
    exact Dev.pcState_setPc_same _ _ _ _
  · have low : (HBM.STAT.PCFAIL k).addr < 0xB90000 := show 0xB00000 + k * 0x10000 < 0xB90000 by omega
    rw [Dev.pcMarked, Dev.f_raise_low _ _ _ low, Dev.updF, Dev.f_setF_same _ _ _ (show 16 + 32 ≤ 64 by decide)]
    show ((setBitN _ p) % 2 ^ 32).testBit p = true
    rw [Nat.testBit_mod_two_pow, decide_eq_true hp, setBitN, Nat.testBit_or, Nat.testBit_two_pow_self, Bool.or_true]
    rfl

/-! ## Retirement of a page (R103) -/

theorem Dev.retireStart_state {page : Nat} (h : d.f (HBM.STAT.RET_USED k) < 1024) :
    (d.retireStart k page).fb (HBM.RETCFG.BUSY k) = true ∧ Tbl.get 0 (d.retireStart k page).pool.retire k = page + 1 := by
  rw [Dev.retireStart, if_neg (by omega)]
  exact ⟨Dev.fb_setF_same _ _ _ (show 63 + 1 ≤ 64 by decide), Tbl.get_put_same 0 d.pool.retire k (page + 1)⟩

/-- RETCFG with its fields written. -/
def Dev.retcfgSet (d : Dev) (k : Nat) (v : Word) : Dev :=
  ((if getBits v 0 8 == 0 then d else d.setF (HBM.RETCFG.THRESH k) (getBits v 0 8)).setF (HBM.RETCFG.AUTO k) (getBits v 8 1)).setF
    (HBM.RETCFG.PAGE k) (getBits v 9 24)

theorem Dev.retcfgSet_kept (d : Dev) (k : Nat) (v : Word) : (d.retcfgSet k v).fb (HBM.RETCFG.BUSY k) = d.fb (HBM.RETCFG.BUSY k) ∧
    (d.retcfgSet k v).f (HBM.STAT.RET_USED k) = d.f (HBM.STAT.RET_USED k) ∧
    (d.retcfgSet k v).f (HBM.RETCFG.PAGE k) = getBits v 9 24 := by
  have other : (HBM.STAT.RET_USED k).addr ≠ (HBM.RETCFG.reg k).addr := show 0xB00000 + k * 0x10000 ≠ 0xB00010 + k * 0x10000 by omega
  have busy : ∀ (u : Dev) (r : FRef) (x : Nat), r.addr = (HBM.RETCFG.reg k).addr → r.cold = 0x104 → r.lo + r.w ≤ 63 →
      (u.setF r x).f (HBM.RETCFG.BUSY k) = u.f (HBM.RETCFG.BUSY k) := fun u r x ha hc hw =>
    Dev.f_setF_field _ _ _ _ (by omega) ha.symm hc.symm (.inr hw)
  refine ⟨?_, ?_, ?_⟩
  · rw [Dev.fb, Dev.fb, Dev.retcfgSet, busy _ (HBM.RETCFG.PAGE k) _ rfl rfl (show 9 + 24 ≤ 63 by decide),
      busy _ (HBM.RETCFG.AUTO k) _ rfl rfl (show 8 + 1 ≤ 63 by decide)]
    split
    · rfl
    · rw [busy _ (HBM.RETCFG.THRESH k) _ rfl rfl (show 0 + 8 ≤ 63 by decide)]
  · rw [Dev.retcfgSet, Dev.f_setF_reg _ (HBM.RETCFG.PAGE k) _ _ other, Dev.f_setF_reg _ (HBM.RETCFG.AUTO k) _ _ other]
    split
    · rfl
    · exact Dev.f_setF_reg _ _ _ _ other
  · rw [Dev.retcfgSet, Dev.f_setF_same _ _ _ (show 9 + 24 ≤ 64 by decide)]
    exact Nat.mod_eq_of_lt (getBits_lt _ _ _)

theorem Dev.retcfgGo_starts {v : Word} (hb : d.fb (HBM.RETCFG.BUSY k) = false) (hgo : v.getLsbD 62 = true) :
    d.retcfgGo k v = (d.retcfgSet k v).retireStart k (getBits v 9 24) := by
  obtain ⟨busy, -, page⟩ := d.retcfgSet_kept k v
  rw [hb] at busy
  rw [← page]
  rw [Dev.retcfgSet] at busy ⊢
  simp only [Dev.retcfgGo, getBits_one hgo, busy]
  rfl

/-- The page's copy made: its candidacy and its command are over. -/
def Dev.retireCopied (d : Dev) (k page : Nat) (bad : BitVec 64) : Dev :=
  (Dev.retireCopy { d with pool := { d.pool with
    retire := Tbl.put 0 d.pool.retire k 0, cand := Tbl.put (0, 0) d.pool.cand (k * 2 ^ 24 + page) (0, 0) } } k page bad).setF
      (HBM.RETCFG.BUSY k) 0

/-- It goes to the lowest spare that is free. -/
theorem Dev.retireDone_maps {page i : Nat} {bad : BitVec 64} (h : Tbl.get 0 d.pool.retire k = page + 1) (hi : i < 1024)
    (hf : (d.retireCopied k page bad).fb (HBM.RETMAP.V k i) = false)
    (hl : ∀ j, j < i → (d.retireCopied k page bad).fb (HBM.RETMAP.V k j) = true) :
    d.retireDone k bad = ((((d.retireCopied k page bad).setF (HBM.RETMAP.V k i) 1).setF (HBM.RETMAP.PAGE k i) page).updF
      (HBM.STAT.RET_USED k) (· + 1)).raise (retireSrc k page) page := by
  have lowest : (List.range 1024).find? (fun i => !(d.retireCopied k page bad).fb (HBM.RETMAP.V k i)) = some i := by
    rw [List.find?_range_eq_some]
    exact ⟨by rw [hf]; rfl, List.mem_range.2 hi, fun j hj => by rw [hl j hj]; rfl⟩
  unfold Dev.retireCopied at lowest ⊢
  unfold Dev.retireDone
  refine (casesNat_succ h _ (fun _ _ _ => rfl) _ _).trans ?_
  with_reducible refine (casesOption_some lowest _ (fun _ _ _ => rfl) _ _).trans ?_
  with_reducible rfl

/-! ## Scrubbing (R109) -/

/-- A line of HBM without a second copy that reads is left as it is. -/
theorem Dev.scrub_reads {ln : Nat} {e1 : BitVec 560} {r : LRead} {e : Dev} (ht : d.txn ln = none) (hl : ln % 2 ^ 43 < 2 ^ 42)
    (hk : d.lnKind ln = .hbm) (hr : d.remote ln = false) (hpc : d.pcPaused ln = false) (hp : d.partnerOf ln = none)
    (he : d.readOne ln e1 = (some r, e)) (e2 : BitVec 560) : d.scrub ln e1 e2 = e := by
  have running : d.pairPaused ln = false := by rw [Dev.pairPaused, hpc, hp]; exact Bool.and_false _
  rw [Dev.scrub, if_neg (by omega)]
  simp only [ht, hr, running, hk, hp, he]
  rfl

end Sys2Proof.Machine

open Sys2Proof.Machine in
/-- Settles O28: each command by what it does where its condition holds. -/
theorem homesAndHbmComplete : Obligations.HomesAndHbmComplete := by
  unfold Obligations.HomesAndHbmComplete
  refine ⟨?homes, ?channels, ?scrub⟩
  case homes =>
    intro s n hu
    refine ⟨?start, ?busy, ?ends, ?hgmap, ?clear⟩
    case start =>
      intro v hs hb hgo hk
      rw [exec_homeRecallGo]
      exact State.act_of_eq ((Dev.when_of_true (Dev.cspOn_of hu hs)).trans (Dev.recallGo_starts hb hgo hk))
    case busy =>
      intro v hb
      rw [exec_homeRecallGo]
      refine ⟨_, State.act_eq _ _, ?_⟩
      show (s.dev.when s.dev.cspOn fun d => d.recallGo n v).coh = s.dev.coh
      cases s.dev.cspOn
      · rfl
      · exact Dev.recallGo_busy hb v
    case ends =>
      intro hb hl hr
      rw [exec_homeRecallDone]
      refine State.act_of_eq ((Dev.when_of_true (by rw [hu, hb]; rfl)).trans ?_)
      rw [hl, hr]
      rfl
    case hgmap =>
      intro g v hs
      rw [exec_hgmapWrite]
      refine ⟨fun hn => ⟨_, State.act_of_eq (Dev.when_of_true (Dev.cspOn_of hu hs)), ?_⟩, fun hn hv => ?_⟩
      · show (s.dev.hgmapWrite n g v).f (HOME.HGMAP.HOSTS n g) = v.toNat
        rw [Dev.hgmapWrite, hn, Bool.and_false, if_neg (by decide), Dev.f_setF_same _ _ _ (show 0 + 64 ≤ 64 by decide)]
        exact Nat.mod_eq_of_lt v.isLt
      · refine State.act_of_eq ((Dev.when_of_true (Dev.cspOn_of hu hs)).trans ?_)
        rw [Dev.hgmapWrite, hn, Bool.and_true, if_pos (by simpa using hv)]
    case clear =>
      intro hs
      rw [exec_predClr]
      refine ⟨_, State.act_of_eq (Dev.when_of_true (Dev.cspOn_of hu hs)), fun k hk => ?_, fun k hk => ?_⟩
      · have inside : ((n * 4096 + k) / 4096 == n.val) = true := by rw [beq_iff_eq]; omega
        exact (Tbl.get_drop _ (fun k => k / 4096 == n.val) _ _).trans (if_pos inside)
      · have outside : ¬ (k / 4096 == n.val) = true := by simpa using hk
        exact (Tbl.get_drop _ (fun k => k / 4096 == n.val) _ _).trans (if_neg outside)
  case channels =>
    intro s k p hu
    refine ⟨?due, ?all, ?paused, ?fault, ?retrained, ?retire, ?copied⟩
    case due =>
      intro h hf hp
      rw [exec_hbmRecal]
      exact ⟨_, State.act_of_eq (Dev.when_of_true hu), Dev.pcRecal_pauses h hf hp⟩
    case all =>
      intro hs
      rw [exec_hbmCalNow]
      exact State.act_of_eq (Dev.when_of_true (Dev.cspOn_of hu hs))
    case paused =>
      intro ns h
      rw [exec_hbmRecalDone]
      exact ⟨fun d => d.pcPauseEnd k p ns, State.act_of_eq (Dev.pcRecalDone_eq h ns), s.dev.pcPauseEnd_state k p ns⟩
    case fault =>
      intro hf
      rw [exec_hbmInterfaceFault]
      exact ⟨_, State.act_of_eq (Dev.when_of_true (by rw [hu, bitN, hf]; rfl)), s.dev.pcFault_retrains k p⟩
    case retrained =>
      intro h
      have ends : ∀ ok, exec (.hbmRetrainDone k p ok) s = .next (s.after (s.dev.pcRetrained k p ok)) := fun ok =>
        (exec_hbmRetrainDone s).trans (State.act_of_eq (Dev.when_of_true hu))
      refine ⟨⟨_, (ends true).trans (by rw [Dev.pcRetrained_eq h]), ?_⟩, _, s.dev.pcMarked k p,
        (ends false).trans (by rw [Dev.pcRetrained_eq h]), ?_⟩
      · exact ⟨Dev.pcState_setPc_same _ _ _ _, rfl⟩
      · exact ⟨rfl, s.dev.pcMarked_state k.isLt p.isLt⟩
    case retire =>
      intro page hb hused
      refine ⟨fun ha ht => ?_, fun v hs hgo hpage => ?_⟩
      · rw [exec_retireAuto]
        exact ⟨_, State.act_of_eq (Dev.when_of_true (by rw [hu, ha, hb, decide_eq_true ht]; rfl)), Dev.retireStart_state hused⟩
      · rw [exec_retcfgGo]
        refine ⟨_, State.act_of_eq ((Dev.when_of_true (Dev.cspOn_of hu hs)).trans (Dev.retcfgGo_starts hb hgo)), ?_⟩
        rw [hpage]
        exact Dev.retireStart_state ((s.dev.retcfgSet_kept k v).2.1.trans_lt hused)
    case copied =>
      intro page i bad h d1 d hi hf hl
      rw [exec_retireDone]
      exact State.act_of_eq ((Dev.when_of_true hu).trans (Dev.retireDone_maps h hi hf hl))
  case scrub =>
    intro s ln e1 e2 r e hu ht hl hk hr hpc hp he
    rw [exec_scrubRead]
    exact State.act_of_eq ((Dev.when_of_true hu).trans (Dev.scrub_reads ht hl hk hr hpc hp he e2))
end

section
/-! Lines of plain memory that one of the device's own units writes, and what they leave alone (R29, R57, R330). -/

namespace Sys2Proof.Machine

/-! ## Lines written -/

/-- `e` is `d` with the lines `W` written, which lie outside the tables in use: other counters, candidates, moves under way and
awaited answers, the bytes and metadata of those lines, and nothing else. -/
structure Dev.Wrote (W : Nat → Prop) (d e : Dev) : Prop where
  same : e = { d with
    ctr := e.ctr, moves := e.moves, coh := { d.coh with need := e.coh.need }
    pool := { d.pool with mem := e.pool.mem, lmeta := e.pool.lmeta, cand := e.pool.cand } }
  bytes : ∀ b, ¬ W (b / 64) → e.byte b = d.byte b
  metas : ∀ ln, ¬ W ln → e.lmeta ln = d.lmeta ln
  free : ∀ ln, W ln → d.inTables ln = false

namespace Dev.Wrote

variable {W V : Nat → Prop} {d e u : Dev}

theorem refl (d : Dev) : d.Wrote (fun _ => False) d := ⟨rfl, fun _ _ => rfl, fun _ _ => rfl, fun _ h => h.elim⟩

theorem mono (h : d.Wrote W e) (k : ∀ ln, W ln → V ln) (hf : ∀ ln, V ln → d.inTables ln = false) : d.Wrote V e :=
  ⟨h.same, fun b hb => h.bytes b fun hw => hb (k _ hw), fun ln hl => h.metas ln fun hw => hl (k _ hw), hf⟩

section Same

variable (h : d.Wrote W e)
include h

theorem csr : e.csr = d.csr := by rw [h.same]
theorem sor : e.sor = d.sor := by rw [h.same]
theorem own : e.coh.own = d.coh.own := by rw [h.same]
theorem str (t : Nat) : e.str t = d.str t := by rw [Dev.str, Dev.str, h.sor]
theorem f (r : FRef) : e.f r = d.f r := Dev.f_congr h.csr r
theorem fb (r : FRef) : e.fb r = d.fb r := by rw [Dev.fb, Dev.fb, h.f]
theorem devId : e.devId = d.devId := h.f _
theorem sfe (ln : Nat) : e.sfe ln = d.sfe ln := by rw [h.same]; rfl
theorem msc (ln : Nat) : e.msc ln = d.msc ln := by rw [h.same]; rfl
theorem txn (ln : Nat) : e.txn ln = d.txn ln := by rw [h.same]; rfl
theorem lnKind (ln : Nat) : e.lnKind ln = d.lnKind ln := by rw [h.same]; rfl
theorem check (a : Nat) (x : Dom) (k : Kind) (n : Nat) : e.check a x k n = d.check a x k n := by rw [h.same]; rfl
theorem inTables (ln : Nat) : e.inTables ln = d.inTables ln := by rw [h.same]; rfl
theorem remote (ln : Nat) : e.remote ln = d.remote ln := by rw [Dev.remote, Dev.remote, h.devId]
theorem pcPaused (ln : Nat) : e.pcPaused ln = d.pcPaused ln := by rw [h.same]; rfl
theorem pcFailed (ln : Nat) : e.pcFailed ln = d.pcFailed ln := by rw [h.same]; rfl
theorem mscGone (ln : Nat) : e.mscGone ln = d.mscGone ln := by rw [h.same]; rfl

theorem line {ln : Nat} (hw : ¬ W ln) : e.line ln = d.line ln := by
  refine line_ext fun i hi => ?_
  rw [Dev.byteOf_line _ hi, Dev.byteOf_line _ hi, h.bytes _ (by rwa [show (ln * 64 + i) / 64 = ln by omega])]

end Same

theorem trans (h : d.Wrote W e) (k : e.Wrote V u) : d.Wrote (fun ln => W ln ∨ V ln) u where
  same := by rw [k.same, h.same]
  bytes b hb := (k.bytes b fun hv => hb (.inr hv)).trans (h.bytes b fun hw => hb (.inl hw))
  metas ln hl := (k.metas ln fun hv => hl (.inr hv)).trans (h.metas ln fun hw => hl (.inl hw))
  free ln hl := hl.elim (h.free ln) fun hv => (h.inTables ln).symm.trans (k.free ln hv)

/-- A step that writes no line. -/
theorem then_none (h : d.Wrote W e) (k : e.Wrote (fun _ => False) u) : d.Wrote W u :=
  (h.trans k).mono (fun _ hl => hl.elim id False.elim) h.free

/-! ## What stands: tables, mirrors, and whether a line is plain -/

section Tables

variable (h : d.Wrote W e)
include h

/-- A table in use reads as before. -/
theorem freshLine {ln : Nat} (ht : d.inTables ln = true) : e.freshLine ln = d.freshLine ln := by
  have unwritten : ¬ W ln := fun hw => by rw [h.free ln hw] at ht; exact absurd ht (by decide)
  have l1 : e.coh.l1 = d.coh.l1 := by rw [h.same]
  have net : e.coh.net = d.coh.net := by rw [h.same]
  simp only [Dev.freshLine, l1, net, h.line unwritten]

theorem mirEntry {x : Nat} (hx : x < 2 ^ 19) : e.mirEntry x = d.mirEntry x := by
  have addr : e.mirAddr x = d.mirAddr x := by rw [Dev.mirAddr, Dev.mirAddr, h.f]
  rw [Dev.mirEntry, Dev.mirEntry, h.fb, addr]
  by_cases hen : d.fb HBM.MIRTBL.EN = true
  · have base : d.f HBM.MIRTBL.BASE < 2 ^ 31 := getBits_lt _ _ _
    have inside : d.inTables (d.mirAddr x / 64) = true := by
      have here : bitsN (d.mirAddr x / 64) 15 31 = d.f HBM.MIRTBL.BASE := by
        rw [bitsN, Nat.shiftRight_eq_div_pow, Dev.mirAddr]
        generalize d.f HBM.MIRTBL.BASE = y at base
        omega
      rw [Dev.inTables, hen, here]
      simp
    rw [if_pos hen, if_pos hen, Dev.tableEntry, Dev.tableEntry, h.freshLine inside]
  · rw [if_neg hen, if_neg hen]

theorem partnerOf (ln : Nat) : e.partnerOf ln = d.partnerOf ln := by
  have bound : extOf ln < 2 ^ 19 := bitsN_lt _ _ _
  rw [Dev.partnerOf, Dev.partnerOf, h.mirEntry bound]

theorem plain {ln : Nat} (hp : d.Plain ln) : e.Plain ln :=
  ⟨(h.remote ln).trans hp.here, by rw [h.lnKind]; exact hp.kind, (h.partnerOf ln).trans hp.single⟩

theorem plainLine {ln : Nat} (hp : d.plainLine ln) : e.plainLine ln := by
  obtain ⟨still, free, kind, outside, single⟩ := hp
  have here : d.remote ln = false := by
    simp only [Dev.still, Bool.and_eq_true, beq_iff_eq] at still
    exact Dev.remote_eq_false still.1.1.1.1
  have hq : e.coh.hq = d.coh.hq := by rw [h.same]
  have net : e.coh.net = d.coh.net := by rw [h.same]
  have pc : e.pool.pc = d.pool.pc := by rw [h.same]
  have present : e.present ln = d.present ln := by
    have on_exp : ∀ u : Dev, u.lnKind ln = d.lnKind ln → u.atExp ln = false := fun u hu => by
      rw [Dev.atExp, hu]
      rcases kind with k | k <;> rw [k] <;> split <;> rfl
    rw [Dev.present, Dev.present, on_exp e (h.lnKind ln), on_exp d rfl, Dev.pairPaused, Dev.pairPaused, pc, h.pcPaused, h.partnerOf, single]
  refine ⟨?_, (h.sfe ln).trans free, by rw [h.lnKind]; exact kind, (h.inTables ln).trans outside, (h.partnerOf ln).trans single⟩
  rw [Dev.still, h.devId, h.txn, present, hq, net]
  exact still

end Tables

/-! ## The steps -/

theorem noNeed (d : Dev) : d.Wrote (fun _ => False) d.noNeed := ⟨rfl, fun _ _ => rfl, fun _ _ => rfl, fun _ h => h.elim⟩

theorem needOf (d u : Dev) : d.Wrote (fun _ => False) (d.needOf u) := ⟨rfl, fun _ _ => rfl, fun _ _ => rfl, fun _ h => h.elim⟩

theorem moves (d : Dev) (l : List MoveOp) : d.Wrote (fun _ => False) { d with moves := l } :=
  ⟨rfl, fun _ _ => rfl, fun _ _ => rfl, fun _ h => h.elim⟩

theorem hbmOp (d : Dev) (ln k : Nat) : d.Wrote (fun _ => False) (d.hbmOp ln k) := by
  unfold Dev.hbmOp
  split <;> exact ⟨rfl, fun _ _ => rfl, fun _ _ => rfl, fun _ h => h.elim⟩

/-- A write of a plain line outside the tables in use is a write of that line. -/
theorem homeWrite {ln : Nat} (hp : d.Plain ln) (ht : d.inTables ln = false) (x : Line) (mask : BitVec 64) :
    d.Wrote (· = ln) (d.homeWrite ln x mask) := by
  have written : ∃ y z, d.homeWrite ln x mask = ((d.hbmOp ln 1).putLine ln y).setMeta ln z := by
    rcases hp.kind with hk | hk <;> simp only [Dev.homeWrite, hp.here, hk, hp.single, Bool.false_eq_true, if_false] <;>
      exact ⟨_, _, rfl⟩
  have counted := hbmOp d ln 1
  refine ⟨?_, fun b hb => ?_, fun j hj => ?_, fun j hj => hj ▸ ht⟩
  · obtain ⟨y, z, e⟩ := written
    rw [e, counted.same]
    rfl
  · rw [hp.byte_homeWrite, if_neg (fun h => hb h.1)]
  · obtain ⟨y, z, e⟩ := written
    rw [e]
    exact (Tbl.get_put_other _ _ _ _ hj).trans (counted.metas j id)

end Dev.Wrote


variable {d e : Dev} {ln : Nat}

/-! ## Lines that read clean -/

/-- A line of plain memory whose data its home can give: it is stored without poison where nothing has failed (R98, R102). -/
structure Dev.Clean (d : Dev) (ln : Nat) : Prop where
  plain : d.plainLine ln
  sound : d.pcFailed ln = false
  cached : d.mscGone ln = false
  unpoisoned : (d.lmeta ln).psn = false

theorem Dev.Clean.readOne (h : d.Clean ln) : d.readOne ln 0 = (some ⟨d.line ln, false, 0, 0⟩, d.hbmOp ln 0) := by
  have counted := Dev.Wrote.hbmOp d ln 0
  have kept : (d.hbmOp ln 0).line ln = d.line ln := counted.line id
  have whole : ((d.hbmOp ln 0).pcFailed ln || (d.hbmOp ln 0).mscGone ln) = false := by
    rw [counted.pcFailed, counted.mscGone, h.sound, h.cached, Bool.or_false]
  have clean : ∀ md, rsRead (d.lmeta ln).psn ((d.hbmOp ln 0).line ln) md 0 = .clean (d.line ln) md false := fun md => by
    rw [rsRead, if_pos rfl, h.unpoisoned, kept, if_neg Bool.false_ne_true]
  rcases h.plain.2.2.1 with k | k <;>
    simp only [Dev.readOne, whole, counted.lnKind, k, clean, Bool.false_eq_true, if_false]

/-- Its read gives its data and changes counters alone. -/
theorem Dev.Clean.homeRead (h : d.Clean ln) : d.homeRead ln 0 = (⟨d.line ln, false, 0, 0⟩, d.hbmOp ln 0) := by
  have plain := Dev.plain_of_plainLine h.plain
  have copy : d.readCopy ln = ln := by rw [Dev.readCopy, plain.single]
  have spare : d.spareCopy ln = none := by rw [Dev.spareCopy, plain.single]
  rcases plain.kind with k | k <;>
    simp only [Dev.homeRead, plain.here, k, copy, spare, h.readOne, ite_self, Bool.false_eq_true, if_false]

/-- A line read without poison is such a line. -/
theorem Dev.clean_of_homeRead (h : d.plainLine ln) (hg : (d.homeRead ln 0).1.psn = false) : d.Clean ln := by
  have plain := Dev.plain_of_plainLine h
  have copy : d.readCopy ln = ln := by rw [Dev.readCopy, plain.single]
  have spare : d.spareCopy ln = none := by rw [Dev.spareCopy, plain.single]
  have read : ∃ r u, d.readOne ln 0 = (some r, u) ∧ r.psn = false := by
    rcases hr : d.readOne ln 0 with ⟨_ | r, u⟩ <;>
      rcases plain.kind with k | k <;>
      simp only [Dev.homeRead, plain.here, k, copy, spare, hr, ite_self, Bool.false_eq_true, if_false] at hg
    · split at hg <;> cases hg
    · split at hg <;> cases hg
    · exact ⟨r, u, rfl, hg⟩
    · exact ⟨r, u, rfl, hg⟩
  obtain ⟨r, u, hr, hpsn⟩ := read
  have counted := Dev.Wrote.hbmOp d ln 0
  simp only [Dev.readOne, counted.pcFailed, counted.mscGone, counted.lnKind] at hr
  have whole : (d.pcFailed ln || d.mscGone ln) = false := by
    cases hw : (d.pcFailed ln || d.mscGone ln)
    · rfl
    · rw [hw, if_pos rfl] at hr
      cases hr
  rw [Bool.or_eq_false_iff] at whole
  refine ⟨h, whole.1, whole.2, ?_⟩
  cases hm : (d.lmeta ln).psn
  · rfl
  · exfalso
    rcases plain.kind with k | k <;>
      simp only [whole.1, whole.2, k, hm, rsRead, Bool.or_self, Bool.false_eq_true, if_true, if_false, Prod.mk.injEq,
        Option.some.injEq] at hr <;>
      rw [← hr.1] at hpsn <;> cases hpsn

theorem Dev.Wrote.clean {W : Nat → Prop} (h : d.Wrote W e) (hw : ¬ W ln) (hc : d.Clean ln) : e.Clean ln :=
  ⟨h.plainLine hc.plain, (h.pcFailed ln).trans hc.sound, (h.mscGone ln).trans hc.cached, by rw [h.metas _ hw, hc.unpoisoned]⟩

/-! ## Requests that a line's home answers at once -/

theorem Dev.agId_ag (d : Dev) {a : Nat} (ha : a < 1024) : agId (d.ag a) = a := by
  have := d.devId_lt
  rw [agId, Dev.ag, mkAg, BitVec.toNat_ofNat]
  omega

section Asked

variable {o : Own} (hln : ln < 2 ^ 46) (h : d.plainLine ln) (hown : d.coh.own = []) (ha : o.agent < 0x300) (hp : o.priv = true)
include hln h hown ha hp

omit hp in
/-- A privileged unit that the home checker does not judge is served at once (R29, R330, R331). -/
theorem Dev.ownAsk_at_once {m : Msg} (src : m.src = d.ag o.agent) (addr : m.addr = BitVec.ofNat 46 ln) (priv : m.priv = true)
    (k : Dev → Msg × Dev) : d.ownAsk o m true k = k d := by
  obtain ⟨still, -, kind, outside, -⟩ := h
  have line : m.addr.toNat = ln := by rw [addr, BitVec.toNat_ofNat, Nat.mod_eq_of_lt hln]
  have admitted : ∀ ag n w, d.homeRefuses ln ag true n w = false := fun ag n w => by
    rcases kind with k | k <;> simp [Dev.homeRefuses, k, outside]
  have passes : ∀ u : Msg, u.src = d.ag o.agent → u.addr.toNat = ln → u.priv = true → u.place ≠ 0 → d.turnsAway u = false := by
    intro u hs hu hq hpl
    have unjudged : d.judged u = false := by
      simp only [Dev.judged, hs, d.agDev_ag (show o.agent < 1024 by omega), d.agId_ag (show o.agent < 1024 by omega),
        bne_self_eq_false, Bool.false_or, decide_eq_false (show ¬ 0x300 ≤ o.agent by omega), Bool.false_and]
    simp only [Dev.turnsAway, hu, hq, admitted, unjudged, beq_eq_false_iff_ne.2 hpl, Bool.false_and, Bool.and_false, Bool.or_self]
  have granted : d.ownRefused m = false := passes _ src line priv (show (2 : BitVec 2) ≠ 0 by decide)
  simp only [Dev.ownAsk, Dev.ownOf, hown, List.find?_nil, line, still, granted, Bool.not_true, Bool.or_self, Bool.false_eq_true, if_false]

theorem Dev.cohRead_at_once (hc : d.Clean ln) : d.cohRead o ln = (⟨d.line ln, false, 0, 0⟩, d.hbmOp ln 0) := by
  have ready : (!(d.sfe ln).excl) = true := by rw [h.2.1]; rfl
  have plain := Dev.plain_of_plainLine h
  have found : d.lostExp ln = false := by
    rcases plain.kind with k | k <;> simp [Dev.lostExp, plain.here, k]
  simp only [Dev.cohRead, ready]
  rw [Dev.ownAsk_at_once hln h hown ha rfl rfl hp]
  simp only [found, hc.homeRead, Bool.false_eq_true, if_false]
  rfl

theorem Dev.cohWrite_at_once (x : Line) (mask : BitVec 64) : d.cohWrite o ln x mask = (0, d.homeWrite ln x mask) := by
  have ready : (d.sfe ln == SfE.empty && d.mscHolds ln) = true := by
    rcases h.2.2.1 with k | k <;> simp [h.2.1, Dev.mscHolds, k]
  simp only [Dev.cohWrite, ready]
  rw [Dev.ownAsk_at_once hln h hown ha rfl rfl hp]
  rfl

end Asked

end Sys2Proof.Machine
end

section
/-! The move engine carrying an operation on to its end (R245–R247). -/

namespace Sys2Proof.Machine

/-! ## One line moved -/

/-- What an operation of the engine needs of the device to move all its lines at once: fabric privilege, lines of plain memory that
the checker admits, and a source that reads without poison (R29, R245, R330). -/
structure Dev.Movable (d : Dev) (m : MoveOp) : Prop where
  unit : m.sorus < 32
  priv : m.priv = true
  whole : m.len % 64 = 0
  alone : d.coh.own = []
  aimed : m.dst % 64 = 0
  below : m.dst + m.len ≤ 2 ^ 52
  target : ∀ j, j < m.len / 64 → d.plainLine (m.dst / 64 + j) ∧ d.check (m.dst + 64 * j) .f .wr m.slice = .ok
  source : m.fill = false → m.src % 64 = 0 ∧ m.src + m.len ≤ 2 ^ 52 ∧
    ∀ j, j < m.len / 64 → d.Clean (m.src / 64 + j) ∧ d.check (m.src + 64 * j) .f .rd m.slice = .ok

/-- The line that an operation writes as its `i`-th: the fill value throughout, or the source's line. -/
def Dev.mvData (d : Dev) (m : MoveOp) (i : Nat) : Line :=
  if m.fill then BitVec.ofNat 512 (leNat ((List.range 64).map fun j => byteOf m.val.toNat (j % 8))) else d.line (m.src / 64 + i)

/-- The lines that an operation has written with `j` lines done, as numbers from the start of its destination. -/
def MoveOp.done (m : MoveOp) (j i : Nat) : Prop := if m.down then m.len / 64 - j ≤ i ∧ i < m.len / 64 else i < j

/-- The line that it moves next. -/
def MoveOp.turn (m : MoveOp) (j : Nat) : Nat := if m.down then m.len / 64 - 1 - j else j

/-- `u` is `d` with `j` lines of the operation moved. -/
structure Dev.Moved (d : Dev) (m : MoveOp) (j : Nat) (u : Dev) : Prop where
  wrote : d.Wrote (fun ln => ∃ i, m.done j i ∧ ln = m.dst / 64 + i) u
  data : ∀ i, m.done j i → u.line (m.dst / 64 + i) = d.mvData m i

variable {d u : Dev} {m : MoveOp} {i j : Nat}

theorem MoveOp.done_succ (m : MoveOp) (hj : j < m.len / 64) (i : Nat) : m.done (j + 1) i ↔ m.done j i ∨ i = m.turn j := by
  unfold MoveOp.done MoveOp.turn
  split <;> omega

theorem MoveOp.turn_lt (m : MoveOp) (hj : j < m.len / 64) : m.turn j < m.len / 64 := by
  unfold MoveOp.turn
  split <;> omega

/-- The direction keeps a line of the source until it has been read. -/
theorem MoveOp.unwritten (hw : m.len % 64 = 0) (hs : m.src % 64 = 0) (ha : m.dst % 64 = 0) (hf : m.fill = false)
    (hj : j < m.len / 64) : ¬ ∃ i, m.done j i ∧ m.src / 64 + m.turn j = m.dst / 64 + i := by
  rintro ⟨i, hi, meet⟩
  by_cases down : m.down = true
  · rw [MoveOp.done, if_pos down] at hi
    rw [MoveOp.turn, if_pos down] at meet
    simp only [MoveOp.down, Bool.and_eq_true, decide_eq_true_eq] at down
    omega
  · rw [MoveOp.done, if_neg down] at hi
    rw [MoveOp.turn, if_neg down] at meet
    simp only [MoveOp.down, hf, Bool.not_false, Bool.true_and, Bool.and_eq_true, decide_eq_true_eq, not_and] at down
    omega

theorem Dev.coh_hbmOp (d : Dev) (ln k : Nat) : (d.hbmOp ln k).coh = d.coh := by
  unfold Dev.hbmOp
  split <;> rfl

theorem Dev.Plain.coh_homeWrite {ln : Nat} (h : d.Plain ln) (x : Line) (mask : BitVec 64) : (d.homeWrite ln x mask).coh = d.coh := by
  refine Eq.trans ?_ (d.coh_hbmOp ln 1)
  rcases h.kind with k | k <;> simp only [Dev.homeWrite, h.here, k, h.single, Bool.false_eq_true, if_false] <;> rfl

/-- A line written whole reads as what was written. -/
theorem Dev.Plain.line_homeWrite {ln : Nat} (h : d.Plain ln) (x : Line) : (d.homeWrite ln x (BitVec.allOnes 64)).line ln = x := by
  refine line_ext fun i hi => ?_
  have all : (BitVec.allOnes 64).getLsbD ((ln * 64 + i) % 64) = true := by
    rw [BitVec.getLsbD_allOnes, decide_eq_true (by omega)]
  rw [Dev.byteOf_line _ hi, h.byte_homeWrite, if_pos ⟨by omega, all⟩, show (ln * 64 + i) % 64 = i by omega]

section Line

variable (h : d.Movable m) (hu : d.Moved m j u) (hj : j < m.len / 64)
include h hu hj

theorem Dev.Moved.mvSource : ∃ e, u.mvSource m (m.turn j) = (.inl (d.mvData m (m.turn j)), e) ∧
    u.Wrote (fun _ => False) e ∧ e.coh = u.coh := by
  cases hf : m.fill
  · obtain ⟨hs, below, lines⟩ := h.source hf
    have turn := m.turn_lt hj
    obtain ⟨clean, admitted⟩ := lines _ turn
    have unwritten := MoveOp.unwritten h.whole hs h.aimed hf hj
    have ln : (m.src + 64 * m.turn j) / 64 = m.src / 64 + m.turn j := by omega
    have addr : ¬ m.src + 64 * m.turn j ≥ 2 ^ 52 := by omega
    have clean_now := hu.wrote.clean unwritten clean
    have read := Dev.cohRead_at_once (o := m.own (.move m.sorus m.id)) (by omega) clean_now.plain (by rw [hu.wrote.own, h.alone])
      (show 0x240 + m.sorus < 0x300 by have := h.unit; omega) h.priv clean_now
    have pass : u.mvAdmit m (m.src + 64 * m.turn j) .rd = (true, u) := by
      simp only [Dev.mvAdmit, h.priv, strDom, if_true, hu.wrote.check, admitted, Dev.countReq]
      rfl
    refine ⟨_, ?_, Dev.Wrote.hbmOp u (m.src / 64 + m.turn j) 0, u.coh_hbmOp _ _⟩
    simp only [Dev.mvSource, hf, Bool.false_eq_true, if_false, Dev.mvAddr, h.priv, if_true, addr, pass, ln, read, bne_self_eq_false,
      Dev.mvData, hu.wrote.line unwritten]
  · exact ⟨u, by simp only [Dev.mvSource, Dev.mvData, hf, if_true], Dev.Wrote.refl u, rfl⟩

theorem Dev.Moved.mvLine : ∃ e, u.mvLine m (m.turn j) = (none, e) ∧ d.Moved m (j + 1) e ∧ e.coh = u.coh := by
  obtain ⟨v, source, counted, coh⟩ := hu.mvSource h hj
  have turn := m.turn_lt hj
  obtain ⟨plain, admitted⟩ := h.target _ turn
  have here := hu.wrote.then_none counted
  have plain_now := here.plainLine plain
  have aimed := h.aimed
  have below := h.below
  have ln : (m.dst + 64 * m.turn j) / 64 = m.dst / 64 + m.turn j := by omega
  have addr : ¬ m.dst + 64 * m.turn j ≥ 2 ^ 52 := by omega
  have pass : v.mvAdmit m (m.dst + 64 * m.turn j) .wr = (true, v) := by
    simp only [Dev.mvAdmit, h.priv, strDom, if_true, here.check, admitted, Dev.countReq]
    rfl
  have write := Dev.cohWrite_at_once (o := m.own (.move m.sorus m.id)) (by omega) plain_now (by rw [here.own, h.alone])
    (show 0x240 + m.sorus < 0x300 by have := h.unit; omega) h.priv (d.mvData m (m.turn j)) (BitVec.allOnes 64)
  have written := Dev.Wrote.homeWrite (Dev.plain_of_plainLine plain_now) plain_now.2.2.2.1 (d.mvData m (m.turn j)) (BitVec.allOnes 64)
  have both := here.trans written
  refine ⟨_, ?_, ⟨both.mono (fun l hl => ?_) (fun l hl => ?_), fun i hi => ?_⟩,
    ((Dev.plain_of_plainLine plain_now).coh_homeWrite _ _).trans coh⟩
  · simp only [Dev.mvLine, source, Dev.mvAddr, h.priv, if_true, addr, if_false, pass, ln, write]
  · rcases hl with ⟨i, hi, rfl⟩ | rfl
    · exact ⟨i, (m.done_succ hj i).2 (.inl hi), rfl⟩
    · exact ⟨_, (m.done_succ hj _).2 (.inr rfl), rfl⟩
  · obtain ⟨i, hi, rfl⟩ := hl
    rcases (m.done_succ hj i).1 hi with hi | rfl
    · exact both.free _ (.inl ⟨i, hi, rfl⟩)
    · exact both.free _ (.inr rfl)
  · by_cases same : i = m.turn j
    · subst same
      exact (Dev.plain_of_plainLine plain_now).line_homeWrite _
    · have before : m.done j i := ((m.done_succ hj i).1 hi).resolve_right same
      rw [written.line (by omega), counted.line id, hu.data i before]

end Line


/-! ## All of them -/

theorem Dev.Moved.start (d : Dev) (m : MoveOp) : d.Moved m 0 d := by
  have none : ∀ i, ¬ m.done 0 i := fun i => by unfold MoveOp.done; split <;> omega
  exact ⟨(Dev.Wrote.refl d).mono (fun _ h => h.elim) fun ln ⟨i, hi, _⟩ => (none i hi).elim, fun i hi => (none i hi).elim⟩

theorem Dev.Moved.then_none {e : Dev} (hu : d.Moved m j u) (k : u.Wrote (fun _ => False) e) : d.Moved m j e :=
  ⟨hu.wrote.then_none k, fun i hi => (k.line id).trans (hu.data i hi)⟩

/-- What the operation needs and what it has done do not depend on the count that it keeps. -/
theorem Dev.Movable.at_lines (h : d.Movable m) (j : Nat) : d.Movable { m with lines := j } :=
  ⟨h.unit, h.priv, h.whole, h.alone, h.aimed, h.below, h.target, h.source⟩

/-- A line moved, the run goes on with the next. -/
theorem Dev.mvRun_line {e : Dev} (hr : m.res = none) (ha : m.abort = false) (hj : m.lines < m.len / 64)
    (step : (u.tryOwn fun d => d.mvLine m (m.turn m.lines)) = (some none, e)) (n : Nat) :
    Dev.mvRun (n + 1) u m = Dev.mvRun n (e.setMove { m with lines := m.lines + 1 }) { m with lines := m.lines + 1 } := by
  have unended : m.res.isSome = false := by rw [hr]; rfl
  have going : ¬ m.len / 64 ≤ m.lines := by omega
  have stays : (m.abort && !u.mvPending m) = false := by rw [ha]; rfl
  rw [MoveOp.turn] at step
  rw [Dev.mvRun]
  simp only [unended, going, stays, step, Bool.false_eq_true, if_false]

/-- Carried on far enough, it moves every line and ends (R246, R247). -/
theorem Dev.Moved.mvRun (h : d.Movable m) (hr : m.res = none) (ha : m.abort = false) :
    ∀ (n j : Nat) (u : Dev), d.Moved m j u → j ≤ m.len / 64 → m.len / 64 ≤ n + j →
    ∃ e, d.Moved m (m.len / 64) e ∧
      Dev.mvRun n u { m with lines := j } = e.mvEnd { m with lines := m.len / 64 } (m.len / 64) 0 (0, 0) := by
  have ended : ∀ n u, Dev.mvRun n u { m with lines := m.len / 64 } = u.mvEnd { m with lines := m.len / 64 } (m.len / 64) 0 (0, 0) := by
    intro n u
    unfold Dev.mvRun
    simp [hr]
  intro n
  induction n with
  | zero =>
    intro j u hu hj hn
    obtain rfl : j = m.len / 64 := by omega
    exact ⟨u, hu, ended 0 u⟩
  | succ n ih =>
    intro j u hu hj hn
    by_cases last : j = m.len / 64
    · subst last
      exact ⟨u, hu, ended _ u⟩
    · have more : j < m.len / 64 := by omega
      have asked : d.Moved m j u.noNeed := hu.then_none (Dev.Wrote.noNeed u)
      obtain ⟨v, line, moved, coh⟩ := Dev.Moved.mvLine (h.at_lines j) ⟨asked.wrote, asked.data⟩ more
      have quiet : (u.noNeed.mvLine { m with lines := j } (m.turn j)).2.coh.need = none := by
        rw [show m.turn j = MoveOp.turn { m with lines := j } j from rfl, line]
        exact congrArg Coh.need coh
      have step : (u.tryOwn fun d => d.mvLine { m with lines := j } (m.turn j)) = (some none, v.needOf u) := by
        refine (Dev.tryOwn_done quiet).trans ?_
        rw [show m.turn j = MoveOp.turn { m with lines := j } j from rfl, line]
      have next : d.Moved m (j + 1) ((v.needOf u).setMove { m with lines := j + 1 }) :=
        ((⟨moved.wrote, moved.data⟩ : d.Moved m (j + 1) v).then_none (Dev.Wrote.needOf v u)).then_none (Dev.Wrote.moves _ _)
      obtain ⟨e, done, run⟩ := ih (j + 1) _ next more (by omega)
      refine ⟨e, done, Eq.trans ?_ run⟩
      exact Dev.mvRun_line (m := { m with lines := j }) hr ha more step n

/-! ## The operation's end -/

/-- No strand waits for a place in an engine: the operation leaves it, and nothing else happens. -/
theorem Dev.mvFree_eq (hw : ∀ e ∈ d.sor.strand, e.2.wait ≠ .hold 1) (m : MoveOp) :
    d.mvFree m = { d with moves := d.moves.filter fun u => !(u.sorus == m.sorus && u.id == m.id) } := by
  have nobody : ((d.running m.sorus).filter fun e => e.2.wait == .hold 1) = [] :=
    List.filter_eq_nil_iff.2 fun e he => by
      rw [Dev.running, List.mem_filter] at he
      simpa using hw e he.1
  exact congrArg (fun l : List (Nat × Strand) => l.foldl (fun d e => d.unhold e.1)
    { d with moves := d.moves.filter fun u => !(u.sorus == m.sorus && u.id == m.id) }) nobody

theorem Strand.pc_setG (x : Strand) (r : Nat) (v : Word) : (x.setG r v).pc = x.pc := by
  unfold Strand.setG
  split <;> rfl

theorem Dev.primNext_str (t q : Nat) :
    (d.primNext t false).str q = if q = t then { d.str t with pc := (d.str t).pc + 4, wait := .none } else d.str q := by
  rw [Dev.primNext, if_neg Bool.false_ne_true, Dev.next_str]
  rfl

theorem Dev.primNext_pool (t : Nat) : (d.primNext t false).pool = d.pool := by
  rw [Dev.primNext, if_neg Bool.false_ne_true]
  exact Dev.retire_pool _ _ _

/-- The strand of a form that is not posted gets the completion word and goes on; memory stands (R246). -/
theorem Dev.mvEnd_strand {n : Nat} (hp : m.posted = false) (hr : m.res = none) (hw : ∀ e ∈ d.sor.strand, e.2.wait ≠ .hold 1)
    (ht : (d.str m.t).wait = .move m.rd m.id) (hs : (d.str m.t).stop = 0) :
    let e := d.mvEnd m n 0 (0, 0)
    (∀ a, e.byte a = d.byte a) ∧ (e.str m.t).pc = (d.str m.t).pc + 4 ∧ (m.rd ≠ 0 → (e.str m.t).g m.rd = mvWord (64 * n) 0 0) := by
  have ends : d.mvEnd m n 0 (0, 0) =
      ((d.mvFree m).updStr m.t fun x => x.setG m.rd (mvWord (64 * n) 0 0)).primNext m.t false := by
    have wait : ((d.mvFree m).str m.t).wait = .move m.rd m.id := by rw [Dev.mvFree_eq hw]; exact ht
    have stop : ((d.mvFree m).str m.t).stop = 0 := by rw [Dev.mvFree_eq hw]; exact hs
    simp only [Dev.mvEnd, hp, hr, wait, Dev.finishAccess_running stop, Option.getD_none, bne_self_eq_false, Bool.false_eq_true, if_false]
    rfl
  have free : ∀ q, (d.mvFree m).str q = d.str q := fun q => by rw [Dev.mvFree_eq hw]; rfl
  refine ⟨fun a => ?_, ?_, fun hrd => ?_⟩
  · have pool : (d.mvEnd m n 0 (0, 0)).pool = d.pool := by
      rw [ends, Dev.primNext_pool, Dev.mvFree_eq hw]
      rfl
    rw [Dev.byte, Dev.byte, pool]
  · rw [ends, Dev.primNext_str, if_pos rfl, Dev.updStr, Dev.str_setStr_same, free]
    exact congrArg (· + 4) (Strand.pc_setG _ _ _)
  · rw [ends, Dev.primNext_str, if_pos rfl, Dev.updStr, Dev.str_setStr_same, free]
    exact (Strand.g_setG _ _ _ _).trans (by rw [if_pos rfl, if_neg hrd])

/-- A posted form's completion word is stored, and no other byte changes (R246). -/
theorem Dev.mvEnd_posted {n : Nat} (hp : m.posted = true) (hr : m.res = none) (hw : ∀ e ∈ d.sor.strand, e.2.wait ≠ .hold 1)
    (hs : m.sorus < 32) (hf : m.priv = true) (hown : d.coh.own = []) (h8 : m.cw % 8 = 0) (hb : m.cw + 8 ≤ 2 ^ 52)
    (hl : d.plainLine (m.cw / 64)) (hc : d.check m.cw .f .wr m.slice = .ok) (a : Nat) : (d.mvEnd m n 0 (0, 0)).byte a =
    if m.cw ≤ a ∧ a < m.cw + 8 then (leBytes 8 (mvWord (64 * n) 0 0).toNat).getD (a - m.cw) 0 else d.byte a := by
  have quiet := Dev.Wrote.noNeed d
  have line := quiet.plainLine hl
  have plain := Dev.plain_of_plainLine line
  have put : ∀ bs, bs.length = 8 → Dev.cohPut 1 d.noNeed (m.own (.move m.sorus m.id)) m.cw bs =
      (0, d.noNeed.homeWrite (m.cw / 64) (linePatch 0 (m.cw % 64) bs) (BitVec.ofNat 64 (255 * 2 ^ (m.cw % 64)))) := fun bs hn => by
    have nonempty : bs.isEmpty = false := by cases bs <;> simp_all
    have take : min bs.length (64 - m.cw % 64) = 8 := by omega
    have write := Dev.cohWrite_at_once (o := m.own (.move m.sorus m.id)) (by omega) line hown
      (show 0x240 + m.sorus < 0x300 by omega) hf (linePatch 0 (m.cw % 64) bs) (BitVec.ofNat 64 (255 * 2 ^ (m.cw % 64)))
    rw [Dev.cohPut]
    simp only [nonempty, take, Bool.false_eq_true, if_false, List.take_of_length_le hn.le]
    rw [show (2 : Nat) ^ 8 - 1 = 255 from rfl, write]
    rfl
  have stored : d.noNeed.mvPost (.move m.sorus m.id) m (mvWord (64 * n) 0 0) = d.noNeed.homeWrite (m.cw / 64)
      (linePatch 0 (m.cw % 64) (leBytes 8 (mvWord (64 * n) 0 0).toNat)) (BitVec.ofNat 64 (255 * 2 ^ (m.cw % 64))) := by
    have addr : ¬ m.cw ≥ 2 ^ 52 := by omega
    simp only [Dev.mvPost, Dev.mvAddr, hf, if_true, addr, if_false, strDom, quiet.check, hc, bne_self_eq_false, Bool.false_eq_true,
      Dev.countReq, put _ (length_leBytes _ _)]
  have done : (d.mvEnd m n 0 (0, 0)).byte a = (d.noNeed.mvPost (.move m.sorus m.id) m (mvWord (64 * n) 0 0)).byte a := by
    have need : (d.noNeed.mvPost (.move m.sorus m.id) m (mvWord (64 * n) 0 0)).coh.need = none := by
      rw [stored, plain.coh_homeWrite]
      rfl
    have tried := Dev.tryOwn_done (d := d) (g := fun d => ((), d.mvPost (.move m.sorus m.id) m (mvWord (64 * n) 0 0))) need
    have strands : ∀ e ∈ ((d.noNeed.mvPost (.move m.sorus m.id) m (mvWord (64 * n) 0 0)).needOf d).sor.strand,
        e.2.wait ≠ .hold 1 := by
      have kept := (Dev.Wrote.homeWrite plain line.2.2.2.1 (linePatch 0 (m.cw % 64) (leBytes 8 (mvWord (64 * n) 0 0).toNat))
        (BitVec.ofNat 64 (255 * 2 ^ (m.cw % 64)))).sor
      rw [show ∀ u : Dev, (u.needOf d).sor = u.sor from fun _ => rfl, stored, kept]
      exact hw
    have ends : d.mvEnd m n 0 (0, 0) =
        ((d.noNeed.mvPost (.move m.sorus m.id) m (mvWord (64 * n) 0 0)).needOf d).mvFree m := by
      simp only [Dev.mvEnd, hp, hr, if_true, Option.getD_none, tried]
    rw [ends, Dev.mvFree_eq strands]
    rfl
  rw [done, stored, plain.byte_homeWrite]
  simp only [getLsbD_wordMask _ (show a % 64 < 64 by omega), decide_eq_true_eq]
  by_cases ha : m.cw ≤ a ∧ a < m.cw + 8
  · rw [if_pos ha, if_pos (by omega), byteOf_linePatch (by omega), length_leBytes, if_pos (by omega),
      show a % 64 - m.cw % 64 = a - m.cw by omega]
  · rw [if_neg ha, if_neg (by omega)]
    rfl

end Sys2Proof.Machine
end

section
/-! The move engine's instructions and LDECOMP as they issue (R245–R249). -/

namespace Sys2Proof.Machine

/-! ## A move issued -/

/-- The operation that a strand's instruction puts into its sorus's engine. -/
def Dev.newMove (d : Dev) (t : Nat) (f : FX) (fill posted : Bool) : MoveOp where
  id := ((List.range 17).find? fun i => !((d.movesOf (sorusOf t)).any (·.id == i))).getD 0
  t := t
  sorus := sorusOf t
  slice := (d.str t).slice
  priv := (d.str t).priv
  fill := fill
  posted := posted
  src := if fill then 0 else (d.gr t f.rb).toNat
  dst := (d.gr t f.ra).toNat
  len := (d.gr t f.rc).toNat
  val := d.gr t f.rb
  cw := if posted then (d.gr t f.rd).toNat else 0
  rd := f.rd.toNat
  abort := false
  lines := 0
  res := none

section Issue

variable {d : Dev} {t : Nat} {f : FX} {fill posted : Bool}
variable (hi : d.issues t = true) (hd : (d.gr t f.ra).toNat % 64 = 0) (hl : (d.gr t f.rc).toNat % 64 = 0)
variable (hpos : 0 < (d.gr t f.rc).toNat) (hmax : (d.gr t f.rc).toNat ≤ 2 ^ 36)
variable (hs : fill = false → (d.gr t f.rb).toNat % 64 = 0) (hc : posted = true → (d.gr t f.rd).toNat % 8 = 0)
include hi hd hl hpos hmax hs hc

/-- With earlier stores or posted updates under way it waits for them (R85). -/
theorem Dev.moveIssue_after_stores (hsb : d.sbOwn t = true) : d.moveIssue t f fill posted = d.waitOn t (.hold 0) := by
  have source : (if fill then 0 else (d.gr t f.rb).toNat) % 64 = 0 := by cases fill <;> simp [hs]
  have length : ((d.gr t f.rc).toNat % 64 != 0 || decide ((d.gr t f.rc).toNat > 2 ^ 36)) = false := by
    rw [hl, decide_eq_false (by omega)]; rfl
  have word : (posted && (d.gr t f.rd).toNat % 8 != 0) = false := by cases posted <;> simp [hc]
  refine (d.issue_legal hi _).trans ?_
  simp only [hd, source, length, word, hsb, bne_self_eq_false, Bool.false_eq_true, if_false, if_true]

/-- With none, it takes a place in its sorus's engine (R245–R247). -/
theorem Dev.moveIssue_queues (hsb : d.sbOwn t = false) (hroom : (d.movesOf (sorusOf t)).length < 16) :
    let m := d.newMove t f fill posted
    d.moveIssue t f fill posted = if posted then { d with moves := d.moves ++ [m] }.primNext t false
      else { d with moves := d.moves ++ [m] }.waitOn t (.move f.rd.toNat m.id) := by
  have source : (if fill then 0 else (d.gr t f.rb).toNat) % 64 = 0 := by cases fill <;> simp [hs]
  have length : ((d.gr t f.rc).toNat % 64 != 0 || decide ((d.gr t f.rc).toNat > 2 ^ 36)) = false := by
    rw [hl, decide_eq_false (by omega)]; rfl
  have word : (posted && (d.gr t f.rd).toNat % 8 != 0) = false := by cases posted <;> simp [hc]
  have nonempty : ((d.gr t f.rc).toNat == 0) = false := beq_eq_false_iff_ne.2 (by omega)
  have room : ¬ (d.movesOf (sorusOf t)).length ≥ 16 := by omega
  refine (d.issue_legal hi _).trans ?_
  simp only [hd, source, length, word, hsb, nonempty, room, bne_self_eq_false, Bool.false_eq_true, if_false]
  rfl

end Issue

/-! ## Memory after an operation -/

section Ended

variable {d u : Dev} {m : MoveOp} (h : d.Movable m) (hu : d.Moved m (m.len / 64) u)
include h hu

/-- The bytes of the destination are the fill value's, or those that the source held. -/
theorem Dev.Moved.byte_target {i : Nat} (hi : i < m.len) : u.byte (m.dst + i) =
    if m.fill then (leBytes 8 m.val.toNat).getD (i % 8) 0 else d.byte (m.src + i) := by
  have aimed := h.aimed
  have whole := h.whole
  have done : m.done (m.len / 64) (i / 64) := by unfold MoveOp.done; split <;> omega
  have line : u.byte (m.dst + i) = byteOf (d.mvData m (i / 64)).toNat (i % 64) := by
    rw [← hu.data _ done, Dev.byteOf_line _ (by omega), show (m.dst / 64 + i / 64) * 64 + i % 64 = m.dst + i by omega]
  rw [line, Dev.mvData]
  cases hf : m.fill
  · have source := (h.source hf).1
    rw [if_neg Bool.false_ne_true, if_neg Bool.false_ne_true, Dev.byteOf_line _ (by omega),
      show (m.src / 64 + i / 64) * 64 + i % 64 = m.src + i by omega]
  · rw [if_pos rfl, if_pos rfl, byteOf_ofNat_line (by omega), byteOf_leNat, getD_leBytes (by omega),
      List.getD_eq_getElem _ _ (by simp; omega), List.getElem_map, List.getElem_range, show i % 64 % 8 = i % 8 by omega]

/-- Every other byte stands. -/
theorem Dev.Moved.byte_other {a : Nat} (ha : a < m.dst ∨ m.dst + m.len ≤ a) : u.byte a = d.byte a := by
  have aimed := h.aimed
  have whole := h.whole
  refine hu.wrote.bytes a ?_
  rintro ⟨i, hi, meet⟩
  have below : i < m.len / 64 := by unfold MoveOp.done at hi; split at hi <;> omega
  omega

end Ended

/-- The completion word as its eight bytes spell it (R246). -/
theorem Dev.leNat_bytes_word {e : Dev} {a : Nat} {v : Word} (h : ∀ i < 8, e.byte (a + i) = (leBytes 8 v.toNat).getD i 0) :
    leNat (e.bytes a 8) = v.toNat := by
  have spelt : e.bytes a 8 = leBytes 8 v.toNat := bytes_ext (by rw [Dev.length_bytes, length_leBytes]) fun i hi => by
    rw [Dev.length_bytes] at hi
    rw [Dev.getD_bytes _ _ hi, h i hi]
  rw [spelt, leNat_leBytes]
  exact Nat.mod_eq_of_lt v.isLt

end Sys2Proof.Machine

open Sys2Proof.Machine in
/-- Settles O49: an operation's lines are written one by one, each over plain memory, and its end gives its word. -/
theorem moveEngineCompletes : Obligations.MoveEngineCompletes := by
  refine ⟨?issue, ?complete, ?ldecomp⟩
  case issue =>
    intro s t f hi x dst src len cw hd hl hpos hmax
    have waits : s.dev.sbOwn t = true → ∀ fill posted, (fill = false → src % 64 = 0) → (posted = true → cw % 8 = 0) →
        (s.act fun _ d => d.moveIssue t f fill posted) = .next (s.after (s.dev.waitOn t (.hold 0))) := fun hsb _ _ hs hc =>
      State.act_of_eq (Dev.moveIssue_after_stores hi hd hl hpos hmax hs hc hsb)
    have queues : s.dev.sbOwn t = false → (s.dev.movesOf (t / 32)).length < 16 → ∀ fill posted, (fill = false → src % 64 = 0) →
        (posted = true → cw % 8 = 0) →
        let m := s.dev.newMove t f fill posted
        (s.act fun _ d => d.moveIssue t f fill posted) = .next (s.after (if posted then
          { s.dev with moves := s.dev.moves ++ [m] }.primNext t false
          else { s.dev with moves := s.dev.moves ++ [m] }.waitOn t (.move f.rd.toNat m.id))) := fun hsb hroom _ _ hs hc =>
      State.act_of_eq (Dev.moveIssue_queues hi hd hl hpos hmax hs hc hsb hroom)
    refine ⟨fun hsb => ⟨?_, fun hc => ?_, fun hs => ?_, fun hs hc => ?_⟩,
      fun hsb hroom => ⟨?_, fun hc => ?_, fun hs => ?_, fun hs hc => ?_⟩⟩
    · exact waits hsb true false nofun nofun
    · exact waits hsb true true nofun fun _ => hc
    · exact waits hsb false false (fun _ => hs) nofun
    · exact waits hsb false true (fun _ => hs) fun _ => hc
    · exact ⟨s.dev.newMove t f true false, rfl, rfl, rfl, rfl, rfl, rfl, queues hsb hroom true false nofun nofun⟩
    · exact ⟨s.dev.newMove t f true true, rfl, rfl, rfl, rfl, rfl, queues hsb hroom true true nofun fun _ => hc⟩
    · exact ⟨s.dev.newMove t f false false, rfl, rfl, rfl, rfl, rfl, rfl, queues hsb hroom false false (fun _ => hs) nofun⟩
    · exact ⟨s.dev.newMove t f false true, rfl, rfl, rfl, rfl, rfl, rfl, queues hsb hroom false true (fun _ => hs) fun _ => hc⟩
  case complete =>
    intro s n k lines m hup hm
    have carried : exec (.moveEngineComplete n k lines) s = .next (s.after (s.dev.mvComplete m lines.toNat)) := by
      rw [exec_moveEngineComplete]
      refine State.act_of_eq ((Dev.when_of_true hup).trans ?_)
      rw [hm]
    refine ⟨carried, ?_⟩
    intro d word hpriv hres habort hstart hlen hwhole hmax haim hbelow hown hhold htarget hsource hstrand hword
    have sorus : m.sorus = n := by
      have := List.mem_of_getElem? hm
      rw [Dev.movesOf, List.mem_filter] at this
      exact beq_iff_eq.1 this.2
    have movable : d.Movable m := ⟨by omega, hpriv, hwhole, hown, haim, hbelow, htarget, fun hf =>
      have ⟨aligned, top, reads⟩ := hsource hf
      ⟨aligned, top, fun j hj => have ⟨plain, admitted, read⟩ := reads j hj
        ⟨Dev.clean_of_homeRead plain (by rw [read]), admitted⟩⟩⟩
    obtain ⟨u, moved, run⟩ := Dev.Moved.mvRun movable hres habort (lines.toNat - m.lines) 0 d (Dev.Moved.start d m)
      (by omega) (by omega)
    have same : { m with lines := 0 } = m := by rw [← hstart]
    have ends : d.mvComplete m lines.toNat = u.mvEnd { m with lines := m.len / 64 } (m.len / 64) 0 (0, 0) := by
      rw [Dev.mvComplete, ← run, same]
    have length : 64 * (m.len / 64) = m.len := by omega
    have held : ∀ e ∈ u.sor.strand, e.2.wait ≠ .hold 1 := by rw [moved.wrote.sor]; exact hhold
    intro e inWord
    have same_or_word : (∀ a, ¬ inWord a → e.byte a = u.byte a) ∧ (m.posted = true → leNat (e.bytes m.cw 8) = word.toNat) ∧
        (m.posted = false → (e.str m.t).pc = (d.str m.t).pc + 4 ∧ (m.rd ≠ 0 → (e.str m.t).g m.rd = word)) := by
      cases hp : m.posted
      · obtain ⟨wait, stop⟩ := hstrand hp
        obtain ⟨kept, pc, reg⟩ := Dev.mvEnd_strand (d := u) (m := { m with lines := m.len / 64 }) (n := m.len / 64) hp hres held
          (by rw [moved.wrote.str]; exact wait) (by rw [moved.wrote.str]; exact stop)
        rw [← ends] at kept pc reg
        rw [length] at reg
        exact ⟨fun a _ => kept a, nofun, fun _ => ⟨by rw [← moved.wrote.str]; exact pc, reg⟩⟩
      · obtain ⟨aligned, top, plain, admitted⟩ := hword hp
        have kept := Dev.mvEnd_posted (d := u) (m := { m with lines := m.len / 64 }) (n := m.len / 64) hp hres held
          (by show m.sorus < 32; omega)
          hpriv (by rw [moved.wrote.own]; exact hown) aligned top (moved.wrote.plainLine plain) (by rw [moved.wrote.check]; exact admitted)
        rw [← ends, length] at kept
        refine ⟨fun a ha => (kept a).trans (if_neg fun inside => ha ⟨hp, inside⟩),
          fun _ => Dev.leNat_bytes_word fun i hi => ?_, nofun⟩
        rw [kept, if_pos (by show m.cw ≤ m.cw + i ∧ m.cw + i < m.cw + 8; omega), show m.cw + i - m.cw = i by omega]
    obtain ⟨bytes, posted, strand⟩ := same_or_word
    exact ⟨fun i hi hw => (bytes _ hw).trans (moved.byte_target movable hi), posted, strand,
      fun a ha hw => (bytes _ hw).trans (moved.byte_other movable ha)⟩
  case ldecomp =>
    intro s t f fpa d hi ea hrd hrb hal hl
    have legal : (f.rd != 0 || !blockReg f.rb) = false := by rw [hrd, blockReg_of hrb]; rfl
    have reaches : ∀ (k : Dev → Nat → Dev → Dev) u, k s.dev fpa d = u →
        (s.act fun _ d => d.issue t false (f.rd != 0 || !blockReg f.rb) fun d => d.access t (d.gr t f.ra).toNat 64 .w (k d)) =
          .next (s.after u) := by
      intro k u hu
      refine State.act_of_eq ?_
      rw [legal]
      exact ((s.dev.issue_legal hi _).trans (Dev.access_ok _ hal hl)).trans hu
    refine ⟨fun hz => reaches _ _ ?_, fun y hy => reaches _ _ ?_⟩
    · simp only [hz]
    · simp only [hy]
      rfl
end

section
/-! The registers of the ports: fields that one write sets and every other that it leaves (R125, R136). -/

namespace Sys2Proof.Machine

/-! ## Fields apart -/

/-- A write of the first field of a port leaves the second: it is of another register, or beside it in the same. -/
def Beside (b l w c b' l' w' c' : Nat) : Bool :=
  decide (l + w ≤ 64 ∧ (b' ≠ b ∨ b' = b ∧ c' = c ∧ (l' + w' ≤ l ∨ l + w ≤ l')))

variable {d e : Dev} {p : Nat}

theorem Dev.f_setF_port {n b l w c b' l' w' c' v : Nat} (h : Beside b l w c b' l' w' c' = true) :
    (d.setF ⟨b + n * 0x10000, l, w, c⟩ v).f ⟨b' + n * 0x10000, l', w', c'⟩ = d.f ⟨b' + n * 0x10000, l', w', c'⟩ := by
  simp only [Beside, decide_eq_true_eq] at h
  obtain ⟨fits, other | ⟨rfl, rfl, beside⟩⟩ := h
  · exact Dev.f_setF_reg d _ _ v (show b' + n * 0x10000 ≠ b + n * 0x10000 by omega)
  · exact Dev.f_setF_field d _ _ v fits rfl rfl beside

theorem Dev.fb_setF_port {n b l w c b' l' w' c' v : Nat} (h : Beside b l w c b' l' w' c' = true) :
    (d.setF ⟨b + n * 0x10000, l, w, c⟩ v).fb ⟨b' + n * 0x10000, l', w', c'⟩ = d.fb ⟨b' + n * 0x10000, l', w', c'⟩ := by
  rw [Dev.fb, Dev.fb, Dev.f_setF_port h]

theorem Dev.Outer.lnk (h : d.Outer e) (p : Nat) : e.lnk p = d.lnk p := by rw [Dev.lnk, Dev.lnk, h.link]

theorem Dev.f_raise_port (d : Dev) (k det : Nat) {b l w c : Nat} (hb : b < 0x110000) (hp : p < 96) :
    (d.raise k det).f ⟨b + p * 0x10000, l, w, c⟩ = d.f ⟨b + p * 0x10000, l, w, c⟩ :=
  Dev.f_raise_low _ _ _ (show b + p * 0x10000 < 0xB90000 by omega)

/-! ## PORT[n].CFG -/

/-- What a write of CFG stores while EN is clear (R125). -/
def Dev.configured (d : Dev) (p : Nat) (v : Word) : Dev :=
  (((((d.setF (PORT.CFG.MODE p) (getBits v 0 3)).setF (PORT.CFG.WIDTH p) (getBits v 3 3)).setF (PORT.CFG.RATE p) (getBits v 6 2)).setF
    (PORT.CFG.HOSTID p) (getBits v 8 6)).setF (PORT.CFG.DB p) (getBits v 14 1)).setF (PORT.CFG.CALEN p) (getBits v 16 1)

/-- What it stores while EN is set: ERR where a field was to change, and CALEN (R125). -/
def Dev.kept (d : Dev) (p : Nat) (v : Word) (same : Bool) : Dev :=
  (if same then d else d.setF (PORT.STAT.ERR p) 1).setF (PORT.CFG.CALEN p) (getBits v 16 1)

theorem Dev.configured_mode (v : Word) : (d.configured p v).f (PORT.CFG.MODE p) = getBits v 0 3 := by
  unfold Dev.configured
  iterate 5 refine (Dev.f_setF_port (by decide)).trans ?_
  exact (Dev.f_setF_same _ _ _ (show 0 + 3 ≤ 64 by decide)).trans (Nat.mod_eq_of_lt (getBits_lt _ _ _))

theorem Dev.configured_width (v : Word) : (d.configured p v).f (PORT.CFG.WIDTH p) = getBits v 3 3 := by
  unfold Dev.configured
  iterate 4 refine (Dev.f_setF_port (by decide)).trans ?_
  exact (Dev.f_setF_same _ _ _ (show 3 + 3 ≤ 64 by decide)).trans (Nat.mod_eq_of_lt (getBits_lt _ _ _))

theorem Dev.configured_host (v : Word) : (d.configured p v).f (PORT.CFG.HOSTID p) = getBits v 8 6 := by
  unfold Dev.configured
  iterate 2 refine (Dev.f_setF_port (by decide)).trans ?_
  exact (Dev.f_setF_same _ _ _ (show 8 + 6 ≤ 64 by decide)).trans (Nat.mod_eq_of_lt (getBits_lt _ _ _))

/-- The registers of another port stand. -/
theorem Dev.configured_other {q b l w c : Nat} (v : Word) (hq : q ≠ p) (hb : b < 0x110000) (hlow : 0x100000 ≤ b) :
    (d.configured p v).f ⟨b + q * 0x10000, l, w, c⟩ = d.f ⟨b + q * 0x10000, l, w, c⟩ := by
  have other : b + q * 0x10000 ≠ 0x100000 + p * 0x10000 := by omega
  unfold Dev.configured
  iterate 6 rw [Dev.f_setF_reg _ _ _ _ other]


theorem Dev.configured_link (v : Word) : (d.configured p v).f (PORT.STAT.LINK p) = d.f (PORT.STAT.LINK p) := by
  unfold Dev.configured
  iterate 6 refine (Dev.f_setF_port (by decide)).trans ?_
  rfl

theorem Dev.kept_link (v : Word) (same : Bool) : (d.kept p v same).f (PORT.STAT.LINK p) = d.f (PORT.STAT.LINK p) := by
  refine (Dev.f_setF_port (by decide)).trans ?_
  cases same
  · exact Dev.f_setF_port (by decide)
  · rfl

theorem Dev.kept_en (v : Word) (same : Bool) : (d.kept p v same).fb (PORT.CFG.EN p) = d.fb (PORT.CFG.EN p) := by
  refine (Dev.fb_setF_port (by decide)).trans ?_
  cases same
  · exact Dev.fb_setF_port (by decide)
  · rfl

/-- A write that sets EN where it was clear stores the configuration and starts training (R125, R137). -/
theorem Dev.cfgWrite_enables {v : Word} (hl : d.f (PORT.STAT.LINK p) ≠ 5) (hen : d.fb (PORT.CFG.EN p) = false)
    (h15 : getBits v 15 1 = 1) (h17 : getBits v 17 1 = 0) (hmode : getBits v 0 3 ≤ 4) (hwidth : getBits v 3 3 ≤ 4)
    (hrate : getBits v 6 2 ≤ 2) (hmgr : p ≠ d.mgrPort ∨ getBits v 0 3 = 1 ∨ getBits v 0 3 = 2)
    (hhost : ∀ q, q < 96 → q ≠ p → d.fb (PORT.CFG.EN q) = true → d.f (PORT.CFG.HOSTID q) ≠ getBits v 8 6) :
    d.cfgWrite p v = ((d.configured p v).setF (PORT.CFG.EN p) 1).trainStart p := by
  have member : (d.f (PORT.STAT.LINK p) == 5) = false := beq_eq_false_iff_ne.2 hl
  have manager : (!false && p == d.mgrPort && getBits v 0 3 != 1 && getBits v 0 3 != mPCIE) = false := by
    rcases hmgr with h | h | h <;> simp [h, mPCIE]
  have alone : ((List.range 96).any fun q => q != p && (d.configured p v).fb (PORT.CFG.EN q) &&
      ((d.configured p v).f (PORT.CFG.MODE q) == 1 || (d.configured p v).f (PORT.CFG.MODE q) == mPCIE) &&
      (d.configured p v).f (PORT.CFG.HOSTID q) == (d.configured p v).f (PORT.CFG.HOSTID p)) = false := by
    refine List.any_eq_false.2 fun q hq => ?_
    by_cases same : q = p
    · simp [same]
    · have en : (d.configured p v).fb (PORT.CFG.EN q) = d.fb (PORT.CFG.EN q) :=
        congrArg (· == 1) (Dev.configured_other v same (by decide) (by decide))
      have host : (d.configured p v).f (PORT.CFG.HOSTID q) = d.f (PORT.CFG.HOSTID q) :=
        Dev.configured_other v same (by decide) (by decide)
      rw [en, host, Dev.configured_host]
      cases hq' : d.fb (PORT.CFG.EN q)
      · simp
      · simp [hhost q (List.mem_range.1 hq) same hq']
  unfold Dev.cfgWrite
  simp only [member, manager, hen, h15, h17, show ¬ getBits v 0 3 > 4 by omega, show ¬ getBits v 3 3 > 4 by omega,
    show ¬ getBits v 6 2 > 2 by omega, if_false, Bool.false_eq_true]
  refine (if_pos rfl).trans ((if_pos rfl).trans (if_neg fun clash => ?_))
  exact Bool.false_ne_true (alone.symm.trans (Bool.and_eq_true_iff.1 clash).2)

/-- One that clears EN takes the link down (R125). -/
theorem Dev.cfgWrite_disables {v : Word} (hl : d.f (PORT.STAT.LINK p) ≠ 5) (hen : d.fb (PORT.CFG.EN p) = true)
    (h15 : getBits v 15 1 = 0) (h17 : getBits v 17 1 = 0) :
    ∃ same, d.cfgWrite p v = ((d.kept p v same).setF (PORT.CFG.EN p) 0).linkDown p 7 := by
  have member : (d.f (PORT.STAT.LINK p) == 5) = false := beq_eq_false_iff_ne.2 hl
  unfold Dev.cfgWrite
  simp only [member, hen, h15, h17, if_true, Bool.false_eq_true, if_false, Bool.not_true, Bool.false_and]
  exact ⟨_, (if_pos rfl).trans (if_pos rfl)⟩

/-- One with RESET takes the link down, or has it train anew (R160). -/
theorem Dev.cfgWrite_resets {v : Word} (hl : d.f (PORT.STAT.LINK p) ≠ 5) (hen : d.fb (PORT.CFG.EN p) = true)
    (h15 : getBits v 15 1 = 1) (h17 : getBits v 17 1 = 1) :
    ∃ same, d.cfgWrite p v = if d.f (PORT.STAT.LINK p) = 0 then (d.kept p v same).trainStart p else (d.kept p v same).linkDown p 6 := by
  have member : (d.f (PORT.STAT.LINK p) == 5) = false := beq_eq_false_iff_ne.2 hl
  have set : ((1 : Nat) == 0) = false := rfl
  unfold Dev.cfgWrite
  simp only [member, hen, h15, h17, set, if_true, Bool.false_eq_true, if_false, Bool.not_true, Bool.false_and, Bool.and_false]
  have anew : ∀ same, (if ((d.kept p v same).f (PORT.STAT.LINK p) == 0) = true then
      (if (d.kept p v same).fb (PORT.CFG.EN p) = true then (d.kept p v same).trainStart p else d.kept p v same)
      else (d.kept p v same).linkDown p 6) =
      if d.f (PORT.STAT.LINK p) = 0 then (d.kept p v same).trainStart p else (d.kept p v same).linkDown p 6 := fun same => by
    rw [Dev.kept_link, Dev.kept_en, hen, if_pos rfl]
    simp only [beq_iff_eq]
  exact ⟨_, anew _⟩

/-- A port that no gang concerns starts training (R124, R137). -/
theorem Dev.trainStart_alone (hm : d.f (PORT.CFG.MODE p) ≠ 0) (hp : d.f (PORT.CFG.MODE p) ≠ 4) (hw : d.f (PORT.CFG.WIDTH p) ≤ 2) :
    d.trainStart p = (d.setF (PORT.LANE.LFAIL p) 0).setF (PORT.STAT.LINK p) 1 := by
  have idle : (d.f (PORT.CFG.MODE p) == 0) = false := beq_eq_false_iff_ne.2 hm
  have peer : (d.f (PORT.CFG.MODE p) == mPEER) = false := beq_eq_false_iff_ne.2 hp
  have nobody : ∀ e : Dev, e.f (PORT.CFG.WIDTH p) ≤ 2 → e.gangOf p = [] := fun e he => by
    unfold Dev.gangOf
    split
    · omega
    · omega
    · rfl
  have sound : d.gangBad p = false := by
    have narrow : ¬ d.f (PORT.CFG.WIDTH p) ≥ 3 := by omega
    simp [Dev.gangBad, nobody d hw, narrow, show d.f (PORT.CFG.WIDTH p) ≠ 3 by omega, show d.f (PORT.CFG.WIDTH p) ≠ 4 by omega]
  have width : ((d.setF (PORT.LANE.LFAIL p) 0).setF (PORT.STAT.LINK p) 1).f (PORT.CFG.WIDTH p) = d.f (PORT.CFG.WIDTH p) :=
    (Dev.f_setF_port (by decide)).trans (Dev.f_setF_port (by decide))
  unfold Dev.trainStart
  simp only [idle, peer, sound, Bool.false_and, Bool.or_self, Bool.false_eq_true, if_false]
  rw [Dev.setMembers, nobody _ (width.trans_le hw), List.foldl_nil]

end Sys2Proof.Machine
end

section
/-! A link that trains up, one that goes down, and what its loss leaves of the other links (R136, R137, R149, R150, R157). -/

namespace Sys2Proof.Machine

variable {d e u : Dev} {p q : Nat}

/-! ## Link records -/

theorem Dev.lnk_setLnk (d : Dev) (p q : Nat) (x : Link) : (d.setLnk p x).lnk q = if q = p then x else d.lnk q :=
  Tbl.get_put _ _ _ _ _

theorem Dev.f_setLnk (d : Dev) (p : Nat) (x : Link) (r : FRef) : (d.setLnk p x).f r = d.f r := rfl

theorem Dev.lnk_updLnk_same (d : Dev) (p : Nat) (g : Link → Link) : (d.updLnk p g).lnk p = g (d.lnk p) := by
  rw [Dev.updLnk, Dev.lnk_setLnk, if_pos rfl]

/-- No calibration cycle waits. -/
theorem Dev.calDue_of (h : (d.lnk p).due = false) : d.calDue p = d := by
  rw [Dev.calDue, h, Bool.false_and, if_neg Bool.false_ne_true]

/-! ## Lane sets (R153) -/

theorem laneSets_lt : ∀ m ∈ laneSets, m < 2 ^ 16 := by decide

theorem trainSet_lt (found w : Nat) : trainSet found w < 2 ^ 16 := by
  unfold trainSet
  cases h : laneSets.find? fun m => m &&& found == m && popN 16 m ≤ 2 ^ w with
  | none => decide
  | some m => exact laneSets_lt m (List.mem_of_find?_eq_some h)

theorem maskWidth_le (m : Nat) : maskWidth m ≤ 4 := by
  unfold maskWidth widthCode
  split_ifs <;> decide

theorem rateSet_le {most rates r : Nat} (h : rateSet most rates = some r) : r ≤ 2 := by
  have : ∀ r ∈ [2, 1, 0], r ≤ 2 := by decide
  exact this r (List.mem_filter.1 (List.mem_of_find?_eq_some h)).1

/-! ## LINK_UP (R137) -/

section Up

variable (mask rate pol : Nat) (rev lwc : Bool)

theorem Dev.linkSet_link : (d.linkSet p mask rate rev lwc pol).f (PORT.STAT.LINK p) = 2 := by
  unfold Dev.linkSet
  iterate 6 refine (Dev.f_setF_port (by decide)).trans ?_
  exact Dev.f_setF_same _ _ _ (show 0 + 3 ≤ 64 by decide)

theorem Dev.linkSet_width : (d.linkSet p mask rate rev lwc pol).f (PORT.STAT.CWIDTH p) = maskWidth mask := by
  have := maskWidth_le mask
  unfold Dev.linkSet
  iterate 5 refine (Dev.f_setF_port (by decide)).trans ?_
  exact (Dev.f_setF_same _ _ _ (show 3 + 3 ≤ 64 by decide)).trans (Nat.mod_eq_of_lt (show maskWidth mask < 8 by omega))

theorem Dev.linkSet_rate (hr : rate ≤ 2) : (d.linkSet p mask rate rev lwc pol).f (PORT.STAT.CRATE p) = rate := by
  unfold Dev.linkSet
  iterate 4 refine (Dev.f_setF_port (by decide)).trans ?_
  exact (Dev.f_setF_same _ _ _ (show 6 + 2 ≤ 64 by decide)).trans (Nat.mod_eq_of_lt (show rate < 4 by omega))

theorem Dev.linkSet_lanes (hm : mask < 2 ^ 16) : (d.linkSet p mask rate rev lwc pol).f (PORT.LANE.LACT p) = mask :=
  (Dev.f_setF_same _ _ _ (show 32 + 16 ≤ 64 by decide)).trans (Nat.mod_eq_of_lt hm)

theorem Dev.lnk_linkSet (q : Nat) : (d.linkSet p mask rate rev lwc pol).lnk q = d.lnk q := rfl

end Up

/-! ## What a message sent on a link leaves -/

/-- `e` differs from `d` in the record of link `q`, but in no register and in no other link. -/
def Dev.OnLink (q : Nat) (d e : Dev) : Prop := e.csr = d.csr ∧ ∀ p, p ≠ q → e.lnk p = d.lnk p

namespace Dev.OnLink

theorem refl : d.OnLink q d := ⟨rfl, fun _ _ => rfl⟩

theorem trans (h : d.OnLink q e) (k : e.OnLink q u) : d.OnLink q u :=
  ⟨k.1.trans h.1, fun p hp => (k.2 p hp).trans (h.2 p hp)⟩

theorem setLnk (x : Link) : d.OnLink q (d.setLnk q x) := ⟨rfl, fun p hp => (d.lnk_setLnk q p x).trans (if_neg hp)⟩

theorem updLnk (g : Link → Link) : d.OnLink q (d.updLnk q g) := setLnk _

theorem emit (o : Out) : d.OnLink q (d.emit o) := ⟨rfl, fun _ _ => rfl⟩

theorem count (k n : Nat) : d.OnLink q (d.count k n) := ⟨rfl, fun _ _ => rfl⟩

theorem flitTx (mask seq vc type : Nat) (bs : List Byte) : d.OnLink q (d.flitTx q mask seq vc type bs) :=
  ((emit _).trans (count _ _)).trans (setLnk _)

theorem flitNew (vc type : Nat) (bs : List Byte) : d.OnLink q (d.flitNew q vc type bs) := (flitTx _ _ _ _ _).trans (updLnk _)

theorem msgOut (vc : Nat) (bs : List Byte) : d.OnLink q (d.msgOut q vc bs) := by
  unfold Dev.msgOut Dev.ctrlOut
  split
  · split
    · exact flitNew _ _ _
    · exact (flitNew _ _ _).trans (updLnk _)
  · exact (updLnk _).trans (flitNew _ _ _)

theorem linkFlush : d.OnLink q (d.linkFlush q) := by
  unfold Dev.linkFlush
  refine (List.foldlRecOn (motive := fun acc : List (Nat × List Byte) × Dev => d.OnLink q acc.2) _ _ (updLnk _) ?_).trans (updLnk _)
  rintro ⟨keep, e⟩ h x -
  dsimp only
  split
  · exact h
  · exact h.trans (msgOut _ _)

theorem linkSend (vc : Nat) (bs : List Byte) : d.OnLink q (d.linkSend q vc bs) := (updLnk _).trans linkFlush

end Dev.OnLink

/-! ## A link down (R136, R150, R157) -/

theorem Dev.peerPort_ne {m : Msg} (h : d.peerPort m p = some q) : q ≠ p := by
  have other : ∀ x ∈ (d.peerLinks (agDev m.dst)).filter (· != p), x ≠ p := fun x hx => by
    simpa using (List.mem_filter.1 hx).2
  unfold Dev.peerPort at h
  split at h
  · cases h
  · next x hs => exact Option.some.inj h ▸ other x (by rw [hs]; exact List.mem_singleton_self x)
  · exact other q (List.mem_of_getElem? h)

/-- A reissue leaves every register, and the lost link. -/
theorem Dev.reissue_keeps (d : Dev) (p : Nat) : (d.reissue p).csr = d.csr ∧ (d.reissue p).lnk p = d.lnk p := by
  unfold Dev.reissue
  refine List.foldlRecOn (motive := fun e : Dev => e.csr = d.csr ∧ e.lnk p = d.lnk p) _ _ ⟨rfl, rfl⟩ ?_
  rintro e ⟨csr, lnk⟩ x -
  dsimp only
  split
  · next q found =>
    obtain ⟨regs, others⟩ := Dev.OnLink.linkSend (d := _) (q := q) (msgVc x.2) (msgPack x.2)
    exact ⟨regs.trans csr, (others p (Dev.peerPort_ne found).symm).trans lnk⟩
  · exact ⟨csr, lnk⟩


/-- A gang's members lie above its lead, whose registers stand (R124). -/
theorem Dev.f_setMembers (d : Dev) (p v : Nat) {b l w c : Nat} (hb : b < 0x110000) (hlow : 0x100000 ≤ b) :
    (d.setMembers p v).f ⟨b + p * 0x10000, l, w, c⟩ = d.f ⟨b + p * 0x10000, l, w, c⟩ := by
  have above : ∀ q ∈ d.gangOf p, p < q := by
    unfold Dev.gangOf
    split <;> simp
  refine List.foldlRecOn (motive := fun e : Dev => e.f ⟨b + p * 0x10000, l, w, c⟩ = d.f ⟨b + p * 0x10000, l, w, c⟩) _ _ rfl ?_
  intro e he q hq
  have := above q hq
  exact (Dev.f_setF_reg _ _ _ _ (show b + p * 0x10000 ≠ 0x100008 + q * 0x10000 by omega)).trans he

/-- What a link that was up leaves of its port's state as it goes down (R136, R150). -/
def Dev.downed (d : Dev) (p why : Nat) : Dev :=
  ((((((d.setF (PORT.STAT.LINK p) 0).setF (PORT.STAT.DWHY p) why).setMembers p 0).setF (PORT.LANE.LACT p) 0).setF
    (PORT.STAT.LWC p) 0).setLnk p Link.none).raise (4 * p) (why * 2)

section Down

variable (hp : p < 96) (why : Nat)
include hp

theorem Dev.downed_link : (d.downed p why).f (PORT.STAT.LINK p) = 0 := by
  unfold Dev.downed
  refine (Dev.f_raise_port (b := 0x100008) _ _ _ (by decide) hp).trans ((Dev.f_setLnk _ _ _ _).trans ?_)
  refine (Dev.f_setF_port (by decide)).trans ((Dev.f_setF_port (by decide)).trans ?_)
  refine (Dev.f_setMembers (b := 0x100008) _ _ _ (by decide) (by decide)).trans ((Dev.f_setF_port (by decide)).trans ?_)
  exact Dev.f_setF_same _ _ _ (show 0 + 3 ≤ 64 by decide)

theorem Dev.downed_why (hw : why < 16) : (d.downed p why).f (PORT.STAT.DWHY p) = why := by
  unfold Dev.downed
  refine (Dev.f_raise_port (b := 0x100008) _ _ _ (by decide) hp).trans ((Dev.f_setLnk _ _ _ _).trans ?_)
  refine (Dev.f_setF_port (by decide)).trans ((Dev.f_setF_port (by decide)).trans ?_)
  refine (Dev.f_setMembers (b := 0x100008) _ _ _ (by decide) (by decide)).trans ?_
  exact (Dev.f_setF_same _ _ _ (show 9 + 4 ≤ 64 by decide)).trans (Nat.mod_eq_of_lt hw)

theorem Dev.downed_lanes : (d.downed p why).f (PORT.LANE.LACT p) = 0 := by
  unfold Dev.downed
  refine (Dev.f_raise_port (b := 0x100010) _ _ _ (by decide) hp).trans ((Dev.f_setLnk _ _ _ _).trans ?_)
  refine (Dev.f_setF_port (by decide)).trans ?_
  exact Dev.f_setF_same _ _ _ (show 32 + 16 ≤ 64 by decide)

theorem Dev.downed_en : (d.downed p why).fb (PORT.CFG.EN p) = d.fb (PORT.CFG.EN p) := by
  unfold Dev.downed
  refine congrArg (· == 1) ((Dev.f_raise_port (b := 0x100000) _ _ _ (by decide) hp).trans ((Dev.f_setLnk _ _ _ _).trans ?_))
  refine (Dev.f_setF_port (by decide)).trans ((Dev.f_setF_port (by decide)).trans ?_)
  refine (Dev.f_setMembers (b := 0x100000) _ _ _ (by decide) (by decide)).trans ((Dev.f_setF_port (by decide)).trans ?_)
  exact Dev.f_setF_port (by decide)

omit hp in
theorem Dev.downed_lnk : (d.downed p why).lnk p = Link.none :=
  (Dev.Outer.lnk (Dev.Outer.raise _ _ _) p).trans ((Dev.lnk_setLnk _ _ _ _).trans (if_pos rfl))

/-- A PEER link that was up and whose port is disabled goes down, and what it carried goes on elsewhere. -/
theorem Dev.linkDown_peer (hl : 2 ≤ d.f (PORT.STAT.LINK p) ∧ d.f (PORT.STAT.LINK p) ≤ 4) (hm : d.f (PORT.CFG.MODE p) = 4)
    (hen : d.fb (PORT.CFG.EN p) = false) : d.linkDown p why = (d.downed p why).reissue p := by
  have off : ((d.downed p why).reissue p).fb (PORT.CFG.EN p) = false := by
    rw [Dev.fb, Dev.f_congr (Dev.reissue_keeps _ p).1, ← Dev.fb, Dev.downed_en hp, hen]
  have runs : (d.f (PORT.STAT.LINK p) == 0 || d.f (PORT.STAT.LINK p) == 5) = false := by
    simp only [Bool.or_eq_false_iff, beq_eq_false_iff_ne]
    omega
  have up : (d.f (PORT.STAT.LINK p) != 1) = true := bne_iff_ne.2 (by omega)
  have host : (4 == 1 || 4 == mPCIE) = false := rfl
  have memory : (4 == mMEM) = false := rfl
  have peer : (4 == mPEER) = true := rfl
  unfold Dev.linkDown
  simp only [runs, up, hm, host, memory, peer, if_true, Bool.false_eq_true, if_false]
  exact if_neg fun again => Bool.false_ne_true (off.symm.trans (Bool.and_eq_true_iff.1 again).1)

end Down

end Sys2Proof.Machine
end

section
/-! The commands of ports and links (R124–R160). -/

namespace Sys2Proof.Machine

variable {d : Dev} {p : Nat}

/-! ## PORT_ENABLE -/

/-- The port as enabling it leaves it: configured, enabled and training (R125, R137). -/
def Dev.enabled (d : Dev) (p : Nat) (v : Word) : Dev :=
  (((d.configured p v).setF (PORT.CFG.EN p) 1).setF (PORT.LANE.LFAIL p) 0).setF (PORT.STAT.LINK p) 1

theorem Dev.cfgWrite_trains {v : Word} (hl : d.f (PORT.STAT.LINK p) ≠ 5) (hen : d.fb (PORT.CFG.EN p) = false)
    (h15 : getBits v 15 1 = 1) (h17 : getBits v 17 1 = 0) (hlow : 1 ≤ getBits v 0 3) (hmode : getBits v 0 3 ≤ 3)
    (hwidth : getBits v 3 3 ≤ 2) (hrate : getBits v 6 2 ≤ 2) (hmgr : p ≠ d.mgrPort ∨ getBits v 0 3 ≠ 3)
    (hhost : ∀ q, q < 96 → q ≠ p → d.fb (PORT.CFG.EN q) = true → d.f (PORT.CFG.HOSTID q) ≠ getBits v 8 6) :
    d.cfgWrite p v = d.enabled p v ∧ (d.enabled p v).fb (PORT.CFG.EN p) = true ∧
    (d.enabled p v).f (PORT.CFG.MODE p) = getBits v 0 3 ∧ (d.enabled p v).f (PORT.CFG.WIDTH p) = getBits v 3 3 ∧
    (d.enabled p v).f (PORT.CFG.HOSTID p) = getBits v 8 6 ∧ (d.enabled p v).f (PORT.STAT.LINK p) = 1 := by
  have mode : ((d.configured p v).setF (PORT.CFG.EN p) 1).f (PORT.CFG.MODE p) = getBits v 0 3 :=
    (Dev.f_setF_port (by decide)).trans (Dev.configured_mode _)
  have width : ((d.configured p v).setF (PORT.CFG.EN p) 1).f (PORT.CFG.WIDTH p) = getBits v 3 3 :=
    (Dev.f_setF_port (by decide)).trans (Dev.configured_width _)
  have host : ((d.configured p v).setF (PORT.CFG.EN p) 1).f (PORT.CFG.HOSTID p) = getBits v 8 6 :=
    (Dev.f_setF_port (by decide)).trans (Dev.configured_host _)
  have en : ((d.configured p v).setF (PORT.CFG.EN p) 1).fb (PORT.CFG.EN p) = true :=
    Dev.fb_setF_same _ _ _ (show 15 + 1 ≤ 64 by decide)
  refine ⟨?_, ?_, ?_, ?_, ?_, ?_⟩
  · exact (Dev.cfgWrite_enables hl hen h15 h17 (by omega) (by omega) hrate (by omega) hhost).trans
      (Dev.trainStart_alone (by omega) (by omega) (width.trans_le hwidth))
  · exact (Dev.fb_setF_port (by decide)).trans ((Dev.fb_setF_port (by decide)).trans en)
  · exact (Dev.f_setF_port (by decide)).trans ((Dev.f_setF_port (by decide)).trans mode)
  · exact (Dev.f_setF_port (by decide)).trans ((Dev.f_setF_port (by decide)).trans width)
  · exact (Dev.f_setF_port (by decide)).trans ((Dev.f_setF_port (by decide)).trans host)
  · exact Dev.f_setF_same _ _ _ (show 0 + 3 ≤ 64 by decide)

/-! ## LINK_UP -/

section Up

variable {w rate pol lact : Nat} {rev lwc : Bool} (hl : d.f (PORT.STAT.LINK p) = 1)
include hl

/-- A partner with flits brings a port of another mode than PEER up on the lanes found (R137). -/
theorem Dev.linkUpNow_flit (hm : d.f (PORT.CFG.MODE p) ≠ 4)
    (hs : trainSet (lact &&& d.lanesMax p) (min w (d.f (PORT.CFG.WIDTH p))) ≠ 0) : ∃ r det,
    d.linkUpNow p w rate rev pol lact lwc .flit =
      (d.linkSet p (trainSet (lact &&& d.lanesMax p) (min w (d.f (PORT.CFG.WIDTH p)))) r rev lwc pol).raise (4 * p) det := by
  have other : (d.f (PORT.CFG.MODE p) == mPEER) = false := beq_eq_false_iff_ne.2 hm
  have flit : (LinkPartner.flit == LinkPartner.noFlit) = false ∧ (LinkPartner.flit == LinkPartner.unlisted) = false := ⟨rfl, rfl⟩
  have training : ((1 : Nat) == 3 && d.f (PORT.CFG.MODE p) != mPEER) = false := rfl
  unfold Dev.linkUpNow
  simp only [hl, other, flit, training, bne_self_eq_false, Bool.false_eq_true, if_false]
  generalize trainSet (lact &&& d.lanesMax p) (min w (d.f (PORT.CFG.WIDTH p))) = set at hs ⊢
  cases set with
  | zero => exact absurd rfl hs
  | succ k => exact ⟨_, _, rfl⟩

/-- One of a kind that the profiles do not list does not link (R135). -/
theorem Dev.linkUpNow_unlisted (hm : d.f (PORT.CFG.MODE p) ≠ 4) : d.linkUpNow p w rate rev pol lact lwc .unlisted = d := by
  have other : (d.f (PORT.CFG.MODE p) == mPEER) = false := beq_eq_false_iff_ne.2 hm
  have unlisted : (LinkPartner.unlisted == LinkPartner.noFlit) = false ∧ (LinkPartner.unlisted == LinkPartner.unlisted) = true :=
    ⟨rfl, rfl⟩
  have training : ((1 : Nat) == 3 && d.f (PORT.CFG.MODE p) != mPEER) = false := rfl
  unfold Dev.linkUpNow
  simp only [hl, other, unlisted, training, bne_self_eq_false, Bool.false_eq_true, if_false, if_true]

/-- One without flits marks the port (R134). -/
theorem Dev.linkUpNow_noFlit (hm : d.f (PORT.CFG.MODE p) ≠ 4) :
    d.linkUpNow p w rate rev pol lact lwc .noFlit = d.setF (PORT.STAT.ERR p) 5 := by
  have other : (d.f (PORT.CFG.MODE p) == mPEER) = false := beq_eq_false_iff_ne.2 hm
  have noFlit : (LinkPartner.noFlit == LinkPartner.noFlit) = true := rfl
  have training : ((1 : Nat) == 3 && d.f (PORT.CFG.MODE p) != mPEER) = false := rfl
  unfold Dev.linkUpNow
  simp only [hl, other, noFlit, training, bne_self_eq_false, Bool.false_eq_true, if_false, if_true]

/-- A PEER port comes up on what both ends have (R137). -/
theorem Dev.linkUpNow_peer {q : LinkPeer} {r : Nat} {partner : LinkPartner} (hm : d.f (PORT.CFG.MODE p) = 4)
    (hq : (d.lnk p).peer = some q) (hc : q.cred ≠ []) (hd : q.dev ≠ d.devId)
    (hs : trainSet (lact &&& d.lanesMax p) (min (min w (d.f (PORT.CFG.WIDTH p))) q.width) ≠ 0)
    (hr : rateSet (min rate (d.f (PORT.CFG.RATE p))) q.rates = some r) :
    d.linkUpNow p w rate rev pol lact lwc partner =
      d.peerUp p (trainSet (lact &&& d.lanesMax p) (min (min w (d.f (PORT.CFG.WIDTH p))) q.width)) r rev pol q := by
  have fits : (q.cred.isEmpty || q.dev == d.devId) = false := by simp [hc, hd]
  have training : ((1 : Nat) == 3 && (4 : Nat) != mPEER) = false := rfl
  have peer : ((4 : Nat) == mPEER) = true := rfl
  unfold Dev.linkUpNow
  simp only [hl, hm, hq, fits, hr, peer, training, bne_self_eq_false, Bool.false_eq_true, if_false, if_true]

end Up

/-- The state of a PEER link that has come up. -/
theorem Dev.peerUp_state {mask r pol : Nat} {rev : Bool} {q : LinkPeer} (hp : p < 96) (hr : r ≤ 2) :
    let u := d.peerUp p mask r rev pol q
    u.f (PORT.STAT.LINK p) = 2 ∧ u.f (PORT.STAT.CRATE p) = r ∧ (u.lnk p).txMask = mask ∧ (u.lnk p).rxMask = mask ∧
      (u.lnk p).replay = [] ∧ (u.lnk p).due = false := by
  have record : (d.peerUp p mask r rev pol q).lnk p = { Link.none with
      cred := q.cred.zipIdx.foldl (fun t e => Tbl.put 0 t e.2 e.1) [], txMask := mask, rxMask := mask, peer := some q } :=
    (Dev.Outer.lnk (Dev.Outer.raise _ _ _) p).trans ((Dev.lnk_setLnk _ _ _ _).trans (if_pos rfl))
  intro u
  refine ⟨?_, ?_, by rw [record], by rw [record], by rw [record]; rfl, by rw [record]; rfl⟩
  · refine (Dev.f_raise_port (b := 0x100008) _ _ _ (by decide) hp).trans ((Dev.f_setLnk _ _ _ _).trans ?_)
    refine (Dev.f_setF_port (by decide)).trans ((Dev.f_setF_port (by decide)).trans ?_)
    exact Dev.linkSet_link _ _ _ _ _
  · refine (Dev.f_raise_port (b := 0x100008) _ _ _ (by decide) hp).trans ((Dev.f_setLnk _ _ _ _).trans ?_)
    refine (Dev.f_setF_port (by decide)).trans ((Dev.f_setF_port (by decide)).trans ?_)
    exact Dev.linkSet_rate _ _ _ _ _ hr

/-! ## Lanes, ordered sets and paths -/

/-- A lane of a running link fails, and a set of the others works or none does (R136, R153). -/
theorem Dev.laneFail_eq {l : Nat} (hs : 2 ≤ d.f (PORT.STAT.LINK p) ∧ d.f (PORT.STAT.LINK p) ≤ 4)
    (hl : (d.lanesAll p).testBit l = true) :
    let fail := setBitN (d.f (PORT.LANE.LFAIL p)) l
    let set := laneSet (d.lanesAll p) fail
    let c := d.setF (PORT.LANE.LFAIL p) fail
    (set = 0 → d.laneFail p l = c.linkDown p 8) ∧
    (set ≠ 0 → d.f (PORT.CFG.MODE p) = 1 → d.laneFail p l =
      (((c.setF (PORT.LANE.LACT p) set).setF (PORT.STAT.CWIDTH p) (maskWidth set)).raise (4 * p + 1) (maskWidth set + fail * 8)).retrain
        p set 3 0 true) := by
  intro fail set c
  have runs : (!(decide (2 ≤ d.f (PORT.STAT.LINK p)) && decide (d.f (PORT.STAT.LINK p) ≤ 4)) || !bitN (d.lanesAll p) l) = false := by
    rw [decide_eq_true hs.1, decide_eq_true hs.2, bitN, hl]
    rfl
  have takes : ¬ (!(decide (2 ≤ d.f (PORT.STAT.LINK p)) && decide (d.f (PORT.STAT.LINK p) ≤ 4)) || !bitN (d.lanesAll p) l) = true := by
    rw [runs]
    exact Bool.false_ne_true
  have mode : c.f (PORT.CFG.MODE p) = d.f (PORT.CFG.MODE p) := Dev.f_setF_port (by decide)
  unfold Dev.laneFail
  refine ⟨fun h => (if_neg takes).trans (if_pos (beq_iff_eq.2 h)), fun h hm => (if_neg takes).trans ((if_neg ?_).trans (if_neg ?_))⟩
  · exact fun z => h (beq_iff_eq.1 z)
  · rw [mode, hm]
    decide

/-- What TS1 and TS2 tell of the partner (R137, R138). -/
theorem Dev.tsRecv_peer {t : Tos} {final : Bool} (hl : d.f (PORT.STAT.LINK p) = 1) (hm : d.f (PORT.CFG.MODE p) = 4)
    (ht : t.devid ≠ d.devId) : ∃ q, ((d.tsRecv p t final).lnk p).peer = some q ∧ q.dev = t.devid ∧ q.port = t.port ∧
      (final = true → q.cred = t.cred) := by
  have training : (d.f (PORT.STAT.LINK p) != 1 || d.f (PORT.CFG.MODE p) != mPEER) = false := by rw [hl, hm]; rfl
  have other : (t.devid == d.devId) = false := beq_eq_false_iff_ne.2 ht
  unfold Dev.tsRecv
  rw [training, other, if_neg Bool.false_ne_true, if_neg Bool.false_ne_true]
  refine ⟨_, congrArg Link.peer (Dev.lnk_updLnk_same _ _ _), rfl, rfl, fun hf => ?_⟩
  rw [hf]
  rfl

/-- RTS has a running link retrain, and ends the partner's retrain where this end did not start one (R149, R152). -/
theorem Dev.rtsRecv_up {t : Tos} (hl : d.f (PORT.STAT.LINK p) = 2) (hm : d.f (PORT.CFG.MODE p) = 4) :
    d.rtsRecv p t = d.retrain p t.lmask 4 t.aseq false := by
  have peer : ((4 : Nat) != mPEER) = false := rfl
  have runs : ((2 : Nat) == 2 || (2 : Nat) == 4) = true := rfl
  unfold Dev.rtsRecv
  simp only [hl, hm, peer, runs, Bool.false_eq_true, if_false, if_true]

theorem Dev.rtsRecv_retraining {t : Tos} {a : LinkAct} (hl : d.f (PORT.STAT.LINK p) = 3) (hm : d.f (PORT.CFG.MODE p) = 4)
    (ha : (d.lnk p).act = some a) (ho : a.own = false) : d.rtsRecv p t = d.retrained p t.lmask t.nextrx := by
  have peer : ((4 : Nat) != mPEER) = false := rfl
  have waits : ((3 : Nat) == 2 || (3 : Nat) == 4) = false ∧ ((3 : Nat) == 3) = true := ⟨rfl, rfl⟩
  unfold Dev.rtsRecv
  simp only [hl, hm, ha, ho, peer, waits, Bool.false_and, Bool.false_eq_true, if_false, if_true]

/-- With no flit in its receive buffers a link has nothing to hand on. -/
theorem Dev.rxDrain_empty (h : (d.lnk p).rxb = []) : d.rxDrain p = d.updLnk p fun x => { x with rxb := [] } := by
  rw [Dev.rxDrain, h]
  rfl

theorem Dev.rxb_of_all (h : d.link.all (fun x => x.2.rxb.isEmpty) = true) (p : Nat) : (d.lnk p).rxb = [] := by
  have listed : ∀ l : Tbl Link, l.all (fun x => x.2.rxb.isEmpty) = true → (Tbl.get Link.none l p).rxb = [] := by
    intro l
    induction l with
    | nil => exact fun _ => rfl
    | cons x l ih =>
      intro hl
      obtain ⟨here, rest⟩ := Bool.and_eq_true_iff.1 ((List.all_cons ..).symm.trans hl)
      rw [Tbl.get]
      split
      · exact List.isEmpty_iff.1 here
      · exact ih rest
  exact listed d.link h

/-- So no link does, and the requests and answers in the device stand. -/
theorem Dev.drained_coh (h : ∀ p, (d.lnk p).rxb = []) (ps : List Nat) : (ps.foldl Dev.rxDrain d).coh = d.coh := by
  refine (List.foldlRecOn (motive := fun e : Dev => e.coh = d.coh ∧ ∀ p, (e.lnk p).rxb = []) ps _ ⟨rfl, h⟩ ?_).1
  rintro e ⟨coh, empty⟩ q -
  rw [Dev.rxDrain_empty (empty q)]
  refine ⟨coh, fun p => ?_⟩
  rw [Dev.updLnk, Dev.lnk_setLnk]
  split
  · rfl
  · exact empty p

/-- The one message that waits for a path to its device is sent as the path appears, where it is this device's own (R157). -/
theorem Dev.pathBack_sends {v q : Nat} {m : Msg} (hrem : d.coh.rem = [(96, m)]) (hagain : d.coh.again = []) (hv : agDev m.dst = v)
    (hsrc : agDev m.src = d.devId) (hans : msgAnswered m = true) (hq : d.peerPort m 96 = some q) (hlate : d.tooLate m = false) :
    d.pathBack v = ({ d with coh := { d.coh with rem := [(q, m)], late := d.coh.late.filter (·.2 != m) } } : Dev).linkSend q
      (msgVc m) (msgPack m) := by
  have free : d.reissuing v = false := by rw [Dev.reissuing, hagain]; rfl
  have own : (agDev m.src == d.devId && msgAnswered m) = true := by rw [hsrc, hans, beq_self_eq_true]; rfl
  have mine : ([(96, m)] : List (Nat × Msg)).filter (fun e => 96 ≤ e.1 && agDev e.2.dst == v && !d.tooLate e.2) = [(96, m)] := by
    simp [hv, hlate]
  unfold Dev.pathBack
  simp only [hrem, mine, free, List.foldl_cons, List.foldl_nil, beq_self_eq_true, hq, own, List.map_cons, List.map_nil,
    Bool.false_eq_true, if_false, if_true]

/-- One that is too late for it is not (R159). -/
theorem Dev.pathBack_late {v : Nat} {m : Msg} (hrem : d.coh.rem = [(96, m)]) (hlate : d.tooLate m = true) : d.pathBack v = d := by
  have nobody : ([(96, m)] : List (Nat × Msg)).filter (fun e => 96 ≤ e.1 && agDev e.2.dst == v && !d.tooLate e.2) = [] := by
    simp [hlate]
  unfold Dev.pathBack
  simp only [hrem, nobody, List.foldl_nil, ite_self]

/-- A read that found no path completes with poisoned data (R159). -/
theorem Dev.pathLost_read {m : Msg} (hrem : d.coh.rem = [(96, m)]) (hop : m.op = opRdS) :
    let c : Dev := { d with coh := { d.coh with rem := [], late := d.coh.late.filter (·.2 != m) } }
    let a : Msg := { op := opDataS, psn := true, addr := m.addr, tag := m.tag, src := m.dst, dst := m.src }
    d.pathLost m = if isOwn (agId m.src) then c.ownAnswer a else c.shadowResp a := by
  have waits : (!d.coh.rem.contains (96, m) || decide (0x10 ≤ m.op.toNat)) = false := by rw [hrem, hop]; simp [opRdS]
  have gone : d.coh.rem.erase (96, m) = [] := by rw [hrem]; simp
  have answer : lostAnswer m = { op := opDataS, psn := true, addr := m.addr, tag := m.tag, src := m.dst, dst := m.src } := by
    simp [lostAnswer, hop]
  intro c a
  unfold Dev.pathLost
  rw [waits, gone, answer, if_neg Bool.false_ne_true]

/-- A device that no path reaches departs (R82). -/
theorem Dev.peerLost_snoop {v : Nat} {m : Msg} (hrem : d.coh.rem = [(96, m)]) (hv : agDev m.dst = v) (hop : m.op = opSnpI) :
    d.peerLost v = ({ d with coh := { d.coh with rem := [] } } : Dev).departPeer v := by
  have snoop : decide (0x30 ≤ m.op.toNat) = true := by rw [hop]; rfl
  have waits : (d.coh.rem.any fun e => e.1 == 96 && agDev e.2.dst == v && decide (0x30 ≤ e.2.op.toNat)) = true := by
    rw [hrem]; simp [hv, snoop]
  have gone : (d.coh.rem.filter fun e => !(e.1 == 96 && agDev e.2.dst == v && decide (0x30 ≤ e.2.op.toNat))) = [] := by
    rw [hrem]; simp [hv, snoop]
  unfold Dev.peerLost
  simp only [waits, gone, Bool.not_true, Bool.false_eq_true, if_false]

/-! ## The commands -/

section Commands

variable {s : State} {p : Fin 96} {v : Word} {e : Dev}

theorem exec_portEnable_of (hc : s.dev.cspOn = true) (h : s.dev.cfgWrite p (putBits v 15 1 1) = e) :
    exec (.portEnable p v) s = .next (s.after e) := by
  rw [exec_portEnable]
  exact State.act_of_eq ((Dev.when_of_true hc).trans h)

theorem exec_portDisable_of (hc : s.dev.cspOn = true) (h : s.dev.cfgWrite p (putBits v 15 1 0) = e) :
    exec (.portDisable p v) s = .next (s.after e) := by
  rw [exec_portDisable]
  exact State.act_of_eq ((Dev.when_of_true hc).trans h)

theorem exec_portReset_of (hc : s.dev.cspOn = true) (h : s.dev.cfgWrite p (putBits v 17 1 1) = e) :
    exec (.portReset p v) s = .next (s.after e) := by
  rw [exec_portReset]
  exact State.act_of_eq ((Dev.when_of_true hc).trans h)

theorem exec_linkUp_of {w : BitVec 3} {rate : BitVec 2} {rev lwc : Bool} {pol lact : BitVec 16} {q : LinkPartner}
    (hu : s.dev.fdUp = true) (h : s.dev.linkUpNow p w.toNat rate.toNat rev pol.toNat lact.toNat lwc q = e)
    (hd : (e.lnk p).due = false) : exec (.linkUp p w rate rev pol lact lwc q) s = .next (s.after e) := by
  rw [exec_linkUp]
  exact State.act_of_eq ((Dev.when_of_true hu).trans (by rw [h, Dev.calDue_of hd]))

theorem exec_creditTimeout_of {vc : Fin 7} (hr : s.dev.linkRuns p = true) (hc : Tbl.get 0 (s.dev.lnk p).cred vc = 0)
    (hw : (s.dev.lnk p).txq.any (·.1 == vc.val) = true) : exec (.creditTimeout p vc) s = .next (s.after (s.dev.linkDown p 1)) := by
  rw [exec_creditTimeout]
  exact State.act_of_eq (Dev.when_of_true (by rw [hr, hc, hw]; rfl))

theorem exec_retrainTimeout_of (hl : s.dev.f (PORT.STAT.LINK p) = 3) (hm : s.dev.f (PORT.CFG.MODE p) = 4) :
    exec (.retrainTimeout p) s = .next (s.after (s.dev.linkDown p 3)) := by
  rw [exec_retrainTimeout]
  exact State.act_of_eq (Dev.when_of_true (by rw [hl, hm]; rfl))

theorem exec_laneFail_of {l : Fin 16} (h : s.dev.laneFail p l = e) : exec (.laneFail p l) s = .next (s.after e) := by
  rw [exec_laneFail]
  exact State.act_of_eq h

section Ordered

variable {x : BitVec 256} {t : Tos} (hx : tosRead x = some t)
include hx

theorem Dev.tosRecv_of {d : Dev} {kind : Nat} (hk : t.kind = kind) (k : Tos → Dev → Dev) : d.tosRecv x kind k = k t d := by
  rw [Dev.tosRecv, hx]
  exact if_pos (beq_iff_eq.2 hk)

theorem exec_ts1_of (hk : t.kind = 0x1E) : exec (.ts1 p x) s = .next (s.after (s.dev.tsRecv p t false)) := by
  rw [exec_ts1]
  exact State.act_of_eq (Dev.tosRecv_of hx hk _)

theorem exec_ts2_of (hk : t.kind = 0x2D) : exec (.ts2 p x) s = .next (s.after (s.dev.tsRecv p t true)) := by
  rw [exec_ts2]
  exact State.act_of_eq (Dev.tosRecv_of hx hk _)

theorem exec_rts_of (hk : t.kind = 0x4B) (h : s.dev.rtsRecv p t = e) : exec (.rts p x) s = .next (s.after e.againGo) := by
  rw [exec_rts]
  exact State.act_of_eq ((Dev.tosRecv_of hx hk _).trans (by rw [h]))

end Ordered

theorem exec_pathReissue_of {v : Fin 8} (h : s.dev.pathBack v = e) : exec (.pathReissue v) s = .next (s.after e) := by
  rw [exec_pathReissue]
  exact State.act_of_eq h

theorem exec_pathLost_of {m : Msg} (h : s.dev.pathLost m = e) : exec (.pathLost m) s = .next (s.after e) := by
  rw [exec_pathLost]
  exact State.act_of_eq h

theorem exec_peerLost_of {v : Fin 8} (h : s.dev.peerLost v = e) : exec (.peerLost v) s = .next (s.after e) := by
  rw [exec_peerLost]
  exact State.act_of_eq h

end Commands

theorem getBits_zero {v : Word} {i : Nat} (h : v.getLsbD i = false) : getBits v i 1 = 0 := by
  have bit := testBit_getBits v i 1 0
  rw [Nat.add_zero, h] at bit
  have := getBits_lt v i 1
  generalize getBits v i 1 = x at *
  interval_cases x
  · rfl
  · cases bit

end Sys2Proof.Machine

open Sys2Proof.Machine in
/-- Settles O50: each command by its lemma above, in the order of the statement. -/
theorem portsComplete : Obligations.PortsComplete := by
  intro s p hup d link is up
  refine ⟨?config, ?reset, ?linkUp, rfl, rfl, rfl, rfl, ?credit, ?retrainTimeout, ?down, ?laneFail, ?ordered, ?paths, ?dup⟩
  case config =>
    intro v hsafe hlink h17
    have on := Dev.cspOn_of hup hsafe
    have other : ∀ x lo w, lo + w ≤ 15 ∨ 16 ≤ lo → getBits (putBits v 15 1 x) lo w = getBits v lo w := fun x lo w h =>
      getBits_putBits_other _ _ _ _ _ _ (by decide) h
    have set : ∀ x, getBits (putBits v 15 1 x) 15 1 = x % 2 := fun x => getBits_putBits_same _ _ _ _ (by decide)
    have bit17 : ∀ x, getBits (putBits v 15 1 x) 17 1 = 0 := fun x => (other _ _ _ (by decide)).trans (getBits_zero h17)
    refine ⟨fun hen hm1 hm3 hw hr hmgr hhost => ?_, fun hen => ?_⟩
    · have mode := other 1 0 3 (by decide)
      have width := other 1 3 3 (by decide)
      have rate := other 1 6 2 (by decide)
      have host := other 1 8 6 (by decide)
      obtain ⟨goes, facts⟩ := Dev.cfgWrite_trains hlink hen (set 1) (bit17 1) (by omega) (by omega)
        (by omega) (by omega) (by omega) (by rw [host]; exact hhost)
      refine ⟨_, exec_portEnable_of on goes, ?_⟩
      rw [State.after_fb, State.after_f, State.after_f, State.after_f, State.after_f, ← mode, ← width, ← host]
      exact facts
    · obtain ⟨same, goes⟩ := Dev.cfgWrite_disables hlink hen (set 0) (bit17 0)
      refine ⟨_, ?_, ?_, exec_portDisable_of on goes⟩
      · exact Dev.fb_setF_same _ _ _ (show 15 + 1 ≤ 64 by decide)
      · exact (Dev.f_setF_port (by decide)).trans (Dev.kept_link _ _)
  case reset =>
    intro v hsafe hlink hen h15
    have bit15 : getBits (putBits v 17 1 1) 15 1 = 1 :=
      (getBits_putBits_other _ _ _ _ _ _ (by decide) (by decide)).trans (getBits_one h15)
    have bit17 : getBits (putBits v 17 1 1) 17 1 = 1 := getBits_putBits_same _ _ _ _ (by decide)
    obtain ⟨same, goes⟩ := Dev.cfgWrite_resets hlink hen bit15 bit17
    exact ⟨_, (Dev.kept_en _ _).trans hen, Dev.kept_link _ _, exec_portReset_of (Dev.cspOn_of hup hsafe) goes⟩
  case linkUp =>
    intro w rate rev pol lact lwc hl hdue most up
    constructor
    · intro hm set
      refine ⟨fun hs => ?_, ?_, ?_⟩
      · obtain ⟨r, det, goes⟩ := Dev.linkUpNow_flit (w := w.toNat) (rate := rate.toNat) (rev := rev) (pol := pol.toNat)
          (lact := lact.toNat) (lwc := lwc) hl hm hs
        refine ⟨_, exec_linkUp_of hup goes ?_, ?_, ?_, ?_⟩
        · rw [Dev.Outer.lnk (Dev.Outer.raise _ _ _)]
          exact hdue
        · rw [State.after_f]
          exact (Dev.f_raise_port (b := 0x100008) _ _ _ (by decide) p.isLt).trans (Dev.linkSet_link _ _ _ _ _)
        · rw [State.after_f]
          exact (Dev.f_raise_port (b := 0x100008) _ _ _ (by decide) p.isLt).trans (Dev.linkSet_width _ _ _ _ _)
        · rw [State.after_f]
          exact (Dev.f_raise_port (b := 0x100010) _ _ _ (by decide) p.isLt).trans (Dev.linkSet_lanes _ _ _ _ _ (trainSet_lt _ _))
      · exact exec_linkUp_of hup (Dev.linkUpNow_unlisted hl hm) hdue
      · exact exec_linkUp_of hup (Dev.linkUpNow_noFlit hl hm) hdue
    · intro q hm hq hc hd set r hs hr
      obtain ⟨link, speed, tx, rx, replay, due⟩ := Dev.peerUp_state (d := d) (p := p) (mask := set) (r := r) (pol := pol.toNat)
        (rev := rev) (q := q) p.isLt (rateSet_le hr)
      refine ⟨_, exec_linkUp_of hup (Dev.linkUpNow_peer hl hm hq hc hd hs hr) due, ?_⟩
      rw [State.after_f, State.after_f]
      exact ⟨link, speed, tx, rx, replay⟩
  case credit => exact fun vc => exec_creditTimeout_of
  case retrainTimeout => exact exec_retrainTimeout_of
  case down =>
    intro why hw hl hm hen u
    have goes : u = (d.downed p why).reissue p := Dev.linkDown_peer p.isLt why hl hm hen
    obtain ⟨regs, record⟩ := Dev.reissue_keeps (d.downed p why) p
    rw [goes, Dev.f_congr regs, Dev.f_congr regs, Dev.f_congr regs, record]
    exact ⟨Dev.downed_link p.isLt why, Dev.downed_why p.isLt why hw, Dev.downed_lanes p.isLt why, Dev.downed_lnk why⟩
  case laneFail =>
    intro l hs hl fail set c
    obtain ⟨dead, narrower⟩ := Dev.laneFail_eq hs hl
    exact ⟨fun h => exec_laneFail_of (dead h), fun h hm => exec_laneFail_of (narrower h hm)⟩
  case ordered =>
    intro x t hx hm
    refine ⟨fun hl hd => ⟨fun hk => ?_, fun hk => ?_⟩, fun hk => ⟨fun hl => ?_, fun a hl ha ho => ?_⟩⟩
    · obtain ⟨q, peer, dev, port, -⟩ := Dev.tsRecv_peer (final := false) hl hm hd
      exact ⟨_, q, exec_ts1_of hx hk, peer, dev, port⟩
    · obtain ⟨q, peer, dev, -, cred⟩ := Dev.tsRecv_peer (final := true) hl hm hd
      exact ⟨_, q, exec_ts2_of hx hk, peer, dev, cred rfl⟩
    · exact exec_rts_of hx hk (Dev.rtsRecv_up hl hm)
    · exact exec_rts_of hx hk (Dev.rtsRecv_retraining hl hm ha ho)
  case paths =>
    intro v m q hrem hagain hv late c a
    refine ⟨fun hsrc hans hq => ⟨fun hlate => ?_, fun hlate => ?_⟩, fun hop => ⟨fun ho => ?_, fun ho => ?_⟩, fun hop => ?_⟩
    · exact exec_pathReissue_of (Dev.pathBack_sends hrem hagain hv hsrc hans hq hlate)
    · exact exec_pathReissue_of (Dev.pathBack_late hrem hlate)
    · exact exec_pathLost_of ((Dev.pathLost_read hrem hop).trans (if_neg (by rw [ho]; exact Bool.false_ne_true)))
    · exact exec_pathLost_of ((Dev.pathLost_read hrem hop).trans (if_pos ho))
    · exact exec_peerLost_of (Dev.peerLost_snoop hrem hv hop)
  case dup =>
    intro src tag e
    refine ⟨rfl, fun empty => ⟨_, rfl, ?_⟩⟩
    exact Dev.drained_coh (d := e) (Dev.rxb_of_all empty) _
end

section

/-! The home agent of an address, from bits of the address itself (R97). -/

namespace Sys2Proof.Machine

/-- A field of a line address is the field six bits higher in the byte address. -/
theorem bitsN_lineOf (a lo w : Nat) : bitsN (a / 64) lo w = a / 2 ^ (6 + lo) % 2 ^ w := by
  rw [bitsN, Nat.shiftRight_eq_div_pow, Nat.div_div_eq_div_mul, Nat.pow_add]

theorem homeOf_lineOf (a : Nat) :
    homeOf (a / 64) = (a / 2 ^ 6 % 64 ^^^ a / 2 ^ 12 % 64 ^^^ a / 2 ^ 18 % 64 ^^^ a / 2 ^ 24 % 64) := by
  simp only [homeOf, bitsN_lineOf, Nat.reduceAdd, Nat.reducePow]

end Sys2Proof.Machine

open Sys2Proof.Machine in
/-- Settles O19: the four fields of the line address read as fields of the byte address, each of six bits. -/
theorem homeOfAnAddress : Obligations.HomeOfAnAddress := by
  intro a
  exact ⟨homeOf_lineOf a, homeOf_lt (a / 64)⟩

end

section
/-! Flits, credits, width actions and calibration of a link (R139–R155). -/

namespace Sys2Proof.Machine

variable {d e : Dev} {p : Nat}

/-! ## What reads a link's record -/

@[simp] theorem Dev.lnk_setLnk_same (d : Dev) (p : Nat) (x : Link) : (d.setLnk p x).lnk p = x :=
  (Dev.lnk_setLnk _ _ _ _).trans (if_pos rfl)

@[simp] theorem Dev.lnk_count (d : Dev) (k n q : Nat) : (d.count k n).lnk q = d.lnk q := rfl

@[simp] theorem State.after_lnk (s : State) (d : Dev) (q : Nat) : (s.after d).dev.lnk q = d.lnk q := rfl

theorem Dev.linkRuns_congr (h : e.csr = d.csr) (q : Nat) : e.linkRuns q = d.linkRuns q := by
  rw [Dev.linkRuns, Dev.linkRuns, Dev.f_congr h]

theorem Dev.actCheck_of_none (h : (d.lnk p).act = none) : d.actCheck p = d := by
  rw [Dev.actCheck, h]

theorem Dev.againGo_of_nil (h : d.coh.again = []) : d.againGo = d := by
  rw [Dev.againGo, h]
  rfl

/-- A flit takes the credits and the NAK that its link owes, and leaves the rest of the record (R142, R145, R147). -/
theorem Dev.lnk_flitTx (d : Dev) (p mask seq vc type : Nat) (bs : List Byte) : ∃ owed nakAt,
    (d.flitTx p mask seq vc type bs).lnk p = { d.lnk p with owed := owed, nak := false, nakAt := nakAt } :=
  ⟨_, _, Dev.lnk_setLnk_same _ _ _⟩

/-- A link that owes no credit and no NAK says so in its headers (R139). -/
theorem Link.header_quiet {x : Link} (ho : x.owed = []) (hn : x.nak = false) (vc type : Nat) :
    x.header vc type = vc + type * 8 + 2 ^ 18 + (x.rxSeq + 4095) % 4096 * 2 ^ 19 := by
  have none : (if type == 0 then (0, 0) else x.owes.getD (0, 0)) = (0, 0) := by
    rw [Link.owes, ho]
    exact ite_self _
  simp only [Link.header, none, hn, b2n, Nat.zero_mul, Nat.add_zero, Bool.false_eq_true, if_false]

/-! ## What a link has sent -/

/-- From `d` to `e` link `p` has come to hold `x` and has sent `os`; no register has changed and no reissue has begun. -/
structure Dev.LinkSent (d e : Dev) (p : Nat) (x : Link) (os : List Out) : Prop where
  csr : e.csr = d.csr
  again : e.coh.again = d.coh.again
  out : e.out = d.out ++ os
  lnk : e.lnk p = x

namespace Dev.LinkSent

variable {x : Link} {os : List Out}

theorem refl (d : Dev) (p : Nat) : d.LinkSent d p (d.lnk p) [] := ⟨rfl, rfl, (List.append_nil _).symm, rfl⟩

theorem runs (h : d.LinkSent e p x os) : e.linkRuns p = d.linkRuns p := Dev.linkRuns_congr h.csr p

theorem setLnk (h : d.LinkSent e p x os) (y : Link) : d.LinkSent (e.setLnk p y) p y os :=
  ⟨h.csr, h.again, h.out, Dev.lnk_setLnk_same _ _ _⟩

theorem updLnk (h : d.LinkSent e p x os) (g : Link → Link) : d.LinkSent (e.updLnk p g) p (g x) os := by
  rw [← h.lnk]
  exact h.setLnk _

theorem count (h : d.LinkSent e p x os) (k n : Nat) : d.LinkSent (e.count k n) p x os := ⟨h.csr, h.again, h.out, h.lnk⟩

/-- A flit of a link that owes nothing (R142). -/
theorem flitTx (h : d.LinkSent e p x os) (ho : x.owed = []) (hn : x.nak = false) (mask seq vc type : Nat) (bs : List Byte) :
    d.LinkSent (e.flitTx p mask seq vc type bs) p x
      (os ++ [.flit p (flitStripe mask (flitMake seq (vc + type * 8 + 2 ^ 18 + (x.rxSeq + 4095) % 4096 * 2 ^ 19) bs))]) := by
  have none : (if type == 0 then none else x.owes) = none := by
    rw [Link.owes, ho]
    exact ite_self _
  refine ⟨h.csr, h.again, ?_, ?_⟩
  · rw [← Link.header_quiet ho hn, ← List.append_assoc, ← h.out, ← h.lnk]
    rfl
  · refine (Dev.lnk_setLnk_same _ _ _).trans ?_
    simp only [h.lnk, none, hn, Bool.false_eq_true, if_false]
    rw [← hn]

/-- With no message waiting for a credit none is sent (R144). -/
theorem linkFlush (h : d.LinkSent e p x os) (hq : x.txq = []) : d.LinkSent (e.linkFlush p) p x os := by
  have same : { x with txq := [] } = x := by rw [← hq]
  have nothing : e.linkFlush p = (e.updLnk p fun x => { x with txq := [] }).updLnk p fun x => { x with txq := [] } := by
    rw [Dev.linkFlush, h.lnk, hq]
    rfl
  rw [nothing, ← same]
  exact (h.updLnk _).updLnk _

theorem rxDrain (h : d.LinkSent e p x os) (hb : x.rxb = []) : d.LinkSent (e.rxDrain p) p x os := by
  have same : { x with rxb := [] } = x := by rw [← hb]
  rw [Dev.rxDrain_empty (by rw [h.lnk, hb]), ← same]
  exact h.updLnk _

theorem actCheck (h : d.LinkSent e p x os) (ha : x.act = none) : d.LinkSent (e.actCheck p) p x os := by
  rw [Dev.actCheck_of_none (by rw [h.lnk, ha])]
  exact h

theorem againGo (h : d.LinkSent e p x os) (ha : d.coh.again = []) : d.LinkSent e.againGo p x os := by
  rw [Dev.againGo_of_nil (h.again.trans ha)]
  exact h

theorem freeDup (h : d.LinkSent e p x os) (f : Nat × Nat × Nat × List Byte) : d.LinkSent (e.freeDup p f) p x os := by
  unfold Dev.freeDup
  dsimp only
  split
  · exact h
  · exact ⟨h.csr, h.again, h.out, h.lnk⟩

/-- An ACK takes the flits up to the one that it names out of the replay buffer (R147). -/
theorem ackFlits {ack : Nat} {xs ys : List (Nat × Nat × Nat × List Byte)} {f : Nat × Nat × Nat × List Byte}
    (h : d.LinkSent e p x os) (hx : x.replay = xs ++ f :: ys) (hf : f.1 % 4096 = ack) (first : ∀ g ∈ xs, g.1 % 4096 ≠ ack)
    (hw : x.wrep = []) : d.LinkSent (e.ackFlits p ack) p { x with replay := ys, rep := 0 } os := by
  have found : (x.replay.findIdx? fun g => g.1 % 4096 == ack) = some xs.length := by
    rw [hx, List.findIdx?_append, List.findIdx?_eq_none_iff.2 (fun g hg => beq_eq_false_iff_ne.2 (first g hg))]
    simp [List.findIdx?_cons, hf]
  have left : x.replay.drop (xs.length + 1) = ys := by rw [hx]; simp
  have freed : ∀ l : List (Nat × Nat × Nat × List Byte), d.LinkSent (l.foldl (fun d g => d.freeDup p g) e) p x os := fun l =>
    List.foldlRecOn (motive := fun u => d.LinkSent u p x os) l _ h fun u hu g _ => hu.freeDup g
  unfold Dev.ackFlits
  simp only [h.lnk, found, left, hw]
  exact (freed _).setLnk _

end Dev.LinkSent

/-! ## Replays (R148) -/

/-- A flit of the replay buffer as a link that owes nothing sends it again, under its own number and with the present ACK. -/
def Link.resent (x : Link) (p : Nat) (g : Nat × Nat × Nat × List Byte) : Out :=
  .flit p (flitStripe x.txMask (flitMake g.1 (g.2.2.1 + g.2.1 * 8 + 2 ^ 18 + (x.rxSeq + 4095) % 4096 * 2 ^ 19) g.2.2.2))

/-- A link outside a width action sends every flit of the buffer again, on the lanes in use. -/
theorem Dev.LinkSent.flitReplay {x : Link} {os : List Out} (h : d.LinkSent e p x os) (ha : x.act = none) (ho : x.owed = [])
    (hn : x.nak = false) : d.LinkSent (e.flitReplay p) p x (os ++ x.replay.map (x.resent p)) := by
  have lanes : ∀ seq, x.lanesOf seq = x.txMask := fun seq => by
    rw [Link.lanesOf, ha]
    rfl
  unfold Dev.flitReplay
  rw [h.lnk]
  generalize x.replay = l
  induction l generalizing e os with
  | nil => exact (List.append_nil _).symm ▸ h
  | cons g l ih =>
    have sent := ih (h.flitTx ho hn x.txMask g.1 g.2.2.1 g.2.1 g.2.2.2)
    rw [List.append_assoc] at sent
    rw [List.foldl_cons, h.lnk, lanes]
    exact sent

theorem Dev.flitReplay_wrep (d : Dev) (p : Nat) : ((d.flitReplay p).lnk p).wrep = (d.lnk p).wrep := by
  unfold Dev.flitReplay
  refine foldl_frame (fun e : Dev => (e.lnk p).wrep) _ (fun e g => ?_) _ _
  obtain ⟨_, _, record⟩ := e.lnk_flitTx p ((e.lnk p).lanesOf g.1) g.1 g.2.2.1 g.2.1 g.2.2.2
  rw [record]

/-- Below NREPLAY and outside the watch the flits not yet acknowledged are sent again. -/
theorem Dev.replayOrRetrain_replays (hn : (d.lnk p).rep < d.f (PORT.TMR.NREPLAY p)) (hw : (d.lnk p).watch = false)
    (hr : (d.lnk p).wrep = []) : d.replayOrRetrain p =
      ((d.setLnk p { d.lnk p with rep := (d.lnk p).rep + 1 }).count (8 * p + 3) 1).flitReplay p := by
  have same : ({ d.lnk p with rep := (d.lnk p).rep + 1 } : Link).watched = { d.lnk p with rep := (d.lnk p).rep + 1 } :=
    if_neg (by rw [hw]; exact Bool.false_ne_true)
  have unwatched : ((((d.setLnk p { d.lnk p with rep := (d.lnk p).rep + 1 }).count (8 * p + 3) 1).flitReplay p).lnk p).wrep = [] := by
    rw [Dev.flitReplay_wrep, Dev.lnk_count, Dev.lnk_setLnk_same, hr]
  unfold Dev.replayOrRetrain
  simp only [hn, if_true, same, unwatched, List.any_nil, Bool.false_eq_true, if_false]

theorem Dev.Outer.tosSend (d : Dev) (p mask : Nat) (t : Tos) : d.Outer (d.tosSend p mask t) := by
  unfold Dev.tosSend
  exact Dev.Outer.fold _ (fun _ _ => .emit _ _) _ _

/-- A retrain keeps the flits not yet acknowledged and the number expected (R149). -/
theorem Dev.retrain_keeps (d : Dev) (p mask action aseq : Nat) (own : Bool) :
    let e := d.retrain p mask action aseq own
    (e.lnk p).replay = (d.lnk p).replay ∧ (e.lnk p).rxSeq = (d.lnk p).rxSeq ∧ ((d.lnk p).txq = [] → (e.lnk p).txq = []) ∧
      e.coh = d.coh := by
  have outer := Dev.Outer.raise ((d.setF (PORT.STAT.LINK p) 3).count (8 * p + 4) 1) (4 * p + 2) 1
  have same : (((d.setF (PORT.STAT.LINK p) 3).count (8 * p + 4) 1).raise (4 * p + 2) 1).lnk p = d.lnk p := outer.lnk p
  have coh : (((d.setF (PORT.STAT.LINK p) 3).count (8 * p + 4) 1).raise (4 * p + 2) 1).coh = d.coh := outer.coh
  unfold Dev.retrain
  dsimp only
  split
  · rw [Dev.lnk_setLnk_same, same]
    exact ⟨rfl, rfl, fun h => h, coh⟩
  · rw [(Dev.Outer.tosSend _ _ _ _).lnk, Dev.lnk_setLnk_same, same]
    exact ⟨rfl, rfl, fun h => by rw [h]; rfl, (Dev.Outer.tosSend _ _ _ _).coh.trans coh⟩

/-! ## Flits received (R140, R147) -/

/-- The link has nothing of its own under way: no action, no message, no credit or NAK due, and no watch after a retrain. -/
structure Link.Quiet (x : Link) : Prop where
  act : x.act = Option.none
  rxb : x.rxb = []
  txq : x.txq = []
  owed : x.owed = []
  nak : x.nak = false
  watch : x.watch = false
  wrep : x.wrep = []

section Received

variable {x : BitVec 1024} {b : List Byte} {fixed : Nat} (hr : d.linkRuns p = true) (hm : d.f (PORT.CFG.MODE p) = 4)
  (hy : flitFix (flitMerge (popN 16 (d.lnk p).rxMask) x) = (b, fixed))
include hr hm hy

/-- A flit whose CRC fails, the first since one held, is discarded, and an IDLE flit takes the NAK out at once. -/
theorem Dev.flitRecv_bad (hc : crc64 (leBytes 4 (d.lnk p).rxSeq ++ b.take 114) ≠ leNat ((b.drop 114).take 8))
    (hd : (d.lnk p).disc = false) :
    d.flitRecv p x = ((((d.count (8 * p + 2) 1).count (8 * p + 6) fixed).setLnk p { d.lnk p with disc := true, nak := true }).count
      (8 * p + 5) 1).flitTx p (d.lnk p).txMask (d.lnk p).txSeq 0 0 [] := by
  have peer : ((4 : Nat) != mPEER) = false := rfl
  unfold Dev.flitRecv
  simp only [hr, hm, hy, hd, peer, Dev.lnk_count, Dev.lnk_setLnk_same, beq_eq_false_iff_ne.2 hc, Bool.not_true, Bool.not_false,
    Bool.or_false, Bool.or_true, Bool.false_and, Bool.false_eq_true, if_false, if_true]

variable (hc : crc64 (leBytes 4 (d.lnk p).rxSeq ++ b.take 114) = leNat ((b.drop 114).take 8))
include hc

/-- A MSG flit without a NAK: its ACK, its credits and its messages are taken, in this order. -/
theorem Dev.flitRecv_msg (ht : bitsN (leNat (b.take 4)) 3 3 = 1) (hn : (leNat (b.take 4)).testBit 17 = false) :
    let hdr := leNat (b.take 4)
    let e := ((d.count (8 * p + 2) 1).count (8 * p + 6) fixed).setLnk p
      { d.lnk p with disc := false, rxSeq := ((d.lnk p).rxSeq + 1) % 2 ^ 32 }
    let acked := if hdr.testBit 18 then ((e.ackFlits p (bitsN hdr 19 12)).actCheck p).rxDrain p else e
    d.flitRecv p x = ((acked.updLnk p fun x => { x with cred := Tbl.upd 0 x.cred (bitsN hdr 8 3) (· + bitsN hdr 11 6) }).flitBody p
      (bitsN hdr 0 3) 1 ((b.drop 4).take 110)).linkFlush p := by
  have peer : ((4 : Nat) != mPEER) = false := rfl
  have idle : ((1 : Nat) == 0) = false := rfl
  unfold Dev.flitRecv
  simp only [hr, hm, hy, hc, ht, hn, peer, idle, bitN, Dev.lnk_count, beq_self_eq_true, Bool.not_true, Bool.or_false, Bool.true_or,
    Bool.false_and, Bool.false_eq_true, if_false, if_true]

/-- An IDLE flit with an ACK: the flits that it covers are dropped, and a NAK has the others sent again. -/
theorem Dev.flitRecv_idle (ht : bitsN (leNat (b.take 4)) 3 3 = 0) (ha : (leNat (b.take 4)).testBit 18 = true) :
    let hdr := leNat (b.take 4)
    let e := ((((((d.count (8 * p + 2) 1).count (8 * p + 6) fixed).setLnk p { d.lnk p with disc := false }).ackFlits p
      (bitsN hdr 19 12)).actCheck p).rxDrain p)
    d.flitRecv p x = (if hdr.testBit 17 && e.linkRuns p then e.replayOrRetrain p else e).linkFlush p := by
  have peer : ((4 : Nat) != mPEER) = false := rfl
  have idle : ((0 : Nat) == 0) = true ∧ ((0 : Nat) == 1) = false ∧ ((0 : Nat) == 2) = false := ⟨rfl, rfl, rfl⟩
  unfold Dev.flitRecv
  simp only [hr, hm, hy, hc, ht, ha, peer, idle, bitN, Dev.lnk_count, beq_self_eq_true, Bool.not_true, Bool.or_false,
    Bool.false_eq_true, if_false, if_true]

section Idle

variable {xs ys : List (Nat × Nat × Nat × List Byte)} {f : Nat × Nat × Nat × List Byte}
  (ht : bitsN (leNat (b.take 4)) 3 3 = 0) (ha : (leNat (b.take 4)).testBit 18 = true) (quiet : (d.lnk p).Quiet)
  (replay : (d.lnk p).replay = xs ++ f :: ys) (named : f.1 % 4096 = bitsN (leNat (b.take 4)) 19 12)
  (first : ∀ g ∈ xs, g.1 % 4096 ≠ bitsN (leNat (b.take 4)) 19 12)
include ht ha quiet replay named first

/-- An IDLE flit has its ACK taken, which drops the flits up to the one that it names; then its NAK. -/
theorem Dev.flitRecv_idle_quiet : ∃ e, d.LinkSent e p { d.lnk p with disc := false, replay := ys, rep := 0 } [] ∧
    d.flitRecv p x = (if (leNat (b.take 4)).testBit 17 then e.replayOrRetrain p else e).linkFlush p := by
  have taken := ((((LinkSent.refl d p).count (8 * p + 2) 1).count (8 * p + 6) fixed).setLnk { d.lnk p with disc := false }).ackFlits
    replay named first quiet.wrep
  have drained := (taken.actCheck quiet.act).rxDrain quiet.rxb
  refine ⟨_, drained, ?_⟩
  rw [Dev.flitRecv_idle hr hm hy hc ht ha]
  dsimp only
  rw [drained.runs, hr, Bool.and_true]

/-- Without a NAK it sends nothing. -/
theorem Dev.flitRecv_idle_acks (hn : (leNat (b.take 4)).testBit 17 = false) :
    d.LinkSent (d.flitRecv p x) p { d.lnk p with disc := false, replay := ys, rep := 0 } [] := by
  obtain ⟨e, sent, goes⟩ := Dev.flitRecv_idle_quiet hr hm hy hc ht ha quiet replay named first
  rw [goes, hn, if_neg Bool.false_ne_true]
  exact sent.linkFlush quiet.txq

/-- With one the flits that are left go out again (R148). -/
theorem Dev.flitRecv_idle_replays (hn : (leNat (b.take 4)).testBit 17 = true) (pos : 0 < d.f (PORT.TMR.NREPLAY p)) :
    d.LinkSent (d.flitRecv p x) p { d.lnk p with disc := false, replay := ys, rep := 1 } (ys.map ((d.lnk p).resent p)) := by
  obtain ⟨e, sent, goes⟩ := Dev.flitRecv_idle_quiet hr hm hy hc ht ha quiet replay named first
  have again := Dev.replayOrRetrain_replays (d := e) (p := p) (by rw [sent.lnk, Dev.f_congr sent.csr]; exact pos)
    (by rw [sent.lnk]; exact quiet.watch) (by rw [sent.lnk]; exact quiet.wrep)
  rw [goes, hn, if_pos rfl, again, sent.lnk]
  have counted := (sent.setLnk { d.lnk p with disc := false, replay := ys, rep := 1 }).count (8 * p + 3) 1
  exact (counted.flitReplay quiet.act quiet.owed quiet.nak).linkFlush quiet.txq

/-- Where NREPLAY allows no replay the link retrains, and keeps them (R149). -/
theorem Dev.flitRecv_idle_retrains (hn : (leNat (b.take 4)).testBit 17 = true) (off : d.f (PORT.TMR.NREPLAY p) = 0) :
    ((d.flitRecv p x).lnk p).replay = ys ∧ ((d.flitRecv p x).lnk p).rxSeq = (d.lnk p).rxSeq ∧
      (d.flitRecv p x).coh.again = d.coh.again := by
  obtain ⟨e, sent, goes⟩ := Dev.flitRecv_idle_quiet hr hm hy hc ht ha quiet replay named first
  have spent : ¬ (e.lnk p).rep < e.f (PORT.TMR.NREPLAY p) := by
    rw [Dev.f_congr sent.csr, off]
    exact Nat.not_lt_zero _
  have again : e.replayOrRetrain p = e.retrain p (e.f (PORT.LANE.LACT p)) 3 (((e.lnk p).aseq + 1) % 256) true := if_neg spent
  obtain ⟨kept, expected, nothing, coh⟩ := e.retrain_keeps p (e.f (PORT.LANE.LACT p)) 3 (((e.lnk p).aseq + 1) % 256) true
  obtain ⟨-, flushed, -, record⟩ := (LinkSent.refl _ p).linkFlush (nothing (by rw [sent.lnk]; exact quiet.txq))
  rw [goes, hn, if_pos rfl, again, record, kept, expected, flushed, coh, sent.lnk]
  exact ⟨rfl, rfl, sent.again⟩

end Idle

end Received

/-! ## Credits (R144, R145) -/

/-- Credits that no message waits for are held, each on its VC. -/
theorem Dev.creditTaken_sent (hq : (d.lnk p).txq = []) (ha : d.coh.again = []) (vc n : Nat) :
    d.LinkSent ((d.updLnk p fun x => { x with cred := Tbl.upd 0 x.cred vc (· + n) }).linkFlush p).againGo p
      { d.lnk p with cred := Tbl.upd 0 (d.lnk p).cred vc (· + n) } [] :=
  (((LinkSent.refl d p).updLnk fun x => { x with cred := Tbl.upd 0 x.cred vc (· + n) }).linkFlush hq).againGo ha

theorem Tbl.get_upd_add (t : Tbl Nat) (k n v : Nat) :
    Tbl.get 0 (Tbl.upd 0 t k (· + n)) v = Tbl.get 0 t v + if v = k then n else 0 := by
  rw [Tbl.upd, Tbl.get_put]
  split
  · next h => rw [h]
  · rfl

section Ctrl

variable {x : Link} {os : List Out} {bs : List Byte} {v k : Nat} {r : Tbl Nat} (h : d.LinkSent e p x os) (ho : x.owed = (v, k) :: r)
include h ho

/-- A new CTRL flit takes up to 63 of the credits owed, of the lowest VC that has any, the next number, and a place in the replay
buffer (R140, R145, R148). -/
theorem Dev.LinkSent.flitNew_credits : d.LinkSent (e.flitNew p 7 2 bs) p { x with
      owed := Tbl.put 0 x.owed v (k - min 63 k), nak := false, nakAt := if x.nak then e.now else x.nakAt
      txSeq := (x.txSeq + 1) % 2 ^ 32, replay := x.replay ++ [(x.txSeq, 2, 7, bs)] }
    (os ++ [.flit p (flitStripe x.txMask (flitMake x.txSeq (x.header 7 2) bs))]) := by
  have owes : (if (2 : Nat) == 0 then none else x.owes) = some (v, min 63 k) := by
    rw [Link.owes, ho]
    rfl
  have held : Tbl.get 0 x.owed v = k := by
    rw [ho]
    exact if_pos rfl
  have record : (e.flitTx p x.txMask x.txSeq 7 2 bs).lnk p = { x with
      owed := Tbl.put 0 x.owed v (k - min 63 k), nak := false, nakAt := if x.nak then e.now else x.nakAt } := by
    refine (Dev.lnk_setLnk_same _ _ _).trans ?_
    simp only [h.lnk, owes, held]
    rfl
  unfold Dev.flitNew
  rw [h.lnk]
  refine ⟨h.csr, h.again, ?_, ?_⟩
  · rw [← List.append_assoc, ← h.out, ← h.lnk]
    rfl
  · rw [Dev.lnk_updLnk_same, record]

/-- A CTRL flit other than an LSWITCH goes out at once where no message waits and the replay buffer has room (R148). -/
theorem Dev.LinkSent.linkFlush_credits (hr : d.linkRuns p = true) (hq : x.txq = [(7, bs)]) (room : x.replay.length < 512)
    (hb : bs.headD 0 ≠ 4) : ∃ y, d.LinkSent (e.linkFlush p) p y
      (os ++ [.flit p (flitStripe x.txMask (flitMake x.txSeq (x.header 7 2) bs))]) ∧
    Tbl.get 0 y.owed v = k - min 63 k ∧ y.txSeq = (x.txSeq + 1) % 2 ^ 32 ∧ y.replay = x.replay ++ [(x.txSeq, 2, 7, bs)] := by
  have cleared := h.updLnk fun x => { x with txq := [] }
  have sendable : (e.updLnk p fun x => { x with txq := [] }).canSend p 7 = true := by
    rw [Dev.canSend, cleared.runs, hr, cleared.lnk, decide_eq_true room]
    rfl
  have ctrl : (e.updLnk p fun x => { x with txq := [] }).msgOut p 7 bs =
      (e.updLnk p fun x => { x with txq := [] }).flitNew p 7 2 bs := by
    rw [Dev.msgOut, if_pos (beq_self_eq_true 7), Dev.ctrlOut]
    exact if_pos (bne_iff_ne.2 hb)
  have sent := (cleared.flitNew_credits (bs := bs) ho).updLnk fun x => { x with txq := [] }
  rw [← ctrl] at sent
  have goes : e.linkFlush p = ((e.updLnk p fun x => { x with txq := [] }).msgOut p 7 bs).updLnk p fun x => { x with txq := [] } := by
    rw [Dev.linkFlush, h.lnk, hq, List.foldl_cons, List.foldl_nil]
    dsimp only
    rw [sendable]
    rfl
  rw [goes]
  exact ⟨_, sent, Tbl.get_put_same _ _ _ _, rfl, rfl⟩

end Ctrl

/-! ## Width actions (R151) -/

/-- A width action apart from the number of its LSWITCH and the lanes in use until it. -/
def LinkAct.plain (a : LinkAct) : LinkAct := { a with lsw := none }

theorem Dev.act_flitNew (vc type : Nat) (bs : List Byte) : ((d.flitNew p vc type bs).lnk p).act = (d.lnk p).act := by
  obtain ⟨_, _, record⟩ := d.lnk_flitTx p (d.lnk p).txMask (d.lnk p).txSeq vc type bs
  rw [Dev.flitNew, Dev.lnk_updLnk_same, record]

/-- What a link sends changes no more of its width action. -/
theorem Dev.act_msgOut (vc : Nat) (bs : List Byte) :
    ((d.msgOut p vc bs).lnk p).act.map LinkAct.plain = (d.lnk p).act.map LinkAct.plain := by
  have ctrl : ((d.ctrlOut p bs).lnk p).act.map LinkAct.plain = (d.lnk p).act.map LinkAct.plain := by
    rw [← Dev.act_flitNew (d := d) 7 2 bs]
    unfold Dev.ctrlOut
    dsimp only
    split
    · rfl
    · rw [Dev.lnk_updLnk_same]
      split
      · next a h => rw [h]; rfl
      · rfl
  unfold Dev.msgOut
  split
  · exact ctrl
  · rw [Dev.act_flitNew, Dev.lnk_updLnk_same]

theorem Dev.act_linkFlush : ((d.linkFlush p).lnk p).act.map LinkAct.plain = (d.lnk p).act.map LinkAct.plain := by
  unfold Dev.linkFlush
  rw [Dev.lnk_updLnk_same]
  refine (foldl_frame (fun acc : List (Nat × List Byte) × Dev => (acc.2.lnk p).act.map LinkAct.plain) _ ?_ _ _).trans ?_
  · rintro ⟨keep, e⟩ x
    dsimp only
    split
    · rfl
    · exact Dev.act_msgOut _ _
  · rw [Dev.lnk_updLnk_same]

theorem Dev.act_ctrlSend (code width action aseq lmask : Nat) :
    ((d.ctrlSend p code width action aseq lmask).lnk p).act.map LinkAct.plain = (d.lnk p).act.map LinkAct.plain := by
  unfold Dev.ctrlSend Dev.linkSend
  split
  · rfl
  · rw [Dev.act_linkFlush, Dev.lnk_updLnk_same]

/-- The action once the own LSWITCH is under way. -/
theorem Dev.act_lswitchSend (a : LinkAct) :
    ∃ b, ((d.lswitchSend p a).lnk p).act = some b ∧ b.plain = { a with sent := true }.plain := by
  have act : ((d.lswitchSend p a).lnk p).act.map LinkAct.plain = some { a with sent := true }.plain := by
    rw [Dev.lswitchSend, Dev.act_ctrlSend, Dev.lnk_updLnk_same]
    rfl
  exact Option.map_eq_some_iff.1 act

/-- A NARROW LREQ that meets no other action is taken up at once: it adds no lane. -/
theorem Dev.lreq_narrow {c : LinkCtl} (hr : d.linkRuns p = true) (ha : (d.lnk p).act = none) (hc : c.action = 1) :
    let a : LinkAct := ⟨1, c.aseq.toNat, c.lmask.toNat, false, false, false, false, none⟩
    d.lreq p c = (d.setLnk p { d.lnk p with act := some a, adds := 0 }).respond p a := by
  have code : (c.action.toNat == aNARROW) = true := by rw [hc]; rfl
  have one : c.action.toNat = 1 := by rw [hc]; rfl
  unfold Dev.lreq
  simp only [hr, ha, code, Bool.not_true, Bool.true_or, Bool.or_self, Bool.false_eq_true, if_false, if_true]
  rw [one]
  rfl

/-- An action, and with it the calibration cycle that it was part of, is given up. -/
theorem Dev.lnk_actDropped {g : Link → Link} (hd : (g (d.lnk p)).due = false) :
    (((d.updLnk p g).calStop p).calDue p).lnk p = { g (d.lnk p) with cal := 0 } := by
  have record : ((d.updLnk p g).updLnk p fun x => { x with cal := 0 }).lnk p = { g (d.lnk p) with cal := 0 } := by
    rw [Dev.lnk_updLnk_same, Dev.lnk_updLnk_same]
  have stopped : ((d.updLnk p g).calStop p).lnk p = { g (d.lnk p) with cal := 0 } := by
    unfold Dev.calStop
    dsimp only
    split
    · exact record
    · exact record
  rw [Dev.calDue_of (by rw [stopped]; exact hd), stopped]

section Action

variable {a : LinkAct} (ha : (d.lnk p).act = some a) (h3 : a.code ≠ 3)
include ha h3

/-- A LACK with FOLLOW has the initiator switch, once its own lanes have locked; one with NONE ends the action. -/
theorem Dev.lack_eq {c : LinkCtl} (own : a.own = true) (hl : a.lack = false) (hs : a.aseq = c.aseq.toNat) :
    d.lack p c = if c.action = 4 then
      (if (d.lnk p).locked a then d.lswitchSend p { a with lack := true }
        else d.setLnk p { d.lnk p with act := some { a with lack := true } })
      else ((d.updLnk p fun x => { x with act := none }).calStop p).calDue p := by
  have taken : (!a.own || a.lack || a.aseq != c.aseq.toNat || a.code == 3) = false := by
    rw [own, hl, hs, bne_self_eq_false, beq_eq_false_iff_ne.2 h3]
    rfl
  have follow : (c.action.toNat == aFOLLOW) = decide (c.action = 4) := by
    rw [beq_eq_decide]
    exact decide_eq_decide.2 (BitVec.toNat_inj (y := 4))
  unfold Dev.lack
  rw [ha]
  dsimp only
  rw [taken, if_neg Bool.false_ne_true, follow]
  simp only [decide_eq_true_eq]
  rfl

/-- An LSWITCH names the lanes that flits come on from now on; the action is over where the own one has been acknowledged. -/
theorem Dev.lswitch_eq {c : LinkCtl} (got : a.got = false) :
    let e := d.setLnk p { d.lnk p with rxMask := c.lmask.toNat, act := some { a with got := true } }
    (a.lsw = none → d.lswitch p c = e) ∧
    ∀ q m, a.lsw = some (q, m) →
      d.lswitch p c = if (d.lnk p).replay.any (·.1 == q) then e else e.actDone p { a with got := true } := by
  intro e
  have taken : (a.code == 3 || a.got) = false := by
    rw [got, beq_eq_false_iff_ne.2 h3]
    rfl
  have goes : d.lswitch p c = e.actCheck p := by
    unfold Dev.lswitch
    rw [ha]
    exact if_neg (by rw [taken]; exact Bool.false_ne_true)
  have record : e.lnk p = { d.lnk p with rxMask := c.lmask.toNat, act := some { a with got := true } } := Dev.lnk_setLnk_same _ _ _
  rw [goes, Dev.actCheck, record]
  refine ⟨fun none => ?_, fun q m sent => ?_⟩
  · simp only [none]
  · have other : (a.code != 3) = true := bne_iff_ne.2 h3
    simp only [sent, other, Bool.true_and]
    cases (d.lnk p).replay.any (·.1 == q) <;> rfl

/-- An ADD marks its lane; with the last one the responder answers, and an initiator that has its LACK switches. -/
theorem Dev.addRecv_eq {t : Tos} {y : Link} (hs : a.aseq = t.aseq)
    (hy : { d.lnk p with adds := setBitN (d.lnk p).adds t.lane } = y) :
    d.addRecv p t = if !y.locked a then d.setLnk p y
      else if !a.own && !a.lack then (d.setLnk p y).respond p a
      else if a.own && a.lack && !a.sent then (d.setLnk p y).lswitchSend p a
      else d.setLnk p y := by
  have taken : (a.code == 3 || a.aseq != t.aseq) = false := by
    rw [hs, bne_self_eq_false, beq_eq_false_iff_ne.2 h3]
    rfl
  subst hy
  unfold Dev.addRecv
  dsimp only
  split
  · next b hb =>
    obtain rfl : a = b := Option.some.inj (ha.symm.trans hb)
    rw [taken, if_neg Bool.false_ne_true]
  · next hb => exact absurd (ha.symm.trans hb) (Option.some_ne_none a)

end Action

/-! ## Calibration (R154, R155) -/

section Host

variable (hm : d.f (PORT.CFG.MODE p) = 1)
include hm

/-- A cycle of a HOST port starts on the lower half of the lanes where the partner agrees to L0p, and is skipped where it does
not. -/
theorem Dev.calStart_host (hl : d.f (PORT.STAT.LINK p) = 2) (ha : (d.lnk p).act = none)
    (lanes : 2 ≤ (onesN 16 (d.f (PORT.LANE.LACT p))).length) (sound : d.f (PORT.LANE.LFAIL p) = 0)
    (lwc : d.fb (PORT.STAT.LWC p) = true) :
    let c : Dev := { d with fresh := d.fresh + 1 }
    d.calStart p = if Config.freeBits d.fresh = 0 then c.calSkip p
      else ((c.setF (PORT.STAT.LINK p) 4).setLnk p { d.lnk p with cal := 2, full := d.f (PORT.LANE.LACT p) }).setWidth p
        (lowerHalf (d.f (PORT.LANE.LACT p))) := by
  have idle : (d.f (PORT.STAT.LINK p) == 3 || (d.f (PORT.STAT.LINK p) == 2 && (d.lnk p).act.isSome)) = false := by
    rw [hl, ha]
    rfl
  have up : (d.f (PORT.STAT.LINK p) != 2) = false := by
    rw [hl]
    rfl
  have whole : (decide ((onesN 16 (d.f (PORT.LANE.LACT p))).length < 2) || d.f (PORT.LANE.LFAIL p) != 0) = false := by
    rw [decide_eq_false (by omega), sound]
    rfl
  have host : (d.f (PORT.CFG.MODE p) == mPEER) = false := by
    rw [hm]
    rfl
  unfold Dev.calStart
  simp only [idle, up, whole, host, lwc, Bool.not_true, Bool.false_eq_true, if_false, Dev.draw, beq_iff_eq]
  rfl

/-- The lower half done, the upper one follows; that done, the link takes all its lanes and the cycle ends. -/
theorem Dev.halfDone_host :
    ((d.lnk p).cal = 2 → d.halfDone p = (d.setLnk p { d.lnk p with cal := 4 }).setWidth p (upperHalf (d.lnk p).full)) ∧
    ((d.lnk p).cal = 4 → d.halfDone p = (d.setWidth p (d.lnk p).full).calEnd p) := by
  have host : ((1 : Nat) == mPEER) = false := rfl
  unfold Dev.halfDone
  refine ⟨fun hc => ?_, fun hc => ?_⟩ <;> simp only [hm, hc, host, Bool.false_eq_true, if_false]

end Host

/-- An eye sweep records the margins of its lane, and leaves the state of the link. -/
theorem Dev.eye_recorded (d : Dev) (p i : Nat) (hi : i < 16) (hm : BitVec 6) (vm : BitVec 8) :
    let e := (d.setF (PORT.EYE.HM p i) hm.toNat).setF (PORT.EYE.VM p i) vm.toNat
    e.f (PORT.EYE.HM p i) = hm.toNat ∧ e.f (PORT.EYE.VM p i) = vm.toNat ∧ e.f (PORT.STAT.LINK p) = d.f (PORT.STAT.LINK p) ∧
      e.f (PORT.CAL.DRIFT p) = d.f (PORT.CAL.DRIFT p) := by
  have link : 0x100008 + p * 0x10000 ≠ 0x100100 + p * 0x10000 + i * 8 := by omega
  have drift : 0x100020 + p * 0x10000 ≠ 0x100100 + p * 0x10000 + i * 8 := by omega
  refine ⟨?_, ?_, ?_, ?_⟩
  · refine (Dev.f_setF_field _ (PORT.EYE.VM p i) (PORT.EYE.HM p i) _ (show 6 + 8 ≤ 64 by decide) rfl rfl
      (.inl (show 0 + 6 ≤ 6 by decide))).trans ?_
    exact (Dev.f_setF_same _ _ _ (show 0 + 6 ≤ 64 by decide)).trans (Nat.mod_eq_of_lt hm.isLt)
  · exact (Dev.f_setF_same _ _ _ (show 6 + 8 ≤ 64 by decide)).trans (Nat.mod_eq_of_lt vm.isLt)
  · exact (Dev.f_setF_reg _ _ _ _ link).trans (Dev.f_setF_reg _ _ _ _ link)
  · exact (Dev.f_setF_reg _ _ _ _ drift).trans (Dev.f_setF_reg _ _ _ _ drift)

/-! ## The commands -/

section Commands

variable {s : State} {p : Fin 96} {e : Dev}

theorem exec_flitReceive_of {x : BitVec 1024} (h : s.dev.flitRecv p x = e) :
    exec (.flitReceive p x) s = .next (s.after e.againGo) := by
  rw [exec_flitReceive]
  exact State.act_of_eq (congrArg Dev.againGo h)

theorem exec_credit_of {vc : Fin 7} {n : BitVec 6} (hr : s.dev.linkRuns p = true) : exec (.credit p vc n) s = .next (s.after
    ((s.dev.updLnk p fun x => { x with cred := Tbl.upd 0 x.cred vc.val (· + n.toNat) }).linkFlush p).againGo) := by
  rw [exec_credit]
  exact State.act_of_eq (Dev.when_of_true hr)

theorem exec_ackTimeout_of (hr : s.dev.linkRuns p = true) (hx : (s.dev.lnk p).replay ≠ []) (h : s.dev.replayOrRetrain p = e) :
    exec (.ackTimeout p) s = .next (s.after e) := by
  have some : (s.dev.lnk p).replay.isEmpty = false := List.isEmpty_eq_false_iff.2 hx
  rw [exec_ackTimeout]
  exact State.act_of_eq ((Dev.when_of_true (by rw [hr, some]; rfl)).trans h)

theorem exec_lreq_of {c : LinkCtl} (h : s.dev.lreq p c = e) : exec (.lreq p c) s = .next (s.after e) := by
  rw [exec_lreq]
  exact State.act_of_eq h

theorem exec_lack_of {c : LinkCtl} (hr : s.dev.linkRuns p = true) (h : s.dev.lack p c = e) :
    exec (.lack p c) s = .next (s.after e) := by
  rw [exec_lack]
  exact State.act_of_eq ((Dev.when_of_true hr).trans h)

theorem exec_lswitch_of {c : LinkCtl} (hr : s.dev.linkRuns p = true) (h : s.dev.lswitch p c = e) :
    exec (.lswitch p c) s = .next (s.after e) := by
  rw [exec_lswitch]
  exact State.act_of_eq ((Dev.when_of_true hr).trans h)

theorem exec_creditCtrlSend_of (ho : (s.dev.lnk p).owed ≠ []) : exec (.creditCtrlSend p) s = .next (s.after
    (s.dev.ctrlSend p 1 (s.dev.f (PORT.STAT.CWIDTH p)) 0 0 (s.dev.lnk p).txMask)) := by
  have owes : (s.dev.lnk p).owed.isEmpty = false := List.isEmpty_eq_false_iff.2 ho
  rw [exec_creditCtrlSend]
  exact State.act_of_eq (Dev.when_of_true (by rw [owes]; rfl))

theorem exec_addOrderedSet_of {x : BitVec 256} {t : Tos} (hx : tosRead x = some t) (hk : t.kind = 0x78)
    (h : s.dev.addRecv p t = e) : exec (.addOrderedSet p x) s = .next (s.after e) := by
  rw [exec_addOrderedSet]
  exact State.act_of_eq ((Dev.tosRecv_of hx hk _).trans h)

/-- A width action that has run out of time leaves both ends' lanes as LACT names them. -/
theorem exec_widthChangeTimeout_of {a : LinkAct} (ha : (s.dev.lnk p).act = some a) (h3 : a.code ≠ 3) :
    let lanes := s.dev.f (PORT.LANE.LACT p)
    exec (.widthChangeTimeout p) s = .next (s.after (((s.dev.updLnk p fun x =>
      { x with act := none, adds := 0, txMask := lanes, rxMask := lanes }).calStop p).calDue p)) := by
  rw [exec_widthChangeTimeout]
  refine State.act_of_eq ?_
  dsimp only
  rw [ha]
  exact if_neg fun h => h3 (beq_iff_eq.1 h)

theorem exec_retrainWatchExpire_eq : exec (.retrainWatchExpire p) s =
    .next (s.after (s.dev.updLnk p fun x => { x with watch := false, wrep := [] })) := by
  rw [exec_retrainWatchExpire]
  exact State.act_of_eq rfl

theorem exec_linkCalNow_of (hc : s.dev.cspOn = true) (h : s.dev.calStart p = e) :
    exec (.linkCalNow p) s = .next (s.after e) := by
  rw [exec_linkCalNow]
  exact State.act_of_eq ((Dev.when_of_true hc).trans h)

theorem exec_linkCalPeriod_of (hc : s.dev.fb (PORT.CFG.CALEN p) = true) (h : s.dev.calStart p = e) :
    exec (.linkCalPeriod p) s = .next (s.after e) := by
  rw [exec_linkCalPeriod]
  exact State.act_of_eq ((Dev.when_of_true hc).trans h)

/-- A lane without a margin fails. -/
theorem exec_eyeSweep_none {i : Fin 16} {hm : BitVec 6} {vm : BitVec 8} (h0 : hm = 0) : exec (.eyeSweep p i hm vm) s =
    .next (s.after (((s.dev.setF (PORT.EYE.HM p i) hm.toNat).setF (PORT.EYE.VM p i) vm.toNat).laneFail p i)) := by
  rw [exec_eyeSweep]
  exact State.act_of_eq (if_pos (beq_iff_eq.2 h0))

/-- A lane with a margin, and DRIFT off: the sweep does no more than record it. -/
theorem exec_eyeSweep_of {i : Fin 16} {hm : BitVec 6} {vm : BitVec 8} (h0 : hm ≠ 0) (hd : s.dev.f (PORT.CAL.DRIFT p) = 0) :
    exec (.eyeSweep p i hm vm) s = .next (s.after ((s.dev.setF (PORT.EYE.HM p i) hm.toNat).setF (PORT.EYE.VM p i) vm.toNat)) := by
  obtain ⟨-, -, -, drift⟩ := Dev.eye_recorded s.dev p i i.isLt hm vm
  have seen : (hm == 0) = false := beq_eq_false_iff_ne.2 h0
  rw [exec_eyeSweep]
  refine State.act_of_eq ?_
  dsimp only
  rw [seen, if_neg Bool.false_ne_true, drift, hd, bne_self_eq_false, Bool.and_false, Bool.false_and, Dev.when_false]

theorem exec_halfRecalDone_of (h : s.dev.halfDone p = e) : exec (.halfRecalDone p) s = .next (s.after e) := by
  rw [exec_halfRecalDone]
  exact State.act_of_eq h

end Commands

end Sys2Proof.Machine

open Sys2Proof.Machine in
/-- Settles O51: each command by its lemma above, in the order of the statement. -/
theorem linkLayerCompletes : Obligations.LinkLayerCompletes := by
  intro s p d l link is
  refine ⟨fun hr => ⟨?flits, ?credits, ?ackTimeout, ?actions⟩, exec_creditCtrlSend_of, ?owed, ?adds, ?expired, ?watch, ?start, ?eye,
    fun hm => ⟨fun hc => ?_, fun hc => ?_⟩⟩
  case flits =>
    intro x hm y b hdr c crc
    refine ⟨fun hc hd => ?_, fun hc ht hn => ?_, ?_⟩
    · exact exec_flitReceive_of (Dev.flitRecv_bad hr hm Prod.mk.eta.symm hc hd)
    · exact exec_flitReceive_of (Dev.flitRecv_msg hr hm Prod.mk.eta.symm hc ht hn)
    · intro xs f ys hc ht ha hagain hact hrxb htxq howed hnak hwatch hwrep hreplay named first again
      have quiet : l.Quiet := ⟨hact, hrxb, htxq, howed, hnak, hwatch, hwrep⟩
      refine ⟨_, exec_flitReceive_of rfl, ?_⟩
      rw [State.after_lnk, State.after_out]
      cases hn : hdr.testBit 17 with
      | false =>
        have acks := Dev.flitRecv_idle_acks hr hm Prod.mk.eta.symm hc ht ha quiet hreplay named first hn
        obtain ⟨-, -, out, record⟩ := acks.againGo hagain
        rw [out, record]
        exact ⟨rfl, rfl, fun _ => ⟨List.append_nil _, rfl⟩, fun h => absurd h Bool.false_ne_true⟩
      | true =>
        refine (Nat.eq_zero_or_pos (d.f (PORT.TMR.NREPLAY p))).elim (fun off => ?_) fun pos => ?_
        · obtain ⟨kept, expected, same⟩ :=
            Dev.flitRecv_idle_retrains hr hm Prod.mk.eta.symm hc ht ha quiet hreplay named first hn off
          rw [Dev.againGo_of_nil (same.trans hagain)]
          exact ⟨kept, expected, fun h => absurd h.symm Bool.false_ne_true, fun _ pos => absurd off pos.ne'⟩
        · have replays := Dev.flitRecv_idle_replays hr hm Prod.mk.eta.symm hc ht ha quiet hreplay named first hn pos
          obtain ⟨-, -, out, record⟩ := replays.againGo hagain
          rw [out, record]
          exact ⟨rfl, rfl, fun h => absurd h.symm Bool.false_ne_true, fun _ _ => ⟨rfl, rfl⟩⟩
  case credits =>
    intro vc n
    refine ⟨exec_credit_of hr, fun hq ha => ⟨_, exec_credit_of hr, ?_⟩⟩
    obtain ⟨-, -, out, record⟩ := Dev.creditTaken_sent (p := p) hq ha vc n.toNat
    rw [State.after_out, State.after_lnk, out, record, List.append_nil]
    exact ⟨rfl, Tbl.get_upd_add _ _ _⟩
  case ackTimeout => exact fun hx hn hw hwr => exec_ackTimeout_of hr hx (Dev.replayOrRetrain_replays hn hw hwr)
  case actions =>
    intro c
    refine ⟨fun ha hc => ⟨exec_lreq_of (Dev.lreq_narrow hr ha hc), ?_⟩, fun a ha h3 => ⟨fun own hl hs => ?_, fun got => ?_⟩⟩
    · obtain ⟨b, act, plain⟩ := Dev.act_lswitchSend _
      simp only [LinkAct.plain, LinkAct.mk.injEq] at plain
      obtain ⟨code, aseq, mask, own, lack, sent, -⟩ := plain
      exact ⟨_, b, exec_lreq_of (Dev.lreq_narrow hr ha hc), act, code, aseq, mask, own, lack, sent⟩
    · have goes := Dev.lack_eq ha h3 (c := c) own hl hs
      refine ⟨fun hc locked => ?_, fun hc locked => ?_, fun hc hd => ?_⟩
      · rw [if_pos hc, if_pos locked] at goes
        obtain ⟨b, act, plain⟩ := Dev.act_lswitchSend (d := d) (p := p) { a with lack := true }
        simp only [LinkAct.plain, LinkAct.mk.injEq] at plain
        obtain ⟨-, -, mask, -, lack, sent, -⟩ := plain
        exact ⟨exec_lack_of hr goes, _, b, exec_lack_of hr goes, act, lack, sent, mask⟩
      · rw [if_pos hc, locked, if_neg Bool.false_ne_true] at goes
        exact exec_lack_of hr goes
      · rw [if_neg hc] at goes
        refine ⟨_, exec_lack_of hr goes, ?_⟩
        rw [State.after_lnk, Dev.lnk_actDropped hd]
        exact ⟨rfl, rfl, rfl⟩
    · obtain ⟨waits, ends⟩ := Dev.lswitch_eq ha h3 (c := c) got
      refine ⟨fun none => exec_lswitch_of hr (waits none), fun q m sent => ⟨fun unacked => ?_, fun acked => ?_⟩⟩
      · exact exec_lswitch_of hr ((ends q m sent).trans (if_pos (List.any_eq_true.2 (by simpa only [beq_iff_eq] using unacked))))
      · exact exec_lswitch_of hr ((ends q m sent).trans (if_neg
          (by simpa only [List.any_eq_true, beq_iff_eq, not_exists, not_and] using acked)))
  case owed =>
    intro v k r ho hr hq room bs
    have sends := ((Dev.LinkSent.refl d p).updLnk fun x => { x with txq := x.txq ++ [(7, bs)] }).linkFlush_credits (bs := bs) ho hr
      (congrArg (· ++ [(7, bs)]) hq) room (show (1 : BitVec 8) ≠ 4 by decide)
    obtain ⟨y, ⟨-, -, out, record⟩, left, next, kept⟩ := sends
    have goes : d.ctrlSend p 1 (d.f (PORT.STAT.CWIDTH p)) 0 0 l.txMask = d.linkSend p 7 bs := if_neg (by rw [hr]; decide)
    refine ⟨_, exec_creditCtrlSend_of (by rw [ho]; exact List.cons_ne_nil _ _), ?_⟩
    rw [State.after_out, State.after_lnk, goes, Dev.linkSend, out, record]
    exact ⟨rfl, left, next, kept⟩
  case adds =>
    intro x t a hx hk ha h3 hs y
    have goes := Dev.addRecv_eq (y := y) ha h3 hs rfl
    refine ⟨fun rest => ?_, fun locked own hl sent => ?_, fun locked own hl => ?_⟩
    · refine exec_addOrderedSet_of hx hk (goes.trans ?_)
      rcases rest with unlocked | ⟨own, unready | sent⟩
      · exact if_pos (by rw [unlocked]; rfl)
      · simp only [own, unready, Bool.not_true, Bool.false_and, Bool.and_false, Bool.false_eq_true, if_false, ite_self]
      · simp only [own, sent, Bool.not_true, Bool.false_and, Bool.and_false, Bool.false_eq_true, if_false, ite_self]
    · refine exec_addOrderedSet_of hx hk (goes.trans ?_)
      simp only [locked, own, hl, sent, Bool.not_true, Bool.not_false, Bool.and_self, Bool.false_eq_true, if_false, if_true]
    · refine exec_addOrderedSet_of hx hk (goes.trans ?_)
      simp only [locked, own, hl, Bool.not_true, Bool.not_false, Bool.and_self, Bool.false_eq_true, if_false, if_true]
  case expired =>
    intro a ha h3 hl hd
    refine ⟨_, exec_widthChangeTimeout_of ha h3, ?_⟩
    rw [State.after_lnk, Dev.lnk_actDropped hd]
    exact ⟨rfl, rfl, rfl⟩
  case watch =>
    refine ⟨_, exec_retrainWatchExpire_eq, ?_⟩
    rw [State.after_lnk, Dev.lnk_updLnk_same]
    exact ⟨rfl, rfl⟩
  case start =>
    intro mask hl hm ha lanes sound lwc c e
    have starts : d.calStart p = e := Dev.calStart_host hm hl ha lanes sound lwc
    exact ⟨fun hup hsafe => exec_linkCalNow_of (Dev.cspOn_of hup hsafe) starts, fun hc => exec_linkCalPeriod_of hc starts⟩
  case eye =>
    intro i hm vm e
    refine ⟨exec_eyeSweep_none, fun h0 hd => ⟨_, exec_eyeSweep_of h0 hd, ?_⟩⟩
    obtain ⟨height, width, link, -⟩ := Dev.eye_recorded d p i i.isLt hm vm
    rw [State.after_f, State.after_f, State.after_f]
    exact ⟨height, width, link⟩
  · exact exec_halfRecalDone_of ((Dev.halfDone_host hm).1 hc)
  · exact exec_halfRecalDone_of ((Dev.halfDone_host hm).2 hc)
end

section
/-! A result given to a register (R162, R192, R196). -/

namespace Sys2Proof.Machine

/-- A write to a general register changes the strand's registers alone. -/
theorem Strand.setG_eq (x : Strand) (r : Nat) (v : Word) : x.setG r v = { x with regs := (x.setG r v).regs } := by
  unfold Strand.setG
  split <;> rfl

/-- What a result given leaves of its own strand. -/
theorem Dev.give_str_same (d : Dev) (t rd : Nat) (v : Word) : (d.give t rd v).str t =
    { d.str t with regs := ((d.str t).setG rd v).regs, pc := (d.str t).pc + 4, wait := .none } := by
  rw [Dev.give_str, if_pos rfl, Strand.setG_eq]

theorem Dev.give_g (d : Dev) (t rd q : Nat) (v : Word) :
    ((d.give t rd v).str t).g q = if q = rd then (if q = 0 then 0 else v) else (d.str t).g q := by
  rw [Dev.give_str, if_pos rfl]
  exact Strand.g_setG _ _ _ _

end Sys2Proof.Machine

open Sys2Proof.Machine in
/-- Settles O37: the strand by what a result leaves of it, the rest of the device by the frame of retirement. -/
theorem giveFrame : Obligations.GiveFrame := by
  intro d t rd v
  rw [Dev.give_str_same]
  refine ⟨?result, fun q hq => ?others, rfl, rfl, rfl, rfl, rfl, rfl, fun u hu => ?strands, d.give_pool t rd v, d.give_coh t rd v,
    d.give_csr t rd v, d.give_wq t rd v, d.give_qm t rd v, d.give_link t rd v, d.give_fpc t rd v, d.give_out t rd v, ?counters⟩
  case result =>
    have := d.give_g t rd rd v
    rwa [Dev.give_str_same, if_pos rfl] at this
  case others =>
    have := d.give_g t rd q v
    rwa [Dev.give_str_same, if_neg hq] at this
  case strands => rw [Dev.give_str, if_neg hu]
  case counters => exact Dev.retire_unit _ _ _
end

section
/-! A queue's register listed twice in the control space's table, which is then not in its canonical form: what a write of it does to
the count of enabled queues (R279). -/

namespace Sys2Proof.Machine

/-- A write that enables a queue while, its fields taken, fewer than 16,384 are enabled. -/
theorem Dev.sqaWrite_enables {d : Dev} {n q : Nat} {v : Word} (off : d.fb (SLICE.SQA.EN n q) = false) (on : getBits v 0 1 = 1)
    (room : (d.setReg (SLICE.SQA.EN n q) (ringFields (d.reg (SLICE.SQA.EN n q)) v 10 53)).queuesOn 0x100 < 16384) :
    (d.sqaWrite n q v).fb (SLICE.SQA.EN n q) = true := by
  have apart : (SLICE.SQA.EN n q).addr ≠ (SLICE.SQB.HEAD n q).addr := by
    show 0x1000100 + n * 0x1000 + q * 16 ≠ 0x1000108 + n * 0x1000 + q * 16
    omega
  have standing : ∀ (e : Dev) (r : FRef) (x : Nat), r.addr = (SLICE.SQB.HEAD n q).addr →
      (e.setF r x).f (SLICE.SQA.EN n q) = e.f (SLICE.SQA.EN n q) := fun e r x h => e.f_setF_reg r _ x (h ▸ apart)
  rw [Dev.sqaWrite, off, on, if_neg Bool.false_ne_true, beq_self_eq_true, if_neg (by decide), if_neg (Nat.not_le.2 room), Dev.fb,
    standing _ (SLICE.SQB.TAIL n q) _ rfl, standing _ (SLICE.SQB.HEAD n q) _ rfl, standing _ (SLICE.SQB.STATE n q) _ rfl,
    standing _ (SLICE.SQB.POOL n q) _ rfl, Dev.f_setF_same _ (SLICE.SQA.EN n q) _ (show 0 + 1 ≤ 64 by decide)]
  rfl

/-- Queue 0 of slice 0 listed disabled, and 16,384 times more under the same address as enabled. -/
def listedTwice : Tbl Word := (0x1000100, 0) :: List.replicate 16384 (0x1000100, 1)

theorem Tbl.erase_replicate {α : Type} (k n : Nat) (v : α) : Tbl.erase (List.replicate n (k, v)) k = [] := by
  induction n with
  | zero => rfl
  | succ n ih => rw [List.replicate_succ, Tbl.erase, if_pos rfl, ih]

theorem Tbl.get_replicate_other {α : Type} {k j : Nat} (h : k ≠ j) (n : Nat) (d v : α) :
    Tbl.get d (List.replicate n (k, v)) j = d := by
  induction n with
  | zero => rfl
  | succ n ih => rw [List.replicate_succ, Tbl.get, if_neg h, ih]

/-- A register written to its cold value is listed no longer. -/
theorem Dev.csr_setReg_cold (d : Dev) (r : FRef) : (d.setReg r (w64 r.cold)).csr = Tbl.erase d.csr r.addr := if_pos rfl

/-- The device whose control space is that table. -/
def State.listedTwice : State :=
  { State.reset with dev := { State.reset.dev with csr := Machine.listedTwice, pwr := { State.reset.dev.pwr with fdReset := false } } }

theorem State.listedTwice_safe : State.listedTwice.dev.safe = false := by
  have cold : State.listedTwice.dev.word SYS.SAFE.ACTIVE.addr SYS.SAFE.ACTIVE.cold = w64 SYS.SAFE.ACTIVE.cold := by
    show Tbl.get (w64 SYS.SAFE.ACTIVE.cold) Machine.listedTwice SYS.SAFE.ACTIVE.addr = _
    rw [Machine.listedTwice, Tbl.get, if_neg (by decide), Tbl.get_replicate_other (by decide)]
  rw [Dev.safe, Dev.fb, Dev.f, Dev.reg, cold]
  rfl

/-- All of the entries that list the queue as enabled count. -/
theorem State.listedTwice_full : State.listedTwice.dev.queuesOn 0x100 = 16384 := by
  show (List.filter _ Machine.listedTwice).length = 16384
  rw [Machine.listedTwice, List.filter_cons_of_neg (by decide), List.filter_replicate, if_pos (by decide), List.length_replicate]

/-- A write of the register's cold value drops every entry at its address, and so all that were counted. -/
theorem State.listedTwice_emptied : (State.listedTwice.dev.setReg (SLICE.SQA.EN 0 0)
    (ringFields (State.listedTwice.dev.reg (SLICE.SQA.EN 0 0)) 9 10 53)).queuesOn 0x100 = 0 := by
  have fields : ringFields (State.listedTwice.dev.reg (SLICE.SQA.EN 0 0)) 9 10 53 = w64 (SLICE.SQA.EN 0 0).cold := by decide
  have erased : Tbl.erase Machine.listedTwice 0x1000100 = [] := by
    rw [Machine.listedTwice, Tbl.erase, if_pos rfl, Tbl.erase_replicate]
  have emptied : (State.listedTwice.dev.setReg (SLICE.SQA.EN 0 0) (w64 (SLICE.SQA.EN 0 0).cold)).csr = [] :=
    (Dev.csr_setReg_cold _ _).trans erased
  rw [Dev.queuesOn, fields, emptied, List.filter_nil, List.length_nil]

end Sys2Proof.Machine

open Sys2Proof.Machine in
/-- Refutes O53, in its last clause: that 16,384 enabled queues keep another from being enabled is asked of every state, those whose
control-space table lists a register twice included. There the entries behind the first are counted as enabled queues, and the write of
the fields drops them before the count is compared, so that the queue is enabled. -/
theorem not_dispatcherTakesWork : ¬ Obligations.DispatcherTakesWork := by
  intro h
  obtain ⟨-, -, -, -, registers⟩ := h
  have safe := State.listedTwice_safe
  have off : State.listedTwice.dev.fb (SLICE.SQA.EN 0 0) = false := by decide
  obtain ⟨-, -, -, pool⟩ := registers State.listedTwice 0 0 9 rfl safe
  obtain ⟨u, ends, disabled, -⟩ := pool off rfl State.listedTwice_full.ge
  have writes : exec (.sqaWrite 0 0 9) State.listedTwice = .next (State.listedTwice.after (State.listedTwice.dev.sqaWrite 0 0 9)) := by
    rw [exec_sqaWrite]
    exact State.act_of_eq (Dev.when_of_true (Dev.cspOn_of rfl safe))
  have enabled := Dev.sqaWrite_enables (v := 9) off rfl (State.listedTwice_emptied.trans_lt (by decide))
  rw [writes, Host.Outcome.next.injEq] at ends
  rw [← ends, State.after_fb] at disabled
  exact Bool.false_ne_true (disabled.symm.trans enabled)
end

section
/-! A message sent leaves the sori and every register (R72, R80). -/

namespace Sys2Proof.Machine

theorem Dev.msgOut_frame (d : Dev) (p vc : Nat) (bs : List Byte) :
    (d.msgOut p vc bs).sor = d.sor ∧ (d.msgOut p vc bs).csr = d.csr := by
  unfold Dev.msgOut Dev.ctrlOut
  dsimp only
  split_ifs <;> exact ⟨rfl, rfl⟩

theorem Dev.linkSend_frame (d : Dev) (p vc : Nat) (bs : List Byte) :
    (d.linkSend p vc bs).sor = d.sor ∧ (d.linkSend p vc bs).csr = d.csr := by
  unfold Dev.linkSend Dev.linkFlush
  rw [← Prod.mk.injEq]
  refine (foldl_frame (fun x : List (Nat × List Byte) × Dev => (x.2.sor, x.2.csr)) _ ?_ _ _).trans rfl
  rintro ⟨keep, e⟩ x
  dsimp only
  split
  · rfl
  · exact Prod.ext_iff.2 (e.msgOut_frame _ _ _)

theorem Dev.sendPeer_frame (d : Dev) (m : Msg) : (d.sendPeer m).sor = d.sor ∧ (d.sendPeer m).csr = d.csr := by
  unfold Dev.sendPeer
  dsimp only
  cases agDev m.src == d.devId && msgAnswered m
  all_goals
    simp only [Bool.false_eq_true, if_false, if_true]
    split
    · exact ⟨rfl, rfl⟩
    · split
      · exact Dev.linkSend_frame _ _ _ _
      · exact ⟨rfl, rfl⟩

theorem Dev.send_frame (d : Dev) (m : Msg) : (d.send m).sor = d.sor ∧ (d.send m).csr = d.csr := by
  unfold Dev.send
  split
  · exact ⟨rfl, rfl⟩
  · exact Dev.sendPeer_frame _ _

theorem Dev.ownSend_frame (d : Dev) (o : Own) (m : Msg) : (d.ownSend o m).sor = d.sor ∧ (d.ownSend o m).csr = d.csr := by
  unfold Dev.ownSend Dev.ownPost
  split
  · exact ⟨rfl, rfl⟩
  · exact Dev.send_frame _ _

end Sys2Proof.Machine
end

section
/-! Loads and unloads of spores (R171–R173, R348). -/

namespace Sys2Proof.Machine

variable {d : Dev} {fz : Fuse} {s n : Nat}

/-! ## Fields of a register and of a word -/

theorem bitsN_eq (x lo w : Nat) : bitsN x lo w = x / 2 ^ lo % 2 ^ w := by rw [bitsN, Nat.shiftRight_eq_div_pow]

theorem getBits_w64 (x : Nat) {lo w : Nat} (h : lo + w ≤ 64) : getBits (w64 x) lo w = bitsN x lo w := by
  apply Nat.eq_of_testBit_eq
  intro i
  rw [testBit_getBits, w64, BitVec.getLsbD_ofNat, bitsN, Nat.testBit_mod_two_pow, Nat.testBit_shiftRight]
  by_cases hi : i < w
  · rw [decide_eq_true (show lo + i < 64 by omega), Bool.true_and]
  · rw [decide_eq_false hi, Bool.false_and, Bool.false_and]

/-- A part of a field replaced reads as that part of what was put there. -/
theorem getBits_putBits_within {n : Nat} (x : BitVec n) {lo w a b : Nat} (v : Nat) (h : lo + w ≤ n) (hab : a + b ≤ w) :
    getBits (putBits x lo w v) (lo + a) b = bitsN v a b := by
  apply Nat.eq_of_testBit_eq
  intro i
  rw [testBit_getBits, getLsbD_putBits _ _ _ _ _ h, bitsN, Nat.testBit_mod_two_pow, Nat.testBit_shiftRight]
  by_cases hi : i < b
  · rw [if_pos (by omega), show lo + a + i - lo = a + i by omega]
  · rw [decide_eq_false hi, Bool.false_and, Bool.false_and]

theorem b2n_eq_one (b : Bool) : (b2n b == 1) = b := by cases b <;> rfl

/-- A raise sets the pending bit of its source (R378). -/
theorem Dev.fb_pend_raise (up : d.fdUp = true) (k det : Nat) : (d.raise k det).fb (EVT.ROUTE.PEND k) = true := by
  have head : (EVT.ROUTE.PEND k).addr ≠ (EVT.RECA.HEAD k).addr := by
    show 0xB90000 + k * 8 ≠ 0xB94000 + k * 16
    omega
  rw [Dev.raise, up, if_neg (by decide)]
  split
  case isTrue h =>
    rw [Dev.fb, Dev.f_setReg_other _ _ _ _ head]
    exact h
  case isFalse => exact Dev.fb_setF_same _ _ _ (show 3 + 1 ≤ 64 by decide)

/-- A raise writes registers of the event block alone. -/
theorem Dev.reg_raise_low (d : Dev) (k det : Nat) {r : FRef} (low : r.addr < 0xB90000) : (d.raise k det).reg r = d.reg r := by
  have whole : ∀ e : Dev, (e.reg r).toNat = e.f { r with lo := 0, w := 64 } := fun e =>
    (Nat.mod_eq_of_lt (e.reg r).isLt).symm.trans (congrArg (· % 2 ^ 64) (Nat.shiftRight_zero).symm)
  exact BitVec.eq_of_toNat_eq ((whole _).trans ((d.f_raise_low k det (r := { r with lo := 0, w := 64 }) low).trans (whole d).symm))

/-! ## The end of a load (R171, step 7) -/

/-- The end of a load but for the SPTAB entry of one that succeeded: the load is dropped, LCTL tells its status, and LOAD is raised. -/
def Dev.loadClosed (d : Dev) (s st i : Nat) : Dev :=
  (((d.setLoad s LoadOp.none).setF (SORUS.LCTL.STATUS s) st).setF (SORUS.LCTL.BUSY s) 0).raise (384 + 6 * s + 4) (i + st * 2 ^ 10)

/-- The first word of the SPTAB entry of the image being loaded. -/
def Dev.sptabWord (d : Dev) (s : Nat) : Nat :=
  let x := d.loadOp s
  1 + b2n (imgPriv x.hdr) * 2 + d.f (SORUS.LCTL.LOC s) * 4 + imgMaxstr x.hdr * 8 + d.f (SORUS.LCTL.SLO s) * 2 ^ 15 +
    d.f (SORUS.LCTL.SHI s) * 2 ^ 27 + imgClen x.hdr * 2 ^ 39

/-- Its two low bits: valid, and the privilege of the image. -/
theorem Dev.sptabWord_low (d : Dev) (s : Nat) : d.sptabWord s % 4 = 1 + b2n (imgPriv (d.loadOp s).hdr) * 2 := by
  have := b2n_lt (imgPriv (d.loadOp s).hdr)
  simp only [Dev.sptabWord]
  omega

/-- An entry of SPTAB written, with the entry points and the digest of its spore. -/
def Dev.sptabPut (d : Dev) (s i : Nat) (a b : Word) (y : Spore) : Dev :=
  let d := (d.setReg (SORUS.SPTABA.V s i) a).setReg (SORUS.SPTABB.BASE s i) b
  { d with sor := { d.sor with spore := Tbl.put (⟨[], []⟩ : Spore) d.sor.spore (s * 1024 + i) y } }

theorem Dev.reg_sptabPut (d : Dev) {s i : Nat} (a b : Word) (y : Spore) : (d.sptabPut s i a b y).reg (SORUS.SPTABA.V s i) = a := by
  have apart : (SORUS.SPTABA.V s i).addr ≠ (SORUS.SPTABB.BASE s i).addr := by
    show 0x901000 + s * 0x10000 + i * 16 ≠ 0x901008 + s * 0x10000 + i * 16
    omega
  exact (Dev.reg_setReg_other _ _ _ _ apart).trans (Dev.reg_setReg_same _ _ _)

theorem Dev.fdUp_sptabPut (d : Dev) (s i : Nat) (a b : Word) (y : Spore) : (d.sptabPut s i a b y).fdUp = d.fdUp := rfl

theorem Dev.spore_sptabPut (d : Dev) (s i : Nat) (a b : Word) (y : Spore) :
    (d.sptabPut s i a b y).sor.spore = Tbl.put (⟨[], []⟩ : Spore) d.sor.spore (s * 1024 + i) y := rfl

/-- The entry that a LOAD which succeeds makes in SPTAB. -/
def Dev.loadEntered (d : Dev) (s : Nat) : Dev :=
  d.sptabPut s (d.f (SORUS.LCTL.INDEX s)) (w64 (d.sptabWord s)) (w64 (d.loadBase s))
    ⟨imgEntries (d.loadOp s).hdr, imgDigest (d.loadOp s).hdr⟩

theorem Dev.loadEnd_closed {st : Nat} (h : st ≠ 0 ∨ d.f (SORUS.LCTL.OP s) ≠ 1) :
    d.loadEnd s st = d.loadClosed s st (d.f (SORUS.LCTL.INDEX s)) := by
  rw [Dev.loadEnd, if_pos (by simpa using h)]
  rfl

theorem Dev.loadEnd_entered (h : d.f (SORUS.LCTL.OP s) = 1) :
    d.loadEnd s 0 = (d.loadEntered s).loadClosed s 0 (d.f (SORUS.LCTL.INDEX s)) := by
  rw [Dev.loadEnd, if_neg (by rw [h]; decide)]
  rfl

/-- LCTL and the LOAD event once a load has ended. -/
theorem Dev.loadClosed_ended (up : d.fdUp = true) (hs : s < 32) {st : Nat} (hst : st < 32) (i : Nat) :
    (d.loadClosed s st i).f (SORUS.LCTL.STATUS s) = st ∧ (d.loadClosed s st i).fb (SORUS.LCTL.BUSY s) = false ∧
      (d.loadClosed s st i).fb (EVT.ROUTE.PEND (384 + 6 * s + 4)) = true := by
  have low : 0x900038 + s * 0x10000 < 0xB90000 := by omega
  refine ⟨?_, ?_, ?_⟩
  · show _ = st
    rw [Dev.loadClosed, Dev.f_raise_low _ _ _ low, Dev.f_setF_setF _ (SORUS.LCTL.STATUS s) (SORUS.LCTL.BUSY s) _ _
      (show 63 + 1 ≤ 64 by decide) (show 51 + 5 ≤ 64 by decide) rfl rfl (.inl (show 51 + 5 ≤ 63 by decide))]
    exact Nat.mod_eq_of_lt (show st < 2 ^ 5 from hst)
  · rw [Dev.loadClosed, Dev.fb, Dev.f_raise_low _ _ _ low, Dev.f_setF_same _ _ _ (show 63 + 1 ≤ 64 by decide)]
    rfl
  · exact Dev.fb_pend_raise (by rw [Dev.fdUp, Dev.setF_pwr, Dev.setF_pwr]; exact up) _ _

/-- Registers apart from LCTL and the events stand. -/
theorem Dev.reg_loadClosed (d : Dev) {st i : Nat} {r : FRef} (low : r.addr < 0xB90000) (apart : r.addr ≠ 0x900038 + s * 0x10000) :
    (d.loadClosed s st i).reg r = d.reg r := by
  rw [Dev.loadClosed, Dev.reg_raise_low _ _ _ low]
  exact (Dev.reg_setReg_other _ (SORUS.LCTL.BUSY s) r _ apart).trans (Dev.reg_setReg_other _ (SORUS.LCTL.STATUS s) r _ apart)

theorem Dev.sor_loadClosed (d : Dev) (s st i : Nat) : (d.loadClosed s st i).sor = (d.setLoad s LoadOp.none).sor :=
  (Dev.Outer.raise _ _ _).sor

/-- A spore's entry lies in its own part of the sorus block. -/
theorem sptab_apart {i : Nat} (hs : s < 32) (hi : i < 1024) : (SORUS.SPTABA.V s i).addr < 0xB90000 ∧
    (SORUS.SPTABA.V s i).addr ≠ 0x900038 + s * 0x10000 := by
  show 0x901000 + s * 0x10000 + i * 16 < 0xB90000 ∧ 0x901000 + s * 0x10000 + i * 16 ≠ 0x900038 + s * 0x10000
  omega

/-- The entry that a LOAD made: valid, with the privilege and the entry points of its image. -/
theorem Dev.loadEntered_state (hs : s < 32) (st : Nat) :
    let i := d.f (SORUS.LCTL.INDEX s)
    let e := (d.loadEntered s).loadClosed s st i
    e.fb (SORUS.SPTABA.V s i) = true ∧ e.fb (SORUS.SPTABA.PRIV s i) = imgPriv (d.loadOp s).hdr ∧
      (Tbl.get (⟨[], []⟩ : Spore) e.sor.spore (s * 1024 + i)).entry = imgEntries (d.loadOp s).hdr := by
  intro i e
  obtain ⟨low, lctl⟩ := sptab_apart hs (show i < 1024 from getBits_lt _ _ _)
  have word : e.reg (SORUS.SPTABA.V s i) = w64 (d.sptabWord s) := by
    rw [Dev.reg_loadClosed _ low lctl, Dev.loadEntered, Dev.reg_sptabPut]
  have bits := d.sptabWord_low s
  have bit := b2n_lt (imgPriv (d.loadOp s).hdr)
  refine ⟨?_, ?_, ?_⟩
  · show (getBits (e.reg (SORUS.SPTABA.V s i)) 0 1 == 1) = true
    rw [word, getBits_w64 _ (by decide), bitsN_eq, beq_iff_eq]
    omega
  · show (getBits (e.reg (SORUS.SPTABA.V s i)) 1 1 == 1) = _
    rw [word, getBits_w64 _ (by decide), bitsN_eq]
    exact (congrArg (· == 1) (by omega)).trans (b2n_eq_one (imgPriv (d.loadOp s).hdr))
  · rw [Dev.sor_loadClosed, Dev.setLoad, Dev.loadEntered, Dev.spore_sptabPut, Tbl.get_put_same]

/-! ## A write of LCTL (R171–R173) -/

/-- LCTL with OP and the fields that a LOAD or an UNLOAD carries. -/
def Dev.lctlTaken (d : Dev) (s op x : Nat) : Dev :=
  d.setReg (SORUS.LCTL.OP s) (putBits (putBits (d.reg (SORUS.LCTL.OP s)) 2 49 x) 0 2 op)

theorem Dev.lctlTaken_op (op x : Nat) : (d.lctlTaken s op x).f (SORUS.LCTL.OP s) = op % 2 ^ 2 := by
  show getBits ((d.lctlTaken s op x).reg (SORUS.LCTL.OP s)) 0 2 = _
  rw [Dev.lctlTaken, Dev.reg_setReg_same, getBits_putBits_same _ _ _ _ (by decide)]

/-- The field `w` bits wide from bit `2 + a` of LCTL on. -/
theorem Dev.lctlTaken_field (op x : Nat) {a w : Nat} (h : a + w ≤ 49) :
    getBits ((d.lctlTaken s op x).reg (SORUS.LCTL.OP s)) (2 + a) w = bitsN x a w := by
  rw [Dev.lctlTaken, Dev.reg_setReg_same, getBits_putBits_other _ _ _ _ _ _ (by decide) (.inr (by omega)),
    getBits_putBits_within _ _ (by decide) h]

theorem Dev.lctlTaken_index (op x : Nat) : (d.lctlTaken s op x).f (SORUS.LCTL.INDEX s) = x % 2 ^ 10 :=
  (Dev.lctlTaken_field (a := 0) (w := 10) op x (by decide)).trans (by rw [bitsN_eq, Nat.pow_zero, Nat.div_one])

theorem Dev.lctlWrite_busy (busy : d.fb (SORUS.LCTL.BUSY s) = true) (v : Word) : Dev.lctlWrite fz d s v = d := if_pos busy

/-- The fields of the word that a command writes to LCTL. -/
theorem lctlWord_fields {op x : Nat} (hop : op < 4) (hx : x < 2 ^ 49) : getBits (w64 (op + x * 4 + 2 ^ 62)) 0 2 = op ∧
    getBits (w64 (op + x * 4 + 2 ^ 62)) 2 49 = x ∧ getBits (w64 (op + x * 4 + 2 ^ 62)) 62 1 = 1 := by
  rw [getBits_w64 _ (by decide), getBits_w64 _ (by decide), getBits_w64 _ (by decide), bitsN_eq, bitsN_eq, bitsN_eq]
  omega

theorem Dev.lctlWrite_load (idle : d.fb (SORUS.LCTL.BUSY s) = false) {x : Nat} (hx : x < 2 ^ 49) :
    Dev.lctlWrite fz d s (w64 (1 + x * 4 + 2 ^ 62)) =
      Dev.loadOn fz (((d.lctlTaken s 1 x).setF (SORUS.LCTL.BUSY s) 1).setLoad s { LoadOp.none with wait := 3 }) s := by
  obtain ⟨op, fields, go⟩ := lctlWord_fields (op := 1) (by decide) hx
  simp only [Dev.lctlWrite, idle, op, fields, go]
  rfl

theorem Dev.lctlWrite_unload (idle : d.fb (SORUS.LCTL.BUSY s) = false) {x : Nat} (hx : x < 2 ^ 49) :
    Dev.lctlWrite fz d s (w64 (2 + x * 4 + 2 ^ 62)) = (d.lctlTaken s 2 x).unload s := by
  obtain ⟨op, fields, go⟩ := lctlWord_fields (op := 2) (by decide) hx
  simp only [Dev.lctlWrite, idle, op, fields, go]
  rfl

/-! ## Going on with a load -/

@[simp] theorem Dev.f_setLoad (d : Dev) (s : Nat) (x : LoadOp) (r : FRef) : (d.setLoad s x).f r = d.f r := rfl

theorem Dev.loadOp_setLoad (d : Dev) (s : Nat) (x : LoadOp) : (d.setLoad s x).loadOp s = x := Tbl.get_put_same _ _ _ _

theorem Dev.loadOn_reading (h : (d.loadOp s).wait = 3) : Dev.loadOn fz d s = d.attempt fun d => Dev.loadGo fz d s := by
  simp only [Dev.loadOn, h, beq_self_eq_true, if_true]

theorem Dev.loadOn_done (h : (d.loadOp s).wait = 0) : Dev.loadOn fz d s = d := by
  rw [Dev.loadOn, h]
  rfl

theorem Dev.loadComplete_ends (busy : d.fb (SORUS.LCTL.BUSY s) = true) (h : (d.loadOp s).wait = 0) :
    Dev.loadComplete fz d s = d.loadEnd s (d.loadOp s).status := by
  rw [Dev.loadComplete, Dev.when_of_true busy, Dev.loadOn_done h]
  exact if_pos (beq_iff_eq.2 h)

/-- A load that must still wait for a line asks for it. -/
theorem Dev.loadComplete_waits (busy : d.fb (SORUS.LCTL.BUSY s) = true) (h : (d.loadOp s).wait = 3) {o : Own} {m : Msg}
    (waits : (Dev.loadGo fz d.noNeed s).coh.need = some (o, m)) : Dev.loadComplete fz d s = d.ownSend o m := by
  have kept : (d.ownSend o m).loadOp s = d.loadOp s := by rw [Dev.loadOp, (d.ownSend_frame o m).1]; rfl
  rw [Dev.loadComplete, Dev.when_of_true busy, Dev.loadOn_reading h, Dev.attempt_wait waits]
  dsimp only
  rw [kept, h]
  rfl

/-! ## UNLOAD (R172) -/

section Unload

variable (up : d.fdUp = true) (hs : s < 32) (op : d.f (SORUS.LCTL.OP s) ≠ 1)
include up hs op

/-- UNLOAD of a spore that is not loaded, and of one that runs. -/
theorem Dev.unload_refused {st : Nat} (h : st < 32) (e : d.unload s = d.loadEnd s st) :
    (d.unload s).f (SORUS.LCTL.STATUS s) = st ∧ (d.unload s).fb (SORUS.LCTL.BUSY s) = false ∧
      (d.unload s).fb (EVT.ROUTE.PEND (384 + 6 * s + 4)) = true ∧
      ∀ r : FRef, r.addr < 0xB90000 → r.addr ≠ 0x900038 + s * 0x10000 → (d.unload s).reg r = d.reg r := by
  rw [e, Dev.loadEnd_closed (.inr op)]
  obtain ⟨status, idle, raised⟩ := Dev.loadClosed_ended up hs h (d.f (SORUS.LCTL.INDEX s))
  exact ⟨status, idle, raised, fun r low apart => Dev.reg_loadClosed _ low apart⟩

/-- UNLOAD of a loaded spore that no strand runs. -/
theorem Dev.unload_done (valid : d.fb (SORUS.SPTABA.V s (d.f (SORUS.LCTL.INDEX s))) = true)
    (unused : d.sporeRun s (d.f (SORUS.LCTL.INDEX s)) = 0) :
    let i := d.f (SORUS.LCTL.INDEX s)
    let u := d.unload s
    (u.f (SORUS.LCTL.STATUS s) = 0 ∧ u.fb (SORUS.LCTL.BUSY s) = false ∧ u.fb (EVT.ROUTE.PEND (384 + 6 * s + 4)) = true) ∧
      u.reg (SORUS.SPTABA.V s i) = putBits (d.reg (SORUS.SPTABA.V s i)) 0 1 0 ∧
      u.sor.l1i = Tbl.drop (fun k => k / 2 ^ 47 / 9 == s) d.sor.l1i := by
  intro i u
  obtain ⟨low, lctl⟩ := sptab_apart hs (show i < 1024 from getBits_lt _ _ _)
  let e : Dev := (d.setF (SORUS.SPTABA.V s i) 0).dropL1i s
  let e : Dev := { e with sor := { e.sor with spore := Tbl.put (⟨[], []⟩ : Spore) e.sor.spore (s * 1024 + i) ⟨[], []⟩ } }
  have stands : ∀ r : FRef, r.addr = 0x900038 + s * 0x10000 → e.f r = d.f r := fun r hr =>
    Dev.f_setF_reg d (SORUS.SPTABA.V s i) r 0 (hr ▸ lctl.symm)
  have goes : u = e.loadClosed s 0 (e.f (SORUS.LCTL.INDEX s)) := by
    refine Eq.trans ?_ (Dev.loadEnd_closed (.inr ((stands (SORUS.LCTL.OP s) rfl).trans_ne op)))
    show d.unload s = _
    rw [Dev.unload, valid, unused]
    rfl
  rw [goes]
  refine ⟨Dev.loadClosed_ended (d := e) up hs (by decide) _, ?_, ?_⟩
  · rw [Dev.reg_loadClosed _ low lctl]
    exact Dev.reg_setReg_same d (SORUS.SPTABA.V s i) _
  · rw [Dev.sor_loadClosed]
    rfl

end Unload

/-! ## The steps of a load (R171, R348) -/

/-- The test of an image's slice range, as a proposition. -/
theorem rangeTest_eq (priv : Bool) (a b lo hi : Nat) : (!priv && !(decide (a ≤ lo) && decide (lo ≤ hi) && decide (hi ≤ b))) =
    !decide (priv = true ∨ a ≤ lo ∧ lo ≤ hi ∧ hi ≤ b) := by
  rw [Bool.decide_or, Bool.decide_and, Bool.decide_and, Bool.decide_eq_true, Bool.not_or, Bool.and_assoc]

/-- A load goes on with what the read of its code gave: the digest, then what the policy asks for. -/
def Dev.loadCode (fz : Fuse) (n : Nat) (h : List Byte) (loc : Bool) : Option (List Byte) × Dev → Dev
  | (none, e) => e.setLoad n { LoadOp.none with status := 9 }
  | (some bs, e) =>
    let code := bs.take (imgClen h)
    let x : LoadOp := ⟨h, if loc then [] else code, 0, 0⟩
    if imgHash h code != imgDigest h then e.setLoad n { LoadOp.none with status := 4 }
    else if !policyAsks fz (imgPriv h) then Dev.loadPlace fz e n x
    else if imgPriv h then e.loadMeasure n { x with wait := 5 }
    else e.loadCheck n x

section Steps

variable {e u : Dev} {h bs : List Byte} (free : d.fb (SORUS.SPTABA.V n (d.f (SORUS.LCTL.INDEX n))) = false)

include free in
theorem Dev.loadGo_unread (read : Dev.loadRead n 4 (d.f (SORUS.LSRC.FPA n)) d = (none, e)) :
    Dev.loadGo fz d n = e.setLoad n { LoadOp.none with status := 9 } := by
  simp only [Dev.loadGo, free, read, Bool.false_eq_true, if_false]

variable (read : Dev.loadRead n 4 (d.f (SORUS.LSRC.FPA n)) d = (some h, e))
include free read

theorem Dev.loadGo_header (bad : sporeHdrOk h (d.fb (SORUS.LCTL.LOC n)) = false) :
    Dev.loadGo fz d n = e.setLoad n { LoadOp.none with status := 2 } := by
  simp only [Dev.loadGo, free, read, bad, Bool.false_eq_true, if_false, Bool.not_false, if_true]

variable (good : sporeHdrOk h (d.fb (SORUS.LCTL.LOC n)) = true)
include good

theorem Dev.loadGo_range (bad : ¬(imgPriv h = true ∨
      imgF h 48 2 ≤ e.f (SORUS.LCTL.SLO n) ∧ e.f (SORUS.LCTL.SLO n) ≤ e.f (SORUS.LCTL.SHI n) ∧ e.f (SORUS.LCTL.SHI n) ≤ imgF h 50 2)) :
    Dev.loadGo fz d n = e.setLoad n { LoadOp.none with status := 3 } := by
  simp only [Dev.loadGo, free, read, good, rangeTest_eq, decide_eq_false bad, Bool.false_eq_true, if_false, Bool.not_true, Bool.not_false,
    if_true]

variable (ranged : imgPriv h = true ∨
  imgF h 48 2 ≤ e.f (SORUS.LCTL.SLO n) ∧ e.f (SORUS.LCTL.SLO n) ≤ e.f (SORUS.LCTL.SHI n) ∧ e.f (SORUS.LCTL.SHI n) ≤ imgF h 50 2)
include ranged

/-- An image whose header passes goes on with what the read of its code gives. -/
theorem Dev.loadGo_code : Dev.loadGo fz d n = Dev.loadCode fz n h (d.fb (SORUS.LCTL.LOC n))
    (Dev.loadRead n ((imgClen h + 63) / 64) (d.f (SORUS.LSRC.FPA n) + 4) e) := by
  simp only [Dev.loadGo, free, read, good, rangeTest_eq, decide_eq_true ranged, Bool.false_eq_true, if_false, Bool.not_true]
  rfl

end Steps

/-! ## The placing of an image and the answers that a load waits for (R171, R348) -/

/-- Code that may be placed is placed; an F image is then measured where no signature is asked for, an S image logged. -/
theorem Dev.loadPlace_placed {x : LoadOp} (room : (if d.fb (SORUS.LCTL.LOC n) then d.allFab (d.loadBase n) (imgClen x.hdr)
      else d.storeFree n (d.loadBase n) (imgClen x.hdr)) = true) :
    Dev.loadPlace fz d n x =
      let put := if d.fb (SORUS.LCTL.LOC n) then d else d.putStore n (d.loadBase n) x.code
      if imgPriv x.hdr then
        (if policyAsks fz true then put.setLoad n { x with wait := 0, code := [] } else put.loadMeasure n { x with wait := 1, code := [] })
      else (put.loadLog n x.hdr).setLoad n { x with wait := 0, code := [] } := by
  cases hl : d.fb (SORUS.LCTL.LOC n) <;> rw [hl] at room
  case false =>
    rw [if_neg Bool.false_ne_true] at room
    simp only [Dev.loadPlace, hl, room, Bool.false_and, Bool.not_false, Bool.not_true, Bool.and_false, Bool.false_eq_true, if_false]
  case true =>
    rw [if_pos rfl] at room
    simp only [Dev.loadPlace, hl, room, Bool.true_and, Bool.not_true, Bool.false_and, Bool.false_eq_true, if_false, if_true]

section Answers

variable {dig : List Byte} (same : imgDigest (d.loadOp n).hdr = dig)
include same

theorem Dev.loadMeasured_placed (h : (d.loadOp n).wait = 1) (r : Nat) : d.loadMeasured n dig r =
    d.setLoad n { d.loadOp n with wait := 0, status := if r = 0 then 0 else 8 } := by
  by_cases hr : r = 0 <;> simp [Dev.loadMeasured, same, h, hr]

theorem Dev.loadMeasured_first (h : (d.loadOp n).wait = 5) (r : Nat) : d.loadMeasured n dig r =
    if r = 0 then d.loadCheck n (d.loadOp n) else d.setLoad n { d.loadOp n with wait := 0, status := 8 } := by
  by_cases hr : r = 0 <;> simp [Dev.loadMeasured, same, h, hr]

theorem Dev.loadChecked_failed (h : (d.loadOp n).wait = 2) {r : Nat} (h0 : r ≠ 0) (h2 : r ≠ 2) :
    Dev.loadChecked fz d n dig r = d.setLoad n { d.loadOp n with wait := 0, status := 5 } := by
  simp [Dev.loadChecked, same, h, h0, h2]

theorem Dev.loadChecked_passed (h : (d.loadOp n).wait = 2) {r : Nat} (hr : r = 0 ∨ r = 2) : Dev.loadChecked fz d n dig r =
    (d.setLoad n { d.loadOp n with wait := 4 }).attempt fun e => Dev.loadPlace fz e n { d.loadOp n with wait := 0 } := by
  simp [Dev.loadChecked, same, h, hr]

end Answers

end Sys2Proof.Machine
end

section
/-! Channels and the channel instructions (R174–R178, R213–R215). -/

namespace Sys2Proof.Machine

variable {d : Dev} {n c : Nat}

/-! ## A write of CHCFG (R178) -/

/-- A channel's report that it cannot start, forgotten. -/
def Dev.chForget (d : Dev) (n c : Nat) : Dev :=
  { d with sor := { d.sor with chanErr := Tbl.put 0 d.sor.chanErr (n * 256 + c) 0 } }

/-- The fields of CHCFG taken, and the channel's report that it cannot start forgotten. -/
def Dev.chTaken (d : Dev) (n c : Nat) (v : Word) : Dev := (d.chFields n c v).chForget n c

/-- The buffer of a channel lies free in the sorus's store. -/
def Dev.chFits (d : Dev) (n c : Nat) : Bool := d.storeFree n (d.chBuf n c).1 (d.chBuf n c).2

theorem Dev.f_forget (d : Dev) (n c : Nat) (r : FRef) : (d.chForget n c).f r = d.f r := rfl

theorem Dev.chFits_forget (d : Dev) (n c m k : Nat) : (d.chForget n c).chFits m k = d.chFits m k := rfl

/-- A write of the fields leaves EN. -/
theorem Dev.chFields_en (d : Dev) (n c : Nat) (v : Word) : (d.chFields n c v).fb (SORUS.CHCFG.EN n c) = d.fb (SORUS.CHCFG.EN n c) := by
  have old : getBits (d.reg (SORUS.CHCFG.EN n c)) 0 1 % 2 ^ 1 = getBits (d.reg (SORUS.CHCFG.EN n c)) 0 1 := Nat.mod_eq_of_lt (getBits_lt _ _ _)
  have kept : getBits (putBits (putBits v 0 1 (getBits (d.reg (SORUS.CHCFG.EN n c)) 0 1)) 47 17 0) 0 1 =
      getBits (d.reg (SORUS.CHCFG.EN n c)) 0 1 := by
    rw [getBits_putBits_other _ _ _ _ _ _ (by decide) (.inl (by decide)), getBits_putBits_same _ _ _ _ (by decide), old]
  show (getBits ((d.chFields n c v).reg (SORUS.CHCFG.EN n c)) 0 1 == 1) = (getBits (d.reg (SORUS.CHCFG.EN n c)) 0 1 == 1)
  rw [Dev.chFields, Dev.reg_setReg_same]
  split
  · rw [kept]
  · rw [getBits_putBits_other _ _ _ _ _ _ (by decide) (.inl (by decide)), kept]

theorem Dev.chTaken_en (d : Dev) (n c : Nat) (v : Word) : (d.chTaken n c v).fb (SORUS.CHCFG.EN n c) = d.fb (SORUS.CHCFG.EN n c) :=
  (congrArg (· == 1) (Dev.f_forget (d.chFields n c v) n c _)).trans (d.chFields_en n c v)

theorem Dev.chcfgWrite_on (on : d.fb (SORUS.CHCFG.EN n c) = true) (v : Word) :
    d.chcfgWrite n c v = if getBits v 0 1 = 1 then d else (d.chOff n c).chFields n c v := by
  simp only [Dev.chcfgWrite, on, beq_iff_eq, if_true]

/-- A write to a disabled channel: its fields are taken, and EN enables it where its buffer lies free. -/
theorem Dev.chcfgWrite_off (off : d.fb (SORUS.CHCFG.EN n c) = false) (v : Word) : d.chcfgWrite n c v =
    let e := d.chTaken n c v
    if getBits v 0 1 = 1 then
      (if e.chFits n c then
        ((e.setF (SORUS.CHCFG.EN n c) 1).setF (SORUS.CHSTAT.LOST n c) 0).setCh n c Chan.empty
      else (e.setF (SORUS.STAT.CFGERR n) 1).raise (384 + 6 * n + 5) c)
    else e := by
  by_cases hv : getBits v 0 1 = 1
  · rw [Dev.chcfgWrite, off, if_neg Bool.false_ne_true, hv]
    rfl
  · rw [Dev.chcfgWrite, off, if_neg Bool.false_ne_true, beq_eq_false_iff_ne.2 hv, if_neg hv]
    rfl

@[simp] theorem Dev.ch_setCh_same (d : Dev) (n c : Nat) (x : Chan) : (d.setCh n c x).ch n c = x := Tbl.get_put_same _ _ _ _

@[simp] theorem Dev.f_setCh (d : Dev) (n c : Nat) (x : Chan) (r : FRef) : (d.setCh n c x).f r = d.f r := rfl

/-- An enabled channel is empty, has lost nothing, and has the fields that it was given. -/
theorem Dev.chEnabled_state (e : Dev) (n c : Nat) :
    let u := ((e.setF (SORUS.CHCFG.EN n c) 1).setF (SORUS.CHSTAT.LOST n c) 0).setCh n c Chan.empty
    u.fb (SORUS.CHCFG.EN n c) = true ∧ u.f (SORUS.CHSTAT.LOST n c) = 0 ∧ u.ch n c = Chan.empty ∧
      u.f (SORUS.CHCFG.SLICE n c) = e.f (SORUS.CHCFG.SLICE n c) := by
  have apart : ∀ r : FRef, r.addr = 0x905000 + n * 0x10000 + c * 8 → r.addr ≠ (SORUS.CHSTAT.LOST n c).addr := fun r hr => by
    rw [hr]
    show 0x905000 + n * 0x10000 + c * 8 ≠ 0x905800 + n * 0x10000 + c * 8
    omega
  refine ⟨?_, ?_, Dev.ch_setCh_same _ _ _ _, ?_⟩
  · rw [Dev.fb, Dev.f_setCh, Dev.f_setF_reg _ _ _ _ (apart _ rfl), Dev.f_setF_same _ _ _ (show 0 + 1 ≤ 64 by decide)]
    rfl
  · rw [Dev.f_setCh, Dev.f_setF_same _ _ _ (show 32 + 32 ≤ 64 by decide), Nat.zero_mod]
  · rw [Dev.f_setCh, Dev.f_setF_reg _ _ _ _ (apart _ rfl)]
    exact Dev.f_setF_field e (SORUS.CHCFG.EN n c) (SORUS.CHCFG.SLICE n c) 1 (show 0 + 1 ≤ 64 by decide) rfl rfl
      (.inr (show 0 + 1 ≤ 35 by decide))

/-- A write with EN to a disabled channel whose buffer lies free. -/
theorem Dev.chcfgWrite_enables (off : d.fb (SORUS.CHCFG.EN n c) = false) {v : Word} (one : getBits v 0 1 = 1)
    (free : (d.chFields n c v).chFits n c = true) : ∃ u : Dev, d.chcfgWrite n c v = u ∧ u.fb (SORUS.CHCFG.EN n c) = true ∧
      u.f (SORUS.CHSTAT.LOST n c) = 0 ∧ u.ch n c = Chan.empty ∧
      u.f (SORUS.CHCFG.SLICE n c) = (d.chFields n c v).f (SORUS.CHCFG.SLICE n c) := by
  obtain ⟨en, lost, empty, slice⟩ := (d.chTaken n c v).chEnabled_state n c
  have fits : (d.chTaken n c v).chFits n c = true := (Dev.chFits_forget _ n c n c).trans free
  exact ⟨_, (Dev.chcfgWrite_off off v).trans ((if_pos one).trans (if_pos fits)), en, lost, empty, slice.trans (Dev.f_forget _ n c _)⟩

/-- A channel that cannot be enabled stays disabled, with CFGERR set. -/
theorem Dev.chRefused_state (e : Dev) (hn : n < 32) (hc : c < 256) (x y : Nat) :
    let u := (e.setF (SORUS.STAT.CFGERR n) 1).raise x y
    u.fb (SORUS.CHCFG.EN n c) = e.fb (SORUS.CHCFG.EN n c) ∧ u.fb (SORUS.STAT.CFGERR n) = true := by
  have low : (SORUS.CHCFG.EN n c).addr < 0xB90000 ∧ (SORUS.STAT.CFGERR n).addr < 0xB90000 ∧
      (SORUS.CHCFG.EN n c).addr ≠ (SORUS.STAT.CFGERR n).addr := by
    show 0x905000 + n * 0x10000 + c * 8 < 0xB90000 ∧ 0x900008 + n * 0x10000 < 0xB90000 ∧
      0x905000 + n * 0x10000 + c * 8 ≠ 0x900008 + n * 0x10000
    omega
  obtain ⟨en, cfgerr, apart⟩ := low
  constructor
  · rw [Dev.fb, Dev.f_raise_low _ _ _ en, Dev.f_setF_reg _ _ _ _ apart, Dev.fb]
  · rw [Dev.fb, Dev.f_raise_low _ _ _ cfgerr, Dev.f_setF_same _ _ _ (show 42 + 1 ≤ 64 by decide)]
    rfl

/-- A write with EN to a disabled channel whose buffer does not lie free. -/
theorem Dev.chcfgWrite_refuses (hn : n < 32) (hc : c < 256) (off : d.fb (SORUS.CHCFG.EN n c) = false) {v : Word} (one : getBits v 0 1 = 1)
    (held : (d.chFields n c v).chFits n c = false) : ∃ u : Dev, d.chcfgWrite n c v = u ∧ u.fb (SORUS.CHCFG.EN n c) = false ∧
      u.fb (SORUS.STAT.CFGERR n) = true := by
  obtain ⟨en, cfgerr⟩ := (d.chTaken n c v).chRefused_state hn hc (384 + 6 * n + 5) c
  have full : ¬(d.chTaken n c v).chFits n c = true := Bool.eq_false_iff.1 ((Dev.chFits_forget _ n c n c).trans held)
  exact ⟨_, (Dev.chcfgWrite_off off v).trans ((if_pos one).trans (if_neg full)), en.trans ((d.chTaken_en n c v).trans off), cfgerr⟩

/-- A write without EN to a disabled channel takes its fields. -/
theorem Dev.chcfgWrite_takes (off : d.fb (SORUS.CHCFG.EN n c) = false) {v : Word} (zero : getBits v 0 1 ≠ 1) :
    d.chcfgWrite n c v = d.chTaken n c v := (Dev.chcfgWrite_off off v).trans (if_neg zero)

/-! ## The issue of a channel instruction (R178, R213, R214) -/

/-- The channel that an instruction names: by number, or in a register. -/
def Dev.chNamed (d : Dev) (t : Nat) (f : FQ) (ind : Bool) : Nat := if ind = true then ((d.str t).g f.ch.toNat).toNat else f.ch.toNat

section Issue

variable {t : Nat} {f : FQ} {ind : Bool} (hi : d.issues t = true)
include hi

theorem Dev.chIssue_illegal {illegal : Bool} (h : illegal = true ∨ (ind = true ∧ 32 ≤ f.ch.toNat)) (k : Nat → Nat → Dev → Dev) :
    d.chIssue t f ind illegal k = d.strandFault t cILLEGAL 0 := by
  have bad : (illegal || (ind && getBits f.ch 5 3 != 0)) = true := by
    rcases h with h | ⟨h, big⟩
    · rw [h, Bool.true_or]
    · have : getBits f.ch 5 3 ≠ 0 := by
        have := f.ch.isLt
        rw [getBits, bitsN_eq]
        omega
      rw [h, bne_iff_ne.2 this, Bool.and_self, Bool.or_true]
  rw [Dev.chIssue, bad, Dev.issue_illegal _ hi]

variable (named : ind = true → f.ch.toNat < 32)
include named

/-- One whose fields are legal comes to its channel. -/
theorem Dev.chIssue_legal (k : Nat → Nat → Dev → Dev) : d.chIssue t f ind false k =
    if d.chNamed t f ind > 255 || !d.fb (SORUS.CHCFG.EN (sorusOf t) (d.chNamed t f ind)) ||
      (!(d.str t).priv && d.f (SORUS.CHCFG.SLICE (sorusOf t) (d.chNamed t f ind)) != (d.str t).slice) then d.strandFault t cCHAN 0
    else k (sorusOf t) (d.chNamed t f ind) d := by
  have fields : (ind && getBits f.ch 5 3 != 0) = false ∧
      (if ind then ((d.str t).g (getBits f.ch 0 5)).toNat else f.ch.toNat) = d.chNamed t f ind := by
    cases ind
    case false => exact ⟨rfl, rfl⟩
    case true =>
      have small := named rfl
      have high : getBits f.ch 5 3 = 0 := by
        rw [getBits, bitsN_eq]
        omega
      have low : getBits f.ch 0 5 = f.ch.toNat := by
        rw [getBits, bitsN_eq]
        omega
      rw [high, low]
      exact ⟨rfl, rfl⟩
  rw [Dev.chIssue, fields.1, Bool.or_self, Dev.issue_legal _ hi]
  simp only [fields.2]

theorem Dev.chIssue_refused (h : 255 < d.chNamed t f ind ∨ d.fb (SORUS.CHCFG.EN (sorusOf t) (d.chNamed t f ind)) = false ∨
      ((d.str t).priv = false ∧ d.f (SORUS.CHCFG.SLICE (sorusOf t) (d.chNamed t f ind)) ≠ (d.str t).slice)) (k : Nat → Nat → Dev → Dev) :
    d.chIssue t f ind false k = d.strandFault t cCHAN 0 := by
  rw [Dev.chIssue_legal hi named, if_pos]
  rcases h with big | off | ⟨slice, other⟩
  · rw [decide_eq_true big, Bool.true_or, Bool.true_or]
  · rw [off, Bool.not_false, Bool.or_true, Bool.true_or]
  · rw [slice, bne_iff_ne.2 other, Bool.not_false, Bool.and_self, Bool.or_true]

theorem Dev.chIssue_reaches (small : d.chNamed t f ind ≤ 255) (on : d.fb (SORUS.CHCFG.EN (sorusOf t) (d.chNamed t f ind)) = true)
    (own : (d.str t).priv = true ∨ d.f (SORUS.CHCFG.SLICE (sorusOf t) (d.chNamed t f ind)) = (d.str t).slice) (k : Nat → Nat → Dev → Dev) :
    d.chIssue t f ind false k = k (sorusOf t) (d.chNamed t f ind) d := by
  rw [Dev.chIssue_legal hi named, if_neg]
  rw [decide_eq_false (Nat.not_lt.2 small), on, Bool.not_true, Bool.or_self, Bool.false_or]
  rcases own with priv | same
  · rw [priv, Bool.not_true, Bool.false_and]
    exact Bool.false_ne_true
  · rw [same, bne_self_eq_false, Bool.and_false]
    exact Bool.false_ne_true

end Issue

/-- The channel instructions, each with the condition on its unused fields. -/
def chForms (t : StrandIx) (f : FQ) (ind : Bool) : List (Instr × Bool) :=
  [(.chput t f ind, f.rd == 0), (.chtry t f ind, f.rd == 0), (.chskip t f ind, f.rd == 0),
    (.chget t f ind, f.ra == 0), (.chcnt t f ind, f.ra == 0), (.chgetW t f ind, true),
    (.chmark t f ind, f.rd == 0 && f.ra == 0), (.chrewind t f ind, f.rd == 0 && f.ra == 0),
    (.chrelease t f ind, f.rd == 0 && f.ra == 0)]

/-- Each is issued as a channel instruction, illegal where a field that it does not use is not 0. -/
theorem exec_chForms (s : State) (t : StrandIx) (f : FQ) (ind : Bool) : ∀ i ∈ chForms t f ind,
    ∃ k, exec i.1 s = .next (s.after (s.dev.chIssue t f ind (!i.2) k)) := by
  intro i hi
  simp only [chForms, List.mem_cons, List.not_mem_nil, or_false] at hi
  rcases hi with rfl | rfl | rfl | rfl | rfl | rfl | rfl | rfl | rfl
  · exact ⟨_, exec_chput s⟩
  · exact ⟨_, exec_chtry s⟩
  · exact ⟨_, exec_chskip s⟩
  · exact ⟨_, exec_chget s⟩
  · exact ⟨_, exec_chcnt s⟩
  · exact ⟨_, exec_chgetW s⟩
  · exact ⟨_, by rw [Bool.not_and]; exact exec_chmark s⟩
  · exact ⟨_, by rw [Bool.not_and]; exact exec_chrewind s⟩
  · exact ⟨_, by rw [Bool.not_and]; exact exec_chrelease s⟩

/-! ## What the channel instructions do (R174, R175, R177) -/

/-- An enabled channel holds an unread word where its read position is behind. -/
theorem Dev.chUnread_of_on (on : d.fb (SORUS.CHCFG.EN n c) = true) : d.chUnread n c = decide ((d.ch n c).r < (d.ch n c).w) := by
  rw [Dev.chUnread, on, Bool.true_and]

theorem Dev.chTake_word {t rd : Nat} (h : (d.ch n c).r < (d.ch n c).w) : d.chTake t rd n c =
    ((d.setCh n c { d.ch n c with r := (d.ch n c).r + 1 }).updStr t fun y => y.withV true).give t rd (d.chWord n c (d.ch n c).r) :=
  if_pos h

theorem Dev.chTake_idle {t rd : Nat} (h : (d.ch n c).w ≤ (d.ch n c).r) :
    d.chTake t rd n c = (d.updStr t fun y => y.withV false).give t rd 0xFFFFFFFFFFFFFF00 := if_neg (Nat.not_lt.2 h)

/-- CHSKIP drops what is left of a frame, its words yet to come included, where the frame's words allow. -/
theorem Dev.chSkip_goes {k : Nat} (h0 : k ≠ 0) (credit : d.chSpill n c = false) (held : k ≤ (d.ch n c).r - (d.ch n c).f)
    (hl : k ≤ getBits (d.chWord n c ((d.ch n c).r - k)) 0 16) :
    let q := d.ch n c
    let target := q.r - k + getBits (d.chWord n c (q.r - k)) 0 16
    d.chSkip n c k = some (d.setCh n c { q with
      r := min target q.w, f := min target q.w, m := min target q.w, skip := q.skip + (target - min target q.w) }) := by
  simp only [Dev.chSkip, credit, beq_eq_false_iff_ne.2 h0, decide_eq_false (Nat.not_lt.2 held), Bool.or_self, Bool.false_eq_true, if_false,
    Nat.not_lt.2 hl]

theorem Dev.chSkip_none {k : Nat} (h : ¬(k ≠ 0 ∧ d.chSpill n c = false ∧ k ≤ (d.ch n c).r - (d.ch n c).f ∧
    k ≤ getBits (d.chWord n c ((d.ch n c).r - k)) 0 16)) : d.chSkip n c k = none := by
  by_cases bad : (d.chSpill n c || k == 0 || (d.ch n c).r - (d.ch n c).f < k) = true
  · simp only [Dev.chSkip, bad, if_true]
  · have short : getBits (d.chWord n c ((d.ch n c).r - k)) 0 16 < k := by
      simp only [Bool.or_eq_true, not_or, beq_iff_eq, decide_eq_true_eq, Bool.not_eq_true] at bad
      obtain ⟨⟨credit, h0⟩, held⟩ := bad
      exact Nat.not_le.1 fun hl => h ⟨h0, credit, Nat.not_lt.1 held, hl⟩
    simp only [Dev.chSkip, bad, short, if_true]
    rfl

end Sys2Proof.Machine
end

section
/-! The commands of the loader and of the channels. -/

namespace Sys2Proof.Machine

variable {s : State} {n : Fin 32}

/-! ## LOAD and UNLOAD -/

/-- The fields of LCTL that a LOAD writes. -/
def loadFields (i : BitVec 10) (dest : BitVec 14) (loc : Bool) (lo hi : BitVec 12) : Nat :=
  i.toNat + dest.toNat * 2 ^ 10 + b2n loc * 2 ^ 24 + lo.toNat * 2 ^ 25 + hi.toNat * 2 ^ 37

theorem loadFields_lt (i : BitVec 10) (dest : BitVec 14) (loc : Bool) (lo hi : BitVec 12) : loadFields i dest loc lo hi < 2 ^ 49 := by
  have := i.isLt
  have := dest.isLt
  have := b2n_lt loc
  have := lo.isLt
  have := hi.isLt
  unfold loadFields
  omega

/-- Each field is read where it was put. -/
theorem loadFields_read (i : BitVec 10) (dest : BitVec 14) (loc : Bool) (lo hi : BitVec 12) :
    bitsN (loadFields i dest loc lo hi) 0 10 = i.toNat ∧ bitsN (loadFields i dest loc lo hi) 10 14 = dest.toNat ∧
      bitsN (loadFields i dest loc lo hi) 24 1 = b2n loc ∧ bitsN (loadFields i dest loc lo hi) 25 12 = lo.toNat ∧
      bitsN (loadFields i dest loc lo hi) 37 12 = hi.toNat := by
  have := i.isLt
  have := dest.isLt
  have := b2n_lt loc
  have := lo.isLt
  have := hi.isLt
  simp only [bitsN_eq, loadFields]
  omega

/-- The device when a LOAD has been taken and reads its header next. -/
def Dev.loadStarted (d : Dev) (n x : Nat) : Dev :=
  ((d.lctlTaken n 1 x).setF (SORUS.LCTL.BUSY n) 1).setLoad n { LoadOp.none with wait := 3 }

theorem Dev.loadStarted_field (d : Dev) (n x : Nat) {a w : Nat} (h : a + w ≤ 49) :
    (d.loadStarted n x).f ⟨(SORUS.LCTL.OP n).addr, 2 + a, w, 0⟩ = bitsN x a w := by
  rw [Dev.loadStarted, Dev.f_setLoad]
  exact (Dev.f_setF_field (d.lctlTaken n 1 x) (SORUS.LCTL.BUSY n) ⟨(SORUS.LCTL.OP n).addr, 2 + a, w, 0⟩ 1 (show 63 + 1 ≤ 64 by decide)
    rfl rfl (.inl (show 2 + a + w ≤ 63 by omega))).trans (Dev.lctlTaken_field 1 x h)

theorem exec_load_eq (on : s.dev.cspOn = true) (i : BitVec 10) (dest : BitVec 14) (loc : Bool) (lo hi : BitVec 12) :
    exec (.load n i dest loc lo hi) s =
      .next (s.after (Dev.lctlWrite s.fuse s.dev n (w64 (1 + loadFields i dest loc lo hi * 4 + 2 ^ 62)))) := by
  have word : 1 + i.toNat * 4 + dest.toNat * 2 ^ 12 + b2n loc * 2 ^ 26 + lo.toNat * 2 ^ 27 + hi.toNat * 2 ^ 39 + 2 ^ 62 =
      1 + loadFields i dest loc lo hi * 4 + 2 ^ 62 := by
    unfold loadFields
    omega
  rw [exec_load, execLoad, word]
  exact State.act_of_eq (Dev.when_of_true on)

/-- The fields of LCTL that an UNLOAD writes: its index, the others as they stand. -/
def Dev.unloadFields (d : Dev) (n : Nat) (i : BitVec 10) : Nat := i.toNat + getBits (d.reg (SORUS.LCTL.OP n)) 12 39 * 2 ^ 10

theorem Dev.unloadFields_lt (d : Dev) (n : Nat) (i : BitVec 10) : d.unloadFields n i < 2 ^ 49 := by
  have := i.isLt
  have := getBits_lt (d.reg (SORUS.LCTL.OP n)) 12 39
  unfold Dev.unloadFields
  omega

theorem exec_unload_eq (on : s.dev.cspOn = true) (i : BitVec 10) : exec (.unload n i) s =
    .next (s.after (Dev.lctlWrite s.fuse s.dev n (w64 (2 + s.dev.unloadFields n i * 4 + 2 ^ 62)))) := by
  have word : 2 + i.toNat * 4 + getBits (s.dev.reg (SORUS.LCTL.OP n)) 12 39 * 2 ^ 12 + 2 ^ 62 =
      2 + s.dev.unloadFields n i * 4 + 2 ^ 62 := by
    unfold Dev.unloadFields
    omega
  rw [exec_unload]
  exact State.act_of_eq ((Dev.when_of_true on).trans (congrArg (fun x => Dev.lctlWrite s.fuse s.dev n (w64 x)) word))

/-- LCTL and the LOAD event where a load has ended. -/
def Dev.loadEnds (u : Dev) (n st : Nat) : Prop :=
  u.f (SORUS.LCTL.STATUS n) = st ∧ u.fb (SORUS.LCTL.BUSY n) = false ∧ u.fb (EVT.ROUTE.PEND (384 + 6 * n + 4)) = true

section Unload

variable (up : s.dev.fdUp = true) (on : s.dev.cspOn = true) (idle : s.dev.fb (SORUS.LCTL.BUSY n) = false) (i : BitVec 10)
include up on idle

/-- UNLOAD, with what the fields of LCTL and of SPTAB are when it looks at them. -/
theorem exec_unload_idle : ∃ e : Dev, exec (.unload n i) s = .next (s.after (e.unload n)) ∧ e.fdUp = true ∧ e.f (SORUS.LCTL.OP n) ≠ 1 ∧
    e.f (SORUS.LCTL.INDEX n) = i.toNat ∧ e.sor = s.dev.sor ∧
    e.reg (SORUS.SPTABA.V n i.toNat) = s.dev.reg (SORUS.SPTABA.V n i.toNat) := by
  refine ⟨s.dev.lctlTaken n 2 (s.dev.unloadFields n i), ?_, up, ?_, ?_, rfl, ?_⟩
  · rw [exec_unload_eq on, Dev.lctlWrite_unload idle (Dev.unloadFields_lt _ _ _)]
  · rw [Dev.lctlTaken_op]
    decide
  · rw [Dev.lctlTaken_index, Dev.unloadFields]
    have := i.isLt
    omega
  · exact Dev.reg_setReg_other _ _ _ _ (sptab_apart n.isLt i.isLt).2

/-- UNLOAD of a spore that is not loaded ends with NOT_LOADED. -/
theorem exec_unload_absent (absent : s.dev.fb (SORUS.SPTABA.V n i.toNat) = false) :
    ∃ u : Dev, exec (.unload n i) s = .next (s.after u) ∧ u.loadEnds n 10 := by
  obtain ⟨e, runs, eup, op, index, -, entry⟩ := exec_unload_idle up on idle i
  have valid : e.fb (SORUS.SPTABA.V n (e.f (SORUS.LCTL.INDEX n))) = false := by
    rw [index, ← absent, Dev.fb, Dev.f, entry]
    rfl
  have refused : e.unload n = e.loadEnd n 10 := by rw [Dev.unload, valid]; rfl
  obtain ⟨status, free, raised, -⟩ := Dev.unload_refused eup n.isLt op (by decide) refused
  exact ⟨_, runs, status, free, raised⟩

section Loaded

variable (valid : s.dev.fb (SORUS.SPTABA.V n i.toNat) = true)
include valid

/-- UNLOAD of a spore that strands run ends with BUSY. -/
theorem exec_unload_running (run : s.dev.sporeRun n i.toNat ≠ 0) :
    ∃ u : Dev, exec (.unload n i) s = .next (s.after u) ∧ u.loadEnds n 11 ∧ u.fb (SORUS.SPTABA.V n i.toNat) = true := by
  obtain ⟨e, runs, eup, op, index, same, entry⟩ := exec_unload_idle up on idle i
  have evalid : e.fb (SORUS.SPTABA.V n i.toNat) = true := by
    rw [← valid, Dev.fb, Dev.f, entry]
    rfl
  have erun : (e.sporeRun n i.toNat != 0) = true := by
    rw [Dev.sporeRun, Dev.running, same]
    exact bne_iff_ne.2 run
  have refused : e.unload n = e.loadEnd n 11 := by rw [Dev.unload, index, evalid, erun]; rfl
  obtain ⟨status, free, raised, stands⟩ := Dev.unload_refused eup n.isLt op (by decide) refused
  obtain ⟨low, apart⟩ := sptab_apart n.isLt i.isLt
  refine ⟨_, runs, ⟨status, free, raised⟩, ?_⟩
  rw [← evalid, Dev.fb, Dev.f, stands _ low apart]
  rfl

/-- UNLOAD of one that no strand runs clears V, and no L1I of the sorus holds a line. -/
theorem exec_unload_done (rest : s.dev.sporeRun n i.toNat = 0) :
    ∃ u : Dev, exec (.unload n i) s = .next (s.after u) ∧ u.loadEnds n 0 ∧
      u.reg (SORUS.SPTABA.V n i.toNat) = putBits (s.dev.reg (SORUS.SPTABA.V n i.toNat)) 0 1 0 ∧
      u.sor.l1i = Tbl.drop (fun k => k / 2 ^ 47 / 9 == n.val) s.dev.sor.l1i := by
  obtain ⟨e, runs, eup, op, index, same, entry⟩ := exec_unload_idle up on idle i
  have evalid : e.fb (SORUS.SPTABA.V n (e.f (SORUS.LCTL.INDEX n))) = true := by
    rw [index, ← valid, Dev.fb, Dev.f, entry]
    rfl
  have erest : e.sporeRun n (e.f (SORUS.LCTL.INDEX n)) = 0 := by
    rw [index, Dev.sporeRun, Dev.running, same]
    exact rest
  obtain ⟨ends, cleared, dropped⟩ := Dev.unload_done eup n.isLt op evalid erest
  rw [index, entry] at cleared
  rw [same] at dropped
  exact ⟨_, runs, ends, cleared, dropped⟩

end Loaded

end Unload

/-- LOAD while LCTL is not BUSY goes on with the reading of its header. -/
theorem exec_load_idle (on : s.dev.cspOn = true) (idle : s.dev.fb (SORUS.LCTL.BUSY n) = false) (i : BitVec 10) (dest : BitVec 14)
    (loc : Bool) (lo hi : BitVec 12) : exec (.load n i dest loc lo hi) s =
      .next (s.after ((s.dev.loadStarted n (loadFields i dest loc lo hi)).attempt fun d => Dev.loadGo s.fuse d n)) := by
  rw [exec_load_eq on, Dev.lctlWrite_load idle (loadFields_lt i dest loc lo hi),
    Dev.loadOn_reading (congrArg LoadOp.wait (Dev.loadOp_setLoad _ _ _))]
  rfl

/-- LCTL after a LOAD was taken: the fields of the command. -/
theorem Dev.loadStarted_fields (d : Dev) (n : Nat) (i : BitVec 10) (dest : BitVec 14) (loc : Bool) (lo hi : BitVec 12) :
    let g := d.loadStarted n (loadFields i dest loc lo hi)
    g.f (SORUS.LCTL.INDEX n) = i.toNat ∧ g.f (SORUS.LCTL.DEST n) = dest.toNat ∧ g.fb (SORUS.LCTL.LOC n) = loc ∧
      g.f (SORUS.LCTL.SLO n) = lo.toNat ∧ g.f (SORUS.LCTL.SHI n) = hi.toNat := by
  intro g
  obtain ⟨index, dst, place, slo, shi⟩ := loadFields_read i dest loc lo hi
  have read : ∀ a w, a + w ≤ 49 → g.f ⟨(SORUS.LCTL.OP n).addr, 2 + a, w, 0⟩ = bitsN (loadFields i dest loc lo hi) a w := fun _ _ h =>
    d.loadStarted_field n _ h
  refine ⟨(read 0 10 (by decide)).trans index, (read 10 14 (by decide)).trans dst, ?_, (read 25 12 (by decide)).trans slo,
    (read 37 12 (by decide)).trans shi⟩
  exact (congrArg (· == 1) ((read 24 1 (by decide)).trans place)).trans (b2n_eq_one loc)

/-! ## The ends of a load -/

/-- LOAD_COMPLETE of a load that waits for nothing. -/
theorem exec_loadComplete_ends (up : s.dev.fdUp = true) (busy : s.dev.fb (SORUS.LCTL.BUSY n) = true) (done : (s.dev.loadOp n).wait = 0)
    (hst : (s.dev.loadOp n).status < 32) :
    ∃ u : Dev, exec (.loadComplete n) s = .next (s.after u) ∧ u.loadEnds n (s.dev.loadOp n).status ∧
      ((s.dev.loadOp n).status = 0 → s.dev.f (SORUS.LCTL.OP n) = 1 →
        u.fb (SORUS.SPTABA.V n (s.dev.f (SORUS.LCTL.INDEX n))) = true ∧
        u.fb (SORUS.SPTABA.PRIV n (s.dev.f (SORUS.LCTL.INDEX n))) = imgPriv (s.dev.loadOp n).hdr ∧
        (Tbl.get (⟨[], []⟩ : Spore) u.sor.spore (n * 1024 + s.dev.f (SORUS.LCTL.INDEX n))).entry = imgEntries (s.dev.loadOp n).hdr) := by
  have completes : exec (.loadComplete n) s = .next (s.after (s.dev.loadEnd n (s.dev.loadOp n).status)) :=
    (exec_loadComplete s).trans (State.act_of_eq ((Dev.when_of_true up).trans (Dev.loadComplete_ends busy done)))
  refine ⟨_, completes, ?_⟩
  by_cases good : (s.dev.loadOp n).status = 0 ∧ s.dev.f (SORUS.LCTL.OP n) = 1
  · obtain ⟨ok, load⟩ := good
    have entered : (s.dev.loadEntered n).fdUp = true := by
      rw [Dev.loadEntered, Dev.fdUp_sptabPut]
      exact up
    rw [ok, Dev.loadEnd_entered load]
    exact ⟨Dev.loadClosed_ended entered n.isLt (by decide) _, fun _ _ => Dev.loadEntered_state n.isLt 0⟩
  · have closes : (s.dev.loadOp n).status ≠ 0 ∨ s.dev.f (SORUS.LCTL.OP n) ≠ 1 := not_and_or.1 good
    rw [Dev.loadEnd_closed closes]
    exact ⟨Dev.loadClosed_ended up n.isLt hst _, fun ok load => absurd ⟨ok, load⟩ good⟩

/-- The timeouts of a load that awaits the darkroom. -/
theorem exec_loadTimeouts (up : s.dev.fdUp = true) (busy : s.dev.fb (SORUS.LCTL.BUSY n) = true) :
    ((s.dev.loadOp n).wait = 1 ∨ (s.dev.loadOp n).wait = 5 →
      ∃ u : Dev, exec (.loadMeasureTimeout n) s = .next (s.after u) ∧ u.loadEnds n 8) ∧
    ((s.dev.loadOp n).wait = 2 → ∃ u : Dev, exec (.loadSignatureTimeout n) s = .next (s.after u) ∧ u.loadEnds n 5) := by
  have ends : ∀ st, st ≠ 0 → st < 32 → (s.dev.loadEnd n st).loadEnds n st := fun st h0 hst => by
    rw [Dev.loadEnd_closed (.inl h0)]
    exact Dev.loadClosed_ended up n.isLt hst _
  refine ⟨fun h => ⟨_, (exec_loadMeasureTimeout s).trans (State.act_of_eq (Dev.when_of_true ?_)), ends 8 (by decide) (by decide)⟩,
    fun h => ⟨_, (exec_loadSignatureTimeout s).trans (State.act_of_eq (Dev.when_of_true ?_)), ends 5 (by decide) (by decide)⟩⟩
  · rw [up, busy]
    simpa using h
  · rw [up, busy, h]
    rfl

end Sys2Proof.Machine

open Sys2Proof.Machine in
/-- Settles O55: a load by the step that it has come to, an unload by its spore's entry, a channel's register by EN, and a channel
instruction by its fields, then by its channel, then by the words that the channel holds. -/
theorem loadsAndChannelsComplete : Obligations.LoadsAndChannelsComplete := by
  refine ⟨fun s n i dest loc lo hi up safe => ?commands, fun fz d n => ?steps, fun fz d n dig r => ?answers, fun fz d n x => ?place,
    fun s n c v up safe => ?register, fun s t f ind hi => ?instructions, fun s t => ?waits⟩
  case commands =>
    intro d ended
    have on := Dev.cspOn_of up safe
    have told : ∀ {u : Dev} {st : Nat}, u.loadEnds n st → ended (s.after u) st := fun h => h
    refine ⟨fun idle => ?idle, fun busy => ?busy⟩
    case idle =>
      have runs := exec_load_idle on idle i dest loc lo hi
      refine ⟨d.loadStarted_fields n i dest loc lo hi, fun none => ?_, fun o m some => ?_, fun absent => ?_, fun valid run => ?_,
        fun valid rest => ?_⟩
      · rw [runs, Dev.attempt_done none]
        rfl
      · rw [runs, Dev.attempt_wait some]
        rfl
      · obtain ⟨u, goes, ends⟩ := exec_unload_absent up on idle i absent
        exact ⟨_, goes, told ends⟩
      · obtain ⟨u, goes, ends, stays⟩ := exec_unload_running up on idle i valid run
        exact ⟨_, goes, told ends, stays⟩
      · obtain ⟨u, goes, ends, cleared, dropped⟩ := exec_unload_done up on idle i valid rest
        refine ⟨_, goes, told ends, ?_, fun b hb h0 => ?_, fun x hx => ?_, fun x hx other => ?_⟩
        · show (getBits (u.reg (SORUS.SPTABA.V n i.toNat)) 0 1 == 1) = false
          rw [cleared, getBits_putBits_same _ _ _ _ (by decide)]
          rfl
        · rw [State.after_reg, cleared, getLsbD_putBits _ _ _ _ _ (by decide), if_neg (by omega)]
        · rw [State.after_sor, dropped] at hx
          simpa using (List.mem_filter.1 hx).2
        · rw [State.after_sor, dropped]
          exact List.mem_filter.2 ⟨hx, by simpa using other⟩
    case busy =>
      refine ⟨?_, ?_, fun done hst => ?_, fun o m reading some => ?_, fun h => ?_, fun h => ?_⟩
      · rw [exec_load_eq on, Dev.lctlWrite_busy busy]
      · rw [exec_unload_eq on, Dev.lctlWrite_busy busy]
      · obtain ⟨u, goes, ends, entry⟩ := exec_loadComplete_ends up busy done hst
        exact ⟨_, goes, told ends, entry⟩
      · exact (exec_loadComplete s).trans (State.act_of_eq ((Dev.when_of_true up).trans (Dev.loadComplete_waits busy reading some)))
      · obtain ⟨u, goes, ends⟩ := (exec_loadTimeouts up busy).1 h
        exact ⟨_, goes, told ends⟩
      · obtain ⟨u, goes, ends⟩ := (exec_loadTimeouts up busy).2 h
        exact ⟨_, goes, told ends⟩
  case steps =>
    refine ⟨fun used => if_pos used, fun free => ⟨fun e read => Dev.loadGo_unread free read, fun h e read => ?_⟩⟩
    refine ⟨Dev.loadGo_header free read, fun good bad => Dev.loadGo_range free read good bad, fun good ranged => ?_⟩
    have goes := Dev.loadGo_code (fz := fz) free read good ranged
    refine ⟨fun e' none => ?_, fun bs e' some => ?_⟩
    · rw [show Dev.loadRead n _ _ e = (Option.none, e') from none] at goes
      exact goes
    · rw [show Dev.loadRead n _ _ e = (Option.some bs, e') from some] at goes
      refine ⟨fun wrong => goes.trans (if_pos (bne_iff_ne.2 wrong)), fun right => ?_⟩
      have checked := goes.trans (if_neg (by rw [bne_iff_ne, not_not]; exact right))
      refine ⟨fun free => checked.trans (if_pos (by rw [free]; rfl)), fun asks priv => ?_, fun asks priv => ?_⟩
      · exact checked.trans ((if_neg (by rw [asks]; decide)).trans (if_pos priv))
      · exact checked.trans ((if_neg (by rw [asks]; decide)).trans (if_neg (by rw [priv]; decide)))
  case answers =>
    refine ⟨fun unsigned => if_pos (by rw [unsigned]; rfl), fun signed => if_neg (by rw [signed]; decide), fun same => ?_⟩
    refine ⟨fun h => Dev.loadMeasured_placed same h r, fun h => Dev.loadMeasured_first same h r,
      fun h h0 h2 => Dev.loadChecked_failed same h h0 h2, fun h hr => ?_⟩
    intro e v none
    rw [Dev.loadChecked_passed same h hr, Dev.attempt_done none]
    rfl
  case place =>
    refine ⟨fun hl hf => ?_, fun hl hf => ?_, fun room => ?_⟩
    · exact if_pos (by rw [hl, hf]; rfl)
    · exact (if_neg (by rw [hl, Bool.false_and]; exact Bool.false_ne_true)).trans (if_pos (by rw [hl, hf]; rfl))
    · have goes := Dev.loadPlace_placed (fz := fz) room
      refine ⟨fun priv free => ?_, fun priv asks => ?_, fun priv => goes.trans (if_neg (by rw [priv]; decide))⟩
      · exact goes.trans ((if_pos priv).trans (if_neg (by rw [free]; decide)))
      · exact goes.trans ((if_pos priv).trans (if_pos asks))
  case register =>
    intro k e
    have writes : ∀ {u}, s.dev.chcfgWrite n k v = u → exec (.chcfgWrite n c v) s = .next (s.after u) := fun h =>
      (exec_chcfgWrite s).trans (State.act_of_eq ((Dev.when_of_true (Dev.cspOn_of up safe)).trans h))
    have bit : v.getLsbD 0 = false → getBits v 0 1 ≠ 1 := fun zero => by rw [getBits_bit_clear zero]; decide
    refine ⟨fun off one free => ?_, fun off one held => ?_, fun off zero => ?_, fun on one => ?_, fun on zero => ?_⟩
    · obtain ⟨u, goes, enabled⟩ := Dev.chcfgWrite_enables off (getBits_one one) free
      exact ⟨_, writes goes, enabled⟩
    · obtain ⟨u, goes, refused⟩ := Dev.chcfgWrite_refuses n.isLt c.isLt off (getBits_one one) held
      exact ⟨_, writes goes, refused⟩
    · exact ⟨_, writes (Dev.chcfgWrite_takes off (bit zero)), rfl, (s.dev.chTaken_en n k v).trans off⟩
    · exact writes ((Dev.chcfgWrite_on on v).trans (if_pos (getBits_one one)))
    · exact writes ((Dev.chcfgWrite_on on v).trans (if_neg (bit zero)))
  case instructions =>
    intro d x n c q a setV take idle forms
    refine ⟨fun i member bad => ?_, fun named off i member legal => ?_, fun named small on own => ?_⟩
    · obtain ⟨k, runs⟩ := exec_chForms s t f ind i member
      rw [runs, Dev.chIssue_illegal hi (bad.imp_left fun h => by rw [h]; rfl)]
    · obtain ⟨k, runs⟩ := exec_chForms s t f ind i member
      rw [runs, legal]
      exact congrArg (fun u => Host.Outcome.next (s.after u)) (Dev.chIssue_refused hi named off k)
    · have reaches : ∀ {illegal k u}, illegal = false → k n c d = u → d.chIssue t f ind illegal k = u := by
        rintro _ k u rfl h
        exact (Dev.chIssue_reaches hi named small on own k).trans h
      have zero : ∀ {r : BitVec 5}, r = 0 → (r != 0) = false := fun h => by rw [h]; rfl
      have zeros : f.rd = 0 → f.ra = 0 → (f.rd != 0 || f.ra != 0) = false := fun hd ha => by rw [hd, ha]; rfl
      refine ⟨fun hd room => ⟨?_, ?_⟩, fun hd full => ⟨?_, ?_⟩, fun word => ⟨?_, fun ha => ?_⟩, fun none => ⟨?_, fun ha => ?_⟩,
        fun hd ha => ⟨?_, ?_, ?_⟩, fun hd => ?_, fun ha => ?_⟩
      · exact (exec_chput s).trans (State.act_of_eq (reaches (zero hd) (if_neg (Bool.eq_false_iff.1 room))))
      · exact (exec_chtry s).trans (State.act_of_eq (reaches (zero hd) (if_neg (Bool.eq_false_iff.1 room))))
      · exact (exec_chput s).trans (State.act_of_eq (reaches (zero hd) (if_pos full)))
      · exact (exec_chtry s).trans (State.act_of_eq (reaches (zero hd) (if_pos full)))
      · refine (exec_chgetW s).trans (State.act_of_eq (reaches rfl ((if_pos ?_).trans (Dev.chTake_word word))))
        exact (Dev.chUnread_of_on on).trans (decide_eq_true word)
      · exact (exec_chget s).trans (State.act_of_eq (reaches (zero ha) (Dev.chTake_word word)))
      · refine (exec_chgetW s).trans (State.act_of_eq (reaches rfl ((if_neg ?_).trans ?_)))
        · rw [Dev.chUnread_of_on on, decide_eq_false (Nat.not_lt.2 none)]
          decide
        · have same : (a.toNat == 0) = true ↔ a = 0 := by rw [beq_iff_eq]; exact (BitVec.toNat_eq (x := a) (y := 0)).symm
          show d.waitOn t (.chget f.rd.toNat c (if a.toNat == 0 then 0 else d.time + a.toNat)) = _
          simp only [same]
      · exact (exec_chget s).trans (State.act_of_eq (reaches (zero ha) (Dev.chTake_idle none)))
      · exact (exec_chmark s).trans (State.act_of_eq (reaches (zeros hd ha) rfl))
      · exact (exec_chrewind s).trans (State.act_of_eq (reaches (zeros hd ha) rfl))
      · exact (exec_chrelease s).trans (State.act_of_eq (reaches (zeros hd ha) rfl))
      · intro l target mayGo
        have nonzero : a ≠ 0 ↔ a.toNat ≠ 0 := not_congr BitVec.toNat_eq
        refine ⟨fun go => ?_, fun stop => ?_⟩
        · obtain ⟨h0, credit, held, hl⟩ := go
          refine (exec_chskip s).trans (State.act_of_eq (reaches (zero hd) ?_))
          show (match d.chSkip n c a.toNat with | some d => d.next t | none => d.strandFault t cCHAN 0) = _
          rw [Dev.chSkip_goes (nonzero.1 h0) credit held hl]
        · refine (exec_chskip s).trans (State.act_of_eq (reaches (zero hd) ?_))
          show (match d.chSkip n c a.toNat with | some d => d.next t | none => d.strandFault t cCHAN 0) = _
          rw [Dev.chSkip_none fun ⟨h0, rest⟩ => stop ⟨nonzero.2 h0, rest⟩]
      · exact (exec_chcnt s).trans (State.act_of_eq (reaches (zero ha) rfl))
  case waits =>
    refine ⟨fun c v held room => ?_, fun rd c lim held limited none => ?_⟩
    · refine (exec_chputCreditResume s).trans (State.act_of_eq ?_)
      simp only [held, room, Bool.false_eq_true, if_false]
    · refine (exec_chgetWTimeout s).trans (State.act_of_eq ?_)
      simp only [held, beq_eq_false_iff_ne.2 limited, Bool.false_eq_true, if_false]
      exact Dev.chTake_idle none
end

section
/-! What an access and a completion of the device's own units leave of the sori: their state and the registers of their block (R182,
R260, R274). -/

namespace Sys2Proof.Machine

/-- A register lies in the block of the sori. -/
def FRef.ofSori (r : FRef) : Prop := 0x900000 ≤ r.addr ∧ r.addr < 0xB00000

/-- The sori as the fields of their block and as their own state. -/
def Dev.sori (d : Dev) : Sori × ({r : FRef // FRef.ofSori r} → Nat) := (d.sor, fun r => d.f r)

variable {d e : Dev}

theorem Dev.sori_of_eq (hs : e.sor = d.sor) (hc : e.csr = d.csr) : e.sori = d.sori :=
  Prod.ext hs (funext fun r => Dev.f_congr hc r)

/-- Devices whose sori are the same agree on each field of the block. -/
theorem Dev.f_of_sori (h : e.sori = d.sori) {r : FRef} (hr : FRef.ofSori r) : e.f r = d.f r :=
  congrFun (congrArg Prod.snd h) ⟨r, hr⟩

theorem Dev.sor_of_sori (h : e.sori = d.sori) : e.sor = d.sor := congrArg Prod.fst h

/-! ## Registers outside the block, and events -/

theorem Dev.sori_setF (d : Dev) {r : FRef} (h : r.addr < 0x900000 ∨ 0xB00000 ≤ r.addr) (v : Nat) : (d.setF r v).sori = d.sori :=
  Prod.ext rfl (funext fun ⟨q, lo, hi⟩ => Dev.f_setF_reg d r q v (by omega))

@[simp] theorem Dev.sori_raise (d : Dev) (k det : Nat) : (d.raise k det).sori = d.sori :=
  Prod.ext (Dev.Outer.raise d k det).sor (funext fun ⟨_, _, hi⟩ => d.f_raise_low k det (hi.trans (by decide)))

@[simp] theorem Dev.sori_raiseFpa (d : Dev) (k det j ln : Nat) : (d.raiseFpa k det j ln).sori = d.sori :=
  Prod.ext (Dev.Looked.raiseFpa d k det j ln).sor (funext fun ⟨_, _, hi⟩ => d.f_raiseFpa_low k det j ln (hi.trans (by decide)))

@[simp] theorem Dev.sori_notice (d : Dev) (v : Verdict) (agent n : Nat) (posted : Bool) : (d.notice v agent n posted).sori = d.sori :=
  (Dev.sori_raise _ _ _).trans (d.sori_setF (.inr (by decide)) _)

/-! ## Memory through its homes -/

theorem Dev.Tallied.sori (h : d.Tallied e) : e.sori = d.sori := Dev.sori_of_eq (by rw [h]) h.csr

theorem Dev.Stored.sori (h : d.Stored e) : e.sori = d.sori := Dev.sori_of_eq (by rw [h]) h.csr

@[simp] theorem Dev.sori_reconcile (d : Dev) (c q : Nat) : (d.reconcile c q).sori = d.sori := by
  have counted : ∀ (e : Dev) ln k, (e.hbmOp ln k).sori = e.sori := fun e ln k => (Dev.Tallied.hbmOp e ln k).sori
  unfold Dev.reconcile
  dsimp only
  split_ifs
  · exact (Dev.sori_raiseFpa _ _ _ _ _).trans (counted _ _ _)
  · exact (Dev.sori_raiseFpa _ _ _ _ _).trans (counted _ _ _)
  · exact counted _ _ _
  · rfl

@[simp] theorem Dev.sori_homeRead (d : Dev) (ln : Nat) (err : BitVec 560) : (d.homeRead ln err).2.sori = d.sori :=
  Dev.homeRead_keeps Dev.sori Dev.Tallied.sori (fun _ _ => rfl) (fun _ _ _ => rfl) (fun _ _ _ => rfl) Dev.sori_reconcile d ln err

@[simp] theorem Dev.sori_homeWrite (d : Dev) (ln : Nat) (x : Line) (mask : BitVec 64) : (d.homeWrite ln x mask).sori = d.sori :=
  (Dev.Stored.homeWrite d ln x mask).sori

theorem Dev.sori_ownAsk (d : Dev) (o : Own) (m : Msg) (ready : Bool) {k : Dev → Msg × Dev} (h : (k d).2.sori = d.sori) :
    (d.ownAsk o m ready k).2.sori = d.sori := by
  rcases d.ownAsk_cases o m ready k with ⟨r, a, -, -, e⟩ | ⟨e, -⟩ | ⟨-, -, -, e⟩
  · rw [e]; rfl
  · rw [e]; rfl
  · rw [e]
    split
    · rfl
    · exact h

@[simp] theorem Dev.sori_cohRead (d : Dev) (o : Own) (ln : Nat) : (d.cohRead o ln).2.sori = d.sori := by
  have read : (if d.lostExp ln then ((⟨0, true, 8, 0⟩ : LRead), d) else d.homeRead ln 0).2.sori = d.sori := by
    split
    · rfl
    · exact Dev.sori_homeRead _ _ _
  unfold Dev.cohRead
  exact Dev.sori_ownAsk _ _ _ _ read

@[simp] theorem Dev.sori_cohWrite (d : Dev) (o : Own) (ln : Nat) (x : Line) (mask : BitVec 64) : (d.cohWrite o ln x mask).2.sori = d.sori := by
  unfold Dev.cohWrite
  exact Dev.sori_ownAsk _ _ _ _ (Dev.sori_homeWrite _ _ _ _)

@[simp] theorem Dev.sori_cohOr (d : Dev) (o : Own) (a : Nat) (v : Word) : (d.cohOr o a v).sori = d.sori := by
  refine Dev.sori_ownAsk _ _ _ _ ?_
  have read := d.sori_homeRead (a / 64) 0
  dsimp only
  split
  · exact read
  · exact (Dev.sori_homeWrite _ _ _ _).trans read

@[simp] theorem Dev.sori_cohPut (k : Nat) (d : Dev) (o : Own) (a : Nat) (bs : List Byte) : (Dev.cohPut k d o a bs).2.sori = d.sori := by
  induction k generalizing d a bs with
  | zero => rfl
  | succ k ih =>
    rw [Dev.cohPut]
    split
    · rfl
    · exact (ih _ _ _).trans (Dev.sori_cohWrite _ _ _ _ _)

@[simp] theorem Dev.sori_dlogPage (d : Dev) (w : OwnFor) (n sa : Nat) : (d.dlogPage w n sa).sori = d.sori := by
  have beyond : 0xB00000 ≤ (SLICE.DLOG_CTL.MISS n).addr := by
    show 0xB00000 ≤ (SLICE.DLOG_CTL.reg n).addr
    unfold SLICE.DLOG_CTL.reg
    dsimp only
    omega
  unfold Dev.dlogPage
  dsimp only
  split
  · exact d.sori_setF (.inr beyond) _
  · exact Dev.sori_cohOr _ _ _ _

@[simp] theorem Dev.sori_dlog (d : Dev) (w : OwnFor) (n sa len : Nat) : (d.dlog w n sa len).sori = d.sori := by
  unfold Dev.dlog
  split_ifs <;> simp

/-! ## Translation and a slice's writes -/

@[simp] theorem Dev.sori_tableWord (d : Dev) (o : OwnFor) (a : Nat) : (d.tableWord o a).2.sori = d.sori := Dev.sori_cohRead _ _ _

@[simp] theorem Dev.sori_walk (d : Dev) (o : OwnFor) (n page : Nat) : (d.walk o n page).2.sori = d.sori := by
  unfold Dev.walk
  dsimp only
  split_ifs <;> simp

theorem Dev.sori_pick {α : Type} (d : Dev) (l : List α) : (d.pick l).2.sori = d.sori := by
  unfold Dev.pick
  split <;> rfl

@[simp] theorem Dev.sori_leaf (d : Dev) (o : OwnFor) (unit n page : Nat) : (d.leaf o unit n page).2.sori = d.sori := by
  have walked := d.sori_walk o n page
  unfold Dev.leaf
  dsimp only
  split
  · rfl
  · split
    case h_1 e hw => rwa [hw] at walked
    case h_2 x e hw =>
      rw [hw] at walked
      dsimp only
      split
      · exact walked
      · exact (Dev.sori_pick e _).trans walked

@[simp] theorem Dev.sori_translate (d : Dev) (o : OwnFor) (unit n sa : Nat) (q : Want) : (d.translate o unit n sa q).2.sori = d.sori := by
  have found := d.sori_leaf o unit n (sa / 2 ^ 21)
  unfold Dev.translate
  split
  · rfl
  · split
    case h_1 e u hu => rwa [hu] at found
    case h_2 u hu => rwa [hu] at found

@[simp] theorem Dev.sori_countSlice (d : Dev) (n i k : Nat) : (d.countSlice n i k).sori = d.sori := rfl

@[simp] theorem Dev.sori_sliceWrite (d : Dev) (w : OwnFor) (unit n sa agent : Nat) (bs : List Byte) :
    (d.sliceWrite w unit n sa agent bs).2.sori = d.sori := by
  have found := d.sori_translate w unit n sa .w
  unfold Dev.sliceWrite
  split
  case h_1 u hu => rwa [hu] at found
  case h_2 fpa u hu =>
    rw [hu] at found
    dsimp only
    split_ifs <;> simp [found]

theorem Dev.sori_ownSend (d : Dev) (o : Own) (m : Msg) : (d.ownSend o m).sori = d.sori :=
  Dev.sori_of_eq (d.ownSend_frame o m).1 (d.ownSend_frame o m).2

theorem Dev.sori_tryOwn {α : Type} (d : Dev) {g : Dev → α × Dev} (h : ∀ e, (g e).2.sori = e.sori) : (d.tryOwn g).2.sori = d.sori := by
  rcases d.tryOwn_cases g with e | ⟨o, m, e⟩
  · rw [e]
    exact h d.noNeed
  · rw [e]
    exact Dev.sori_ownSend _ _ _

/-! ## Completion queues and windows -/

theorem SLICE.cqb_beyond (n q : Nat) : 0xB00000 ≤ (SLICE.CQB.reg n q).addr := by
  unfold SLICE.CQB.reg
  dsimp only
  omega

@[simp] theorem Dev.sori_msixSend (d : Dev) (p tbl i : Nat) (slice : Option Nat) : (d.msixSend p tbl i slice).sori = d.sori := by
  cases slice <;> rfl

@[simp] theorem Dev.sori_msixRaise (d : Dev) (p tbl i : Nat) (slice : Option Nat) : (d.msixRaise p tbl i slice).sori = d.sori := by
  unfold Dev.msixRaise
  dsimp only
  split_ifs
  · exact Dev.sori_msixSend _ _ _ _ _
  · rfl
  · rfl

@[simp] theorem Dev.sori_raiseVec (d : Dev) (n v : Nat) : (d.raiseVec n v).sori = d.sori := by
  refine foldl_frame Dev.sori _ (fun e x => ?_) _ _
  split
  · rfl
  · split
    · exact Dev.sori_msixRaise _ _ _ _ _
    · split
      · exact Dev.sori_msixRaise _ _ _ _ _
      · rfl

@[simp] theorem Dev.sori_cqVec (d : Dev) (n q : Nat) : (d.cqVec n q).sori = d.sori := by
  unfold Dev.cqVec
  split
  · exact Dev.sori_msixRaise _ _ _ _ _
  · exact Dev.sori_raiseVec _ _ _

/-- A field of a CQ's state written. -/
theorem Dev.sori_cqSet (d : Dev) (n q : Nat) {r : FRef} (h : r.addr = (SLICE.CQB.reg n q).addr) (v : Nat) : (d.setF r v).sori = d.sori :=
  d.sori_setF (.inr (h ▸ SLICE.cqb_beyond n q)) v

@[simp] theorem Dev.sori_setHeld (d : Dev) (n q : Nat) (l : List (Bool × List Byte)) : (d.setHeld n q l).sori = d.sori :=
  Dev.sori_cqSet { d with wq := { d.wq with held := Tbl.put [] d.wq.held (n * 8 + q) l } } n q (r := SLICE.CQB.HELD n q) rfl _

@[simp] theorem Dev.sori_cqReturn (d : Dev) (n q : Nat) : (d.cqReturn n q).sori = d.sori :=
  Dev.sori_cqSet d n q (r := SLICE.CQB.RSV n q) rfl _

@[simp] theorem Dev.sori_cqFail (d : Dev) (n q : Nat) : (d.cqFail n q).sori = d.sori := by
  unfold Dev.cqFail
  split
  · rfl
  · exact (Dev.sori_cqVec _ _ _).trans (Dev.sori_cqSet d n q (r := SLICE.CQB.WERR n q) rfl _)

@[simp] theorem Dev.sori_cqWrite (d : Dev) (unit n q : Nat) (e : List Byte) : (d.cqWrite unit n q e).2.sori = d.sori := by
  have moved : ∀ (u : Dev) v, (u.setF (SLICE.CQB.TAIL n q) v).sori = u.sori := fun u v => u.sori_cqSet n q (r := SLICE.CQB.TAIL n q) rfl v
  have disarmed : ∀ u : Dev, (u.setF (SLICE.CQB.ARMED n q) 0).sori = u.sori := fun u => u.sori_cqSet n q (r := SLICE.CQB.ARMED n q) rfl 0
  have stored : ∀ t, ({ d with wq := { d.wq with mgr := t } } : Dev).sori = d.sori := fun _ => rfl
  unfold Dev.cqWrite
  dsimp only
  cases hn : n == mgrN
  case true =>
    simp only [if_true, bne_self_eq_false, Bool.false_eq_true, if_false]
    split <;> simp [moved, disarmed, stored]
  case false =>
    have written := d.sori_tryOwn (g := fun u => u.sliceWrite (.cq n q) unit n
      (u.f (SLICE.CQA.BASE n q) * 512 + d.f (SLICE.CQB.TAIL n q) % 2 ^ d.cqLog n q * 32) dispAgent e) fun u => u.sori_sliceWrite _ _ _ _ _ _
    simp only [Bool.false_eq_true, if_false]
    split
    · exact written
    · split <;> simp [moved, disarmed, written]

theorem Dev.sori_cqFlush (unit n q k : Nat) (d : Dev) : (Dev.cqFlush unit n q k d).sori = d.sori := by
  induction k generalizing d with
  | zero => rfl
  | succ k ih =>
    unfold Dev.cqFlush
    split
    · rfl
    case h_2 e es _ =>
      have written := d.sori_cqWrite unit n q e.2
      split
      · rfl
      · split
        case h_1 u hu =>
          rw [hu] at written
          refine (ih _).trans (Eq.trans ?_ ((Dev.sori_cqSet _ n q (r := SLICE.CQB.WERR n q) rfl 0).trans ((Dev.sori_setHeld u n q es).trans written)))
          split
          · exact Dev.sori_cqReturn _ _ _
          · rfl
        case h_2 u hu =>
          rw [hu] at written
          exact (Dev.sori_cqFail _ _ _).trans written
        case h_3 u hu => rwa [hu] at written

@[simp] theorem Dev.sori_cqPost (d : Dev) (unit n q : Nat) (e : List Byte) : (d.cqPost unit n q e).sori = d.sori := by
  have held : ∀ (c : Prop) [Decidable c] l, ((if c then d.cqReturn n q else d).setHeld n q l).sori = d.sori := fun c _ l => by
    refine (Dev.sori_setHeld _ _ _ _).trans ?_
    split
    · exact Dev.sori_cqReturn _ _ _
    · rfl
  unfold Dev.cqPost
  dsimp only
  split
  · exact (Dev.sori_cqFlush _ _ _ _ _).trans (held _ _)
  · exact held _ _

@[simp] theorem Dev.sori_slotAnswer (d : Dev) (r : HeldRd) : (d.slotAnswer r).sori = d.sori := by
  unfold Dev.slotAnswer
  dsimp only
  split_ifs <;> rfl

theorem Dev.sori_readsGo (k : Nat) (d : Dev) : (Dev.readsGo k d).sori = d.sori := by
  induction k generalizing d with
  | zero => rfl
  | succ k ih =>
    rw [Dev.readsGo]
    split
    · rfl
    · exact (ih _).trans (Dev.sori_slotAnswer _ _)

/-- A completion of work leaves the sori. -/
theorem Dev.sori_complete (d : Dev) (unit : Nat) (k : Work) (status detail : Nat) (cqRes winRest : List Byte) :
    (d.complete unit k status detail cqRes winRest).sori = d.sori := by
  unfold Dev.complete
  split
  · rfl
  · exact Dev.sori_cqPost _ _ _ _ _
  · exact Dev.sori_cqPost _ _ _ _ _
  · exact Dev.sori_readsGo _ _

/-- The records of ended work written: of the sori, only what is still to be written changes. -/
theorem Dev.sori_endsGo (d : Dev) : d.endsGo.sor = { d.sor with ends := d.endsGo.sor.ends } ∧
    ∀ r : FRef, r.ofSori → d.endsGo.f r = d.f r := by
  have same : d.endsGo.sori = ({ d with sor := { d.sor with ends := d.sor.ends.filter fun e => d.storesOut e.t e.seq } } : Dev).sori :=
    foldl_frame Dev.sori _ (fun e x => Dev.sori_complete _ _ _ _ _ _ _) _ _
  have sor := Dev.sor_of_sori same
  refine ⟨?_, fun r hr => Dev.f_of_sori same hr⟩
  rw [sor]

end Sys2Proof.Machine
end

section
/-! Fencing, swaps and rotation of a sorus (R181–R187, R256). -/

namespace Sys2Proof.Machine

/-! ## Bits of a field -/

theorem bitN_setBitN (x : Nat) {i w : Nat} (h : i < w) : bitN (setBitN x i % 2 ^ w) i = true := by
  rw [bitN, setBitN, Nat.testBit_mod_two_pow, Nat.testBit_or, Nat.testBit_two_pow_self, decide_eq_true h, Bool.or_true, Bool.and_self]

theorem bitN_clrBitN (x i w : Nat) : bitN (clrBitN x i % 2 ^ w) i = false := by
  have clear : (clrBitN x i).testBit i = false := by
    unfold clrBitN
    split
    case isTrue h =>
      rw [Nat.testBit_eq_decide_div_mod_eq] at h ⊢
      have odd : x / 2 ^ i % 2 = 1 := by simpa using h
      have less : (x - 2 ^ i) / 2 ^ i = x / 2 ^ i - 1 := by simpa using Nat.sub_mul_div x (2 ^ i) 1
      rw [less]
      exact decide_eq_false (by omega)
    case isFalse h => exact Bool.eq_false_iff.2 h
  rw [bitN, Nat.testBit_mod_two_pow, clear, Bool.and_false]

/-! ## Fields of a sorus -/

/-- A field that shares no bit with the one written: in another register, or in other bits of the same. -/
theorem Dev.f_setF_apart (d : Dev) {r q : FRef} (v : Nat) (h : q.addr ≠ r.addr ∨
    (r.lo + r.w ≤ 64 ∧ q.addr = r.addr ∧ q.cold = r.cold ∧ (q.lo + q.w ≤ r.lo ∨ r.lo + r.w ≤ q.lo))) : (d.setF r v).f q = d.f q := by
  rcases h with other | ⟨fits, same, cold, bits⟩
  · exact Dev.f_setF_reg d r q v other
  · exact Dev.f_setF_field d r q v fits same cold bits

/-- Where the fields of a sorus lie that fencing, swaps and rotation write. -/
theorem SORUS.fields (n l : Nat) :
    SORUS.STAT.SPARE n = ⟨0x900008 + n * 0x10000, 0, 4, 8⟩ ∧ SORUS.STAT.FENCED n = ⟨0x900008 + n * 0x10000, 4, 9, 8⟩ ∧
    SORUS.STAT.FAILED n = ⟨0x900008 + n * 0x10000, 13, 9, 8⟩ ∧ SORUS.STAT.UNTESTED n = ⟨0x900008 + n * 0x10000, 22, 9, 8⟩ ∧
    SORUS.STAT.ROT n = ⟨0x900008 + n * 0x10000, 39, 3, 8⟩ ∧
    SORUS.LFMAP.PHYS n l = ⟨0x900010 + n * 0x10000, 8 * l, 4, 0x706050403020100⟩ ∧
    SORUS.LFMAP.GEN n l = ⟨0x900010 + n * 0x10000, 4 + 8 * l, 4, 0x706050403020100⟩ ∧
    SORUS.WD.HUNG n = ⟨0x900018 + n * 0x10000, 32, 16, 5⟩ ∧ SORUS.FENCE.LAST n = ⟨0x900020 + n * 0x10000, 32, 4, 0xF00000000⟩ := by
  refine ⟨rfl, rfl, rfl, rfl, rfl, ?_, rfl, rfl, rfl⟩
  rw [SORUS.LFMAP.PHYS, Nat.zero_add]
  rfl

/-- The registers of a sorus lie in the block. -/
theorem SORUS.ofSori {n : Nat} (hn : n < 32) {a lo w cold : Nat} (ha : 0x900000 ≤ a ∧ a < 0x910000) :
    FRef.ofSori ⟨a + n * 0x10000, lo, w, cold⟩ := by
  unfold FRef.ofSori
  dsimp only
  omega

theorem Dev.f_frondReset (d : Dev) (p : Nat) (r : FRef) : (d.frondReset p).f r = d.f r := (d.frondReset p).f_congr rfl r

/-! ## Fencing (R182) -/

/-- What a fencing that takes the spare writes: the logical Frond on the spare, the spare gone, the Frond fenced (R182, step 5). -/
def Dev.fenceTaken (d : Dev) (n i l : Nat) : Dev :=
  let e := ((d.updF (SORUS.LFMAP.GEN n l) fun g => (g + 1) % 16).setF (SORUS.LFMAP.PHYS n l) (d.f (SORUS.STAT.SPARE n))).setF
    (SORUS.STAT.SPARE n) 0xF
  let e := (e.updF (SORUS.STAT.FENCED n) fun v => setBitN v i).setF (SORUS.FENCE.LAST n) i
  ((e.incF (SORUS.WD.HUNG n)).frondReset (n * 9 + i)).raise (384 + 6 * n + 1) i

theorem Dev.fenceTaken_fields (d : Dev) {n i l : Nat} (hn : n < 32) (hi : i < 9) (hl : l < 8) :
    (d.fenceTaken n i l).f (SORUS.LFMAP.PHYS n l) = d.f (SORUS.STAT.SPARE n) ∧
      (d.fenceTaken n i l).f (SORUS.LFMAP.GEN n l) = (d.f (SORUS.LFMAP.GEN n l) + 1) % 16 ∧
      (d.fenceTaken n i l).f (SORUS.STAT.SPARE n) = 0xF ∧ bitN ((d.fenceTaken n i l).f (SORUS.STAT.FENCED n)) i = true ∧
      (d.fenceTaken n i l).f (SORUS.FENCE.LAST n) = i := by
  have spare : d.f (SORUS.STAT.SPARE n) < 16 := getBits_lt _ _ _
  have fenced : ∀ x, bitN (setBitN x i % 512) i = true := fun x => bitN_setBitN (w := 9) x hi
  have last : i < 16 := by omega
  have gen : 4 + 8 * l + 4 ≤ 64 := by omega
  have phys : 8 * l + 4 ≤ 64 ∧ 8 * l + 4 ≤ 4 + 8 * l := by omega
  simp only [Dev.fenceTaken, Dev.updF, Dev.incF, SORUS.fields n l] at spare ⊢
  have low : ∀ a, a < 0x910000 → a + n * 65536 < 0xB90000 := fun a ha => by omega
  simp [Dev.f_raise_low, low, Dev.f_frondReset, Dev.f_setF_apart, gen, phys, Nat.mod_eq_of_lt spare, fenced, last]

/-- A Frond whose sorus fences another first waits for it. -/
theorem Dev.fenceDone_behind {d : Dev} {n i : Nat} (h : d.fenceBehind n i = true) : d.fenceDone n i = d := by
  rw [Dev.fenceDone, h, Bool.or_true]
  rfl

/-- Of a fenced Frond nothing is left: its posted updates, its marks, and the records of work that waited for its stores. -/
def Dev.fenceCleared (d : Dev) (p : Nat) : Dev :=
  ({ d with sor := { d.sor with
    spoke := Tbl.put 0 d.sor.spoke p 0, fencing := Tbl.put 0 d.sor.fencing p 0
    posts := d.sor.posts.filter (·.p != p) } } : Dev).endsGo

/-- The logical Frond of a fenced one is moved to the spare, or is DOWN; `ts` are its strands (R182, steps 3 to 5). -/
def Dev.fenceMoved (d : Dev) (ts : List Nat) (n i l : Nat) : Dev :=
  let spare := d.f (SORUS.STAT.SPARE n)
  let d := d.updF (SORUS.LFMAP.GEN n l) fun g => (g + 1) % 16
  let d := (d.setF (SORUS.LFMAP.PHYS n l) spare).setF (SORUS.STAT.SPARE n) 0xF
  let d := if spare == 0xF then d.updF (SORUS.STAT.DOWN n) fun v => setBitN v l else d
  let d := ts.foldl (fun d t => d.fenceWork t (spare != 0xF)) d
  let d := if spare == 0xF then d.enterSafe 1 n else d
  let d := (d.updF (SORUS.STAT.FENCED n) fun v => setBitN v i).setF (SORUS.FENCE.LAST n) i
  ((d.incF (SORUS.WD.HUNG n)).frondReset (n * 9 + i)).raise (384 + 6 * n + 1) i

theorem Dev.fenceMoved_spare {d : Dev} {n : Nat} (spare : d.f (SORUS.STAT.SPARE n) ≠ 0xF) (i l : Nat) :
    d.fenceMoved [] n i l = d.fenceTaken n i l := by
  rw [Dev.fenceMoved, beq_eq_false_iff_ne.2 spare]
  rfl

theorem Dev.fenceDone_goes {d : Dev} {n i l : Nat} (fencing : Tbl.get 0 d.sor.fencing (n * 9 + i) ≠ 0) (swap : Tbl.get 0 d.sor.swap n = 0)
    (on : d.lfOn n i = some l) (first : d.fenceBehind n i = false) :
    d.fenceDone n i = ((d.flushFrond (n * 9 + i) true).fenceCleared (n * 9 + i)).fenceMoved (d.lfStrands n l) n i l := by
  have goes : (Tbl.get 0 d.sor.fencing (n * 9 + i) == 0 || Tbl.get 0 d.sor.swap n != 0 || d.fenceBehind n i) = false := by
    rw [beq_eq_false_iff_ne.2 fencing, swap, first]
    rfl
  rw [Dev.fenceDone, goes, on]
  rfl

/-- What writing the records of ended work leaves: the sorus's registers, and which Fronds are fenced. -/
theorem Dev.fenceCleared_keeps (d : Dev) (p : Nat) : (d.fenceCleared p).sor.fencing = Tbl.put 0 d.sor.fencing p 0 ∧
    ∀ r : FRef, r.ofSori → (d.fenceCleared p).f r = d.f r := by
  obtain ⟨sor, regs⟩ := Dev.sori_endsGo { d with sor := { d.sor with
    spoke := Tbl.put 0 d.sor.spoke p 0, fencing := Tbl.put 0 d.sor.fencing p 0, posts := d.sor.posts.filter (·.p != p) } }
  exact ⟨congrArg Sori.fencing sor, regs⟩

theorem Dev.sor_fenceTaken (d : Dev) (n i l : Nat) : (d.fenceTaken n i l).sor.fencing = d.sor.fencing :=
  (congrArg Sori.fencing (Dev.Outer.raise _ _ _).sor).trans rfl

/-- FENCE_COMPLETE of a Frond without lines and strands, while a spare is at hand. -/
theorem Dev.fenceDone_takes {d : Dev} {n i l : Nat} (hn : n < 32) (hi : i < 9) (fencing : Tbl.get 0 d.sor.fencing (n * 9 + i) ≠ 0)
    (swap : Tbl.get 0 d.sor.swap n = 0) (on : d.lfOn n i = some l) (first : d.fenceBehind n i = false)
    (lines : d.l1Lines (n * 9 + i) = []) (strands : d.lfStrands n l = []) (spare : d.f (SORUS.STAT.SPARE n) ≠ 0xF) :
    ∃ u : Dev, d.fenceDone n i = u ∧ Tbl.get 0 u.sor.fencing (n * 9 + i) = 0 ∧
      u.f (SORUS.LFMAP.PHYS n l) = d.f (SORUS.STAT.SPARE n) ∧ u.f (SORUS.LFMAP.GEN n l) = (d.f (SORUS.LFMAP.GEN n l) + 1) % 16 ∧
      u.f (SORUS.STAT.SPARE n) = 0xF ∧ bitN (u.f (SORUS.STAT.FENCED n)) i = true ∧ u.f (SORUS.FENCE.LAST n) = i := by
  have hl : l < 8 := List.mem_range.1 (List.mem_of_find?_eq_some on)
  have flushed : d.flushFrond (n * 9 + i) true = d := by rw [Dev.flushFrond, lines, List.foldl_nil]
  obtain ⟨ended, regs⟩ := d.fenceCleared_keeps (n * 9 + i)
  have stat : (d.fenceCleared (n * 9 + i)).f (SORUS.STAT.SPARE n) = d.f (SORUS.STAT.SPARE n) := regs _ (SORUS.ofSori hn (by decide))
  have gen : (d.fenceCleared (n * 9 + i)).f (SORUS.LFMAP.GEN n l) = d.f (SORUS.LFMAP.GEN n l) := regs _ (SORUS.ofSori hn (by decide))
  obtain ⟨phys, generation, none, fenced, last⟩ := (d.fenceCleared (n * 9 + i)).fenceTaken_fields hn hi hl
  refine ⟨_, (Dev.fenceDone_goes fencing swap on first).trans ?_, ?_, phys.trans stat, generation.trans (by rw [gen]), none, fenced, last⟩
  · rw [flushed, strands, Dev.fenceMoved_spare (stat.trans_ne spare)]
  · rw [Dev.sor_fenceTaken, ended, Tbl.get_put_same]

/-! ## The end of a rotation (R185, R187) -/

/-- The sorus neither rotates nor tests. -/
def Dev.rotClear (d : Dev) (n : Nat) : Dev :=
  { d with sor := { d.sor with rot := Tbl.put 0 d.sor.rot n 0, test := Tbl.put 0 d.sor.test n 0 } }

theorem Dev.f_rotClear (d : Dev) (n : Nat) (r : FRef) : (d.rotClear n).f r = d.f r := (d.rotClear n).f_congr rfl r

theorem Dev.rotEnd_eq (d : Dev) (n v : Nat) :
    d.rotEnd n v = ((d.rotClear n).setF (SORUS.STAT.ROT n) v).raise (384 + 6 * n + 3)
      (((d.rotClear n).setF (SORUS.STAT.ROT n) v).f (SORUS.STAT.ROT n)) := rfl

theorem Dev.sor_rotEnd (d : Dev) (n v : Nat) : (d.rotEnd n v).sor = (d.rotClear n).sor := (Dev.Outer.raise _ _ _).sor

theorem Dev.test_rotEnd (d : Dev) (n v : Nat) : Tbl.get 0 (d.rotEnd n v).sor.test n = 0 := by
  rw [Dev.sor_rotEnd]
  exact Tbl.get_put_same 0 d.sor.test n 0

theorem Dev.rot_rotEnd (d : Dev) {n : Nat} (hn : n < 32) (v : Nat) : (d.rotEnd n v).f (SORUS.STAT.ROT n) = v % 8 := by
  have low : (SORUS.STAT.ROT n).addr < 0xB90000 := show 0x900008 + n * 0x10000 < 0xB90000 by omega
  rw [Dev.rotEnd_eq, Dev.f_raise_low _ _ _ low, Dev.f_setF_same _ _ _ (show 39 + 3 ≤ 64 by decide)]
  rfl

/-- Fields of a sorus apart from ROT. -/
theorem Dev.f_rotEnd (d : Dev) {n : Nat} (hn : n < 32) (v : Nat) {a lo w cold : Nat} (ha : a < 0x910000)
    (apart : a ≠ 0x900008 ∨ (cold = 8 ∧ lo + w ≤ 39)) :
    (d.rotEnd n v).f ⟨a + n * 0x10000, lo, w, cold⟩ = d.f ⟨a + n * 0x10000, lo, w, cold⟩ := by
  rw [Dev.rotEnd_eq, Dev.f_raise_low _ _ _ (show a + n * 0x10000 < 0xB90000 by omega), Dev.f_setF_apart, Dev.f_rotClear]
  rcases apart with other | ⟨rfl, bits⟩
  · exact .inl (show a + n * 0x10000 ≠ 0x900008 + n * 0x10000 by omega)
  · by_cases other : a = 0x900008
    · exact .inr ⟨show 39 + 3 ≤ 64 by decide, by rw [other]; rfl, rfl, .inl bits⟩
    · exact .inl (show a + n * 0x10000 ≠ 0x900008 + n * 0x10000 by omega)

/-! ## A swap (R184) -/

/-- Strands of a swapped Frond stop. -/
theorem Dev.str_hold (ts : List Nat) (d : Dev) (v : Nat) : (ts.foldl (fun d t => d.updStr t fun x => { x with held := true }) d).str v =
    if v ∈ ts then { d.str v with held := true } else d.str v := by
  induction ts generalizing d with
  | nil => rfl
  | cons t ts ih =>
    rw [List.foldl_cons, ih, Dev.updStr, Dev.str_setStr]
    by_cases ht : v = t
    · subst ht
      simp
    · simp [ht]

/-- The logical Frond that a swap moves. -/
def Dev.swapMark (d : Dev) (n l : Nat) : Dev := { d with sor := { d.sor with swap := Tbl.put 0 d.sor.swap n (1 + l) } }

theorem Dev.swap_swapStart (d : Dev) (n l : Nat) : Tbl.get 0 (d.swapStart n l).sor.swap n = 1 + l := by
  have kept : (d.swapStart n l).sor.swap = (d.swapMark n l).sor.swap :=
    foldl_frame (fun e : Dev => e.sor.swap) (fun d t => d.updStr t fun x => { x with held := true }) (fun _ _ => rfl) _ _
  rw [kept]
  exact Tbl.get_put_same _ _ _ _

theorem Dev.test_swapStart (d : Dev) (n l : Nat) : (d.swapStart n l).sor.test = d.sor.test :=
  (foldl_frame (fun e : Dev => e.sor.test) (fun d t => d.updStr t fun x => { x with held := true }) (fun _ _ => rfl) _ _).trans rfl

theorem Dev.csr_swapStart (d : Dev) (n l : Nat) : (d.swapStart n l).csr = d.csr :=
  (foldl_frame (fun e : Dev => e.csr) (fun d t => d.updStr t fun x => { x with held := true }) (fun _ _ => rfl) _ _).trans rfl

theorem Dev.str_swapStart (d : Dev) (n l v : Nat) : (d.swapStart n l).str v =
    if v ∈ d.lfStrands n l then { d.str v with held := true } else d.str v := Dev.str_hold _ _ _

/-- The strands that run on a logical Frond do not depend on what they wait for. -/
theorem Dev.lfStrands_waitOn (d : Dev) (t : Nat) (w : Wait) (n l : Nat) : (d.waitOn t w).lfStrands n l = d.lfStrands n l := by
  have live : ∀ v, ((d.waitOn t w).str v).live = (d.str v).live := fun v => by
    rw [Dev.waitOn, Dev.updStr, Dev.str_setStr]
    split
    case isTrue h => rw [h]
    case isFalse => rfl
  simp only [Dev.lfStrands, live]

/-- FSWAP: the strand waits for the swap, and the strands of the logical Frond stop. -/
theorem Dev.fswap_state (d : Dev) (t rd n l : Nat) :
    let u := (d.waitOn t (.swap rd n)).swapStart n l
    (u.str t).wait = .swap rd n ∧ Tbl.get 0 u.sor.swap n = 1 + l ∧ ∀ v ∈ d.lfStrands n l, (u.str v).held = true := by
  refine ⟨?_, Dev.swap_swapStart _ _ _, fun v hv => ?_⟩
  · have waits : ((d.waitOn t (.swap rd n)).str t).wait = .swap rd n := by rw [Dev.waitOn, Dev.updStr, Dev.str_setStr_same]
    rw [Dev.str_swapStart]
    split
    · exact waits
    · exact waits
  · rw [Dev.str_swapStart, Dev.lfStrands_waitOn, if_pos hv]

/-- The swap of a sorus is over. -/
def Dev.swapClear (d : Dev) (n : Nat) : Dev := { d with sor := { d.sor with swap := Tbl.put 0 d.sor.swap n 0 } }

theorem Dev.f_swapClear (d : Dev) (n : Nat) (r : FRef) : (d.swapClear n).f r = d.f r := (d.swapClear n).f_congr rfl r

/-- What a swap writes: the logical Frond on the spare, and the Frond released as the spare, untested. -/
def Dev.swapMoved (d : Dev) (n i l : Nat) : Dev :=
  let d := (d.swapClear n).updF (SORUS.LFMAP.GEN n l) fun g => (g + 1) % 16
  let d := (d.setF (SORUS.LFMAP.PHYS n l) (d.f (SORUS.STAT.SPARE n))).setF (SORUS.STAT.SPARE n) i
  (d.updF (SORUS.STAT.UNTESTED n) fun v => setBitN v i).frondReset (n * 9 + i)

theorem Dev.swapMoved_fields (d : Dev) (n : Nat) {i l : Nat} (hi : i < 9) (hl : l < 8) :
    (d.swapMoved n i l).f (SORUS.LFMAP.PHYS n l) = d.f (SORUS.STAT.SPARE n) ∧ (d.swapMoved n i l).f (SORUS.STAT.SPARE n) = i ∧
      bitN ((d.swapMoved n i l).f (SORUS.STAT.UNTESTED n)) i = true := by
  have spare : d.f (SORUS.STAT.SPARE n) < 16 := getBits_lt _ _ _
  have untested : ∀ x, bitN (setBitN x i % 512) i = true := fun x => bitN_setBitN (w := 9) x hi
  have next : i % 16 = i := by omega
  have gen : 4 + 8 * l + 4 ≤ 64 := by omega
  have phys : 8 * l + 4 ≤ 64 ∧ 8 * l + 4 ≤ 4 + 8 * l := by omega
  simp only [Dev.swapMoved, Dev.updF, SORUS.fields n l] at spare ⊢
  simp [Dev.f_frondReset, Dev.f_swapClear, Dev.f_setF_apart, gen, phys, Nat.mod_eq_of_lt spare, untested, next]

/-- A swap ends: a rotation goes on with the next test, or ends, and an FSWAP's rotation event is raised. -/
def Dev.swapNext (d : Dev) (n l : Nat) : Dev :=
  if Tbl.get 0 d.sor.rot n == 0 then d.rotEvent n
  else if (List.range 9).any fun j => Tbl.get 0 d.sor.fencing (n * 9 + j) != 0 then d.rotEnd n 4
  else d.testStart n (l + 1)

theorem Dev.swap_swapNext (d : Dev) (n l : Nat) : (d.swapNext n l).sor.swap = d.sor.swap := by
  unfold Dev.swapNext
  split_ifs
  · exact congrArg Sori.swap (Dev.Outer.raise _ _ _).sor
  · exact (congrArg Sori.swap (d.sor_rotEnd n 4)).trans rfl
  · rfl

theorem Dev.f_swapNext (d : Dev) {n : Nat} (hn : n < 32) (l : Nat) {a lo w cold : Nat} (ha : a < 0x910000)
    (apart : a ≠ 0x900008 ∨ (cold = 8 ∧ lo + w ≤ 39)) :
    (d.swapNext n l).f ⟨a + n * 0x10000, lo, w, cold⟩ = d.f ⟨a + n * 0x10000, lo, w, cold⟩ := by
  unfold Dev.swapNext
  split_ifs
  · exact d.f_raise_low _ _ (show a + n * 0x10000 < 0xB90000 by omega)
  · exact d.f_rotEnd hn 4 ha apart
  · exact Dev.f_congr rfl _

/-- The strands resume on the new Frond, and where no rotation runs the FSWAP returns. -/
def Dev.swapResumed (d : Dev) (ts : List Nat) (n l : Nat) : Dev :=
  let d := ts.foldl (fun d t => d.updStr t fun x => { x with held := false }) d
  if Tbl.get 0 d.sor.rot n == 0 then
    let ws := d.sor.strand.filterMap fun e => match e.2.wait with
      | .swap rd k => if k == n then some (e.1, rd) else none
      | _ => none
    (ws.foldl (fun d e => d.give e.1 e.2 (w64 sOK)) d).rotEvent n
  else if (List.range 9).any fun j => Tbl.get 0 d.sor.fencing (n * 9 + j) != 0 then d.rotEnd n 4
  else d.testStart n (l + 1)

/-- With no strand left there is none to resume and none to return to. -/
theorem Dev.swapResumed_nil {d : Dev} (strands : d.sor.strand = []) (n l : Nat) : d.swapResumed [] n l = d.swapNext n l := by
  rw [Dev.swapResumed, List.foldl_nil, strands]
  rfl

section Swapped

variable {d : Dev} {n l i : Nat} (swap : Tbl.get 0 d.sor.swap n = l + 1) (at_ : d.f (SORUS.LFMAP.PHYS n l) = i)
  (ready : d.migratable n l (n * 9 + i) = true)
include swap at_ ready

theorem Dev.swapDone_goes :
    d.swapDone n = ((d.flushFrond (n * 9 + i) false).swapMoved n i l).swapResumed (d.lfStrands n l) n l := by
  subst at_
  rw [Dev.swapDone, swap]
  dsimp only
  rw [ready]
  rfl

/-- SWAP_COMPLETE of a Frond without lines, in a device without strands. -/
theorem Dev.swapDone_moves (hn : n < 32) (hl : l < 8) (hi : i < 9) (lines : d.l1Lines (n * 9 + i) = []) (strands : d.sor.strand = []) :
    ∃ u : Dev, d.swapDone n = u ∧ Tbl.get 0 u.sor.swap n = 0 ∧ u.f (SORUS.LFMAP.PHYS n l) = d.f (SORUS.STAT.SPARE n) ∧
      u.f (SORUS.STAT.SPARE n) = i ∧ bitN (u.f (SORUS.STAT.UNTESTED n)) i = true := by
  have flushed : d.flushFrond (n * 9 + i) false = d := by rw [Dev.flushFrond, lines, List.foldl_nil]
  have idle : d.lfStrands n l = [] := by
    have none : ∀ t, (d.str t).live = false := fun t => by rw [Dev.str, strands]; rfl
    simp only [Dev.lfStrands, none, List.filter_eq_nil_iff, Bool.false_eq_true, not_false_eq_true, implies_true]
  have goes : d.swapDone n = (d.swapMoved n i l).swapNext n l := by
    rw [Dev.swapDone_goes swap at_ ready, flushed, idle]
    exact Dev.swapResumed_nil (d := d.swapMoved n i l) strands n l
  have ended : Tbl.get 0 (d.swapMoved n i l).sor.swap n = 0 := Tbl.get_put_same 0 d.sor.swap n 0
  obtain ⟨phys, spare, untested⟩ := d.swapMoved_fields n hi hl
  have stands : ∀ {a lo w cold}, a < 0x910000 → (a ≠ 0x900008 ∨ (cold = 8 ∧ lo + w ≤ 39)) →
      ((d.swapMoved n i l).swapNext n l).f ⟨a + n * 0x10000, lo, w, cold⟩ = (d.swapMoved n i l).f ⟨a + n * 0x10000, lo, w, cold⟩ :=
    fun ha apart => Dev.f_swapNext _ hn l ha apart
  refine ⟨_, goes, ?_, (stands (by decide) (.inl (by decide))).trans phys, (stands (by decide) (.inr (by decide))).trans spare, ?_⟩
  · rw [Dev.swap_swapNext, ended]
  · exact (congrArg (fun x => bitN x i) (stands (by decide) (.inr (by decide)))).trans untested

end Swapped

/-! ## The self-test of a rotation (R185) -/

/-- The Frond tested is untested no longer. -/
def Dev.testMarked (d : Dev) (n i : Nat) : Dev := (d.frondReset (n * 9 + i)).updF (SORUS.STAT.UNTESTED n) fun v => clrBitN v i

theorem Dev.testMarked_untested (d : Dev) (n i : Nat) : bitN ((d.testMarked n i).f (SORUS.STAT.UNTESTED n)) i = false := by
  rw [Dev.testMarked, Dev.updF, Dev.f_setF_same _ _ _ (show 22 + 9 ≤ 64 by decide)]
  exact bitN_clrBitN _ _ _

/-- The test of a sorus is over. -/
def Dev.testClear (d : Dev) (n : Nat) : Dev := { d with sor := { d.sor with test := Tbl.put 0 d.sor.test n 0 } }

theorem Dev.f_testClear (d : Dev) (n : Nat) (r : FRef) : (d.testClear n).f r = d.f r := (d.testClear n).f_congr rfl r

section Tested

variable {d : Dev} {n i k : Nat} (test : Tbl.get 0 d.sor.test n = i + 1) (rot : Tbl.get 0 d.sor.rot n = k + 1)
include test rot

theorem Dev.testDone_pass : d.testDone n true =
    if k ≥ 8 then ((d.testMarked n i).testClear n).rotEnd n 2 else ((d.testMarked n i).testClear n).swapStart n k := by
  rw [Dev.testDone, test, rot]
  rfl

theorem Dev.testDone_fail : d.testDone n false =
    (((d.testMarked n i).updF (SORUS.STAT.FAILED n) fun v => setBitN v i).setF (SORUS.STAT.SPARE n) 0xF).rotEnd n 3 := by
  rw [Dev.testDone, test, rot]
  rfl

/-- A spare that passes: the rotation is DONE after the last logical Frond, and goes on with the next one's swap before. -/
theorem Dev.testDone_passes (hn : n < 32) : ∃ u : Dev, d.testDone n true = u ∧ bitN (u.f (SORUS.STAT.UNTESTED n)) i = false ∧
    Tbl.get 0 u.sor.test n = 0 ∧ (8 ≤ k → u.f (SORUS.STAT.ROT n) = 2) ∧ (k < 8 → Tbl.get 0 u.sor.swap n = 1 + k) := by
  have untested := d.testMarked_untested n i
  by_cases hk : 8 ≤ k
  · refine ⟨_, (Dev.testDone_pass test rot).trans (if_pos hk), Eq.trans ?_ untested, Dev.test_rotEnd _ _ _,
      fun _ => Dev.rot_rotEnd _ hn 2, fun small => absurd hk (Nat.not_le.2 small)⟩
    exact congrArg (fun x => bitN x i) ((Dev.f_rotEnd _ hn 2 (by decide) (.inr (by decide))).trans (Dev.f_testClear _ n _))
  · refine ⟨_, (Dev.testDone_pass test rot).trans (if_neg hk), Eq.trans ?_ untested, ?_, fun big => absurd big hk,
      fun _ => Dev.swap_swapStart _ _ _⟩
    · exact congrArg (fun x => bitN x i) ((Dev.f_congr (Dev.csr_swapStart _ _ _) _).trans (Dev.f_testClear _ n _))
    · rw [Dev.test_swapStart]
      exact Tbl.get_put_same 0 (d.testMarked n i).sor.test n 0

/-- A spare that fails: it is FAILED, no spare is left, and the rotation ends FAILED. -/
theorem Dev.testDone_fails (hn : n < 32) (hi : i < 9) : ∃ u : Dev, d.testDone n false = u ∧ bitN (u.f (SORUS.STAT.FAILED n)) i = true ∧
    bitN (u.f (SORUS.STAT.UNTESTED n)) i = false ∧ u.f (SORUS.STAT.SPARE n) = 0xF ∧ u.f (SORUS.STAT.ROT n) = 3 ∧
    Tbl.get 0 u.sor.test n = 0 := by
  have untested := d.testMarked_untested n i
  have marked : ∀ x, bitN (setBitN x i % 512) i = true := fun x => bitN_setBitN (w := 9) x hi
  let e := ((d.testMarked n i).updF (SORUS.STAT.FAILED n) fun v => setBitN v i).setF (SORUS.STAT.SPARE n) 0xF
  have fields : bitN (e.f (SORUS.STAT.FAILED n)) i = true ∧ e.f (SORUS.STAT.UNTESTED n) = (d.testMarked n i).f (SORUS.STAT.UNTESTED n) ∧
      e.f (SORUS.STAT.SPARE n) = 0xF := by
    simp [e, Dev.updF, SORUS.fields n 0, Dev.f_setF_apart, marked]
  have stands : ∀ {lo w}, lo + w ≤ 39 → (e.rotEnd n 3).f ⟨0x900008 + n * 0x10000, lo, w, 8⟩ = e.f ⟨0x900008 + n * 0x10000, lo, w, 8⟩ :=
    fun bits => Dev.f_rotEnd _ hn 3 (by decide) (.inr ⟨rfl, bits⟩)
  obtain ⟨failed, same, none⟩ := fields
  refine ⟨_, Dev.testDone_fail test rot, Eq.trans ?_ failed, Eq.trans ?_ untested, (stands (by decide)).trans none, Dev.rot_rotEnd _ hn 3,
    Dev.test_rotEnd _ _ _⟩
  · exact congrArg (fun x => bitN x i) (stands (by decide))
  · exact congrArg (fun x => bitN x i) ((stands (by decide)).trans same)

end Tested

end Sys2Proof.Machine
end

section
/-! The commands of fencing, swaps and rotation, and the instructions on a sorus (R181–R187, R256). -/

namespace Sys2Proof.Machine

variable {s : State} {d : Dev} {t n l : Nat}

/-- A spare is free where there is one and no fencing of the sorus waits for it. -/
theorem Dev.spareFree_iff : d.spareFree n = true ↔
    d.f (SORUS.STAT.SPARE n) ≠ 0xF ∧ ∀ j, j < 9 → Tbl.get 0 d.sor.fencing (n * 9 + j) = 0 := by
  simp only [Dev.spareFree, Bool.and_eq_true, bne_iff_ne, List.all_eq_true, List.mem_range, beq_iff_eq]

/-- A Frond that is FENCED counts each attempt to send (R183). -/
theorem Dev.fencedSend_counts {i : Nat} (hn : n < 32) (fenced : bitN (d.f (SORUS.STAT.FENCED n)) i = true) :
    (d.fencedSend n i).f (SORUS.FENCE.ATTEMPTS n) = min (2 ^ (SORUS.FENCE.ATTEMPTS n).w - 1) (d.f (SORUS.FENCE.ATTEMPTS n) + 1) := by
  have low : (SORUS.FENCE.ATTEMPTS n).addr < 0xB90000 := show 0x900020 + n * 0x10000 < 0xB90000 by omega
  have counted := (d.f_incF (SORUS.FENCE.ATTEMPTS n) (show 0 + 32 ≤ 64 by decide)).trans (Nat.min_comm _ _)
  rw [Dev.fencedSend, fenced]
  dsimp only
  rw [if_neg (by decide)]
  split
  · exact counted
  · rw [Dev.f_raise_low _ _ _ low]
    exact (Dev.f_congr rfl _).trans counted

section Issue

variable {f : FX} (hi : d.issues t = true)
include hi

/-- A privileged instruction at slice privilege raises PRIV. -/
theorem Dev.issue_unprivileged (slice : (d.str t).priv = false) (illegal : Bool) (k : Dev → Dev) :
    d.issue t true illegal k = d.strandFault t cPRIV 0 := by
  rw [d.issue_eq hi, slice]
  rfl

/-- A sorus instruction returns what its operation answers. -/
theorem Dev.sorusOp_legal (priv : (d.str t).priv = true) (hc : f.rc = 0) (hb : f.rb = 0) (k : Nat → Dev → Nat × Dev) :
    d.sorusOp t f (f.rb != 0) k = (k (d.gr t f.ra).toNat d).2.give t f.rd.toNat (w64 (k (d.gr t f.ra).toNat d).1) := by
  rw [Dev.sorusOp, hb, hc]
  exact d.issue_priv hi priv _

end Issue

section Privileged

variable {t : StrandIx} {f : FX} (hi : s.dev.issues t = true) (priv : (s.dev.str t).priv = true) (hc : f.rc = 0)
include hi priv hc

/-- FSWAP at fabric privilege answers, or the swap starts. -/
theorem exec_fswap_legal : exec (.fswap t f) s = .next (s.after (
    let n := (s.dev.gr t f.ra).toNat
    let l := (s.dev.gr t f.rb).toNat
    if n ≥ 32 || l ≥ 8 then s.dev.give t f.rd.toNat (w64 3)
    else if s.dev.rotBusy n then s.dev.give t f.rd.toNat (w64 2)
    else if !s.dev.spareFree n then s.dev.give t f.rd.toNat (w64 1)
    else (s.dev.waitOn t (.swap f.rd.toNat n)).swapStart n l)) := by
  rw [exec_fswap, execFswap]
  refine State.act_of_eq ?_
  rw [hc]
  exact s.dev.issue_priv hi priv _

/-- A sorus instruction at fabric privilege. -/
theorem exec_sorusOp (hb : f.rb = 0) {c : Instr} {k : Nat → Dev → Nat × Dev}
    (hx : exec c s = s.act fun _ d => d.sorusOp t f (f.rb != 0) k) {v : Nat} {e : Dev} (h : k (s.dev.gr t f.ra).toNat s.dev = (v, e)) :
    exec c s = .next (s.after (e.give t f.rd.toNat (w64 v))) := by
  rw [hx]
  refine State.act_of_eq ((Dev.sorusOp_legal hi priv hc hb k).trans ?_)
  rw [h]

end Privileged

/-- TROTATE: the rotation of the sorus runs, from its first logical Frond, with the spare under test. -/
theorem Dev.trotate_state (d : Dev) (n : Nat) :
    let e := (d.setF (SORUS.STAT.ROT n) 1).testStart n 0
    e.f (SORUS.STAT.ROT n) = 1 ∧ Tbl.get 0 e.sor.rot n = 1 ∧ Tbl.get 0 e.sor.test n = 1 + d.f (SORUS.STAT.SPARE n) := by
  have spare : (d.setF (SORUS.STAT.ROT n) 1).f (SORUS.STAT.SPARE n) = d.f (SORUS.STAT.SPARE n) :=
    Dev.f_setF_field d _ _ _ (show 39 + 3 ≤ 64 by decide) rfl rfl (.inl (show 0 + 4 ≤ 39 by decide))
  refine ⟨?_, Tbl.get_put_same 0 d.sor.rot n 1, ?_⟩
  · exact (Dev.f_congr rfl _).trans (Dev.f_setF_same d (SORUS.STAT.ROT n) 1 (show 39 + 3 ≤ 64 by decide))
  · exact (Tbl.get_put_same 0 d.sor.test n _).trans (congrArg (1 + ·) spare)

end Sys2Proof.Machine

open Sys2Proof.Machine in
/-- Settles O56: each command by the state of its sorus, each instruction by its privilege, its operands and whether a rotation runs and
a spare is free. -/
theorem fencingAndRotationComplete : Obligations.FencingAndRotationComplete := by
  refine ⟨fun s t hangs => ?hung, fun s n i l up => ?fence, fun s n i up fenced => ?send, fun s t f hi => ?instructions,
    fun s n l up hl swap => ?swap, fun s n i k up hi test rot => ?test⟩
  case hung => exact (exec_watchdogHung s).trans (State.act_of_eq (Dev.when_of_true hangs))
  case fence =>
    intro p fencing swap on
    have runs : exec (.fenceComplete n i) s = .next (s.after (s.dev.fenceDone n i)) :=
      (exec_fenceComplete s).trans (State.act_of_eq (Dev.when_of_true up))
    refine ⟨runs, fun behind => ?_, fun first lines strands spare => ?_⟩
    · rw [runs, Dev.fenceDone_behind behind]
    · obtain ⟨u, done, rest⟩ := Dev.fenceDone_takes n.isLt i.isLt fencing swap on first lines strands spare
      rw [done] at runs
      exact ⟨_, runs, rest⟩
  case send =>
    have runs : exec (.fencedSendAttempt n i) s = .next (s.after (s.dev.fencedSend n i)) :=
      (exec_fencedSendAttempt s).trans (State.act_of_eq (Dev.when_of_true up))
    exact ⟨_, runs, (State.after_f s _ _).trans (Dev.fencedSend_counts n.isLt fenced)⟩
  case instructions =>
    intro d n l ret
    refine ⟨fun slice c member => ?_, fun priv hc => ?_⟩
    · simp only [List.mem_cons, List.not_mem_nil, or_false] at member
      rcases member with rfl | rfl | rfl | rfl
      · exact (exec_fswap s).trans (State.act_of_eq (Dev.issue_unprivileged hi slice _ _))
      · exact (exec_trotate s).trans (State.act_of_eq (Dev.issue_unprivileged hi slice _ _))
      · exact (exec_halt s).trans (State.act_of_eq (Dev.issue_unprivileged hi slice _ _))
      · exact (exec_haltClr s).trans (State.act_of_eq (Dev.issue_unprivileged hi slice _ _))
    · have swaps := exec_fswap_legal hi priv hc
      have inRange : n < 32 → l < 8 → ¬(n ≥ 32 || l ≥ 8) = true := fun hn hl => by
        rw [decide_eq_false (Nat.not_le.2 hn), decide_eq_false (Nat.not_le.2 hl)]
        decide
      refine ⟨fun hn hl idle => ⟨fun none => ?_, fun free => ?_⟩, fun free => Dev.spareFree_iff.1 free, fun hn hl busy => ?_, fun bad => ?_,
        fun hb => ?_⟩
      · rw [swaps, if_neg (inRange hn hl), if_neg (Bool.eq_false_iff.1 idle), if_pos (by rw [none]; rfl)]
      · refine ⟨_, swaps.trans (congrArg (fun u => Host.Outcome.next (s.after u)) ?_), d.fswap_state t f.rd.toNat n l⟩
        rw [if_neg (inRange hn hl), if_neg (Bool.eq_false_iff.1 idle), if_neg (by rw [free]; decide)]
      · rw [swaps, if_neg (inRange hn hl), if_pos busy]
      · rw [swaps, if_pos (by simpa using bad)]
      · have rotates : ∀ {v e}, (if n ≥ 32 then (sBADARG, d) else if d.rotBusy n then (sBUSY, d) else if !d.spareFree n then (sNOSPARE, d)
            else (sSTARTED, (d.setF (SORUS.STAT.ROT n) 1).testStart n 0)) = (v, e) → exec (.trotate t f) s = .next (ret e v) := fun h =>
          exec_sorusOp hi priv hc hb (exec_trotate s) h
        have halts : ∀ {v e}, (if n ≥ 32 || n == 0 then (sBADARG, d) else d.setHalt n 1) = (v, e) → exec (.halt t f) s = .next (ret e v) :=
          fun h => exec_sorusOp hi priv hc hb (exec_halt s) h
        have resumes : ∀ {v e}, (if n ≥ 32 then (sBADARG, d) else d.setHalt n 0) = (v, e) → exec (.haltClr t f) s = .next (ret e v) :=
          fun h => exec_sorusOp hi priv hc hb (exec_haltClr s) h
        have before : ∀ v, d.setHalt n v = (Tbl.get 0 d.sor.halt n * 256, (d.setHalt n v).2) := fun v => Prod.ext (Nat.zero_add _) rfl
        have halted : ∀ v, Tbl.get 0 (d.setHalt n v).2.sor.halt n = v := fun v => Tbl.get_put_same 0 d.sor.halt n v
        refine ⟨fun hn idle free => ⟨_, rotates ?_, d.trotate_state n⟩, fun hn idle none => rotates ?_, fun hn busy => rotates ?_,
          fun big => rotates (if_pos big), fun hn h0 => ⟨_, halts ?_, halted 1⟩, fun bad => halts (if_pos (by simpa [or_comm] using bad)),
          fun hn => ⟨_, resumes ((if_neg (Nat.not_le.2 hn)).trans (before 0)), halted 0⟩, fun big => resumes (if_pos big)⟩
        · rw [if_neg (Nat.not_le.2 hn), if_neg (Bool.eq_false_iff.1 idle), if_neg (by rw [free]; decide)]
          rfl
        · rw [if_neg (Nat.not_le.2 hn), if_neg (Bool.eq_false_iff.1 idle), if_pos (by rw [none]; rfl)]
          rfl
        · rw [if_neg (Nat.not_le.2 hn), if_pos busy]
          rfl
        · rw [decide_eq_false (Nat.not_le.2 hn), beq_eq_false_iff_ne.2 h0]
          exact before 1
  case swap =>
    intro i ready
    have runs : exec (.swapComplete n) s = .next (s.after (s.dev.swapDone n)) :=
      (exec_swapComplete s).trans (State.act_of_eq (Dev.when_of_true up))
    refine ⟨runs, fun hi lines strands => ?_⟩
    obtain ⟨u, done, rest⟩ := Dev.swapDone_moves (d := s.dev) (n := n) (l := l) (i := i) swap rfl ready n.isLt hl hi lines strands
    rw [done] at runs
    exact ⟨_, runs, rest⟩
  case test =>
    have runs : ∀ pass, exec (.selftestComplete n pass) s = .next (s.after (s.dev.testDone n pass)) := fun pass =>
      (exec_selftestComplete s).trans (State.act_of_eq (Dev.when_of_true up))
    obtain ⟨u, passed, good⟩ := Dev.testDone_passes test rot n.isLt
    obtain ⟨v, failed, bad⟩ := Dev.testDone_fails test rot n.isLt hi
    have pass := runs true
    have fail := runs false
    rw [passed] at pass
    rw [failed] at fail
    exact ⟨⟨_, pass, good⟩, _, fail, bad⟩
end

section
/-! The condition flags of R193, by exact arithmetic. -/

namespace Sys2Proof.Machine

/-- The number of four flags has them for bits. -/
theorem testBit_flags : ∀ z n c ov, let k := b2n z + 2 * b2n n + 4 * b2n c + 8 * b2n ov
    k.testBit 0 = z ∧ k.testBit 1 = n ∧ k.testBit 2 = c ∧ k.testBit 3 = ov := by decide

/-- The arithmetic flags are those put there; CF.V stands. -/
theorem getLsbD_mkCf (old : BitVec 5) (z n c ov : Bool) : (mkCf old z n c ov).getLsbD 0 = z ∧ (mkCf old z n c ov).getLsbD 1 = n ∧
    (mkCf old z n c ov).getLsbD 2 = c ∧ (mkCf old z n c ov).getLsbD 3 = ov ∧ (mkCf old z n c ov).getLsbD 4 = old.getLsbD 4 := by
  obtain ⟨hz, hn, hc, hov⟩ := testBit_flags z n c ov
  have bit : ∀ i, (mkCf old z n c ov).getLsbD i =
      if 0 ≤ i ∧ i < 0 + 4 then (b2n z + 2 * b2n n + 4 * b2n c + 8 * b2n ov).testBit (i - 0) else old.getLsbD i :=
    fun i => getLsbD_putBits old 0 4 _ i (by decide)
  exact ⟨(bit 0).trans hz, (bit 1).trans hn, (bit 2).trans hc, (bit 3).trans hov, bit 4⟩

/-- The sign of a word, by its signed value. -/
theorem msb_iff_toInt_neg (a : Word) : a.msb = true ↔ a.toInt < 0 := by
  rw [BitVec.msb_eq_toInt, decide_eq_true_iff]

theorem bne_msb_iff (a b : Word) : (a.msb != b.msb) = true ↔ ¬(a.toInt < 0 ↔ b.toInt < 0) := by
  rw [bne_iff_ne, Ne, Bool.eq_iff_iff, msb_iff_toInt_neg, msb_iff_toInt_neg]

/-- A sum overflows where its terms have one sign and it has the other. -/
theorem add_overflows (a b : Word) : (a.msb == b.msb && (a + b).msb != a.msb) = true ↔
    a.toInt + b.toInt < -(2 ^ 63) ∨ 2 ^ 63 ≤ a.toInt + b.toInt := by
  have := a.le_toInt
  have := a.toInt_lt
  have := b.le_toInt
  have := b.toInt_lt
  have same : (a.msb == b.msb) = true ↔ (a.toInt < 0 ↔ b.toInt < 0) := by
    rw [beq_iff_eq, Bool.eq_iff_iff, msb_iff_toInt_neg, msb_iff_toInt_neg]
  rw [Bool.and_eq_true, same, bne_msb_iff, BitVec.toInt_add, Int.bmod_def]
  omega

/-- A difference overflows where its terms differ in sign and it has the second's. -/
theorem sub_overflows (a b : Word) : (a.msb != b.msb && (a - b).msb != a.msb) = true ↔
    a.toInt - b.toInt < -(2 ^ 63) ∨ 2 ^ 63 ≤ a.toInt - b.toInt := by
  have := a.le_toInt
  have := a.toInt_lt
  have := b.le_toInt
  have := b.toInt_lt
  rw [Bool.and_eq_true, bne_msb_iff, bne_msb_iff, BitVec.toInt_sub, Int.bmod_def]
  omega

end Sys2Proof.Machine

open Sys2Proof.Machine in
/-- Settles O31: each flag is the one put in its place, and overflow is the sum's or difference's sign against its terms'. -/
theorem flagsOfAddAndSub : Obligations.FlagsOfAddAndSub := by
  intro old a b
  obtain ⟨addZ, addN, addC, addOv, addV⟩ := getLsbD_mkCf old (a + b == 0) (a + b).msb (decide (2 ^ 64 ≤ a.toNat + b.toNat))
    (a.msb == b.msb && (a + b).msb != a.msb)
  obtain ⟨subZ, subN, subC, subOv, subV⟩ := getLsbD_mkCf old (a - b == 0) (a - b).msb (decide (b.toNat ≤ a.toNat))
    (a.msb != b.msb && (a - b).msb != a.msb)
  refine ⟨?_, addN.trans (BitVec.msb_eq_getLsbD_last _), ?_, ?_, addV, ?_, subN.trans (BitVec.msb_eq_getLsbD_last _), ?_, ?_, subV⟩
  · rw [cfAdd, addZ, beq_iff_eq]
  · rw [cfAdd, addC, decide_eq_true_iff]
  · rw [cfAdd, addOv, add_overflows]
  · rw [cfSub, subZ, beq_iff_eq]
    exact sub_eq_zero
  · rw [cfSub, subC, decide_eq_true_iff]
  · rw [cfSub, subOv, sub_overflows]
end

section
/-! The register instructions that compute from two sources or an immediate (R196, R197, R200). -/

namespace Sys2Proof.Machine

section Issue

variable {s : State} {t : StrandIx} {c : Instr} (hi : s.dev.issues t = true)
include hi

/-- An unprivileged command of a strand that issues: its own effect where its fields are legal, ILLEGAL where not. -/
theorem exec_issued {illegal : Bool} {k : Dev → Dev} (hx : exec c s = s.act fun _ d => d.issue t false illegal k)
    (hl : illegal = false) : exec c s = .next (s.after (k s.dev)) := by
  rw [hx, hl]
  exact State.act_of_eq (s.dev.issue_legal hi k)

theorem exec_issued_as {illegal : Bool} {k : Dev → Dev} (hx : exec c s = s.act fun _ d => d.issue t false illegal k)
    (hl : illegal = false) {e : Dev} (hk : k s.dev = e) : exec c s = .next (s.after e) := by
  rw [exec_issued hi hx hl, hk]

theorem exec_illegal {illegal : Bool} {k : Dev → Dev} (hx : exec c s = s.act fun _ d => d.issue t false illegal k)
    (hl : illegal = true) : exec c s = .next (s.after (s.dev.strandFault t cILLEGAL 0)) := by
  rw [hx, hl]
  exact State.act_of_eq (s.dev.issue_illegal hi k)

variable {f : FA} {a b v : Word}

/-- A two-source instruction gives the value that it computes. -/
theorem exec_alu (ha : (s.dev.str t).g f.ra.toNat = a) (hb : (s.dev.str t).g f.rb.toNat = b) {g : Dev → Word → Word → Word}
    (hx : exec c s = s.act fun _ d => d.alu t f (g d)) (hv : g s.dev a b = v) :
    exec c s = .next (s.after (s.dev.give t f.rd.toNat v)) := by
  subst ha hb hv
  exact hx.trans (State.act_of_eq (s.dev.issue_legal hi _))

/-- One that sets the flags sets them first. -/
theorem exec_aluCf (ha : (s.dev.str t).g f.ra.toNat = a) (hb : (s.dev.str t).g f.rb.toNat = b) {g : Word → Word → Word}
    {h : BitVec 5 → Word → Word → BitVec 5} (hx : exec c s = s.act fun _ d => d.aluCf t f g h) (hv : g a b = v) :
    exec c s = .next (s.after ((s.dev.updStr t fun x => { x with cf := h x.cf a b }).give t f.rd.toNat v)) := by
  subst ha hb hv
  exact hx.trans (State.act_of_eq (s.dev.issue_legal hi _))

end Issue

/-! ## Comparisons -/

theorem w64_b2n {p : Prop} [Decidable p] {x : Bool} (h : x = true ↔ p) : w64 (b2n x) = if p then 1 else 0 := by
  cases x
  · rw [if_neg (fun hp => Bool.false_ne_true (h.2 hp))]
    rfl
  · rw [if_pos (h.1 rfl)]
    rfl

/-- The comparison's word, by the order of its operands. -/
theorem cmpWord_eq {p : Prop} [Decidable p] {lt : Bool} {a b : Word} (h : lt = true ↔ p) (apart : p → a ≠ b) :
    cmpWord lt (a == b) = if p then BitVec.allOnes 64 else if a = b then 0 else 1 := by
  by_cases hp : p
  · rw [cmpWord, beq_eq_false_iff_ne.2 (apart hp), h.2 hp, if_pos hp]
    rfl
  · rw [cmpWord, Bool.eq_false_iff.2 (mt h.1 hp), if_neg hp]
    simp only [beq_iff_eq, Bool.false_eq_true, if_false]

theorem cmpWord_slt (a b : Word) :
    cmpWord (a.slt b) (a == b) = if a.toInt < b.toInt then BitVec.allOnes 64 else if a = b then 0 else 1 :=
  cmpWord_eq BitVec.slt_iff_toInt_lt fun h e => h.ne (congrArg BitVec.toInt e)

theorem cmpWord_ult (a b : Word) :
    cmpWord (a.ult b) (a == b) = if a.toNat < b.toNat then BitVec.allOnes 64 else if a = b then 0 else 1 :=
  cmpWord_eq BitVec.ult_iff_toNat_lt fun h e => h.ne (congrArg BitVec.toNat e)

/-- The lesser and the greater of two words: equal keys are equal words. -/
theorem ite_lt_eq_ite_le {κ : Type} [LinearOrder κ] {key : Word → κ} (inj : ∀ a b, key a = key b → a = b) {lt : Bool} {a b : Word}
    (h : lt = true ↔ key a < key b) : (if lt then a else b) = (if key a ≤ key b then a else b) ∧
      (if lt then b else a) = if key a ≤ key b then b else a := by
  rcases lt_trichotomy (key a) (key b) with less | same | more
  · simp only [h.2 less, if_true, less.le, and_self]
  · have words : a = b := inj a b same
    subst words
    simp only [ite_self, and_self]
  · have : lt = false := Bool.eq_false_iff.2 (mt h.1 more.not_gt)
    simp only [this, Bool.false_eq_true, if_false, more.not_ge, and_self]

theorem ite_slt (a b : Word) : (if a.slt b then a else b) = (if a.toInt ≤ b.toInt then a else b) ∧
    (if a.slt b then b else a) = if a.toInt ≤ b.toInt then b else a :=
  ite_lt_eq_ite_le (fun _ _ => BitVec.eq_of_toInt_eq) BitVec.slt_iff_toInt_lt

theorem ite_ult (a b : Word) : (if a.ult b then a else b) = (if a.toNat ≤ b.toNat then a else b) ∧
    (if a.ult b then b else a) = if a.toNat ≤ b.toNat then b else a :=
  ite_lt_eq_ite_le (fun _ _ => BitVec.eq_of_toNat_eq) BitVec.ult_iff_toNat_lt

/-! ## Immediates -/

section Immediate

variable {s : State} {t : StrandIx} {f : FI} {a : Word} {c : Instr} (hi : s.dev.issues t = true) (ha : (s.dev.str t).g f.ra.toNat = a)
include hi ha

theorem exec_aluI {g : Word → BitVec 16 → Word} (hx : exec c s = s.act fun _ d => d.aluI t f g) {v : Word} (hv : g a f.imm = v) :
    exec c s = .next (s.after (s.dev.give t f.rd.toNat v)) := by
  subst ha hv
  exact hx.trans (State.act_of_eq (s.dev.issue_legal hi _))

theorem exec_cmpi_legal : exec (.cmpi t f) s = .next (s.after
    ((s.dev.updStr t fun x => { x with cf := cfSub x.cf a (f.imm.signExtend 64) }).give t f.rd.toNat
      (cmpWord (a.slt (f.imm.signExtend 64)) (a == f.imm.signExtend 64)))) := by
  subst ha
  exact (exec_cmpi s).trans (State.act_of_eq (s.dev.issue_legal hi _))

end Immediate

/-! ## Division -/

section Divide

variable {s : State} {t : StrandIx} {f : FA} {a b v : Word} {c : Instr} (hi : s.dev.issues t = true) {g : Word → Word → Word}
  (hx : exec c s = s.act fun _ d => d.divide t f g)
include hi hx

theorem exec_divide (ha : (s.dev.str t).g f.ra.toNat = a) (hb : (s.dev.str t).g f.rb.toNat = b) (h0 : b ≠ 0) (hv : g a b = v) :
    exec c s = .next (s.after (s.dev.give t f.rd.toNat v)) := by
  subst ha hb hv
  exact hx.trans (State.act_of_eq ((s.dev.issue_legal hi _).trans (if_neg (by simpa using h0))))

theorem exec_divide_zero (hb : (s.dev.str t).g f.rb.toNat = 0) : exec c s = .next (s.after (s.dev.strandFault t cDIVZERO 0)) :=
  hx.trans (State.act_of_eq ((s.dev.issue_legal hi _).trans (if_pos (by simpa using hb))))

end Divide

/-- The one quotient that does not fit: −2⁶³ by −1, which wraps to −2⁶³ and leaves the remainder 0. -/
theorem wrapped_quotient {a b : Word} (ha : a.toInt = -(2 ^ 63)) (hb : b.toInt = -1) :
    ofI (a.toInt.tdiv b.toInt) = a ∧ ofI (a.toInt.tmod b.toInt) = 0 := by
  have lowest : a = BitVec.ofInt 64 (-(2 ^ 63)) := by rw [← ha, BitVec.ofInt_toInt]
  rw [ha, hb, lowest]
  decide

end Sys2Proof.Machine

open Sys2Proof.Machine in
/-- Settles O30: each is a two-source instruction, whose value is the one that R196 gives. -/
theorem integerResults : Obligations.IntegerResults := by
  intro s t f a b hi ha hb
  exact ⟨exec_aluCf hi ha hb (exec_add s) rfl, exec_aluCf hi ha hb (exec_sub s) rfl, exec_alu hi ha hb (exec_and s) rfl,
    exec_alu hi ha hb (exec_or s) rfl, exec_alu hi ha hb (exec_xor s) rfl, exec_alu hi ha hb (exec_andn s) rfl,
    exec_alu hi ha hb (exec_slt s) (w64_b2n BitVec.slt_iff_toInt_lt), exec_alu hi ha hb (exec_sltu s) (w64_b2n BitVec.ult_iff_toNat_lt),
    exec_alu hi ha hb (exec_min s) (ite_slt a b).1, exec_alu hi ha hb (exec_max s) (ite_slt a b).2,
    exec_alu hi ha hb (exec_minu s) (ite_ult a b).1, exec_alu hi ha hb (exec_maxu s) (ite_ult a b).2,
    exec_aluCf hi ha hb (exec_cmp s) (cmpWord_slt a b), exec_aluCf hi ha hb (exec_cmpu s) (cmpWord_ult a b),
    exec_alu hi ha hb (exec_selv s) rfl⟩

open Sys2Proof.Machine in
/-- Settles O33. -/
theorem immediateResults : Obligations.ImmediateResults := by
  intro s t f a hi ha
  refine ⟨exec_aluI hi ha (exec_addi s) rfl, exec_aluI hi ha (exec_andi s) rfl, exec_aluI hi ha (exec_ori s) rfl,
    exec_aluI hi ha (exec_xori s) rfl, ?_⟩
  rw [exec_cmpi_legal hi ha, cmpWord_slt]

open Sys2Proof.Machine in
/-- Settles O36: the divisions by their divisor. -/
theorem multiplyDivideResults : Obligations.MultiplyDivideResults := by
  intro s t f a b hi ha hb
  refine ⟨exec_alu hi ha hb (exec_mul s) ?product, exec_alu hi ha hb (exec_mulh s) rfl, exec_alu hi ha hb (exec_mulhu s) rfl,
    fun h0 => ⟨exec_divide hi (exec_div s) ha hb h0 rfl, exec_divide hi (exec_divu s) ha hb h0 rfl,
      exec_divide hi (exec_rem s) ha hb h0 ?remainder, exec_divide hi (exec_remu s) ha hb h0 rfl⟩, fun lowest minusOne => ?overflow,
    fun h0 => ?zero⟩
  case product => exact BitVec.eq_of_toNat_eq (by rw [BitVec.toNat_mul, BitVec.toNat_ofNat])
  case remainder => rw [Int.tmod_def, Int.mul_comm, ofI]
  case overflow =>
    have h0 : b ≠ 0 := by
      rintro rfl
      exact absurd minusOne (by decide)
    obtain ⟨quotient, rest⟩ := wrapped_quotient lowest minusOne
    exact ⟨exec_divide hi (exec_div s) ha hb h0 quotient, exec_divide hi (exec_rem s) ha hb h0 rest⟩
  case zero =>
    have hz := hb.trans h0
    exact ⟨exec_divide_zero hi (exec_div s) hz, exec_divide_zero hi (exec_divu s) hz, exec_divide_zero hi (exec_rem s) hz,
      exec_divide_zero hi (exec_remu s) hz⟩
end

section
/-! LUI, the shifts and the bit-field instructions, bit by bit (R198, R199). -/

namespace Sys2Proof.Machine

/-! ## Bits of fields and of bytes -/

theorem getBits_from_zero {n : Nat} (x : BitVec n) (w : Nat) : getBits x 0 w = x.toNat % 2 ^ w := by
  rw [getBits, bitsN_eq, Nat.pow_zero, Nat.div_one]

theorem getLsbD_w64 (x : Nat) {i : Nat} (hi : i < 64) : (w64 x).getLsbD i = x.testBit i := by
  rw [w64, BitVec.getLsbD_ofNat, decide_eq_true hi, Bool.true_and]

/-- Sign extension from `w` bits is that of the word of these bits. -/
theorem ofI_sext (w x : Nat) : ofI (sext w x) = (BitVec.ofNat w x).signExtend 64 := by
  rw [ofI, BitVec.signExtend, BitVec.toInt_eq_toNat_cond, BitVec.toNat_ofNat]
  rfl

/-- A field sign-extended: above its highest bit, that bit. -/
theorem getLsbD_sext (a : Word) (m : Nat) {w i : Nat} (hw : 0 < w) (hi : i < 64) :
    (ofI (sext w (getBits a m w))).getLsbD i = a.getLsbD (m + min i (w - 1)) := by
  have bit : ∀ j, j < w → (BitVec.ofNat w (getBits a m w)).getLsbD j = a.getLsbD (m + j) := fun j hj => by
    rw [BitVec.getLsbD_ofNat, testBit_getBits, decide_eq_true hj, Bool.true_and, Bool.true_and]
  rw [ofI_sext, BitVec.getLsbD_signExtend, decide_eq_true hi, Bool.true_and]
  split
  case isTrue h => rw [bit i h, Nat.min_eq_left (by omega)]
  case isFalse h => rw [BitVec.msb_eq_getLsbD_last, bit _ (by omega), Nat.min_eq_right (by omega)]

theorem popN_eq_countP (n x : Nat) : popN n x = (List.range n).countP fun i => x.testBit i := by
  induction n generalizing x with
  | zero => rfl
  | succ n ih =>
    have lowest : x % 2 = if x.testBit 0 = true then 1 else 0 := by
      rw [Nat.testBit_zero]
      rcases Nat.mod_two_eq_zero_or_one x with h | h <;> rw [h] <;> rfl
    have rest : ((fun i => x.testBit i) ∘ Nat.succ) = fun i => (x / 2).testBit i := funext fun i => Nat.testBit_succ x i
    rw [popN, ih, List.range_succ_eq_map, List.countP_cons, List.countP_map, rest, lowest, Nat.add_comm]

/-- The first place of `n` where a property holds, `n` where none has it. -/
theorem find?_range_getD (n : Nat) (p : Nat → Bool) : ∃ k, ((List.range n).find? p).getD n = k ∧ k ≤ n ∧ (∀ i, i < k → p i = false) ∧
    (k < n → p k = true) := by
  refine ⟨_, rfl, ?_⟩
  cases h : (List.range n).find? p with
  | none =>
    rw [List.find?_range_eq_none] at h
    exact ⟨le_rfl, fun i hi => by simpa using h i hi, fun hk => absurd hk (lt_irrefl n)⟩
  | some k =>
    rw [List.find?_range_eq_some] at h
    obtain ⟨holds, member, before⟩ := h
    exact ⟨(List.mem_range.1 member).le, fun i hi => by simpa using before i hi, fun _ => holds⟩

/-- The bytes of a word in reverse order. -/
theorem getLsbD_swapped (a : Word) {i : Nat} (hi : i < 64) :
    (w64 (beNat (leBytes 8 a.toNat))).getLsbD i = a.getLsbD (8 * (7 - i / 8) + i % 8) := by
  have split : 8 * (i / 8) + i % 8 = i := Nat.div_add_mod i 8
  have place : (leBytes 8 a.toNat).reverse.getD (i / 8) 0 = byteOf a.toNat (7 - i / 8) := by
    have inside : i / 8 < (leBytes 8 a.toNat).length := by
      rw [length_leBytes]
      omega
    rw [List.getD_reverse _ inside, length_leBytes, getD_leBytes (by omega)]
  rw [beNat]
  conv_lhs => rw [← split, getLsbD_w64_leNat _ (by omega) (by omega), place, getLsbD_byteOf, BitVec.testBit_toNat,
    decide_eq_true (show i % 8 < 8 by omega), Bool.true_and]

theorem getLsbD_ror64 (a : Word) {n i : Nat} (hn : n < 64) (hi : i < 64) : (ror64 a n).getLsbD i = a.getLsbD ((i + n) % 64) := by
  rw [ror64, BitVec.getLsbD_rotateRight, Nat.mod_eq_of_lt hn]
  by_cases h : i < 64 - n
  · rw [decide_eq_true h, cond_true, Nat.mod_eq_of_lt (by omega), Nat.add_comm]
  · rw [decide_eq_false h, cond_false, decide_eq_true hi, Bool.true_and, show (i + n) % 64 = i - (64 - n) by omega]

/-- LUI puts its halfword in place, over the register or over zeros. -/
theorem lui_eq_putBits (x : BitVec 16) (r : Word) (keep : Bool) (n : Nat) :
    (if keep then (r &&& ~~~((0xFFFF : Word) <<< n)) ||| x.setWidth 64 <<< n else x.setWidth 64 <<< n) =
      putBits (if keep then r else 0) n 16 x.toNat := by
  have halfword : x.setWidth 64 = BitVec.ofNat 64 (x.toNat % 2 ^ 16) := by
    rw [Nat.mod_eq_of_lt x.isLt, BitVec.ofNat_toNat]
  rw [halfword]
  cases keep
  · exact (BitVec.zero_or.symm.trans (congrArg (· ||| _) BitVec.zero_and.symm))
  · rfl

theorem getLsbD_lui (x : BitVec 16) (r : Word) (keep : Bool) {q : Nat} (hq : q < 4) (i : Nat) :
    (if keep then (r &&& ~~~((0xFFFF : Word) <<< (16 * q))) ||| x.setWidth 64 <<< (16 * q) else x.setWidth 64 <<< (16 * q)).getLsbD i =
      if 16 * q ≤ i ∧ i < 16 * q + 16 then x.getLsbD (i - 16 * q) else keep && r.getLsbD i := by
  have around : (if keep then r else 0).getLsbD i = (keep && r.getLsbD i) := by
    cases keep
    · exact BitVec.getLsbD_zero
    · rfl
  rw [lui_eq_putBits, getLsbD_putBits _ _ _ _ _ (by omega), BitVec.testBit_toNat, around]

/-! ## The forms of opcode 0x02 -/

section Forms

variable {s : State} {t : StrandIx} {f : FS} {c : Instr} {a v : Word} (hi : s.dev.issues t = true)
  (ha : (s.dev.str t).g f.ra.toNat = a)
include hi ha

theorem exec_shiftR {g : Word → Nat → Word} (hx : exec c s = s.act fun _ d => d.shiftR t f g) (hm : f.amt = 0)
    (hv : g a (((s.dev.str t).g f.rb.toNat).toNat % 64) = v) : exec c s = .next (s.after (s.dev.give t f.rd.toNat v)) := by
  have amount : getBits ((s.dev.str t).g f.rb.toNat) 0 6 = ((s.dev.str t).g f.rb.toNat).toNat % 64 := getBits_from_zero _ 6
  rw [exec_issued hi hx (by rw [hm]; rfl), ha, amount, hv]

theorem exec_shiftI {g : Word → Nat → Word} (hx : exec c s = s.act fun _ d => d.shiftI t f g) (hb : f.rb = 0)
    (hv : g a f.amt.toNat = v) : exec c s = .next (s.after (s.dev.give t f.rd.toNat v)) := by
  rw [exec_issued hi hx (by rw [hb]; rfl), ha, hv]

theorem exec_fieldOp {g : Word → Word → Nat → Nat → Word} (hx : exec c s = s.act fun _ d => d.fieldOp t f g)
    (fits : f.amt.toNat + (f.rb.toNat + 1) ≤ 64) (hv : g ((s.dev.str t).g f.rd.toNat) a f.amt.toNat (f.rb.toNat + 1) = v) :
    exec c s = .next (s.after (s.dev.give t f.rd.toNat v)) := by
  rw [exec_issued hi hx (decide_eq_false (Nat.not_lt.2 fits)), ha, hv]

theorem exec_unary {g : Word → Word} (hx : exec c s = s.act fun _ d => d.unary t f g) (hb : f.rb = 0) (hm : f.amt = 0)
    (hv : g a = v) : exec c s = .next (s.after (s.dev.give t f.rd.toNat v)) := by
  rw [exec_issued hi hx (by rw [hb, hm]; rfl), ha, hv]

end Forms

end Sys2Proof.Machine

open Sys2Proof.Machine in
/-- Settles O34: the control field by its high bits, the result by the place of each bit. -/
theorem luiResult : Obligations.LuiResult := by
  intro s t f hi
  have high : getBits f.ra 3 2 = f.ra.toNat / 8 := by
    have := f.ra.isLt
    rw [getBits, bitsN_eq]
    omega
  refine ⟨fun legal => ⟨_, exec_issued hi (exec_lui s) ?_, fun i _ => ?_⟩, fun bad => exec_illegal hi (exec_lui s) ?_⟩
  · rw [high, Nat.div_eq_of_lt legal]
    rfl
  · rw [getBits_from_zero]
    exact getLsbD_lui f.imm ((s.dev.str t).g f.rd.toNat) (f.ra.getLsbD 2) (Nat.mod_lt _ (by decide)) i
  · rw [high]
    exact bne_iff_ne.2 (by omega)

open Sys2Proof.Machine in
/-- Settles O35: each by its form, the result by the bits of its operation. -/
theorem shiftAndFieldResults : Obligations.ShiftAndFieldResults := by
  intro s t f a hi ha n m wd r gives ill
  have hn : n < 64 := Nat.mod_lt _ (by decide)
  refine ⟨fun hm => ?byRegister, fun hb => ?byAmount, fun fits => ?fields, fun hb hm => ?unary,
    fun hm => ?amountGiven, fun hb => ?registerGiven, fun past => ?fieldPast, fun h => ?operandGiven⟩
  case byRegister =>
    exact ⟨exec_shiftR hi ha (exec_sll s) hm rfl, exec_shiftR hi ha (exec_srl s) hm rfl, exec_shiftR hi ha (exec_sra s) hm rfl,
      _, exec_shiftR hi ha (exec_ror s) hm rfl, fun i h => getLsbD_ror64 a hn h⟩
  case byAmount =>
    exact ⟨exec_shiftI hi ha (exec_slli s) hb rfl, exec_shiftI hi ha (exec_srli s) hb rfl, exec_shiftI hi ha (exec_srai s) hb rfl,
      _, exec_shiftI hi ha (exec_rori s) hb rfl, fun i h => getLsbD_ror64 a f.amt.isLt h⟩
  case fields =>
    refine ⟨⟨_, exec_fieldOp hi ha (exec_extu s) fits rfl, fun i h => ?_⟩,
      ⟨_, exec_fieldOp hi ha (exec_exts s) fits rfl, fun i h => getLsbD_sext a m (Nat.succ_pos _) h⟩,
      _, exec_fieldOp hi ha (exec_ins s) fits rfl, fun i h => ?_⟩
    · rw [getLsbD_w64 _ h, testBit_getBits]
    · rw [getLsbD_putBits _ _ _ _ _ fits, BitVec.testBit_toNat]
  case unary =>
    obtain ⟨lead, leads, atMost, zeros, one⟩ := find?_range_getD 64 fun i => a.getLsbD (63 - i)
    obtain ⟨trail, trails, atMost', zeros', one'⟩ := find?_range_getD 64 fun i => a.getLsbD i
    have counts : popN 64 a.toNat = (List.range 64).countP fun i => a.getLsbD i := by
      simp only [popN_eq_countP, BitVec.testBit_toNat]
    exact ⟨⟨lead, exec_unary hi ha (exec_clz s) hb hm (congrArg w64 leads), atMost, zeros, one⟩,
      ⟨trail, exec_unary hi ha (exec_ctz s) hb hm (congrArg w64 trails), atMost', zeros', one'⟩,
      exec_unary hi ha (exec_popc s) hb hm (congrArg w64 counts), _, exec_unary hi ha (exec_bswap s) hb hm rfl,
      fun i h => getLsbD_swapped a h⟩
  case amountGiven =>
    have illegal : (f.amt != 0) = true := bne_iff_ne.2 hm
    exact ⟨exec_illegal hi (exec_sll s) illegal, exec_illegal hi (exec_srl s) illegal, exec_illegal hi (exec_sra s) illegal,
      exec_illegal hi (exec_ror s) illegal⟩
  case registerGiven =>
    have illegal : (f.rb != 0) = true := bne_iff_ne.2 hb
    exact ⟨exec_illegal hi (exec_slli s) illegal, exec_illegal hi (exec_srli s) illegal, exec_illegal hi (exec_srai s) illegal,
      exec_illegal hi (exec_rori s) illegal⟩
  case fieldPast =>
    have illegal : decide (64 < f.amt.toNat + (f.rb.toNat + 1)) = true := decide_eq_true past
    exact ⟨exec_illegal hi (exec_extu s) illegal, exec_illegal hi (exec_exts s) illegal, exec_illegal hi (exec_ins s) illegal⟩
  case operandGiven =>
    have illegal : (f.rb != 0 || f.amt != 0) = true := by simpa using h
    exact ⟨exec_illegal hi (exec_clz s) illegal, exec_illegal hi (exec_ctz s) illegal, exec_illegal hi (exec_popc s) illegal,
      exec_illegal hi (exec_bswap s) illegal⟩
end

section
/-! Reads of the strand's and the device's own values, SETCF, and branches (R196, R206). -/

namespace Sys2Proof.Machine

/-- A read gives its value and leaves what the read of it leaves. -/
theorem exec_readOp {s : State} {t : StrandIx} {f : FA} {c : Instr} {g : Dev → Word × Dev} {illegal : Bool} (hi : s.dev.issues t = true)
    (hx : exec c s = s.act fun _ d => d.readOp t f illegal g) (hl : illegal = false) {v : Word} {e : Dev} (hg : g s.dev = (v, e)) :
    exec c s = .next (s.after (e.give t f.rd.toNat v)) := by
  rw [exec_issued hi hx hl, hg]

/-! ## Branches -/

theorem Dev.branch_taken (d : Dev) (t : Nat) (f : FB) {cond : Bool} (h : cond = true) :
    d.branch t f cond = (d.frEvent (d.physOf t) 9 1).retire t (d.target t f) := if_pos h

theorem Dev.branch_passed (d : Dev) (t : Nat) (f : FB) {cond : Bool} (h : cond = false) : d.branch t f cond = d.next t :=
  if_neg (Bool.eq_false_iff.1 h)

section Branch

variable {s : State} {t : StrandIx} {f : FB} {c : Instr} {cond : Dev → Bool} {illegal : Bool} (hi : s.dev.issues t = true)
  (hx : exec c s = s.act fun _ d => d.issue t false illegal fun d => d.branch t f (cond d)) (hl : illegal = false)
include hi hx hl

theorem exec_branch_taken (h : cond s.dev = true) :
    exec c s = .next (s.after ((s.dev.frEvent (s.dev.physOf t) 9 1).retire t (s.dev.target t f))) := by
  rw [exec_issued hi hx hl, Dev.branch_taken _ _ _ h]

theorem exec_branch_passed (h : cond s.dev = false) : exec c s = .next (s.after (s.dev.next t)) := by
  rw [exec_issued hi hx hl, Dev.branch_passed _ _ _ h]

end Branch

/-- What BZ and BNZ test: CF.V where the ra field is 0, whether the register holds 0 where not. -/
def Strand.tests (x : Strand) (f : FB) : Bool := if f.ra = 0 then !x.cf.getLsbD 4 else x.g f.ra.toNat == 0

theorem exec_bz_tests (s : State) (t : StrandIx) (f : FB) :
    exec (.bz t f) s = s.act fun _ d => d.issue t false false fun d => d.branch t f ((d.str t).tests f) := by
  rw [exec_bz]
  simp only [execBz, Strand.tests, beq_iff_eq]

theorem exec_bnz_tests (s : State) (t : StrandIx) (f : FB) :
    exec (.bnz t f) s = s.act fun _ d => d.issue t false false fun d => d.branch t f (!(d.str t).tests f) := by
  rw [exec_bnz]
  simp only [execBnz, Strand.tests, beq_iff_eq, apply_ite Bool.not, Bool.not_not, bne]

section Tests

variable {s : State} {t : StrandIx} {f : FB} (hi : s.dev.issues t = true)
include hi

/-- BZ goes where the test holds, BNZ where it does not. -/
theorem exec_bz_goes (h : (s.dev.str t).tests f = true) :
    exec (.bz t f) s = .next (s.after ((s.dev.frEvent (s.dev.physOf t) 9 1).retire t (s.dev.target t f))) ∧
    exec (.bnz t f) s = .next (s.after (s.dev.next t)) :=
  ⟨exec_branch_taken hi (exec_bz_tests s t f) rfl h, exec_branch_passed hi (exec_bnz_tests s t f) rfl (by rw [h]; rfl)⟩

theorem exec_bnz_goes (h : (s.dev.str t).tests f = false) :
    exec (.bnz t f) s = .next (s.after ((s.dev.frEvent (s.dev.physOf t) 9 1).retire t (s.dev.target t f))) ∧
    exec (.bz t f) s = .next (s.after (s.dev.next t)) :=
  ⟨exec_branch_taken hi (exec_bnz_tests s t f) rfl (by rw [h]; rfl), exec_branch_passed hi (exec_bz_tests s t f) rfl h⟩

end Tests

theorem Strand.tests_flag {x : Strand} {f : FB} (h : f.ra = 0) : x.tests f = !x.cf.getLsbD 4 := if_pos h

theorem Strand.tests_register {x : Strand} {f : FB} (h : f.ra ≠ 0) : x.tests f = (x.g f.ra.toNat == 0) := if_neg h

end Sys2Proof.Machine

open Sys2Proof.Machine in
/-- Settles O32: each by its fields. -/
theorem strandReadsComplete : Obligations.StrandReadsComplete := by
  intro s t f hi
  refine ⟨fun ha hb => ?reads, fun ha hb => ?counter, fun hd hb => ?setcf, fun bad => ?badRead,
    fun bad => exec_illegal hi (exec_rdpmc s) (by simpa using bad), fun bad => exec_illegal hi (exec_setcf s) (by simpa using bad)⟩
  case reads =>
    have legal : (f.ra != 0 || f.rb != 0) = false := by rw [ha, hb]; rfl
    exact ⟨exec_readOp hi (exec_getcf s) legal rfl, exec_readOp hi (exec_rdtime s) legal rfl, exec_readOp hi (exec_rdcyc s) legal rfl,
      exec_readOp hi (exec_rdrand s) legal rfl, exec_readOp hi (exec_rdid s) legal rfl⟩
  case counter =>
    exact exec_readOp hi (exec_rdpmc s) (by rw [ha, decide_eq_false (by omega)]; rfl) rfl
  case setcf => exact exec_issued hi (exec_setcf s) (by rw [hd, hb]; rfl)
  case badRead =>
    have illegal : (f.ra != 0 || f.rb != 0) = true := by simpa using bad
    exact ⟨exec_illegal hi (exec_getcf s) illegal, exec_illegal hi (exec_rdtime s) illegal,
      exec_illegal hi (exec_rdcyc s) illegal, exec_illegal hi (exec_rdrand s) illegal,
      exec_illegal hi (exec_rdid s) illegal⟩

open Sys2Proof.Machine in
/-- Settles O38: a branch by its test, each instruction by its fields. -/
theorem branchesGo : Obligations.BranchesGo := by
  intro s t f j hi dest taken link v a
  refine ⟨fun h => exec_branch_taken hi (exec_br s) (by rw [h]; rfl) rfl,
    fun h hv => exec_bz_goes hi (by rw [Strand.tests_flag h]; exact congrArg not hv),
    fun h hv => exec_bnz_goes hi (by rw [Strand.tests_flag h]; exact congrArg not hv),
    fun h ha => exec_bz_goes hi (by rw [Strand.tests_register h]; exact beq_iff_eq.2 ha),
    fun h ha => exec_bnz_goes hi (by rw [Strand.tests_register h]; exact beq_eq_false_iff_ne.2 ha),
    fun h hn => exec_branch_taken hi (exec_bneg s) (beq_eq_false_iff_ne.2 h) ((BitVec.msb_eq_getLsbD_last _).trans hn),
    fun h hn => exec_branch_passed hi (exec_bneg s) (beq_eq_false_iff_ne.2 h) ((BitVec.msb_eq_getLsbD_last _).trans hn),
    exec_issued hi (exec_call s) rfl, fun h => exec_issued hi (exec_jr s) (by rw [h]; rfl),
    fun h => exec_illegal hi (exec_br s) (bne_iff_ne.2 h), fun h => exec_illegal hi (exec_bneg s) (beq_iff_eq.2 h),
    fun h => exec_illegal hi (exec_jr s) (bne_iff_ne.2 h)⟩
end

section
/-! Stores into the store buffer, prefetches, fences and RULESYNC (R201–R205, R211, R340). -/

namespace Sys2Proof.Machine

variable {d : Dev} {t : Nat}

/-- Retirement leaves everything of the sori but its strand. -/
theorem Dev.next_sor (d : Dev) (t : Nat) : (d.next t).sor = { d.sor with strand := (d.next t).sor.strand } := by
  obtain ⟨c, h, -⟩ := d.retire_eq t ((d.str t).pc + 4)
  rw [Dev.next, h]
  rfl

/-! ## ST -/

/-- A store for whose line the buffer has room, or whose line it holds, retires into it. -/
theorem Dev.stGo_buffers {fpa : Nat} (room : (d.sbLines (d.physOf t)).contains (fpa / 64) = true ∨ (d.sbLines (d.physOf t)).length < 16)
    (hstop : (d.str t).stop = 0) (va : Nat) (bs : List Byte) : d.stGo t fpa va bs = Dev.drainStores
      { d.next t with sor := { (d.next t).sor with
          sb := (d.next t).sor.sb ++ [⟨d.physOf t, t, fpa, bs, (d.str t).slice, (d.str t).priv, va, (d.str t).fw, d.sor.seq⟩]
          seq := d.sor.seq + 1 } }
      (d.physOf t) := by
  have takes : (!(d.sbLines (d.physOf t)).contains (fpa / 64) && decide (16 ≤ (d.sbLines (d.physOf t)).length)) = false := by
    rcases room with held | free
    · rw [held]
      rfl
    · rw [decide_eq_false (Nat.not_le.2 free), Bool.and_false]
  have seq : (d.next t).sor.seq = d.sor.seq := by rw [Dev.next_sor]
  simp only [Dev.stGo, ge_iff_le, takes, hstop, seq, bne_self_eq_false, Bool.false_eq_true, if_false]

/-! ## PREF -/

/-- A line that the L1D holds exclusively is prefetched already. -/
theorem Dev.prefGo_held {e : PrefE} (h : (d.l1 e.p (e.fpa / 64)).st = some .m ∨ (d.l1 e.p (e.fpa / 64)).st = some .e) :
    d.prefGo e = (true, d) := by
  rcases h with h | h <;> simp only [Dev.prefGo, h]

/-- What a prefetch translates is its strand's effective address: an attempt leaves the registers as they are. -/
theorem Dev.tryOwn_eaM (d : Dev) (t : Nat) (f : FM) (q : Want) :
    (d.tryOwn fun e => e.eaOf t (e.eaM t f) q) = d.leads t (d.eaM t f) q := by
  have strand : d.noNeed.str t = d.str t := rfl
  have address : d.noNeed.eaM t f = d.eaM t f := by rw [Dev.eaM, Dev.eaM, strand]
  simp only [Dev.noNeed] at address
  simp only [Dev.leads, Dev.tryOwn, address]

theorem pref_legal {f : FM} (hd : f.rd = 0) (hz : f.sz.toNat < 2) : (f.rd != 0 || decide (2 ≤ f.sz.toNat)) = false := by
  rw [hd, decide_eq_false (Nat.not_le.2 hz)]
  rfl

section Pref

variable {s : State} {t : StrandIx} {f : FM} {d : Dev} (hi : s.dev.issues t = true) (hd : f.rd = 0) (hz : f.sz.toNat < 2)
include hi hd hz

theorem exec_pref_held {fpa : Nat} (hl : s.dev.leads t (s.dev.eaM t f) (if f.sz = 1 then .w else .r) = (some (.ok fpa), d))
    (held : (d.l1 (d.physOf t) (fpa / 64)).st = some .m ∨ (d.l1 (d.physOf t) (fpa / 64)).st = some .e) :
    exec (.pref t f) s = .next (s.after (d.next t)) := by
  have had : d.prefGo ⟨d.physOf t, fpa, (d.str t).slice, (d.str t).priv, f.sz == 1⟩ = (true, d) := Dev.prefGo_held held
  rw [exec_issued hi (exec_pref s) (pref_legal hd hz)]
  simp only [beq_iff_eq, Dev.tryOwn_eaM, hl, had]

theorem exec_pref_fault {c : Nat} (hl : s.dev.leads t (s.dev.eaM t f) (if f.sz = 1 then .w else .r) = (some (.fault c), d)) :
    exec (.pref t f) s = .next (s.after ((d.prefDrop (d.physOf t)).next t)) := by
  rw [exec_issued hi (exec_pref s) (pref_legal hd hz)]
  simp only [beq_iff_eq, Dev.tryOwn_eaM, hl]

theorem exec_pref_waits (hl : s.dev.leads t (s.dev.eaM t f) (if f.sz = 1 then .w else .r) = (none, d)) :
    exec (.pref t f) s = .next (s.after (d.waitOn t (.hold 2))) := by
  rw [exec_issued hi (exec_pref s) (pref_legal hd hz)]
  simp only [beq_iff_eq, Dev.tryOwn_eaM, hl]

end Pref

/-! ## RULESYNC -/

/-- With nothing of the strand's outstanding and no request awaited, the walk goes on. -/
theorem Dev.rsyncGo_walks (hsb : d.sbOwn t = false) (marks : List Nat) (lines : Option (List Nat)) : d.rsyncGo t marks [] lines =
    (d.rsyncWalk (lines.getD (d.rsyncLines marks))).2.waitOn t
      (.rsync marks [] (some (d.rsyncWalk (lines.getD (d.rsyncLines marks))).1)) := by
  simp only [Dev.rsyncGo, hsb, List.filter_nil, List.isEmpty_nil, Bool.not_true, Bool.or_self, Bool.false_eq_true, if_false]

/-- The end of RULESYNC clears marks in registers alone. -/
theorem Dev.clearMarks_eq (left gone : List RegChg) (d : Dev) : ∃ c,
    gone.foldl (fun (d : Dev) c => if left.any (·.i == c.i) then d else d.setF (FPC.REGIONL.CHG c.i) 0) d = { d with csr := c } := by
  induction gone generalizing d with
  | nil => exact ⟨d.csr, rfl⟩
  | cons a gone ih =>
    rw [List.foldl_cons]
    split
    · exact ih d
    · obtain ⟨c, h⟩ := ih (d.setF (FPC.REGIONL.CHG a.i) 0)
      exact ⟨c, h⟩

/-- A RULESYNC whose walk is over clears the marks that it covers, and its strand goes on. -/
theorem Dev.rsyncEnd_done {marks : List Nat} (hw : (d.str t).wait = .rsync marks [] (some [])) (hsb : d.sbOwn t = false)
    (hstop : (d.str t).stop = 0) : ∃ c, d.rsyncEnd t =
      ({ d.waitOn t (.rsync marks [] (some [])) with
        csr := c, fpc := { d.fpc with chg := d.fpc.chg.filter fun c => !marks.contains c.id } } : Dev).next t := by
  have walked : d.rsyncGo t marks [] (some []) = d.waitOn t (.rsync marks [] (some [])) := Dev.rsyncGo_walks hsb marks (some [])
  have strand : (d.waitOn t (.rsync marks [] (some []))).str t = { d.str t with wait := .rsync marks [] (some []) } :=
    Dev.str_setStr_same _ _ _
  obtain ⟨c, cleared⟩ := Dev.clearMarks_eq (d.fpc.chg.filter fun c => !marks.contains c.id) (d.fpc.chg.filter fun c => marks.contains c.id)
    { d.waitOn t (.rsync marks [] (some [])) with fpc := { d.fpc with chg := d.fpc.chg.filter fun c => !marks.contains c.id } }
  refine ⟨c, (Eq.trans ?_ (congrArg (fun e : Dev => e.next t) cleared))⟩
  simp only [Dev.rsyncEnd, hw, walked, strand, hstop, bne_self_eq_false, Bool.false_eq_true, if_false]
  rfl

end Sys2Proof.Machine

open Sys2Proof.Machine in
/-- Settles O40: the walk of the address leaves the strand, so that the store that retires is the one that it issued. -/
theorem storesRetire : Obligations.StoresRetire := by
  intro s t f fpa d hi n x ha hl room hstop
  have ea_eq : d.eaM t f = s.dev.eaM t f := by unfold Dev.eaM; rw [(Dev.Looked.leads hl).str]
  rw [exec_issued hi (exec_st s) rfl, Dev.access_ok _ ha hl, Dev.stGo_buffers room hstop, ea_eq]

open Sys2Proof.Machine in
/-- Settles O43: a prefetch by what its address comes to, RULESYNC by the strand's privilege, its end by the walk that is over. -/
theorem prefetchAndFencesComplete : Obligations.PrefetchAndFencesComplete := by
  refine ⟨fun s t f fpa d hi hd hz hl held => exec_pref_held hi hd hz hl held, fun s t f c d hi hd hz hl => exec_pref_fault hi hd hz hl,
    fun s t f d hi hd hz hl => exec_pref_waits hi hd hz hl, fun s t f hi hd ha hb => ?fences, fun s t marks up hw hsb hstop => ?ends⟩
  case fences =>
    have legal : (f.rd != 0 || f.ra != 0 || f.rb != 0) = false := by rw [hd, ha, hb]; rfl
    refine ⟨fun hsb hstop => ?fence, exec_issued hi (exec_fenceR s) legal, exec_issued hi (exec_fenceW s) legal,
      fun hsb none priv => ?sync, fun slice => ?refused⟩
    case fence =>
      rw [exec_issued hi (exec_fence s) legal]
      simp only [Dev.fenceGo, hsb, hstop, bne_self_eq_false, Bool.false_eq_true, if_false]
    case sync =>
      refine exec_issued_as hi (exec_rulesync s) legal ?_
      rw [priv, none]
      exact Dev.rsyncGo_walks hsb _ Option.none
    case refused =>
      exact exec_issued_as hi (exec_rulesync s) legal (by rw [slice]; rfl)
  case ends =>
    obtain ⟨c, done⟩ := Dev.rsyncEnd_done hw hsb hstop
    have strand : (s.dev.waitOn t (.rsync marks [] (some []))).str t = { s.dev.str t with wait := .rsync marks [] (some []) } :=
      Dev.str_setStr_same _ _ _
    refine ⟨_, (exec_rulesyncComplete s).trans (State.act_of_eq ((Dev.when_of_true up).trans done)), ?_, ?_, ?_, ?_⟩
    · rw [State.after_str, Dev.next_str, if_pos rfl]
      exact congrArg (·.pc + 4) strand
    · rw [State.after_str, Dev.next_str, if_pos rfl]
    · rw [State.after_fpc, Dev.next, Dev.retire_fpc]
    · rw [State.after_pool, Dev.next, Dev.retire_pool]
      rfl
end

section
/-! Completions, event raises, waits and region changes (R216–R219, R253, R334–R339). -/

namespace Sys2Proof.Machine

variable {d : Dev} {t : Nat}

/-- With no store or update of the strand outstanding, a release is held up by nothing. -/
theorem Dev.released_free (hsb : d.sbOwn t = false) (k : Dev → Dev) : d.released t k = k d := if_neg (Bool.eq_false_iff.1 hsb)

/-! ## CQPOST (R216, R217) -/

/-- The completion of the strand's work posted with the status that it names, unless there is none or it is posted already. -/
def Dev.postOnce (d : Dev) (t : Nat) (f : FX) : Dev :=
  if (d.str t).work.slot ≠ .none ∧ (d.str t).posted = false then
    (d.sporePost t (getBits (d.gr t f.rb) 0 7) (if f.ra = 0 then List.replicate 64 0 else d.grLine t f.ra)).updStr t fun y =>
      { y with posted := true }
  else d

theorem Dev.postOnce_first {f : FX} (has : (d.str t).work.slot ≠ .none) (first : (d.str t).posted = false) : d.postOnce t f =
    (d.sporePost t (getBits (d.gr t f.rb) 0 7) (if f.ra = 0 then List.replicate 64 0 else d.grLine t f.ra)).updStr t fun y =>
      { y with posted := true } := if_pos ⟨has, first⟩

theorem Dev.postOnce_nothing {f : FX} (h : (d.str t).work.slot = .none ∨ (d.str t).posted = true) : d.postOnce t f = d :=
  if_neg fun ⟨has, first⟩ => h.elim has fun posted => Bool.false_ne_true (first.symm.trans posted)

section Cqpost

variable {f : FX} (hi : d.issues t = true)
include hi

theorem Dev.cqpost_goes (hsb : d.sbOwn t = false) (hd : f.rd = 0) (hc : f.rc = 0) (ha : f.ra = 0 ∨ f.ra = 8 ∨ f.ra = 16 ∨ f.ra = 24)
    {fin : Bool} (again : (d.str t).work.slot = .none ∨ (d.str t).posted = false ∨ fin = true) :
    d.cqpost t f fin = if fin then ((d.postOnce t f).next t).freeStr t else (d.postOnce t f).next t := by
  have block : (f.ra == 0 || blockReg f.ra) = true := by
    rcases ha with h | h
    · rw [h]
      rfl
    · rw [blockReg_of h, Bool.or_true]
  have once : ((d.str t).work.slot != .none && (d.str t).posted && !fin) = false := by
    rcases again with h | h | h
    · rw [h]
      rfl
    · rw [h, Bool.and_false, Bool.false_and]
    · rw [h, Bool.not_true, Bool.and_false]
  have legal : (f.rd != 0 || f.rc != 0 || !(f.ra == 0 || blockReg f.ra) ||
      ((d.str t).work.slot != .none && (d.str t).posted && !fin)) = false := by
    rw [hd, hc, block, once]
    rfl
  simp only [Dev.cqpost, legal, d.issue_legal hi, Dev.released_free hsb, Dev.postOnce, beq_iff_eq, Bool.and_eq_true, bne_iff_ne,
    Bool.not_eq_true']

/-- Posted a second time without the strand's end, it is refused. -/
theorem Dev.cqpost_again (has : (d.str t).work.slot ≠ .none) (posted : (d.str t).posted = true) :
    d.cqpost t f false = d.strandFault t cILLEGAL 0 := by
  have illegal : (f.rd != 0 || f.rc != 0 || !(f.ra == 0 || blockReg f.ra) ||
      ((d.str t).work.slot != .none && (d.str t).posted && !false)) = true := by
    rw [bne_iff_ne.2 has, posted]
    exact Bool.or_true _
  rw [Dev.cqpost, illegal, d.issue_illegal hi]

end Cqpost

/-! ## EVRAISE (R218) -/

section Evraise

variable {n lim : Nat} (hsb : d.sbOwn t = false) (k : Dev → Dev)
include hsb

theorem Dev.evraise_in_range (h : n < lim) : d.evraise t n lim k = ((k d).updStr t fun y => y.withV true).next t := by
  simp only [Dev.evraise, Dev.released_free hsb, if_pos h, decide_eq_true h]

theorem Dev.evraise_out_of_range (h : lim ≤ n) : d.evraise t n lim k = (d.updStr t fun y => y.withV false).next t := by
  simp only [Dev.evraise, Dev.released_free hsb, if_neg (Nat.not_lt.2 h), decide_eq_false (Nat.not_lt.2 h)]

end Evraise

/-! ## WAIT.CH (R219) -/

/-- The first of rising numbers with a property is the lowest that has it. -/
theorem find?_lowest {l : List Nat} (rising : l.Pairwise (· < ·)) {p : Nat → Bool} (h : ∃ c ∈ l, p c = true) :
    ∃ c ∈ l, p c = true ∧ (∀ c' ∈ l, p c' = true → c ≤ c') ∧ l.find? p = some c := by
  induction l with
  | nil => obtain ⟨c, hc, -⟩ := h; cases hc
  | cons a l ih =>
    obtain ⟨above, rest⟩ := List.pairwise_cons.1 rising
    cases ha : p a with
    | true =>
      refine ⟨a, List.mem_cons_self, ha, fun c' hc' _ => ?_, List.find?_cons_of_pos ha⟩
      rcases List.mem_cons.1 hc' with rfl | hc'
      · exact le_rfl
      · exact (above c' hc').le
    | false =>
      have later : ∀ c' ∈ a :: l, p c' = true → c' ∈ l := fun c' hc' hp => by
        rcases List.mem_cons.1 hc' with rfl | hc'
        · rw [ha] at hp
          exact absurd hp Bool.false_ne_true
        · exact hc'
      obtain ⟨c, hc, hp⟩ := h
      obtain ⟨b, hb, hpb, low, found⟩ := ih rest ⟨c, later c hc hp, hp⟩
      exact ⟨b, List.mem_cons_of_mem _ hb, hpb, fun c' hc' hp' => low c' (later c' hc' hp') hp',
        (List.find?_cons_of_neg (by rw [ha]; decide)).trans found⟩

/-- The channels that a WAIT.CH names and that are enabled. -/
def Dev.waitChans (d : Dev) (t : Nat) (f : FX) : List Nat :=
  ((onesN 64 (d.gr t f.ra).toNat).map (64 * f.rc.toNat + ·)).filter fun c => d.fb (SORUS.CHCFG.EN (sorusOf t) c)

theorem Dev.waitChans_rising (d : Dev) (t : Nat) (f : FX) : (d.waitChans t f).Pairwise (· < ·) :=
  ((List.pairwise_lt_range.filter _).map (64 * f.rc.toNat + ·) fun _ _ h => Nat.add_lt_add_left h (64 * f.rc.toNat)).filter _

theorem Dev.waitChans_zero {f : FX} (h : d.gr t f.ra = 0) : d.waitChans t f = [] := by
  rw [Dev.waitChans, h]
  rfl

theorem Dev.waitChEnd_none {cs : List Nat} (h : ∀ c ∈ cs, d.chUnread (sorusOf t) c = false) (rd : Nat) :
    d.waitChEnd t rd cs = (d.updStr t fun y => y.withV false).give t rd (BitVec.allOnes 64) := by
  have none_found : cs.find? (fun c => d.chUnread (sorusOf t) c) = none := List.find?_eq_none.2 fun c hc => Bool.eq_false_iff.1 (h c hc)
  rw [Dev.waitChEnd, none_found]

theorem Dev.waitChEnd_some {cs : List Nat} {c : Nat} (h : cs.find? (fun c => d.chUnread (sorusOf t) c) = some c) (rd : Nat) :
    d.waitChEnd t rd cs = (d.updStr t fun y => y.withV true).give t rd (w64 c) := by
  rw [Dev.waitChEnd, h]

section WaitCh

variable {s : State} {t : StrandIx} {f : FX} (hi : s.dev.issues t = true) (hc : f.rc.toNat ≤ 3)
  (own : (s.dev.str t).priv = true ∨ ∀ c ∈ s.dev.waitChans t f, s.dev.f (SORUS.CHCFG.SLICE (sorusOf t) c) = (s.dev.str t).slice)
include hi hc own

/-- A WAIT.CH on channels that its strand may name ends at once, or waits. -/
theorem exec_waitCh_legal : exec (.waitCh t f) s = .next (s.after (
    if s.dev.gr t f.ra = 0 ∨ ∃ c ∈ s.dev.waitChans t f, s.dev.chUnread (sorusOf t) c = true then
      s.dev.waitChEnd t f.rd.toNat (s.dev.waitChans t f)
    else s.dev.waitOn t (.waitCh f.rd.toNat (s.dev.waitChans t f)
      (if s.dev.gr t f.rb = 0 then 0 else s.dev.time + (s.dev.gr t f.rb).toNat)))) := by
  have mine : (!(s.dev.str t).priv && (s.dev.waitChans t f).any
      fun c => s.dev.f (SORUS.CHCFG.SLICE (sorusOf t) c) != (s.dev.str t).slice) = false := by
    rcases own with priv | same
    · rw [priv]
      rfl
    · rw [List.any_eq_false.2 fun c hc => by rw [same c hc, bne_self_eq_false]; decide, Bool.and_false]
  have limit : ((s.dev.gr t f.rb).toNat == 0) = (s.dev.gr t f.rb == 0) := by
    rw [Bool.eq_iff_iff, beq_iff_eq, beq_iff_eq]
    exact ⟨fun h => BitVec.eq_of_toNat_eq h, fun h => by rw [h]; rfl⟩
  refine exec_issued_as hi (exec_waitCh s) (decide_eq_false (Nat.not_lt.2 hc)) ((if_neg (Bool.eq_false_iff.1 mine)).trans ?_)
  simp only [limit, Bool.or_eq_true, beq_iff_eq, List.any_eq_true]
  rfl

end WaitCh

/-! ## Regions (R253, R334–R339) -/

/-- A register at another address than that of a field written reads as before. -/
theorem Dev.reg_setF_other (d : Dev) (r q : FRef) (v : Nat) (h : q.addr ≠ r.addr) : (d.setF r v).reg q = d.reg q :=
  Dev.reg_setReg_other _ _ _ _ h

section Privileged

variable {s : State} {t : StrandIx} {c : Instr} {rd : BitVec 5} {illegal : Bool} {k : Dev → Nat × Dev} (hi : s.dev.issues t = true)
  (hx : exec c s = s.act fun _ d => d.privOp t rd illegal k)
include hi hx

/-- A privileged instruction that returns a status gives the one that its rule answers; at slice privilege it raises PRIV. -/
theorem exec_privOp (hl : illegal = false) (priv : (s.dev.str t).priv = true) {v : Nat} {e : Dev} (h : k s.dev = (v, e)) :
    exec c s = .next (s.after (e.give t rd.toNat (w64 v))) := by
  rw [hx]
  refine State.act_of_eq ?_
  rw [Dev.privOp, hl, s.dev.issue_priv hi priv, h]

theorem exec_privOp_slice (slice : (s.dev.str t).priv = false) : exec c s = .next (s.after (s.dev.strandFault t cPRIV 0)) := by
  rw [hx]
  exact State.act_of_eq (Dev.issue_unprivileged hi slice _ _)

end Privileged

section Mpuset

variable {i : Nat} {w0 w1 w2 : Word}

theorem Dev.mpuset_bad (bad : d.regBad w0 w1 w2 = true) : d.mpuset i w0 w1 w2 = (3, d) := by
  rw [Dev.mpuset, bad, Bool.or_true]
  rfl

variable (hi : i < 256) (good : d.regBad w0 w1 w2 = false)
include hi good

/-- A well-formed entry is written unless it is locked or meets another. -/
theorem Dev.mpuset_good : d.mpuset i w0 w1 w2 = if d.regionLocked i then (2, d) else
    match (if w0.getLsbD 0 then d.regMeets i (regLo w0) (regHi w1) else none) with
    | some j => (1 + j * 256, (((d.setF FPC.OVL.NEW i).setF FPC.OVL.OTHER j).setF FPC.OVL.V 1).raiseSys 1 (i + j * 256))
    | none => (0, (((((d.regMark i (d.reg (FPC.REGION0.WORD0 i)) (d.reg (FPC.REGION1.WORD1 i))).setReg (FPC.REGION0.WORD0 i) w0).setReg
        (FPC.REGION1.WORD1 i) w1).setReg (FPC.REGION2.WORD2 i) w2).regMark i w0 w1).setF (FPC.REGIONL.CHG i) 1) := by
  rw [Dev.mpuset, good, decide_eq_false (by omega)]
  rfl

theorem Dev.mpuset_locked (locked : d.regionLocked i = true) : d.mpuset i w0 w1 w2 = (2, d) := by
  rw [Dev.mpuset_good hi good, if_pos locked]

variable (unlocked : d.regionLocked i = false)
include unlocked

theorem Dev.mpuset_writes (apart : w0.getLsbD 0 = false ∨ d.regMeets i (regLo w0) (regHi w1) = none) :
    ∃ e, d.mpuset i w0 w1 w2 = (0, e) ∧ e.reg (FPC.REGION0.WORD0 i) = w0 ∧ e.reg (FPC.REGION1.WORD1 i) = w1 ∧
      e.reg (FPC.REGION2.WORD2 i) = w2 ∧ e.fb (FPC.REGIONL.CHG i) = true := by
  have meets : (if w0.getLsbD 0 then d.regMeets i (regLo w0) (regHi w1) else none) = none := by
    rcases apart with h | h
    · rw [h]
      rfl
    · rw [h, ite_self]
  have at0 : (FPC.REGION0.WORD0 i).addr = 0xB81000 + i * 32 := rfl
  have at1 : (FPC.REGION1.WORD1 i).addr = 0xB81008 + i * 32 := rfl
  have at2 : (FPC.REGION2.WORD2 i).addr = 0xB81010 + i * 32 := rfl
  have atL : (FPC.REGIONL.CHG i).addr = 0xB81018 + i * 32 := rfl
  refine ⟨_, (Dev.mpuset_good hi good).trans (by rw [unlocked, meets]; rfl), ?_, ?_, ?_, ?_⟩
  · rw [Dev.reg_setF_other _ _ _ _ (by omega)]
    refine (Dev.reg_congr rfl _).trans ((Dev.reg_setReg_other _ (FPC.REGION2.WORD2 i) _ w2 (by omega)).trans
      ((Dev.reg_setReg_other _ (FPC.REGION1.WORD1 i) _ w1 (by omega)).trans (Dev.reg_setReg_same _ _ _)))
  · rw [Dev.reg_setF_other _ _ _ _ (by omega)]
    exact (Dev.reg_congr rfl _).trans ((Dev.reg_setReg_other _ (FPC.REGION2.WORD2 i) _ w2 (by omega)).trans (Dev.reg_setReg_same _ _ _))
  · rw [Dev.reg_setF_other _ _ _ _ (by omega)]
    exact (Dev.reg_congr rfl _).trans (Dev.reg_setReg_same _ _ _)
  · exact Dev.fb_setF_same _ _ _ (show 1 + 1 ≤ 64 by decide)

theorem Dev.mpuset_meets (on : w0.getLsbD 0 = true) {j : Nat} (meets : d.regMeets i (regLo w0) (regHi w1) = some j) :
    ∃ e, d.mpuset i w0 w1 w2 = (1 + j * 256, e) ∧ e.f FPC.OVL.NEW = i ∧
      e.reg (FPC.REGION0.WORD0 i) = d.reg (FPC.REGION0.WORD0 i) := by
  have at0 : (FPC.REGION0.WORD0 i).addr = 0xB81000 + i * 32 := rfl
  have apart : ∀ r : FRef, r.addr = 0xB80008 → (FPC.REGION0.WORD0 i).addr ≠ r.addr := fun r hr => by omega
  refine ⟨_, (Dev.mpuset_good hi good).trans (by rw [unlocked, on, if_pos rfl, meets]; rfl), ?_, ?_⟩
  · rw [Dev.raiseSys, Dev.f_raise_low _ _ _ (by decide), Dev.f_setF_field _ FPC.OVL.V FPC.OVL.NEW _ (by decide) rfl rfl (by decide),
      Dev.f_setF_field _ FPC.OVL.OTHER FPC.OVL.NEW _ (by decide) rfl rfl (by decide), Dev.f_setF_same _ _ _ (by decide)]
    exact Nat.mod_eq_of_lt hi
  · rw [Dev.raiseSys, Dev.reg_raise_low _ _ _ (by omega), Dev.reg_setF_other _ _ _ _ (apart _ rfl),
      Dev.reg_setF_other _ _ _ _ (apart _ rfl), Dev.reg_setF_other _ _ _ _ (apart _ rfl)]

end Mpuset

section Mpulock

variable {i : Nat} (hi : i < 256)
include hi

theorem Dev.mpulock_held (locked : d.regionLocked i = true) : d.mpulock i = (0, d) := by
  rw [Dev.mpulock, if_neg (by omega), if_pos locked]
  rfl

theorem Dev.mpulock_locks (unlocked : d.regionLocked i = false) : ∃ e, d.mpulock i = (0, e) ∧ e.regionLocked i = true ∧
    e.reg (FPC.REGION0.WORD0 i) = d.reg (FPC.REGION0.WORD0 i) := by
  have at0 : (FPC.REGION0.WORD0 i).addr = 0xB81000 + i * 32 := rfl
  have atL : (FPC.REGIONL.LOCK i).addr = 0xB81018 + i * 32 := rfl
  refine ⟨_, by rw [Dev.mpulock, if_neg (by omega), if_neg (Bool.eq_false_iff.1 unlocked)]; rfl, ?_, ?_⟩
  · exact Dev.fb_setF_same _ (FPC.REGIONL.LOCK i) 1 (show 0 + 1 ≤ 64 by decide)
  · exact Dev.reg_setF_other _ (FPC.REGIONL.LOCK i) (FPC.REGION0.WORD0 i) 1 (by omega)

end Mpulock

end Sys2Proof.Machine

open Sys2Proof.Machine in
/-- Settles O54: each instruction by its fields, its privilege and what its rule answers, the end of a wait by what is waited for. -/
theorem postsRaisesAndWaitsComplete : Obligations.PostsRaisesAndWaitsComplete := by
  refine ⟨fun s t f hi => ?instructions, fun s t up => ⟨fun n hw => ?time, fun rd cs lim hw hl => ?channels⟩⟩
  case time => exact (exec_waitExpire s).trans (State.act_of_eq ((Dev.when_of_true up).trans (by rw [hw])))
  case channels =>
    exact (exec_waitExpire s).trans (State.act_of_eq ((Dev.when_of_true up).trans (by rw [hw]; exact if_neg (by simpa using hl))))
  case instructions =>
    intro d x g flag
    refine ⟨?posts, fun hsb hd hc => ?raises, fun hd hb hc => ?times, ?waits,
      fun slice => ⟨exec_privOp_slice hi (exec_mpuset s) slice, exec_privOp_slice hi (exec_mpulock s) slice⟩, fun priv hc small => ?regions⟩
    case posts =>
      intro hsb hd hc res block
      have posts : x.work.slot = .none ∨ x.posted = false → exec (.cqpost t f) s = .next (s.after ((d.postOnce t f).next t)) := fun h =>
        (exec_cqpost s).trans (State.act_of_eq (Dev.cqpost_goes hi hsb hd hc block (fin := false) (h.imp_right .inl)))
      have ends : exec (.cqpostEnd t f) s = .next (s.after (((d.postOnce t f).next t).freeStr t)) :=
        (exec_cqpostEnd s).trans (State.act_of_eq (Dev.cqpost_goes hi hsb hd hc block (fin := true) (.inr (.inr rfl))))
      refine ⟨fun has first => ?_, fun none => ?_, fun has posted => ?_⟩
      · have once := Dev.postOnce_first (f := f) has first
        exact ⟨(posts (.inr first)).trans (by rw [once]; rfl), ends.trans (by rw [once]; rfl)⟩
      · have nothing := Dev.postOnce_nothing (f := f) (.inl none)
        exact ⟨(posts (.inl none)).trans (by rw [nothing]), ends.trans (by rw [nothing])⟩
      · exact ⟨(exec_cqpost s).trans (State.act_of_eq (Dev.cqpost_again hi has posted)),
          ends.trans (by rw [Dev.postOnce_nothing (.inr posted)])⟩
    case raises =>
      have legal : (f.rd != 0 || f.rc != 0) = false := by rw [hd, hc]; rfl
      refine ⟨fun priv => ?privileged, fun slice => exec_issued_as hi (exec_evraiseSrc s) legal (by rw [slice]; rfl), fun hb => ?vector⟩
      case privileged =>
        have passes : ¬(!x.priv) = true := by rw [priv]; decide
        exact ⟨fun h => exec_issued_as hi (exec_evraiseSrc s) legal ((if_neg passes).trans (Dev.evraise_in_range hsb _ h)),
          fun h => exec_issued_as hi (exec_evraiseSrc s) legal ((if_neg passes).trans (Dev.evraise_out_of_range hsb _ h))⟩
      case vector =>
        have legal : (f.rd != 0 || f.rb != 0 || f.rc != 0) = false := by rw [hd, hb, hc]; rfl
        exact ⟨fun h => exec_issued_as hi (exec_evraiseVec s) legal (Dev.evraise_in_range hsb _ h),
          fun h => exec_issued_as hi (exec_evraiseVec s) legal (Dev.evraise_out_of_range hsb _ h)⟩
    case times =>
      have legal : (f.rd != 0 || f.rb != 0 || f.rc != 0) = false := by rw [hd, hb, hc]; rfl
      exact ⟨fun h0 => exec_issued_as hi (exec_waitT s) legal (if_pos (beq_iff_eq.2 (congrArg BitVec.toNat h0))),
        fun h0 => exec_issued_as hi (exec_waitT s) legal (if_neg fun h => h0 (BitVec.eq_of_toNat_eq (beq_iff_eq.1 h))),
        fun past => exec_issued_as hi (exec_waitUntil s) legal (if_pos past),
        fun ahead => exec_issued_as hi (exec_waitUntil s) legal (if_neg (Nat.not_le.2 ahead))⟩
    case waits =>
      intro hc cs own
      have runs := exec_waitCh_legal hi hc own
      refine ⟨fun h0 => ?_, fun some => ?_, fun h0 none => ?_⟩
      · rw [runs, if_pos (.inl h0), Dev.waitChEnd_none]
        rw [Dev.waitChans_zero h0]
        exact fun c hc => absurd hc List.not_mem_nil
      · obtain ⟨c, member, unread, lowest, found⟩ := find?_lowest (d.waitChans_rising t f) some
        refine ⟨c, member, unread, lowest, ?_⟩
        rw [runs, if_pos (.inr some), Dev.waitChEnd_some found]
      · have waits : ¬(d.gr t f.ra = 0 ∨ ∃ c ∈ d.waitChans t f, d.chUnread (sorusOf t) c = true) := by
          rintro (h | ⟨c, hc, unread⟩)
          · exact h0 h
          · exact Bool.false_ne_true ((none c hc).symm.trans unread)
        rw [runs, if_neg waits]
        rfl
    case regions =>
      intro i w0 w1 w2 status
      have sets : ∀ {v e}, f.rb.toNat ≤ 29 → d.mpuset i w0 w1 w2 = (v, e) → exec (.mpuset t f) s = .next (status e v) := fun hb h =>
        exec_privOp hi (exec_mpuset s) (by rw [hc, decide_eq_false (Nat.not_lt.2 hb)]; rfl) priv h
      have locks : ∀ {v e}, f.rb = 0 → d.mpulock i = (v, e) → exec (.mpulock t f) s = .next (status e v) := fun hb h =>
        exec_privOp hi (exec_mpulock s) (by rw [hb, hc]; rfl) priv h
      refine ⟨fun hb bad => sets hb (Dev.mpuset_bad bad), fun hb good locked => sets hb (Dev.mpuset_locked small good locked),
        fun hb good free apart => ?_, fun hb good free on j meets => ?_, fun hb locked => locks hb (Dev.mpulock_held small locked),
        fun hb free => ?_⟩
      · obtain ⟨e, answer, written⟩ := Dev.mpuset_writes small good free apart
        exact ⟨e, sets hb answer, written⟩
      · obtain ⟨e, answer, recorded⟩ := Dev.mpuset_meets small good free on meets
        exact ⟨e, sets hb answer, recorded⟩
      · obtain ⟨e, answer, locked⟩ := Dev.mpulock_locks small free
        exact ⟨e, locks hb answer, locked⟩
end
